-- ==== Sys2Proof/Word.lean ====
section
/-! DEFINITION. The word types of the Plynion YZ-PN6464 model and their plainest arithmetic.
Air ticks are integers (R50: whole ticks from the air epoch); every register and record field is a bit vector. -/

namespace Sys2Proof

/-- One byte. -/
abbrev Byte := BitVec 8

/-- A byte string, lowest address (or first on the wire) first. -/
abbrev Bytes := List Byte

/-- A count of air ticks of 1/983.04 MHz from the air epoch (R50). -/
abbrev Tick := Int

/-- Ticks of one 10 ms frame (Table 2-1). -/
def frameTicks : Int := 9830400

/-- Ticks of one half-subframe, the 30 kHz slot (Table 2-1). -/
def halfSubframe : Int := 491520

/-- Ticks of one subframe, the 15 kHz slot (Table 2-1). -/
def subframe : Int := 983040

/-- Add one to a saturating counter. -/
def satInc {w : Nat} (x : BitVec w) : BitVec w := if x = BitVec.allOnes w then x else x + 1

/-- Add `n` to a saturating counter. -/
def satAdd {w : Nat} (x : BitVec w) (n : Nat) : BitVec w :=
  if x.toNat + n < 2 ^ w then BitVec.ofNat w (x.toNat + n) else BitVec.allOnes w

/-- A boolean as one bit. -/
def bit (b : Bool) : BitVec 1 := if b then 1 else 0

/-- The little-endian bytes of a bit vector of `n` bytes (R10). -/
def leBytes (n : Nat) (x : Nat) : Bytes :=
  match n with
  | 0 => []
  | n + 1 => BitVec.ofNat 8 x :: leBytes n (x / 256)

/-- The number that little-endian bytes hold (R10). -/
def ofLe : Bytes → Nat
  | [] => 0
  | b :: bs => b.toNat + 256 * ofLe bs

/-- The number that big-endian bytes hold (R10). -/
def ofBe (bs : Bytes) : Nat := bs.foldl (fun a b => a * 256 + b.toNat) 0

/-- Replace the element at index `i` of a list, if it has one. -/
def putAt {α : Type} : List α → Nat → α → List α
  | [], _, _ => []
  | _ :: xs, 0, y => y :: xs
  | x :: xs, n + 1, y => x :: putAt xs n y

/-- What the converter of a path takes in, given from outside: the number of the first sample, counted at Fc/2 from the last frame boundary before
it, and the I and Q of each sample in codes of 14 bits. -/
structure AdcIn where
  path  : Nat
  first : Int
  vals  : List (Int × Int)
  deriving DecidableEq, Repr

/-- An exact rational: numerator and positive denominator. The servo of chapter 12 states its equations in decimals. -/
structure Q where
  num : Int
  den : Nat
  deriving DecidableEq, Repr, Inhabited

namespace Q

/-- The rational n/d in lowest terms; a zero denominator stands for 1. -/
def make (n : Int) (d : Nat) : Q :=
  if d = 0 then ⟨n, 1⟩ else let g := Nat.gcd n.natAbs d; ⟨n / (g : Int), d / g⟩

/-- An integer as a rational. -/
def ofInt (n : Int) : Q := ⟨n, 1⟩

/-- Zero. -/
def zero : Q := ⟨0, 1⟩

/-- Sum. -/
def add (a b : Q) : Q := make (a.num * b.den + b.num * a.den) (a.den * b.den)

/-- Negation. -/
def neg (a : Q) : Q := ⟨-a.num, a.den⟩

/-- Difference. -/
def sub (a b : Q) : Q := add a (neg b)

/-- Product. -/
def mul (a b : Q) : Q := make (a.num * b.num) (a.den * b.den)

/-- Quotient; dividing by zero gives zero. -/
def div (a b : Q) : Q :=
  if b.num = 0 then zero
  else if b.num < 0 then make (-(a.num * b.den)) (a.den * b.num.natAbs) else make (a.num * b.den) (a.den * b.num.natAbs)

/-- Order. -/
def le (a b : Q) : Bool := a.num * b.den ≤ b.num * a.den

/-- Magnitude. -/
def abs (a : Q) : Q := ⟨a.num.natAbs, a.den⟩

/-- Greatest integer not above. -/
def floor (a : Q) : Int := a.num.fdiv a.den

/-- Nearest integer, halves to even (the rounding of every stage of the device, R481). -/
def round (a : Q) : Int :=
  let f := a.floor
  let r := 2 * (a.num - f * a.den)
  if r < a.den then f else if r > a.den then f + 1 else if f % 2 = 0 then f else f + 1

/-- Sum of a list. -/
def sum (l : List Q) : Q := l.foldl add zero

end Q

end Sys2Proof
end

