-- ==== Sys2Proof/Syntax.lean ====
section
/-! DEFINITION. The commands of the block: one constructor per row of the operation table, with the operands that come
from outside (what the host wrote or answers, what a partner sent, what the part measured). -/

namespace Sys2Proof

/-- Outside inputs of a host command under way: which command (ring and place in its issue order), the host data that the
device reads for it (none: a host-memory error), and whether a write of data to host memory meets an error. -/
structure Cmd where
  ring    : Fin 16
  seq     : Nat
  data    : Option Bytes
  respErr : Bool
  deriving DecidableEq, Repr

/-- Failing bits that a march finds in one row of a bank: failing words and the bit positions (R529, R531). -/
structure MarchFail where
  bank  : Nat
  row   : BitVec 8
  words : Nat
  bits  : List (BitVec 9)
  deriving DecidableEq, Repr

/-- What a full synthesiser calibration measures (Table 3-4). -/
structure SynthMeas where
  vcoBand  : BitVec 4
  capCode  : BitVec 8
  loopGain : BitVec 8
  kvco     : BitVec 16
  temp     : BitVec 8
  deriving DecidableEq, Repr

/-- The commands: one constructor per row. -/
inductive Instr where
  /-- NOP (R423). Command that does nothing and completes with OK. -/
  | nop (c : Cmd)
  /-- REG_READ (R427). Command that reads one register of the register space into RESULT, applying RC to RC fields. -/
  | regRead (c : Cmd)
  /-- REG_WRITE (R427). Command that writes the masked bits of one register as a host write under R15. -/
  | regWrite (c : Cmd)
  /-- CLEAR_SAFE (R448). FAULT_CTRL operation that ends the device safe state when no fault is held, after which carriers resume. -/
  | clearSafe (c : Cmd)
  /-- CLEAR_QUEUE (R448). FAULT_CTRL operation that discards queued calibration-class faults that have never started. -/
  | clearQueue (c : Cmd)
  /-- FAULT_READ (R425). Status command that returns fault records from the FAULT_LOG region, newest first. -/
  | faultRead (c : Cmd)
  /-- MODE_SET (R33). Command that requests a mode transition at a start point after its payload and state checks. -/
  | modeSet (c : Cmd)
  /-- AIR_RELEASE (R56). Command that moves air time from RUNNING to RELEASED when the time base feeding TB3 is usable for traffic. -/
  | airRelease (c : Cmd)
  /-- PHASE_SYNC (R83). Command that creates a PHASE_SYNC event on the 32-tick grid to establish the phase epoch. -/
  | phaseSync (c : Cmd)
  /-- POWER_STATE (R397). Command that requests a power state, optionally with an air-time wake alarm. -/
  | powerState (c : Cmd)
  /-- MUTE_SET (R409). Command that places or removes a command mute on the TX or RX chains of named paths. -/
  | muteSet (c : Cmd)
  /-- SYNTH_RETUNE (R82). SYNTH_SET operation that retunes the idle synthesisers of named paddocks from a preset, or calibrates if none is usable. -/
  | synthRetune (c : Cmd)
  /-- SYNTH_HOP (R80). SYNTH_SET operation that switches named paddocks to their idle synthesiser. -/
  | synthHop (c : Cmd)
  /-- SYNTH_CALIBRATE (R82). SYNTH_SET operation that runs a full calibration of one channel on the idle synthesiser. -/
  | synthCalibrate (c : Cmd)
  /-- SYNTH_POWER_OFF (R80). SYNTH_SET operation that powers down an idle synthesiser at acceptance. -/
  | synthPowerOff (c : Cmd)
  /-- SYNTH_PIN (R80). SYNTH_SET operation that sets PINNED on a preset at acceptance. -/
  | synthPin (c : Cmd)
  /-- SYNTH_UNPIN (R80). SYNTH_SET operation that clears PINNED on a preset at acceptance. -/
  | synthUnpin (c : Cmd)
  /-- SYNTH_STATUS (R102). Status command that returns synthesiser status records and, with DETAIL, their presets. -/
  | synthStatus (c : Cmd)
  /-- PATH_SET_STATE (R96). PATH_SET operation that creates PATH_STATE events moving named paths to a target state. -/
  | pathSetState (c : Cmd)
  /-- PATH_SET_RETURN (R96). PATH_SET operation that sets the automatic return states RET_TX and RET_RX through a CONFIG event. -/
  | pathSetReturn (c : Cmd)
  /-- PATH_SET_LEVELS (R71). PATH_SET operation that sets RX gain and TX attenuation through a CONFIG event. -/
  | pathSetLevels (c : Cmd)
  /-- PATH_STATUS (R102). Status command that returns path status records, with detail bytes on request. -/
  | pathStatus (c : Cmd)
  /-- FC_SET (R112). Command that changes the converter clock Fc by stop-switch-restart with a 2.5 ms blank. -/
  | fcSet (c : Cmd)
  /-- RS_COEF_LOAD (R123). Command that replaces or restores the resampler coefficient set of named paddocks. -/
  | rsCoefLoad (c : Cmd)
  /-- CONV_STATUS (R129). Status command that returns converter saturation counters per path. -/
  | convStatus (c : Cmd)
  /-- DELAY_REPORT (R133). Status command that returns the group delays of each configured carrier. -/
  | delayReport (c : Cmd)
  /-- CARRIER_CONFIGURE (R136). CARRIER_SET operation that creates or updates a carrier through a CONFIG event at the boundary of Table R136. -/
  | carrierConfigure (c : Cmd)
  /-- CARRIER_REMOVE (R136). CARRIER_SET operation that removes a carrier at the next frame boundary and discards its state. -/
  | carrierRemove (c : Cmd)
  /-- BEAM_LOAD (R154). Command that fetches beam-table entries into a staging copy for a later switch. -/
  | beamLoad (c : Cmd)
  /-- CARRIER_STATUS (R160). Status command that returns per-carrier counters and configuration flags. -/
  | carrierStatus (c : Cmd)
  /-- WEIGHT_SET (R174). Command that configures a carrier's sounding and weight behaviour through a CONFIG event. -/
  | weightSet (c : Cmd)
  /-- WEIGHT_HINT (R180). Timed command that delivers a schedule hint for a carrier's siding. -/
  | weightHint (c : Cmd)
  /-- BOOK_READ (R169). Status command that returns channel-book headers and, with DUMP, entry samples. -/
  | bookRead (c : Cmd)
  /-- WEIGHT_STATUS (R189). Status command that returns per-carrier sounding and weight counters. -/
  | weightStatus (c : Cmd)
  /-- BURST_CFG (R201). Command that sets the device-wide burst parameters. -/
  | burstCfg (c : Cmd)
  /-- BURST_TX (R198). Timed command that creates a BURST_TX event sending one calibration burst from one path. -/
  | burstTx (c : Cmd)
  /-- BURST_RX (R202). Timed command that creates a BURST_RX event opening one burst search window. -/
  | burstRx (c : Cmd)
  /-- BURST_MEAS (R210). Status command that returns the per-path records of a held burst measurement set. -/
  | burstMeas (c : Cmd)
  /-- BURST_STATUS (R211). Status command that returns the burst receiver counters and lane states. -/
  | burstStatus (c : Cmd)
  /-- QUALITY_STATUS (R215). Status command that returns noise floors and TX EVM per path. -/
  | qualityStatus (c : Cmd)
  /-- CFR_SET (R217). Command that sets crest-factor reduction for a band through a CONFIG event. -/
  | cfrSet (c : Cmd)
  /-- DPD_SET (R247). Command that sets the device-wide DPD fields from each paddock's next capture decision. -/
  | dpdSet (c : Cmd)
  /-- DPD_FREEZE (R248). DPD_CTRL operation that stops captures of named paths and keeps their sets. -/
  | dpdFreeze (c : Cmd)
  /-- DPD_RESUME (R248). DPD_CTRL operation that undoes FREEZE on named paths. -/
  | dpdResume (c : Cmd)
  /-- DPD_RESET (R248). DPD_CTRL operation that puts named paths into cold start. -/
  | dpdReset (c : Cmd)
  /-- DPD_ERASE (R248). DPD_CTRL operation that erases the stored temperature sets of named paths. -/
  | dpdErase (c : Cmd)
  /-- DPD_READ_ACTIVE (R248). DPD_CTRL operation that writes the set in force of each named path to host memory. -/
  | dpdReadActive (c : Cmd)
  /-- DPD_READ_STORED (R248). DPD_CTRL operation that writes the stored sets of one band key for named paths. -/
  | dpdReadStored (c : Cmd)
  /-- DPD_ADJ_LOAD (R228). Command that replaces the DPD adjacency table in CALIBRATE. -/
  | dpdAdjLoad (c : Cmd)
  /-- DPD_STATUS (R249). Status command that returns DPD state and counters per path. -/
  | dpdStatus (c : Cmd)
  /-- CAL_RUN (R257). Command that runs foreground calibrations on named paths, lending paths in traffic if asked. -/
  | calRun (c : Cmd)
  /-- CAL_SET (R261). Command that sets device-wide calibration fields and stores them in the CONFIG region. -/
  | calSet (c : Cmd)
  /-- CAL_STATUS (R268). Status command that returns calibration completion records. -/
  | calStatus (c : Cmd)
  /-- TACK_STATUS (R276). Status command that returns the tack-store status record. -/
  | tackStatus (c : Cmd)
  /-- FH_PORT_SET (R280). Command that configures one fronthaul port, restarting it in TRAINING when the link changes. -/
  | fhPortSet (c : Cmd)
  /-- FH_WINDOW_SET (R305). Command that sets one receive window. -/
  | fhWindowSet (c : Cmd)
  /-- FH_FLOW_SET (R307). Command that sets a carrier's uplink egress through a CONFIG event. -/
  | fhFlowSet (c : Cmd)
  /-- FH_STATUS (R312). Status command that returns port counters and state. -/
  | fhStatus (c : Cmd)
  /-- HIT_SET (R316). Command that configures the device's place in the hitch chain. -/
  | hitSet (c : Cmd)
  /-- HIT_STATUS (R336). Status command that returns the hitch status record. -/
  | hitStatus (c : Cmd)
  /-- TIME_CFG (R359). Command that configures one time domain and puts its servo in IDLE. -/
  | timeCfg (c : Cmd)
  /-- TIME_DEV_SET (R360). Command that sets device time fields, a change of DOMAIN being a manual switch. -/
  | timeDevSet (c : Cmd)
  /-- TIME_TOD_SET (R350). Command that names the seconds of the next PPS_IN edge for TB0. -/
  | timeTodSet (c : Cmd)
  /-- TIME_STATUS (R361). Status command that returns time domain status records. -/
  | timeStatus (c : Cmd)
  /-- REF_CFG (R382). Command that configures the reference PLL sources, bandwidth and revert behaviour. -/
  | refCfg (c : Cmd)
  /-- SHU_START (R462). Command that starts a Shunter program on one channel. -/
  | shuStart (c : Cmd)
  /-- SHU_STOP (R463). Command that stops the programs of named Shunter channels. -/
  | shuStop (c : Cmd)
  /-- SHU_PROG_LOAD (R464). Command that copies host data into the Shunter program area. -/
  | shuProgLoad (c : Cmd)
  /-- SHU_CAPTURE (R465). Timed command that records samples of one path into capture slots 48 to 63. -/
  | shuCapture (c : Cmd)
  /-- SHU_STATUS (R467). Status command that returns Shunter channel records. -/
  | shuStatus (c : Cmd)
  /-- SHU_FLAG (R466). Command that clears then sets Shunter flags. -/
  | shuFlag (c : Cmd)
  /-- SOLVER_LOAD (R492). Command that verifies and loads a user kernel image into a kernel slot and the tack store. -/
  | solverLoad (c : Cmd)
  /-- SOLVER_SELECT (R493). Command that selects a carrier's weight kernel through a CONFIG event. -/
  | solverSelect (c : Cmd)
  /-- SOLVER_STATUS (R496). Status command that returns solver core status records. -/
  | solverStatus (c : Cmd)
  /-- SOLVER_TEST (R494). Command that runs one weight job on SC8 with a chosen kernel and returns its output. -/
  | solverTest (c : Cmd)
  /-- HK_SEQ_SET (R501). Command that sets the scan list of one housekeeping converter. -/
  | hkSeqSet (c : Cmd)
  /-- HK_CMP_SET (R507). Command that sets one channel's window comparator and resets its persistence count. -/
  | hkCmpSet (c : Cmd)
  /-- HK_TRIGGER_SWEEP (R502). HK_TRIGGER operation that starts one sweep of a converter's scan list. -/
  | hkTriggerSweep (c : Cmd)
  /-- HK_TRIGGER_SPOT (R503). HK_TRIGGER operation that queues one spot conversion of a channel. -/
  | hkTriggerSpot (c : Cmd)
  /-- HK_TRIGGER_STOP (R517). HK_TRIGGER operation that halts the sweep after the conversion in progress. -/
  | hkTriggerStop (c : Cmd)
  /-- HK_CAL (R505). Command that requests self-calibration of named housekeeping converters. -/
  | hkCal (c : Cmd)
  /-- HK_READ (R519). Status command that returns the latest result of housekeeping channels. -/
  | hkRead (c : Cmd)
  /-- OUT_SET_VALUE (R511). OUT_SET operation that creates OUTPUT_SET events giving halter or rein outputs a new target. -/
  | outSetValue (c : Cmd)
  /-- OUT_SET_SLEW (R515). OUT_SET operation that sets the slew limiter STEP and PERIOD of named outputs. -/
  | outSetSlew (c : Cmd)
  /-- OUT_SET_GEN (R516). OUT_SET operation that starts a test waveform generator on named outputs. -/
  | outSetGen (c : Cmd)
  /-- OUT_SET_SAFE (R517). OUT_SET operation that forces named outputs to their safe value and replaces the stored value. -/
  | outSetSafe (c : Cmd)
  /-- SUP_CLEAR_TRIPS (R512). SUP_CLEAR operation that clears each named comparator trip whose latest result lies inside its window. -/
  | supClearTrips (c : Cmd)
  /-- SUP_CLEAR_COMPLIANCE (R512). SUP_CLEAR operation that clears named halter compliance flags and lets the outputs slew back. -/
  | supClearCompliance (c : Cmd)
  /-- SUP_STATUS (R520). Status command that returns halter and rein output records. -/
  | supStatus (c : Cmd)
  /-- SUP_CFG (R518). Command that maps thermistor pairs to paddocks with their coefficients. -/
  | supCfg (c : Cmd)
  /-- MARCH_RUN (R533). Command that runs a march test on a range of SRAM banks, with optional repair. -/
  | marchRun (c : Cmd)
  /-- LBIST_RUN (R536). Command that runs logic BIST on one target and compares its signature. -/
  | lbistRun (c : Cmd)
  /-- MEM_STATUS (R544). Status command that returns error and repair counters per memory. -/
  | memStatus (c : Cmd)
  /-- LEDGER_READ (R544). Status command that returns spare ledger records in ledger order. -/
  | ledgerRead (c : Cmd)
  /-- PATH_RETIRE (R541). PATH_RETIRE operation RETIRE that retires named paths at a later slot boundary. -/
  | pathRetire (c : Cmd)
  /-- PATH_RESTORE (R541). PATH_RETIRE operation RESTORE that returns retired paths to service in CALIBRATE. -/
  | pathRestore (c : Cmd)
  /-- SEC_IMAGE_LOAD (R552). Command that verifies a firmware or Farrier image and writes it to the non-booted slot. -/
  | secImageLoad (c : Cmd)
  /-- SEC_ROLLBACK_COMMIT (R557). Command that raises an anti-rollback or revocation counter. -/
  | secRollbackCommit (c : Cmd)
  /-- SEC_ATTEST (R560). Command that writes a signed attestation report for a nonce. -/
  | secAttest (c : Cmd)
  /-- SEC_ID_READ (R559). Command that writes the identity public key and certificate to host memory. -/
  | secIdRead (c : Cmd)
  /-- SEC_PROVISION (R558). Command that generates and stores the identity key pair. -/
  | secProvision (c : Cmd) (healthy : Bool)
  /-- SEC_CERT_STORE (R559). Command that stores the vendor certificate of the identity public key. -/
  | secCertStore (c : Cmd)
  /-- COMMAND_FETCH (R417). The device fetches the next command entry from a ring when a tail and completion room allow it. -/
  | commandFetch (ring : Fin 16) (entry : Option (BitVec 512)) (cplErr : Bool)
  /-- COMMAND_START (R428). A fetched command starts once every earlier fenced command of its ring has completed. -/
  | commandStart (ring : Fin 16) (seq : Nat) (payload : Option (BitVec 320))
  /-- EVENT_ENTRY_WRITE (R434). A queued event entry is written to the event ring once it has room and is enabled. -/
  | eventEntryWrite (busErr : Bool)
  /-- EVENT_COALESCE_TIMEOUT (R434). Expiry of 20 µs since the oldest unsignalled event entry sends the event vector. -/
  | eventCoalesceTimeout
  /-- RING_DRAIN_END (R418). A draining ring becomes DISABLED when OUTSTANDING reaches 0. -/
  | ringDrainEnd (ring : Fin 16)
  /-- RELEASE_FENCE_OUT (R438). A release in progress fences out the next unstarted command once completion room allows. -/
  | releaseFenceOut (ring : Fin 16)
  /-- TAIL (R417). Doorbell write giving a command ring a new tail; in NAP a doorbell can wake the device. -/
  | tail (ring : Fin 16) (value : BitVec 32)
  /-- CPL_HEAD (R417). Doorbell write releasing completion entries to the device. -/
  | cplHead (ring : Fin 16) (value : BitVec 32)
  /-- RELEASE (R438). Doorbell write that begins the release of a HELD ring. -/
  | release (ring : Fin 16) (value : BitVec 32)
  /-- EVT_HEAD (R417). Doorbell write releasing event entries to the device. -/
  | evtHead (value : BitVec 32)
  /-- SHU_DB (R457). Doorbell write that adds one to a Shunter channel's doorbell count. -/
  | shuDb (ch : Fin 16)
  /-- BAR_BAD_ACCESS (R415). A BAR access that is misaligned or hits no register reads all ones or is discarded, and is counted. -/
  | barBadAccess (bar2 : Bool) (addr : Nat) (len : Nat) (write : Bool)
  /-- REGISTER_WRITE (R15). Host write to a register that has no behaviour of its own, stored under its access code. -/
  | registerWrite (addr : BitVec 16) (value : BitVec 32)
  /-- RING_CMD_ENABLE (R417). Write of EN 1 to RING_CMD_CFG that enables a command ring and zeroes its indices. -/
  | ringCmdEnable (ring : Fin 16) (value : BitVec 32)
  /-- RING_CMD_DISABLE (R418). Write of EN 0 to RING_CMD_CFG that moves a command ring to DRAINING. -/
  | ringCmdDisable (ring : Fin 16) (value : BitVec 32)
  /-- RING_EVT_ENABLE (R417). Write of EN 1 to RING_EVT_CFG that enables the event ring and writes waiting entries. -/
  | ringEvtEnable (value : BitVec 32)
  /-- RING_EVT_DISABLE (R418). Write of EN 0 to RING_EVT_CFG that disables the event ring and discards queued entries. -/
  | ringEvtDisable (value : BitVec 32)
  /-- YM_AIR_OFFSET_WRITE (R57). Write of the air offset that re-bases air time in RUNNING and drops pending external events. -/
  | ymAirOffsetWrite (c : Cmd)
  /-- YM_PEND_HWM_READ (R15). Read of YM_PEND_HWM that returns and clears the pending high-water mark. -/
  | ymPendHwmRead (c : Cmd)
  /-- YM_LATE_COUNT_READ (R15). Read of YM_LATE_COUNT that returns and clears the drop count. -/
  | ymLateCountRead (c : Cmd)
  /-- YM_FULL_COUNT_READ (R15). Read of YM_FULL_COUNT that returns and clears the full-table count. -/
  | ymFullCountRead (c : Cmd)
  /-- TOP_STATUS_READ (R15). Read of TOP_STATUS that returns status and clears BAD_ACCESS. -/
  | topStatusRead
  /-- CLK_STATUS_READ (R383). Read of CLK_STATUS that clears TT_HUNG and SWITCHES. -/
  | clkStatusRead (c : Cmd)
  /-- CLK_GATE_TO_READ (R383). Read of CLK_GATE_TO that returns and clears the gate timeout count. -/
  | clkGateToRead (c : Cmd)
  /-- RING_EVT_STATUS_READ (R416). Read of RING_EVT_STATUS that returns and clears LOST. -/
  | ringEvtStatusRead
  /-- HK_OVERRUN_READ (R521). Read of HK_OVERRUN that returns and clears the overrun counts. -/
  | hkOverrunRead (c : Cmd)
  /-- SHU_BAD_COUNT_READ (R470). Read of SHU_BAD_COUNT that returns and clears the bad MOVE count. -/
  | shuBadCountRead (c : Cmd)
  /-- MEM_CORR_COUNT_READ (R15). Read of MEM_CORR_COUNT that returns and clears corrected errors. -/
  | memCorrCountRead (c : Cmd)
  /-- MEM_UNCORR_COUNT_READ (R15). Read of MEM_UNCORR_COUNT that returns and clears uncorrectable errors. -/
  | memUncorrCountRead (c : Cmd)
  /-- SEC_BOOT_STATUS_READ (R562). Read of SEC_BOOT_STATUS that clears FAILS. -/
  | secBootStatusRead (c : Cmd)
  /-- CLK_METER_START (R381). Write of START to CLK_METER_CTRL that begins a clock measurement. -/
  | clkMeterStart (c : Cmd)
  /-- CLK_METER_CLEAR (R15). W1C write of DONE or ERR in CLK_METER_CTRL. -/
  | clkMeterClear (c : Cmd)
  /-- CLK_METER_END (R381). The N-th gate edge loads COUNT and sets DONE, or a DEAD clock sets ERR. -/
  | clkMeterEnd (count : BitVec 48)
  /-- DP_BYP (R380). Write of CLK_OVR DP_BYP that moves DP to or from the XO by stop-switch-restart. -/
  | dpByp (c : Cmd)
  /-- CB_DIV (R383). Write of CLK_OVR CB_DIV that divides the control-bus clock. -/
  | cbDiv (c : Cmd)
  /-- PWR_WAKE_CFG_WRITE (R412). Write of the wake configuration, taking effect at the next abort point during an entry. -/
  | pwrWakeCfgWrite (value : BitVec 32)
  /-- PWR_WAKE_FAIL_CLEAR (R15). W1C write of VALID in PWR_WAKE_FAIL. -/
  | pwrWakeFailClear (value : BitVec 32)
  /-- RETRY (R406). Write of PWR_AON_CTRL RETRY that starts a new series of wake attempts and releases FAULT_N. -/
  | retry (value : BitVec 32)
  /-- FH_LANE_EQ_WRITE (R576). Write of a lane equalisation register, in effect within 1 µs. -/
  | fhLaneEqWrite (c : Cmd)
  /-- POWER_GOOD (R410). VIN rising through 2.95 V starts the cold power-up sequence. -/
  | powerGood (xoSel fitted : BitVec 2) (testEn : Bool)
  /-- BROWN_OUT (R573). VIN below 2.90 V for 1 µs blanks TX, zeroes halters and lets the rails fall. -/
  | brownOut
  /-- PERST_N_ASSERT (R570). PERST_N assertion after link-up resets the PCI Express function and every ring. -/
  | perstNAssert
  /-- PERST_N_RELEASE (R410). PERST_N release after which the PCI Express link comes up within 100 ms. -/
  | perstNRelease
  /-- PCIE_LINK_UP (R410). The PCI Express link comes up and BAR0 becomes readable. -/
  | pcieLinkUp
  /-- POWERUP_RAILS_READY (R410). Rails 0 to 7 report ready in order during cold power-up. -/
  | powerupRailsReady (ready : BitVec 8)
  /-- POWERUP_MEMORY_READY (R528). Repairs are loaded and the destroying power-up march of every bank ends. -/
  | powerupMemoryReady (fails : List MarchFail)
  /-- TACK_STORE_BOOT_READ (R275). The boot sequence reads the tack store, using second copies and marking bad records absent. -/
  | tackStoreBootRead (bad : List Nat)
  /-- BOOT_IMAGE_VERIFY (R553). The boot ROM verifies firmware, Farrier and kernel images, falling back slot or entering RECOVERY. -/
  | bootImageVerify
  /-- BRINGUP_SERVICE (R31). Cold power-up ends with the device in BRINGUP, no carrier configured, BOOT_STAGE 6. -/
  | bringupService
  /-- POWERUP_STEP_TIMEOUT (R411). A cold power-up step exceeds its timeout and the sequence restarts, holding after four failures. -/
  | powerupStepTimeout (cause : BitVec 4) (index : BitVec 8)
  /-- MODE_CHANGE_RELEASE (R33). Release of the MODE_CHANGE event: checks at the start point, then traffic stops, carriers are removed or suspended and sidings scrapped. -/
  | modeChangeRelease (ev : Nat)
  /-- MODE_TRANSITION_END (R45). The transition's retunes, restores and seedings end; the MODE_SET completes and a mode report is posted, or it fails into CALIBRATE. -/
  | modeTransitionEnd (ok others : Bool)
  /-- ARRAY_START_TIMEOUT (R38). At AT(F0 + 4, 0) a transition into ARRAY that still lacks a device, port or time lock fails. -/
  | arrayStartTimeout (others : Bool)
  /-- TRAFFIC_RESUME (R37). Surviving carriers resume traffic at the frame boundary after an outage. -/
  | trafficResume
  /-- DL_SYMBOL_RELEASE (R64). Release of a DL_SYMBOL group: preconditions checked, U-plane paired and the symbol sent. -/
  | dlSymbolRelease (ev : Nat)
  /-- UL_SYMBOL_RELEASE (R64). Release of a UL_SYMBOL group for reception and combining. -/
  | ulSymbolRelease (ev : Nat)
  /-- SOUNDING_RELEASE (R164). Release of a SOUNDING event of an occasion, abandoning the occasion if dropped. -/
  | soundingRelease (ev : Nat)
  /-- BURST_TX_RELEASE (R198). Release of a BURST_TX group that sends a calibration burst and advances SEQ. -/
  | burstTxRelease (ev : Nat)
  /-- BURST_RX_RELEASE (R202). Release of a BURST_RX event that opens a burst search window. -/
  | burstRxRelease (ev : Nat)
  /-- PATH_STATE_RELEASE (R89). Release of a PATH_STATE event that begins a path state transition. -/
  | pathStateRelease (ev : Nat)
  /-- MUTE_RELEASE (R408). Release of a MUTE event that mutes or unmutes a chain. -/
  | muteRelease (ev : Nat)
  /-- SYNTH_HOP_RELEASE (R75). Release of a SYNTH_HOP event that switches a paddock to its idle synthesiser. -/
  | synthHopRelease (ev : Nat)
  /-- SYNTH_RETUNE_RELEASE (R75). Release of a SYNTH_RETUNE event that begins a retune or calibration. -/
  | synthRetuneRelease (ev : Nat)
  /-- PHASE_SYNC_RELEASE (R85). Release of a PHASE_SYNC event that phase-resets all synthesisers to a new epoch. -/
  | phaseSyncRelease (ev : Nat)
  /-- OBS_CAPTURE_RELEASE (R230). Release of an OBS_CAPTURE event that begins an observation or RX capture. -/
  | obsCaptureRelease (ev : Nat)
  /-- HK_TRIGGER_RELEASE (R504). Release of an HK_TRIGGER event that places a timed sweep or spot sample. -/
  | hkTriggerRelease (ev : Nat)
  /-- OUTPUT_SET_RELEASE (R511). Release of an OUTPUT_SET event that starts a halter or rein output change. -/
  | outputSetRelease (ev : Nat)
  /-- PIN_EDGE_RELEASE (R356). Release of a PIN_EDGE event that drives a PPS_OUT edge at a τ3 second. -/
  | pinEdgeRelease (ev : Nat)
  /-- CAL_SLOT_RELEASE (R99). Release of a CAL_SLOT that takes a guard period for a background calibration. -/
  | calSlotRelease (ev : Nat)
  /-- CONFIG_RELEASE (R136). Release of a CONFIG event whose change takes effect at its symbol, slot or frame boundary. -/
  | configRelease (ev : Nat)
  /-- ALARM_RELEASE (R397). Release of an ALARM event that fires an air-time wake. -/
  | alarmRelease (ev : Nat)
  /-- PATH_TRANSITION_END (R89). A path state transition ends and the next chained link or accepted transition begins. -/
  | pathTransitionEnd (p : Fin 64)
  /-- AUTOMATIC_RETURN (R97). At the tick after a TX or RX run ends the path begins its return transition. -/
  | automaticReturn (p : Fin 64)
  /-- SYNTH_OPERATION_END (R75). A hop, retune or re-alignment interval ends and the synthesiser is LOCKED. -/
  | synthOperationEnd (syn : Fin 16)
  /-- SYNTH_CALIBRATION_END (R78). A full synthesiser calibration ends and its result is written to the chosen preset slot. -/
  | synthCalibrationEnd (syn : Fin 16) (m : SynthMeas)
  /-- SYNTH_LOCK_LOSS (R86). A locked synthesiser loses lock; TX is turned off, a clock fault raised and a recovery retune started. -/
  | synthLockLoss (syn : Fin 16)
  /-- CHANNEL_BOOK_PUBLISH (R170). An estimated entry is published atomically after its occasion, completing the slot's sounding when last. -/
  | channelBookPublish (occ : Nat) (raw : List AdcIn)
  /-- SIDING_READY (R181). The last group of a siding is computed and the siding becomes READY. -/
  | sidingReady (car : Fin 8) (ul : Bool)
  /-- SIDING_SLOT_END (R181). The end of a siding's target slot scraps its unclaimed groups with cause UNUSED. -/
  | sidingSlotEnd (car : Fin 8) (ul : Bool)
  /-- ON_DEMAND_PUBLISH (R185). Admitted on-demand work for a group completes and its confirmed set is published. -/
  | onDemandPublish (car : Fin 8) (ul : Bool) (slot : Tick) (grp : Nat)
  /-- WEIGHT_DEADLINE (R184). At a group's deadline unfinished work is abandoned and the group takes its fallback. -/
  | weightDeadline (car : Fin 8) (ul : Bool) (slot : Tick) (grp : Nat)
  /-- SOLVER_JOB_DISPATCH (R474). The dispatcher hands the next ready job to a core and stages it. -/
  | solverJobDispatch (core : Fin 9)
  /-- SOLVER_JOB_EXIT (R487). A job's outputs are unstaged into weight memory or sent on after END. -/
  | solverJobExit (core : Fin 9)
  /-- SOLVER_FAULT (R485). A core faults, stops both contexts, raises a solver-class fault and withdraws a faulting user kernel. -/
  | solverFault (core : Fin 9) (cause : BitVec 4)
  /-- SOLVER_WATCHDOG (R485). A foreground job not ended by its budget plus 256 cycles faults with cause WATCHDOG. -/
  | solverWatchdog (core : Fin 9)
  /-- SOLVER_CORE_RESET_END (R485). A reset core takes jobs again 20 µs later. -/
  | solverCoreResetEnd (core : Fin 9)
  /-- SOLVER_NOP (R480). Solver instruction NOP. -/
  | solverNop (core : Fin 9) (bg : Bool) (w : BitVec 32)
  /-- BR (R480). Solver instruction: conditional relative branch. -/
  | solBr (core : Fin 9) (bg : Bool) (w : BitVec 32)
  /-- CALL (R480). Solver instruction: call with link in S15. -/
  | solCall (core : Fin 9) (bg : Bool) (w : BitVec 32)
  /-- RET (R480). Solver instruction: return to S15. -/
  | solRet (core : Fin 9) (bg : Bool) (w : BitVec 32)
  /-- REPT (R480). Solver instruction: repeat the next instruction n times. -/
  | solRept (core : Fin 9) (bg : Bool) (w : BitVec 32)
  /-- END (R487). Solver instruction: end the job with status S1. -/
  | solEnd (core : Fin 9) (bg : Bool) (w : BitVec 32)
  /-- TRAP (R480). Solver instruction: fault with a code. -/
  | solTrap (core : Fin 9) (bg : Bool) (w : BitVec 32)
  /-- ADD (R480). Scalar instruction ADD. -/
  | solAdd (core : Fin 9) (bg : Bool) (w : BitVec 32)
  /-- SUB (R480). Scalar instruction SUB. -/
  | solSub (core : Fin 9) (bg : Bool) (w : BitVec 32)
  /-- AND (R480). Scalar instruction AND. -/
  | solAnd (core : Fin 9) (bg : Bool) (w : BitVec 32)
  /-- OR (R480). Scalar instruction OR. -/
  | solOr (core : Fin 9) (bg : Bool) (w : BitVec 32)
  /-- XOR (R480). Scalar instruction XOR. -/
  | solXor (core : Fin 9) (bg : Bool) (w : BitVec 32)
  /-- SHL (R480). Scalar instruction SHL. -/
  | solShl (core : Fin 9) (bg : Bool) (w : BitVec 32)
  /-- SHR (R480). Scalar instruction SHR. -/
  | solShr (core : Fin 9) (bg : Bool) (w : BitVec 32)
  /-- SRA (R480). Scalar instruction SRA. -/
  | solSra (core : Fin 9) (bg : Bool) (w : BitVec 32)
  /-- MUL (R480). Scalar instruction MUL, low 32 bits. -/
  | solMul (core : Fin 9) (bg : Bool) (w : BitVec 32)
  /-- SLT (R480). Scalar instruction SLT, signed compare. -/
  | solSlt (core : Fin 9) (bg : Bool) (w : BitVec 32)
  /-- SLTU (R480). Scalar instruction SLTU, unsigned compare. -/
  | solSltu (core : Fin 9) (bg : Bool) (w : BitVec 32)
  /-- MIN (R480). Scalar instruction MIN, signed. -/
  | solMin (core : Fin 9) (bg : Bool) (w : BitVec 32)
  /-- MAX (R480). Scalar instruction MAX, signed. -/
  | solMax (core : Fin 9) (bg : Bool) (w : BitVec 32)
  /-- MOVI (R480). Immediate instruction MOVI. -/
  | solMovi (core : Fin 9) (bg : Bool) (w : BitVec 32)
  /-- MOVHI (R480). Immediate instruction MOVHI. -/
  | solMovhi (core : Fin 9) (bg : Bool) (w : BitVec 32)
  /-- ADDI (R480). Immediate instruction ADDI. -/
  | solAddi (core : Fin 9) (bg : Bool) (w : BitVec 32)
  /-- ADDHI (R480). Immediate instruction ADDHI. -/
  | solAddhi (core : Fin 9) (bg : Bool) (w : BitVec 32)
  /-- LDW (R480). Scalar load word with address update. -/
  | solLdw (core : Fin 9) (bg : Bool) (w : BitVec 32)
  /-- STW (R480). Scalar store word with address update. -/
  | solStw (core : Fin 9) (bg : Bool) (w : BitVec 32)
  /-- MOVSX (R480). Move scalar to address register. -/
  | solMovsx (core : Fin 9) (bg : Bool) (w : BitVec 32)
  /-- MOVXS (R480). Move address register to scalar. -/
  | solMovxs (core : Fin 9) (bg : Bool) (w : BitVec 32)
  /-- SETCFG (R479). Set the addressing mode of an address register. -/
  | solSetcfg (core : Fin 9) (bg : Bool) (w : BitVec 32)
  /-- GETCFG (R480). Read the addressing mode of an address register. -/
  | solGetcfg (core : Fin 9) (bg : Bool) (w : BitVec 32)
  /-- SETMASK (R480). Set VMASK. -/
  | solSetmask (core : Fin 9) (bg : Bool) (w : BitVec 32)
  /-- GETSPR (R480). Read a special register. -/
  | solGetspr (core : Fin 9) (bg : Bool) (w : BitVec 32)
  /-- ADDX (R479). Update an address register by a byte count under its mode. -/
  | solAddx (core : Fin 9) (bg : Bool) (w : BitVec 32)
  /-- VLD (R480). Vector load of 128 bytes. -/
  | solVld (core : Fin 9) (bg : Bool) (w : BitVec 32)
  /-- VST (R480). Vector store of 128 bytes. -/
  | solVst (core : Fin 9) (bg : Bool) (w : BitVec 32)
  /-- VLDB (R480). Vector load broadcasting one word. -/
  | solVldb (core : Fin 9) (bg : Bool) (w : BitVec 32)
  /-- VSTM (R480). Masked vector store. -/
  | solVstm (core : Fin 9) (bg : Bool) (w : BitVec 32)
  /-- VMUL (R481). Vector complex multiply into an accumulator. -/
  | solVmul (core : Fin 9) (bg : Bool) (w : BitVec 32)
  /-- VMAC (R481). Vector complex multiply-accumulate. -/
  | solVmac (core : Fin 9) (bg : Bool) (w : BitVec 32)
  /-- VMULB (R481). Vector multiply with one lane of B broadcast. -/
  | solVmulb (core : Fin 9) (bg : Bool) (w : BitVec 32)
  /-- VMACB (R481). Vector multiply-accumulate with one lane of B broadcast. -/
  | solVmacb (core : Fin 9) (bg : Bool) (w : BitVec 32)
  /-- VMACS (R481). Vector multiply-accumulate by a scalar complex element. -/
  | solVmacs (core : Fin 9) (bg : Bool) (w : BitVec 32)
  /-- VMACM (R481). Vector multiply-accumulate with B from memory and address advance. -/
  | solVmacm (core : Fin 9) (bg : Bool) (w : BitVec 32)
  /-- VRND (R481). Round and saturate an accumulator into a vector register. -/
  | solVrnd (core : Fin 9) (bg : Bool) (w : BitVec 32)
  /-- VRNDS (R481). Round an accumulator with a shift from a scalar register. -/
  | solVrnds (core : Fin 9) (bg : Bool) (w : BitVec 32)
  /-- ACLR (R480). Clear an accumulator. -/
  | solAclr (core : Fin 9) (bg : Bool) (w : BitVec 32)
  /-- ASUM (R480). Sum the lanes of an accumulator into lane 0. -/
  | solAsum (core : Fin 9) (bg : Bool) (w : BitVec 32)
  /-- ALOAD (R480). Load an accumulator from a shifted vector register. -/
  | solAload (core : Fin 9) (bg : Bool) (w : BitVec 32)
  /-- SEXT (R481). Extract one rounded accumulator component to a scalar. -/
  | solSext (core : Fin 9) (bg : Bool) (w : BitVec 32)
  /-- VADD (R481). Saturating vector add. -/
  | solVadd (core : Fin 9) (bg : Bool) (w : BitVec 32)
  /-- VSUB (R481). Saturating vector subtract. -/
  | solVsub (core : Fin 9) (bg : Bool) (w : BitVec 32)
  /-- VCONJ (R481). Vector conjugate. -/
  | solVconj (core : Fin 9) (bg : Bool) (w : BitVec 32)
  /-- VNEG (R481). Vector negate. -/
  | solVneg (core : Fin 9) (bg : Bool) (w : BitVec 32)
  /-- VSEL (R480). Per-lane select under VMASK. -/
  | solVsel (core : Fin 9) (bg : Bool) (w : BitVec 32)
  /-- VPERM (R480). Vector lane permute. -/
  | solVperm (core : Fin 9) (bg : Bool) (w : BitVec 32)
  /-- VBCAST (R480). Broadcast a scalar into every lane. -/
  | solVbcast (core : Fin 9) (bg : Bool) (w : BitVec 32)
  /-- VINS (R480). Insert a scalar into one lane. -/
  | solVins (core : Fin 9) (bg : Bool) (w : BitVec 32)
  /-- VEXTL (R480). Extract one lane into a scalar. -/
  | solVextl (core : Fin 9) (bg : Bool) (w : BitVec 32)
  /-- VSHR (R480). Rounded right shift of each component. -/
  | solVshr (core : Fin 9) (bg : Bool) (w : BitVec 32)
  /-- SRSQ (R480). Reciprocal square root. -/
  | solSrsq (core : Fin 9) (bg : Bool) (w : BitVec 32)
  /-- SREC (R480). Reciprocal. -/
  | solSrec (core : Fin 9) (bg : Bool) (w : BitVec 32)
  /-- SNORM (R480). Count leading zeros. -/
  | solSnorm (core : Fin 9) (bg : Bool) (w : BitVec 32)
  /-- XFER (R480). Vendor background transfer instruction. -/
  | solXfer (core : Fin 9) (bg : Bool) (w : BitVec 32)
  /-- FOREGROUND_PREEMPT (R483). A ready foreground job stops the background context at its next instruction boundary. -/
  | foregroundPreempt (core : Fin 9)
  /-- MOVE (R455). Shunter instruction copying LEN bytes and writing back its status. -/
  | shuMove (ch : Fin 16) (words : Option (List (BitVec 64))) (src : Option Bytes) (dstErr wbErr : Bool)
  /-- LOOP (R456). Shunter instruction running its body COUNT times. -/
  | shuLoop (ch : Fin 16) (words : Option (List (BitVec 64)))
  /-- WAIT_AT_ABS (R457). Shunter WAIT until an absolute air time. -/
  | shuWaitAtAbs (ch : Fin 16) (words : Option (List (BitVec 64)))
  /-- WAIT_AT_REL (R457). Shunter WAIT for DELTA ticks after the channel's tick register. -/
  | shuWaitAtRel (ch : Fin 16) (words : Option (List (BitVec 64)))
  /-- WAIT_FLAG (R457). Shunter WAIT until a flag is 1, optionally clearing it. -/
  | shuWaitFlag (ch : Fin 16) (words : Option (List (BitVec 64)))
  /-- WAIT_DOORBELL (R457). Shunter WAIT until the channel's doorbell count is non-zero. -/
  | shuWaitDoorbell (ch : Fin 16) (words : Option (List (BitVec 64)))
  /-- WAIT_SATISFIED (R457). A waiting channel's condition holds and it continues. -/
  | waitSatisfied (ch : Fin 16)
  /-- WAIT_TIMEOUT (R457). A WAIT's TIMEOUT elapses and the program ends with NOT_READY. -/
  | waitTimeout (ch : Fin 16)
  /-- SIGNAL_EVENT (R458). Shunter SIGNAL posting a Shunter event. -/
  | signalEvent (ch : Fin 16) (words : Option (List (BitVec 64)))
  /-- SIGNAL_MSIX (R458). Shunter SIGNAL sending an MSI-X vector. -/
  | signalMsix (ch : Fin 16) (words : Option (List (BitVec 64)))
  /-- SIGNAL_SET_FLAG (R458). Shunter SIGNAL setting a flag. -/
  | signalSetFlag (ch : Fin 16) (words : Option (List (BitVec 64)))
  /-- SIGNAL_CLEAR_FLAG (R458). Shunter SIGNAL clearing a flag. -/
  | signalClearFlag (ch : Fin 16) (words : Option (List (BitVec 64)))
  /-- SHU_PROGRAM_END (R461). A Shunter program ends; the end record is written and SHU_START completes. -/
  | shuProgramEnd (ch : Fin 16) (wbErr : Bool)
  /-- SHU_CAPTURE_COMPLETE (R465). A capture ends, sets its flag and completes SHU_CAPTURE. -/
  | shuCaptureComplete (slot : Nat) (samples : List (BitVec 32))
  /-- ETH_FRAME_RECEIVE (R283). A received Ethernet frame is checked by the MAC and classified to time, eCPRI or hitch handling. -/
  | ethFrameReceive (port : Fin 8) (frame : Bytes) (corr uncorr : Nat)
  /-- C_PLANE_SECTIONS (R290). Sarfaip message of C-plane sections, each checked and presented to the Yardmaster. -/
  | cPlaneSections (port : Fin 8) (msg : Bytes)
  /-- U_PLANE_DATA (R293). Sarfaip message of compressed U-plane data for one layer and symbol. -/
  | uPlaneData (port : Fin 8) (msg : Bytes)
  /-- SCHEDULE_HINT (R296). Sarfaip schedule hint for a carrier's siding. -/
  | scheduleHint (port : Fin 8) (msg : Bytes)
  /-- SOUNDING_DIRECTIVE (R298). Sarfaip sounding directive creating sounding occasions. -/
  | soundingDirective (port : Fin 8) (msg : Bytes)
  /-- BURST_DIRECTIVE (R299). Sarfaip burst directive carrying BURST_TX and BURST_RX items. -/
  | burstDirective (port : Fin 8) (msg : Bytes)
  /-- WEIGHT_BLOCKS (R291). Sarfaip message carrying baseband weight blocks for earlier sections. -/
  | weightBlocks (port : Fin 8) (msg : Bytes)
  /-- BEAM_UPLOAD (R300). Sarfaip beam upload writing beam-table entries at a later boundary. -/
  | beamUpload (port : Fin 8) (msg : Bytes)
  /-- WAKE_MESSAGE (R301). Sarfaip wake message that can wake the device. -/
  | wakeMessage (port : Fin 8) (msg : Bytes)
  /-- DELAY_REQUEST (R302). eCPRI type-5 request answered with a response, or after a follow-up. -/
  | delayRequest (port : Fin 8) (src : BitVec 48) (msg : Bytes)
  /-- DELAY_FOLLOW_UP (R302). eCPRI type-5 follow-up that triggers the pending response. -/
  | delayFollowUp (port : Fin 8) (src : BitVec 48) (msg : Bytes)
  /-- FOLLOW_UP_TIMEOUT (R302). A follow-up not arriving within 10 ms ends the exchange. -/
  | followUpTimeout (port : Fin 8)
  /-- ORPHAN_BLOCK_TIMEOUT (R292). A held weight block whose section has not arrived by the window close is discarded. -/
  | orphanBlockTimeout (idx : Nat)
  /-- UL_EGRESS (R308). After a UL symbol the device forms and sends its uplink messages per layer and PRB run. -/
  | ulEgress (car : Fin 8) (sym : Tick) (raw : List AdcIn)
  /-- PORT_UP (R281). A port locked and fault-free for 1 ms becomes UP. -/
  | portUp (port : Fin 8) (deskew : Nat)
  /-- PORT_FAILED (R310). A port is declared FAILED; flows move to the backup and a fronthaul-link fault is raised. -/
  | portFailed (port : Fin 8) (cause : Fin 3) (lane : Fin 32)
  /-- PORT_REVERT (R311). After HOLDOFF moved flows return to the recovered port at their next symbol boundary. -/
  | portRevert (port : Fin 8)
  /-- PTP_SYNC (R345). PTP Sync received, paired with a Delay_Req exchange to form an offset for the servo. -/
  | ptpSync (port : Fin 8) (dst : BitVec 48) (msg : Bytes) (at_ : Int)
  /-- PTP_FOLLOW_UP (R345). PTP Follow_Up giving the precise origin time of a two-step Sync. -/
  | ptpFollowUp (port : Fin 8) (msg : Bytes)
  /-- PTP_DELAY_RESP (R345). PTP Delay_Resp completing a delay request-response exchange. -/
  | ptpDelayResp (port : Fin 8) (msg : Bytes)
  /-- PTP_ANNOUNCE (R343). PTP Announce feeding the alternate BMCA. -/
  | ptpAnnounce (port : Fin 8) (msg : Bytes)
  /-- ANNOUNCE_TIMEOUT (R343). Three missed Announce intervals on the parent port cause a new selection. -/
  | announceTimeout (tb : Fin 2)
  /-- DELAY_REQ_SEND (R343). The device sends Delay_Req on the parent port at 16 per second. -/
  | delayReqSend (tb : Fin 2) (at_ : Int)
  /-- PPS_IN_EDGE (R350). A PPS_IN rising edge is stamped and gives a TB0 offset. -/
  | ppsInEdge (at_ : Int)
  /-- SERVO_HOLDOVER (R347). No accepted offset for 2 s moves the servo to HOLDOVER. -/
  | servoHoldover (tb : Fin 2)
  /-- SERVO_EXPIRED (R347). HOLD_MAX elapses in HOLDOVER; the servo is EXPIRED and a time-class fault raised. -/
  | servoExpired (tb : Fin 2)
  /-- BLEED_DONE (R354). The re-base value B reaches 0 and BLEED_DONE is posted. -/
  | bleedDone
  /-- TIME_ANCHOR (R358). A time-anchor event is posted at each τ3 or TB2 second. -/
  | timeAnchor
  /-- HITCH_TIME_SEND (R321). A device sends TIME to the device below every 1 ms. -/
  | hitchTimeSend
  /-- HITCH_TIME (R321). Hitch TIME message answered with TIME_ECHO. -/
  | hitchTime (port : Fin 8) (msg : Bytes) (at_ : Int)
  /-- HITCH_TIME_ECHO (R321). Hitch TIME_ECHO giving a measured offset to the receiver's TB0 servo. -/
  | hitchTimeEcho (port : Fin 8) (msg : Bytes) (at_ : Int)
  /-- HITCH_FWD (R325). Hitch FWD message carrying Sarfaip messages from D0 to members. -/
  | hitchFwd (port : Fin 8) (msg : Bytes)
  /-- UL_PSUM (R327). Hitch partial uplink sum from the device below. -/
  | ulPsum (port : Fin 8) (msg : Bytes)
  /-- UL_PSUM_SEND (R328). At its send time a device adds its partial and sends UL_PSUM up, taking missing partials as zero. -/
  | ulPsumSend (car : Fin 8) (sym : Tick) (raw : List AdcIn)
  /-- GRAM (R331). Hitch partial Gram matrix of one group. -/
  | gram (port : Fin 8) (msg : Bytes)
  /-- SOLVE (R331). Hitch SOLVE message carrying M of one group down the chain. -/
  | solve (port : Fin 8) (msg : Bytes)
  /-- READY (R331). Hitch READY bitmap sent up the chain. -/
  | ready (port : Fin 8) (msg : Bytes)
  /-- COMMIT (R333). Hitch COMMIT telling members which weights serve each group. -/
  | commit (port : Fin 8) (msg : Bytes)
  /-- COMMIT_SEND (R333). D0 sends each group's COMMIT by its deadline minus the chain hops. -/
  | commitSend (car : Fin 8) (ul : Bool) (slot : Tick) (grp : Nat)
  /-- COMMIT_MISS (R333). A member with no COMMIT by the deadline serves the codebook fallback. -/
  | commitMiss (car : Fin 8) (ul : Bool) (slot : Tick) (grp : Nat)
  /-- SND_DONE (R330). Hitch SND_DONE reporting sounding published below. -/
  | sndDone (port : Fin 8) (msg : Bytes)
  /-- MEAS (R324). Hitch MEAS carrying a burst measurement set for inter-device alignment. -/
  | meas (port : Fin 8) (msg : Bytes)
  /-- KEEPALIVE (R319). Hitch KEEPALIVE carrying the sender's membership bitmap. -/
  | keepalive (port : Fin 8) (msg : Bytes)
  /-- KEEPALIVE_SEND (R319). A device sends KEEPALIVE on every hitch port every 100 µs. -/
  | keepaliveSend (port : Fin 8)
  /-- MEMBER_LOST (R334). A member is lost through port failure, KEEPALIVE timeout or exclusion. -/
  | memberLost (d : Fin 8)
  /-- MEMBERSHIP_CHANGE (R334). At the slot boundary after a loss D0 removes lost devices from the membership. -/
  | membershipChange
  /-- CLOCK_MONITOR_WINDOW_END (R372). A monitor window ends; the clock is judged clean, qualifies or faults. -/
  | clockMonitorWindowEnd (clk : Fin 11) (clean : Bool)
  /-- CLOCK_DEAD (R372). No edge for 4 AON cycles declares a clock DEAD. -/
  | clockDead (clk : Fin 11)
  /-- TURNTABLE_SWITCH_END (R374). A glitch-free or stop-switch-restart clock switch releases the domain on the new source. -/
  | turntableSwitchEnd
  /-- PLL_LOCKED (R368). The reference PLL reaches LOCKED after 256 windows within ±2 ns. -/
  | pllLocked
  /-- REVERT_HOLD_EXPIRY (R377). PRIMARY qualified for REVERT_HOLD triggers a turntable revert. -/
  | revertHoldExpiry
  /-- GATE_REQUEST (R379). A block's clock gate asks for bus quiet and closes at the acknowledgement. -/
  | gateRequest (block : Nat)
  /-- GATE_TIMEOUT (R379). No bus-quiet acknowledgement in 256 cycles closes the gate with errors and a clock fault. -/
  | gateTimeout (block : Nat)
  /-- RAIL_OUT (R387). A rail leaves ±5 % for 1 µs and raises a power-class fault. -/
  | railOut (rail : Fin 9)
  /-- PHASE_IMBALANCE (R387). A buck phase departs 30 % from the mean for 10 µs and is replaced by its spare. -/
  | phaseImbalance (rail : Fin 9) (phase : Fin 15)
  /-- THERMAL_MUTE (R388). A die sensor at 115 °C raises a fault and mutes every TX chain. -/
  | thermalMute (sensor : Fin 16)
  /-- THERMAL_MUTE_RELEASE (R388). Every sensor below 105 °C releases the thermal mute. -/
  | thermalMuteRelease
  /-- THERMAL_DEEP (R388). A sensor at 125 °C for 1 ms forces entry into DEEP. -/
  | thermalDeep (sensor : Fin 16)
  /-- THERMAL_RECOVERY (R389). Every sensor below 100 °C wakes from a thermal DEEP or lets a waiting wake proceed. -/
  | thermalRecovery
  /-- QUIESCE_BOUNDARY (R399). At Q traffic stops and paths and synthesisers go down (E1). -/
  | quiesceBoundary
  /-- ENTRY_GATING_END (R399). Tack-store commits and clock gating end at A2. -/
  | entryGatingEnd
  /-- TIME_KEEPER_HANDOFF (R395). Air time is handed to the time keeper at a 32-tick grid point and DP stops. -/
  | timeKeeperHandoff
  /-- ENTRY_A3 (R399). Abort point A3 one AON cycle after E3. -/
  | entryA3
  /-- ENTRY_COMPLETE (R399). E4 ends and the device is in the target state. -/
  | entryComplete (pins : BitVec 4)
  /-- WAKE_PIN (R403). An enabled WAKE pin edge or level starts a wake. -/
  | wakePin (pin : Fin 4) (edge : Bool)
  /-- WAKE_STEP_END (R404). A wake step's fixed delay ends with its resources ready and the next step begins. -/
  | wakeStepEnd
  /-- WAKE_STEP_TIMEOUT (R406). A wake step exceeds its timeout; the wake fails and is retried from DEEP. -/
  | wakeStepTimeout (cause : BitVec 4) (index : BitVec 8)
  /-- WAKE_CARRIER_RESUME (R405). Carriers resume at the frame boundary 1 ms after ACTIVE or abandonment. -/
  | wakeCarrierResume
  /-- HK_CONVERSION_END (R499). A housekeeping conversion ends and its result updates the channel record and comparator. -/
  | hkConversionEnd (conv : Fin 2) (raw : Int)
  /-- HK_TRIG_PIN (R502). A rising edge on HK_TRIG0 or HK_TRIG1 starts a sweep. -/
  | hkTrigPin (pin : Bool)
  /-- HK_SWEEP_END (R501). A sweep's last entry ends; in LOOP the next sweep starts. -/
  | hkSweepEnd (conv : Fin 2)
  /-- HK_POWER_DOWN (R499). A converter idle for more than 394 ticks powers down. -/
  | hkPowerDown (conv : Fin 2)
  /-- HK_CAL_START (R505). A converter begins self-calibration once its queue and timed triggers allow. -/
  | hkCalStart (conv : Fin 2)
  /-- HK_CAL_END (R505). A converter's self-calibration ends and GAIN and OFS are written. -/
  | hkCalEnd (conv : Fin 2) (gain ofs : BitVec 16)
  /-- COMPLIANCE (R512). A halter out of compliance for 10 µs is forced to 0 µA and its interlock opens. -/
  | compliance (hb : Fin 64)
  /-- HALTER_DWELL_END (R511). A range-change dwell ends and the new range is taken at code 0. -/
  | halterDwellEnd (hb : Fin 64)
  /-- SLEW_UPDATE (R515). At an update tick outputs move toward targets and generators advance. -/
  | slewUpdate
  /-- DPD_CAPTURE_DECISION (R229). Every CAP_PERIOD a paddock's owner chooses the next eligible path and places a capture. -/
  | dpdCaptureDecision (k : Fin 8)
  /-- DPD_CAPTURE_END (R233). A DPD capture completes, yielding G, residual, TX EVM and starting adaptation. -/
  | dpdCaptureEnd (p : Fin 64) (obs : List (Int × Int))
  /-- DPD_ADAPT_PUBLISH (R237). An adaptation result is published into the idle bank to blend. -/
  | dpdAdaptPublish (p : Fin 64)
  /-- ADAPT_TIMEOUT (R235). A result not published within 100 ms of its capture is dropped. -/
  | adaptTimeout (p : Fin 64)
  /-- BLEND_BOUNDARY (R237). At a blend-grid boundary the blend factor or cold-start attenuation ramp steps. -/
  | blendBoundary
  /-- BURST_DETECTION (R204). The detector finds a candidate and gives it to a lane or compares it for capture. -/
  | burstDetection (sample : Nat) (raw : List AdcIn)
  /-- SYNC_HYPOTHESIS_FAIL (R205). Hypothesis 12 fails and the lane abandons its candidate with FALSE_DET. -/
  | syncHypothesisFail (lane : Fin 2) (raw : List AdcIn)
  /-- SYNC_ACCEPTED (R205). A hypothesis passes the sync test and the lane enters SYNC. -/
  | syncAccepted (lane : Fin 2) (raw : List AdcIn)
  /-- SYNC_FIELD_END (R207). End of the sync field moves the lane to TRAIN. -/
  | syncFieldEnd (lane : Fin 2)
  /-- LONG_TRAINING_END (R207). End of the long training moves the lane to payload reception. -/
  | longTrainingEnd (lane : Fin 2)
  /-- PAYLOAD_END (R208). After the last payload symbol the lane enters DECODE. -/
  | payloadEnd (lane : Fin 2)
  /-- DECODER_STOP (R209). The decoder stops and a burst report and measurement set are posted. -/
  | decoderStop (lane : Fin 2) (raw : List AdcIn)
  /-- BURST_WINDOW_CLOSE (R204). The search window closes and detection stops. -/
  | burstWindowClose
  /-- NOISE_FLOOR_BLOCK (R213). After 2^NF_AVG idle symbols a noise-floor value is published. -/
  | noiseFloorBlock (p : Fin 64) (car : Fin 8) (raw : List AdcIn)
  /-- BACKGROUND_CAL_DECISION (R253). A background calibration falls due by period or temperature change and is placed. -/
  | backgroundCalDecision (id : Nat) (cls : Nat) (idx : Nat) (due : Tick)
  /-- CALIBRATION_COMPLETE (R262). A calibration completes and its result enters service, or is an outlier or failure. -/
  | calibrationComplete (id : Nat) (cls : Nat) (idx : Nat) (ok : Bool) (vals : List Int)
  /-- CAL_STEP_BOUNDARY (R262). At a grid or slot boundary a result blends or steps toward its new value. -/
  | calStepBoundary (id : Nat) (cls : Nat) (idx : Nat)
  /-- LEND_START (R259). A lent path leaves traffic at its lend start boundary. -/
  | lendStart (p : Fin 64)
  /-- LEND_REJOIN (R259). A lent path rejoins at the boundary after its calibrations end. -/
  | lendRejoin (p : Fin 64)
  /-- CAL_SET_STORE (R266). Background results are stored to a calibration set at most once per 60 s. -/
  | calSetStore
  /-- PARTIAL_RESULT_EXPIRY (R253). A partial background result older than 10 periods is discarded. -/
  | partialResultExpiry (id : Nat) (cls : Nat) (idx : Nat)
  /-- TACK_RECORD_COMMIT (R272). A tack-store sector write is verified and its map entry committed. -/
  | tackRecordCommit (verified : Bool)
  /-- BEAM_TABLE_SWITCH (R154). Staged beam entries replace the old ones together at a 983,040-tick boundary. -/
  | beamTableSwitch
  /-- FC_SET_COMPLETE (R112). The FC_SET blank and optional trim end and the command completes. -/
  | fcSetComplete
  /-- RECOVERY_START (R441). The arbiter starts the next waiting recovery in class order. -/
  | recoveryStart
  /-- RECOVERY_COMPLETE (R441). A recovery's condition holds after at least 100 ms and it completes. -/
  | recoveryComplete
  /-- D2D_UNCORR (R22). An uncorrectable die-to-die error raises a datapath-class fault. -/
  | d2dUncorr
  /-- MEM_UNCORR (R526). A read finds an uncorrectable SRAM error and its consumer takes the stated effect. -/
  | memUncorr (bank what : Nat) (row : BitVec 8) (cmd : Option (Fin 16 × Nat))
  /-- MEM_CORRECTED (R525). A single-bit error is corrected and written back, marking the row at 8 corrections. -/
  | memCorrected (bank : Nat) (row : BitVec 8)
  /-- PATROL_SCRUB (R525). The patrol reads and corrects every SRAM bank every 10 s. -/
  | patrolScrub (errs : List (Nat × BitVec 8))
  /-- MARCH_BANK_END (R531). A march ends on a bank, repairing failures or reporting MARCH_FAIL. -/
  | marchBankEnd (ring : Fin 16) (seq : Nat) (bank : Nat) (fails : List MarchFail)
  /-- LBIST_END (R536). A logic BIST run ends, its signature is compared and the target reloaded. -/
  | lbistEnd (target : Nat) (index : Nat) (sig : BitVec 128) (wrErr : Bool)
  /-- RETIREMENT_EFFECT (R541). A PATH_RETIRE takes effect at its slot boundary. -/
  | retirementEffect
  /-- ENTRY_A1 (R399). End of E1, 2,048 ticks after Q, is abort point A1, where a latched wake abandons the entry and E2 begins. -/
  | entryA1
  /-- UNTIMED_COMMAND_COMPLETE (R424). An untimed command whose effect takes time, such as host data moves, tack-store writes or image verification, completes. -/
  | untimedCommandComplete (ring : Fin 16) (seq : Nat)
  /-- HITCH_TIME_LOSS (R322). Loss of 10 consecutive hitch TIME exchanges unlocks a member's hitch time. -/
  | hitchTimeLoss (port : Fin 8)
  /-- D2D_CORRECTED_ERROR (R22). The die-to-die link corrects a transmission error and increments its error counter. -/
  | d2dCorrectedError
  /-- PPS_OUT_PULSE_END (R356). PPS_OUT falls after PPS_WIDTH from its rising edge. -/
  | ppsOutPulseEnd
  /-- TAP_TCK_EDGE (R569). A TCK edge advances the test access port for IDCODE, BYPASS or boundary-scan operations. -/
  | tapTckEdge (trstN rising tms tdi : Bool)
  /-- TRST_N_ASSERT (R577). TRST_N low holds the test access port in reset. -/
  | trstNAssert
  /-- L1_2_ENTRY (R570). The PCI Express link enters L1.2 and PCIE_CLKREQ_N is released. -/
  | l12Entry
  /-- L1_2_EXIT (R570). An exit from L1.2 begins and PCIE_CLKREQ_N is driven low again. -/
  | l12Exit
  deriving DecidableEq, Repr

end Sys2Proof
end

