-- ==== Sys2Proof/Decode.lean ====
section
/-! DEFINITION. The block has no instruction words of the table's kind: no row of the operation table gives bits. -/

namespace Sys2Proof

/-- The command that a word of the operation table spells: no row of the table gives bits, so no word spells one. -/
def decodeTableWord (_nbits _w : Nat) : Option Instr := none

end Sys2Proof
end

