-- ==== Sys2Proof/Config.lean ====
section
/-! DEFINITION. What the manual leaves open or defers to another document, as constants without a body: nothing can be
proved of their values. -/

namespace Sys2Proof.Config

/-- A free value of `w` bits: the `n`-th one taken. Stands for every undefined result (R3, R13, R16, R479). -/
opaque freeBits (w n : Nat) : BitVec w

/-- Free bytes: `len` of them, the `n`-th string taken (contents the manual calls undefined). -/
opaque freeBytes (len n : Nat) : Bytes

/-- SHA3-384 of FIPS 202 (R547), not restated by the manual. -/
opaque sha3 : Bytes → Bytes

/-- ML-DSA-65 verification of FIPS 204 (R547): public key, message, context, signature. -/
opaque mldsaVerify : Bytes → Bytes → Bytes → Bytes → Bool

/-- Hedged ML-DSA-65 signature: private key, message, context, randomness. -/
opaque mldsaSign : Bytes → Bytes → Bytes → Bytes → Bytes

/-- ML-DSA.KeyGen: seed to public and private key (R558). -/
opaque keyGen : Bytes → Bytes × Bytes

/-- The ROM's digest of vendor key KEY_ID (R548). -/
opaque romDigest : Nat → Bytes

/-- Data memory of a solver core that nothing has written since it became undefined: core, region, count, word (R476, R477). -/
opaque solRam : Nat → Bool → Nat → Nat → BitVec 32

/-- Temperature in °C at the sensors of a paddock before their first conversion (R498 gives none). -/
opaque dieTemp : Nat → Int

/-- Length of the instruction register and of the boundary register of the test access port (R569 gives neither). -/
opaque tapIrLen : Nat
opaque tapBsrLen : Nat

/-- The instruction that a code of the instruction register other than all ones selects: 0 IDCODE, 1 SAMPLE/PRELOAD, 2 EXTEST,
3 EXTEST_PULSE, 4 EXTEST_TRAIN, others BYPASS (R569 gives no codes). -/
opaque tapCode : List Bool → Nat

/-- Fractional bits of the 18-bit words of the datapath, of which the manual gives the width alone: the factors of NCOs and derotation (R116,
R128), the transforms' twiddles and gain (R138), the cancellation pulse (R220), and the envelope powers of DPD by exponent (R225). -/
opaque sinCosFrac : Nat
opaque twiddleFrac : Nat
opaque txGainFrac : Nat
opaque cfrPulseFrac : Nat
opaque powerFrac : Nat → Nat

/-- Fractional bits that the wider words keep: the 32-bit sums of the transforms (R138), the 18-bit magnitudes of CFR (R219), and the
40-bit sums of CFR and DPD (R219, R225). -/
opaque fftFrac : Nat
opaque magFrac : Nat
opaque cfrFrac : Nat
opaque dpdFrac : Nat

/-- The ROM's resampler set (R121) and the fixed 18-bit coefficients of the half-band stages and of the 2× interpolator, with 17
fractional bits as R121 gives them. -/
opaque romTaps : Nat → BitVec 18
opaque halfBand : List Int
opaque interp2 : List Int

/-- A complex quotient whose divisor is zero, and u × 10 log10 of a ratio of which a term is zero: results that the manual does not state. -/
opaque overZero : Q × Q → Q × Q
opaque logZero : Nat → Q → Q → Int

/-- The components of a weight whose column has no length (R176 does not say). -/
opaque overZeroNorm : Q × Q → Int × Int

/-- Fractional bits of the 18-bit reference factors of the sounding estimator (R165), and the phases φ of the base sequences of TS 38.211 of lengths
6 to 24, by group, length and element: exp(jπφ/4) (R161 refers to that document). -/
opaque srsFrac : Nat
opaque srsPhase : Nat → Nat → Nat → Int

/-- How an estimator forms the values of a stream between its samples, so many 64ths of a sample late, and how many samples either way it looks
for a delay (R214, R233 give neither). -/
opaque between : List (Int × Int) → Nat → List (Q × Q)
opaque delaySpan : Nat

/-- The shifts of base graph 2 of TS 38.212 for set index 0, by row and column; none where the graph joins none (R197 refers to that document). -/
opaque bg2Shift : Nat → Nat → Option Nat

/-- The channel LLR of a soft value of a combined QPSK component before it is limited to 6 bits (R207, R208 give no scale). -/
opaque llrWord : Q → Int

/-- The burst receiver's estimators and its interpolation for a skew of so many ticks, which the manual names and does not give: the frequency
offset (R203), the refinement of the arrival time and a path's delay in 2^-10 tick, its phase and its SNR (R209, R210). -/
opaque burstSkew : Nat → List (Int × Int) → Int × Int
opaque burstOffset : List (List (Int × Int)) → Int
opaque burstRefine : List (List (Int × Int)) → Int
opaque burstDelay : List (List (Int × Int)) → List (Int × Int) → Int
opaque burstPhase : List (Int × Int) → BitVec 16
opaque burstSnr : List ((Int × Int) × (Int × Int)) → BitVec 8

/-- Where the device puts what it allocates, which no rule gives: the half block of 4,096 bytes at which a set of an allocation number starts
(R149), that of a baseband section's group, and the sample slot of an entry's sample by port, SEQ and place (R169). -/
opaque blockPlace : Nat → Nat
opaque basebandPlace : Nat → Nat → Nat
opaque bookSlot : Nat → Nat → Nat → Nat

/-- Which way the CFR threshold of an exponent in tenths of a dB is rounded (R218 does not say): up where true. -/
opaque thresholdUp : Int → Bool

end Sys2Proof.Config
end

