-- ==== Sys2Proof/Machine/Numeric.lean ====
section
/-! DEFINITION. Values that the manual gives as real formulas (exponentials of phases, powers of ten, logarithms, roots), computed in
integers to a stated number of bits and rounded. -/

namespace Sys2Proof.Machine

/-- 2^n as an integer. -/
def pow2 (n : Nat) : Int := ((2 ^ n : Nat) : Int)

/-- Limit an integer to `lo` to `hi`. -/
def clampI (lo hi x : Int) : Int := if x < lo then lo else if x > hi then hi else x

/-- Quotient rounded to nearest, halves to even (R481, R499). -/
def rdiv (a : Int) (d : Nat) : Int := (Q.make a d).round

/-- x / 2^k rounded half to even. -/
def rshift (x : Int) (k : Nat) : Int :=
  let d : Int := (2 ^ k : Nat)
  let f := x / d
  let r := 2 * (x - f * d)
  if r < d then f else if d < r then f + 1 else if f % 2 = 0 then f else f + 1

/-- Limit to 16 bits; whether it saturated. -/
def sat16 (v : Int) : Int × Bool := let c := clampI (-32768) 32767 v; (c, c != v)

/-- Complex multiply. -/
def cmul (a b : Int × Int) : Int × Int := (a.1 * b.1 - a.2 * b.2, a.1 * b.2 + a.2 * b.1)

/-- Sum of complex integers. -/
def csum (l : List (Int × Int)) : Int × Int := l.foldl (fun a b => (a.1 + b.1, a.2 + b.2)) (0, 0)

/-- Round a complex sum over a power of two to 16 bits (R155, R156). -/
def cround (v : Int × Int) (sh : Nat) : (Int × Int) × Bool :=
  let i := sat16 (rdiv v.1 (2 ^ sh))
  let q := sat16 (rdiv v.2 (2 ^ sh))
  ((i.1, q.1), i.2 || q.2)

/-- Limit to `w` bits, and how many components saturated. -/
def satW (w : Nat) (x : Int) : Int × Nat :=
  let y := clampI (-(2 ^ (w - 1))) (2 ^ (w - 1) - 1) x
  (y, if y = x then 0 else 1)

/-- π/2 in units of 2^-128, its leading 129 bits. -/
def halfPi128 : Int := 0x1921FB54442D18469898CC51701B839A2

/-- Cosine and sine of x, both in units of 2^-128, by `n` terms of the exponential series from term k, whose size is t. -/
def expTerms (x : Int) : Nat → Nat → Int → Int × Int
  | 0, _, _ => (0, 0)
  | n + 1, k, t =>
    let r := expTerms x n (k + 1) (t * x / (pow2 128 * ((k : Int) + 1)))
    match k % 4 with
    | 0 => (r.1 + t, r.2)
    | 1 => (r.1, r.2 + t)
    | 2 => (r.1 - t, r.2)
    | _ => (r.1, r.2 - t)

/-- exp(j2π num/den) in units of 2^-128, to within 2^-120: the quadrant, then the series over at most a quarter turn. -/
def turnExp (num : Int) (den : Nat) : Int × Int :=
  let r := 4 * (num % (den : Int))
  let c := expTerms (halfPi128 * (r % (den : Int)) / (den : Int)) 48 0 (pow2 128)
  match (r / (den : Int)).toNat % 4 with
  | 0 => c
  | 1 => (-c.2, c.1)
  | 2 => (-c.1, -c.2)
  | _ => (c.2, -c.1)

/-- Limit to a two's-complement word of `w` bits. -/
def fitWord (w : Nat) (x : Int) : Int := if x < -pow2 (w - 1) then -pow2 (w - 1) else if pow2 (w - 1) - 1 < x then pow2 (w - 1) - 1 else x

/-- A value in units of 2^-128 as a word of `w` bits with `frac` fractional bits. -/
def toWord (w frac : Nat) (x : Int) : Int := fitWord w (rshift (x * pow2 frac) 128)

/-- exp(j2π num/den) as a complex word of `w` bits a component with `frac` fractional bits. -/
def turnWord (w frac : Nat) (num : Int) (den : Nat) : Int × Int := let c := turnExp num den; (toWord w frac c.1, toWord w frac c.2)

/-- The greatest n below 2^b that passes a test which every smaller number passes too. -/
def greatest (ok : Nat → Bool) : Nat → Nat → Nat
  | 0, n => n
  | b + 1, n => greatest ok b (if ok (n + 2 ^ b) then n + 2 ^ b else n)

/-- The greatest integer not above the square root. -/
def rootFloor (n : Nat) : Nat := greatest (fun k => decide (k * k ≤ n)) (Nat.log2 n / 2 + 1) 0

/-- num/den × 10^(e/f) rounded to the nearest integer, below 2^bits. -/
def pow10Round (num den : Nat) (e : Int) (f bits : Nat) : Nat :=
  let up := num ^ f * 10 ^ e.toNat
  let dn := den ^ f * 10 ^ (-e).toNat
  let n := greatest (fun n => decide (n ^ f * dn ≤ up)) bits 0
  if (2 * n + 1) ^ f * dn ≤ 2 ^ f * up then n + 1 else n

/-- u × 10 log10(num/den) rounded to the nearest integer, between −2^15 and 2^15; the ends stand for what lies beyond. -/
def logDb (u num den : Nat) : Int :=
  let a := num ^ (20 * u)
  let b := den ^ (20 * u)
  -- m + 1/2 ≤ 10 u log10(num/den) exactly where 10^(2m+1) den^(20u) ≤ num^(20u)
  let ok (n : Nat) : Bool :=
    let e : Int := 2 * ((n : Int) - 32768) - 1
    decide (b * 10 ^ e.toNat ≤ a * 10 ^ (-e).toNat)
  (greatest ok 16 0 : Int) - 32768

/-- The phase of a complex number in units of 1/2^b turn, rounded down; 0 for zero. -/
def phaseTurns (b : Nat) (v : Int × Int) : Nat :=
  -- the greatest n whose direction does not lie beyond v's: below half a turn the cross product tells
  let half : Bool := decide (v.2 < 0) || (decide (v.2 = 0) && decide (v.1 < 0))
  let u : Int × Int := if half then (-v.1, -v.2) else v
  let ok (n : Nat) : Bool := let c := turnExp (n : Int) (2 ^ b); decide (0 ≤ c.1 * u.2 - c.2 * u.1)
  (greatest ok (b - 1) 0) + (if half then 2 ^ (b - 1) else 0)

/-- The integer nearest to the square root. -/
def rootRound (n : Nat) : Nat := (rootFloor (4 * n) + 1) / 2

/-- |v|². -/
def power2 (v : Int × Int) : Int := v.1 * v.1 + v.2 * v.2

/-- A value with `frac` fractional bits at another number of them, rounded half to even. -/
def rescale (v : Int) (frac now : Nat) : Int := if now ≤ frac then rshift v (frac - now) else v * pow2 (now - frac)

/-- A complex value at another number of fractional bits. -/
def crescale (v : Int × Int) (frac now : Nat) : Int × Int := (rescale v.1 frac now, rescale v.2 frac now)

/-- Round a sum at a binary point by a power of two that may scale up, to 16 bits with saturation. -/
def scaleRound (v : Int × Int) (sh : Int) : (Int × Int) × Bool :=
  if sh < 0 then cround (v.1 * pow2 (-sh).toNat, v.2 * pow2 (-sh).toNat) 0 else cround v sh.toNat

/-- A two's-complement accumulator of `w` bits. -/
def accumulate (w : Nat) (x : Int) : Int := (BitVec.ofInt w x).toInt

/-- A complex sum in accumulators of `w` bits. -/
def accSum (w : Nat) (l : List (Int × Int)) : Int × Int := let v := csum l; (accumulate w v.1, accumulate w v.2)

end Sys2Proof.Machine
end

