-- ==== Sys2Proof/Machine/Ldpc.lean ====
section
/-! DEFINITION. The code of a calibration burst (R196, R197, R208): CRC, LDPC on base graph 2 with Zc 16, rate matching, interleaving, and the
layered normalised min-sum decoder. -/

namespace Sys2Proof.Machine

-- CRC (R196)

/-- Division by the generator of gCRC24A, the highest bit first (TS 38.212 clause 5.1). -/
def crc24Step (r : BitVec 24) (b : Bool) : BitVec 24 := if r.getLsbD 23 != b then (r <<< 1) ^^^ 0x864CFB else r <<< 1

/-- gCRC24A of a_0 to a_135. -/
def crc24a (x : BitVec 136) : BitVec 24 := (List.range 136).foldl (fun r i => crc24Step r (x.getLsbD (135 - i))) 0

-- Base graph 2 (R197)

/-- Bits of the parity checks of `rows` block rows: check 16r + i holds bit (i + V) mod 16 of each column that the base graph joins to row r
with shift V. -/
def parityChecks (rows : Nat) : List (List Nat) :=
  (List.range rows).flatMap fun r => (List.range 16).map fun i => (List.range 52).filterMap fun c => (Config.bg2Shift r c).map fun v => 16 * c + (i + v) % 16

/-- One unknown of parity equations: bit i of a row is the coefficient of unknown i. The first row that holds it clears it from the others. -/
def gfEliminate (st : List (Nat × Nat) × List Nat) (c : Nat) : List (Nat × Nat) × List Nat :=
  match st.2.find? fun r => r.testBit c with
  | none => st
  | some p =>
    let clear (r : Nat) : Nat := if r.testBit c then r ^^^ p else r
    ((c, p) :: st.1.map fun d => (d.1, clear d.2), (st.2.erase p).map clear)

/-- The unknowns 0 to n − 1 of parity equations, of which bit n is the right side; one that they leave free is 0. -/
def gfSolve (n : Nat) (rows : List Nat) : List Bool :=
  let d := ((List.range n).foldl gfEliminate ([], rows)).1
  (List.range n).map fun c => match d.find? fun x => x.1 == c with | some x => x.2.testBit n | none => false

/-- Set one bit of a number where a condition holds. -/
def bitIf (b : Bool) (i : Nat) : Nat := if b then 2 ^ i else 0

/-- The codeword of 832 bits of 160 information bits: the parity bits satisfy every check. -/
def codeword (info : List Bool) : List Bool :=
  let row (vs : List Nat) : Nat := vs.foldl (fun (a : Nat) v =>
    a ^^^ (if v < 160 then bitIf ((info[v]?).getD false) 672 else 2 ^ (v - 160))) 0
  info ++ gfSolve 672 ((parityChecks 42).map row)

/-- The encoder's 800 output bits: the first two block columns are punctured. -/
def ldpcEncode (info : List Bool) : List Bool := (codeword info).drop 32

/-- Rate matching (clause 5.4.2.1): E bits from bit 0 of the circular buffer of 800, which repeats. -/
def rateMatch (d : List Bool) (e : Nat) : List Bool := (List.range e).map fun i => (d[i % 800]?).getD false

/-- Bit interleaving with Qm = 2 (clause 5.4.2.2): where bit i of the output comes from. -/
def interleaved (e i : Nat) : Nat := i % 2 * (e / 2) + i / 2
def interleave (e : List Bool) : List Bool := (List.range e.length).map fun i => (e[interleaved e.length i]?).getD false

/-- The information bits of a block, a_0 first. -/
def infoBits (block : BitVec 160) : List Bool := (List.range 160).map fun i => block.getLsbD (159 - i)

/-- The coded bits of an information block (R197). -/
def codedBits (block : BitVec 160) (nsym : Nat) : List Bool := interleave (rateMatch (ldpcEncode (infoBits block)) (400 * nsym))

-- The decoder (R207, R208)

/-- The soft values that reach bit n of the encoder's output, repeated bits among them. -/
def softOf (soft : List Q) (n : Nat) : List Q :=
  let e := soft.length
  ((List.range 2).map fun i => n + 800 * i).filterMap fun j => if j < e then soft[if j < e / 2 then 2 * j else 2 * (j - e / 2) + 1]? else none

/-- The 6-bit channel LLRs of the 832 bits: 0 for punctured bits and for those that were not sent. -/
def channelLlrs (soft : List Q) : List Int :=
  List.replicate 32 0 ++ (List.range 800).map fun n => match softOf soft n with | [] => 0 | l => clampI (-32) 31 (Config.llrWord (Q.sum l))

/-- An 8-bit a-posteriori value. -/
def app8 (x : Int) : Int := clampI (-128) 127 x

/-- 0.75 of the least magnitude, rounded half to even (DEDUCED, log 80), with the sign that the parity of the others asks for. -/
def minSum (others : List Int) : Int :=
  let m := others.foldl (fun (a : Nat) x => min a x.natAbs) 128
  let r := rdiv (3 * (m : Int)) 4
  if (others.filter fun x => decide (x < 0)).length % 2 = 1 then -r else r

/-- One check: a-posteriori values of its bits less its old messages, new messages, and the values with them. -/
def checkUpdate (app : List Int) (vars : List Nat) (old : List Int) : List Int × List Int :=
  let t := List.zipWith (fun v r => app8 ((app[v]?).getD 0 - r)) vars old
  let new := (List.range t.length).map fun j => minSum (t.eraseIdx j)
  ((vars.zip (List.zipWith (fun x r => app8 (x + r)) t new)).foldl (fun (a : List Int) x => a.set x.1 x.2) app, new)

/-- One iteration over the checks in order, each with its messages. -/
def decodePass (checks : List (List Nat)) (app : List Int) (msgs : List (List Int)) : List Int × List (List Int) :=
  (checks.zip msgs).foldl (fun (a : List Int × List (List Int)) c => let r := checkUpdate a.1 c.1 c.2; (r.1, a.2 ++ [r.2])) (app, [])

/-- The hard decision of a bit. -/
def hardBit (app : List Int) (v : Nat) : Bool := decide ((app[v]?).getD 0 < 0)

/-- The hard decisions satisfy every check. -/
def checksHold (checks : List (List Nat)) (app : List Int) : Bool := checks.all fun c => (c.filter (hardBit app)).length % 2 == 0

/-- Iterations until the checks hold or `n` are done: the values and the iterations used. -/
def decodeRun (checks : List (List Nat)) : Nat → List Int → List (List Int) → List Int × Nat
  | 0, app, _ => (app, 0)
  | n + 1, app, msgs =>
    let r := decodePass checks app msgs
    if checksHold checks r.1 then (r.1, 1)
    else let q := decodeRun checks n r.1 r.2; (q.1, q.2 + 1)

/-- What the decoder gives of the soft values of a payload: the information block, iterations used, whether the CRC passes (R208). -/
structure Decoded where
  block : BitVec 160
  iters : Nat
  crcOk : Bool
  deriving DecidableEq, Repr

/-- The decoder (R208): 17 rows for one payload symbol, all 42 otherwise. -/
def burstDecode (soft : List Q) (nsym iterMax : Nat) : Decoded :=
  let checks := parityChecks (if nsym = 1 then 17 else 42)
  let r := decodeRun checks iterMax (channelLlrs soft) (checks.map fun c => c.map fun _ => 0)
  let n := (List.range 160).foldl (fun (a : Nat) v => 2 * a + (if hardBit r.1 v then 1 else 0)) 0
  let block := BitVec.ofNat 160 n
  { block := block, iters := r.2, crcOk := crc24a (block.extractLsb' 24 136) == block.extractLsb' 0 24 }

end Sys2Proof.Machine
end

