-- ==== Sys2Proof/Machine/BurstWave.lean ====
section
/-! DEFINITION. The waveform of a calibration burst (R190 to R195): what each of its fields carries, and its samples. -/

namespace Sys2Proof.Machine

/-- The fields of Table 7-1. -/
inductive BurstField where
  | short | sync | long | payload
  deriving DecidableEq, Repr

/-- Samples of a field at 30.72 MS/s (Table 7-1); one sample lasts 32 ticks (R190). -/
def BurstField.samples (nsym : Nat) : BurstField → Nat
  | .short => 1024 | .sync => 512 | .long => 576 | .payload => 288 * nsym

/-- Samples of a whole burst. -/
def burstSamples (nsym : Nat) : Nat := ([.short, .sync, .long, .payload].map (BurstField.samples nsym)).sum

/-- The field of a sample and the sample's place in it. -/
def burstField (nsym i : Nat) : Option (BurstField × Nat) :=
  if i < 1024 then some (.short, i) else if i < 1536 then some (.sync, i - 1024) else if i < 2112 then some (.long, i - 1536)
  else if i < 2112 + 288 * nsym then some (.payload, i - 2112) else none

/-- The coefficients k of a Zadoff–Chu sequence of length 2n + 1 but for that at 0, with i = k + n. -/
def zcBins (n : Nat) : List (Int × Nat) := ((List.range (2 * n + 1)).filter fun i => i != n).map fun (i : Nat) => ((i : Int) - (n : Int), i)

/-- Sample t of the short training sequence s, in units of 2^-128 (R191). -/
def shortTraining (t : Nat) : Int × Int :=
  csum ((zcBins 25).map fun k => turnExp (-448 * (k.2 * (k.2 + 1) : Nat) + 102 * k.1 * t) 6528)

/-- Sample t of the chip waveform q, in units of 2^-128 (R192). -/
def chipWave (t : Nat) : Int × Int := csum ((zcBins 6).map fun k => turnExp (-80 * (k.2 * (k.2 + 1) : Nat) + 26 * k.1 * t) 416)

/-- Chip i is sent as it is, or inverted where bit 31 − i of the sync word is 1 (R192). -/
def chipInverted (w : BitVec 32) (i : Nat) : Bool := w.getLsbD (31 - i)

/-- The sequence c of R193: nine ones, then c(m + 9) = c(m + 5) XOR c(m). -/
def trainingBits : Nat → List Bool
  | 0 => List.replicate 9 true
  | n + 1 => let l := trainingBits n; l ++ [(l[n + 5]?).getD false != (l[n]?).getD false]

/-- The subcarriers of the long training and of the data in ascending order: −100 to −1 and 1 to 100 (R193, R194). -/
def dataCarrier (i : Nat) : Int := if i < 100 then (i : Int) - 100 else (i : Int) - 99

/-- L at place m of that order (R193). -/
def longSign (m : Nat) : Int := if ((trainingBits 191)[m]?).getD false then -1 else 1

/-- Sample t of a symbol of 256 samples with values on the 200 subcarriers, in units of 2^-128: the sum of its bins (R193, R194). -/
def burstSymbol (v : Nat → Int × Int) (t : Nat) : Int × Int := csum ((List.range 200).map fun m => cmul (v m) (turnExp (dataCarrier m * t) 256))

/-- The sample of the 256-sample symbol that a sample of the long field repeats: a guard of its last 64, then the symbol twice (R193). -/
def longIndex (i : Nat) : Nat := (i + 192) % 256

/-- The payload symbol of a sample and the sample of its iDFT: a prefix of the last 32, then 256 (R194). -/
def payloadIndex (i : Nat) : Nat × Nat := (i / 288, (i % 288 + 224) % 256)

/-- The QPSK value at place i of payload symbol p, in units of 1/√2 (R194). -/
def payloadPoint (e : List Bool) (p i : Nat) : Int × Int :=
  let b (j : Nat) : Int := if (e[400 * p + 2 * i + j]?).getD false then -1 else 1
  (b 0, b 1)

/-- A sample of a burst in units of 2^-128, and the power of its field in the same scale (R191 to R194). -/
def burstValue (sync : BitVec 32) (e : List Bool) (nsym i : Nat) : (Int × Int) × Nat :=
  match burstField nsym i with
  | some (.short, j) => (shortTraining (j % 64), 50)
  | some (.sync, j) => let q := chipWave (j % 16); (if chipInverted sync (j / 16) then (-q.1, -q.2) else q, 12)
  | some (.long, j) => (burstSymbol (fun m => (longSign m, 0)) (longIndex j), 200)
  | some (.payload, j) => let x := payloadIndex j; (burstSymbol (payloadPoint e x.1) x.2, 400)
  | none => ((0, 0), 1)

/-- 2^15 × 10^(−(18 + BURST_ATT)/20) in units of 2^-64, for an attenuation in 0.25 dB (R195). -/
def burstLevel (att : Nat) : Int := (pow10Round (2 ^ 79) 1 (-(72 + (att : Int))) 80 80 : Int)

/-- The 16-bit samples of a burst: every field has the same RMS (R195), each component rounded half to even (DEDUCED, log 80). -/
def burstWords (sync : BitVec 32) (e : List Bool) (nsym att : Nat) : List (Int × Int) :=
  let a := burstLevel att
  (List.range (burstSamples nsym)).map fun i =>
    let v := burstValue sync e nsym i
    let g := a * (rootRound (2 ^ 128 / v.2) : Int)
    (clampI (-32768) 32767 (rshift (g * v.1.1) 256), clampI (-32768) 32767 (rshift (g * v.1.2) 256))

end Sys2Proof.Machine
end

