-- ==== Sys2Proof/Machine/Types.lean ====
section
/-! DEFINITION. Names shared by every block of the device: statuses, paths' and synthesisers' states, modes,
resources, outputs. -/

namespace Sys2Proof.Machine

/-- Status codes (Table 15-7). -/
inductive Status where
  | ok | late | badArg | busErr | fencedOut | notReady | modeConflict | hwFault | scrapped | authFail
  deriving DecidableEq, Repr

/-- The code of a status (Table 15-7). -/
def Status.code : Status → BitVec 8
  | .ok => 0x00 | .late => 0x01 | .badArg => 0x02 | .busErr => 0x03 | .fencedOut => 0x04
  | .notReady => 0x05 | .modeConflict => 0x06 | .hwFault => 0x07 | .scrapped => 0x08 | .authFail => 0x09

/-- R436: a command fails when it completes with any status other than OK and SCRAPPED. -/
def Status.failed (s : Status) : Bool := s != .ok && s != .scrapped

/-- A command in flight: its ring and its place in the ring's issue order, counted from the ring's enabling
(the model's own name for it: an index may be reused while an older command of that index still runs, R417). -/
structure CmdRef where
  ring : Fin 16
  seq  : Nat
  deriving DecidableEq, Repr

/-- The modes of R23 with their codes of Table 1-5. -/
inductive Mode where
  | full | reach | lean | split | dormant | array | calibrate | bringup
  deriving DecidableEq, Repr

/-- Mode codes (Table 1-5). -/
def Mode.code : Mode → BitVec 4
  | .full => 1 | .reach => 2 | .lean => 3 | .split => 4 | .dormant => 5 | .array => 6 | .calibrate => 7 | .bringup => 8

/-- The mode of a code; reserved codes have none (Table 1-5). -/
def Mode.ofCode (c : BitVec 4) : Option Mode :=
  match c.toNat with
  | 1 => some .full | 2 => some .reach | 3 => some .lean | 4 => some .split | 5 => some .dormant
  | 6 => some .array | 7 => some .calibrate | 8 => some .bringup | _ => none

/-- Analogue profiles (Table 1-4), in the code order of Table 4-11. -/
inductive Profile where
  | pw | pn | pl | pb
  deriving DecidableEq, Repr

/-- Codes of Table 4-11. -/
def Profile.code : Profile → BitVec 2
  | .pw => 0 | .pn => 1 | .pl => 2 | .pb => 3

/-- Filter bandwidth of a profile in MHz (Table 1-4). -/
def Profile.bandwidth : Profile → Nat
  | .pw => 800 | .pn => 400 | .pl => 400 | .pb => 100

/-- RX bias (Table 1-4). -/
inductive RxBias where
  | normal | lowNoise
  deriving DecidableEq, Repr

/-- RX bias of a profile (Table 1-4). -/
def Profile.rxBias : Profile → RxBias
  | .pl => .lowNoise | _ => .normal

/-- Path states (R88) in the code order of Table 3-9. -/
inductive PState where
  | off | sleep | standby | rx | tx | obs
  deriving DecidableEq, Repr

/-- Path state codes (Table 3-9). -/
def PState.code : PState → BitVec 3
  | .off => 0 | .sleep => 1 | .standby => 2 | .rx => 3 | .tx => 4 | .obs => 5

/-- Synthesiser states (Table 3-2) in the code order of Table 3-10. -/
inductive SState where
  | off | settling | calibrating | locked | unlocked | retired
  deriving DecidableEq, Repr

/-- Synthesiser state codes (Table 3-10). -/
def SState.code : SState → BitVec 3
  | .off => 0 | .settling => 1 | .calibrating => 2 | .locked => 3 | .unlocked => 4 | .retired => 5

/-- A resource as records name it: RES_CLASS and RES_INDEX of Table 2-5. -/
structure Res where
  cls : Nat
  idx : Nat
  deriving DecidableEq, Repr

/-- Internal owners of events (Table 2-5, SRC_INDEX). -/
inductive Owner where
  | farrier | dpd | supervision | phaseSync | time | modeControl | hitch
  deriving DecidableEq, Repr

/-- Owner codes (Table 2-5). -/
def Owner.code : Owner → Nat
  | .farrier => 0 | .dpd => 1 | .supervision => 2 | .phaseSync => 3 | .time => 4 | .modeControl => 5 | .hitch => 6

/-- Air-time states (R56). -/
inductive AirState where
  | noTime | running | released
  deriving DecidableEq, Repr

/-- Device power states (R390, house list of chapter 00). -/
inductive PwrState where
  | active | idle | doze | nap | deep | off
  deriving DecidableEq, Repr

/-- A completion entry (Table 15-6), its reserved bits left out. -/
structure Completion where
  tag     : BitVec 16
  status  : Status
  phase   : Bool
  ring    : Fin 16
  stamp   : BitVec 32
  result  : BitVec 32
  cmdHead : BitVec 16
  index   : BitVec 16
  deriving DecidableEq, Repr

/-- An event entry as posted (Table 15-9): type, stamp and body of LEN bytes. -/
structure EvtEntry where
  type  : BitVec 8
  stamp : BitVec 32
  body  : Bytes
  deriving DecidableEq, Repr

/-- What the device sends out. The model's own record of outputs: the newest is last. -/
inductive Out where
  /-- A completion entry written into completion-ring slot `slot`. -/
  | cpl (slot : Nat) (e : Completion)
  /-- The slot's contents became undefined after a host-memory error (R439). -/
  | cplUndefined (ring : Fin 16) (slot : Nat)
  /-- An event entry written into event-ring slot `slot` with its PHASE. -/
  | evt (slot : Nat) (phase : Bool) (e : EvtEntry)
  | evtUndefined (slot : Nat)
  /-- One MSI-X message on a vector (R433, R434, R458). -/
  | msix (vec : BitVec 5)
  /-- Data written to host memory (R432). -/
  | hostWrite (addr : BitVec 64) (data : Bytes)
  /-- A range of host memory left undefined after an error (R425). -/
  | hostUndefined (addr : BitVec 64) (len : Nat)
  /-- A register value returned to a BAR access. -/
  | barRead (value : BitVec 32)
  /-- A message sent on a fronthaul port: its kind by name and its bytes as the chapter lays them out. -/
  | fhSend (port : Nat) (name : String) (body : Bytes)
  /-- A signal placed on the air or at a ball at an air tick: name, resource index, tick. -/
  | air (name : String) (index : Nat) (due : Tick)
  /-- A calibration burst at the ball of a path (R198): its first sample's tick, symbols, attenuation, offset, information block. -/
  | burst (path : Nat) (due : Tick) (nsym : Nat) (att : BitVec 8) (off : BitVec 32) (block : BitVec 160)
  /-- A DL symbol after the precoder (R155): carrier, due tick, and per path and PRB its twelve subcarriers. -/
  | dl (carrier : Nat) (due : Tick) (balls : List (Nat × Tick)) (out : List (Nat × Nat × List (Int × Int)))
  /-- A pin driven to a level. -/
  | pin (name : String) (level : Bool)
  deriving DecidableEq, Repr

end Sys2Proof.Machine
end

