-- ==== Sys2Proof/Machine/StHost.lean ====
section
/-! DEFINITION. State of the host interface (chapter 15): command rings, event ring, MSI-X, TOP_ registers, fault arbiter. -/

namespace Sys2Proof.Machine

/-- Where a fetched command stands (R428, R437, R438). -/
inductive Stage where
  /-- Fetched, not started. -/
  | fetched
  /-- Started: its entry check is done and its effect is next. -/
  | started
  /-- Its effect is under way; another step completes it. -/
  | running
  /-- Its whole effect is done and UNTIMED_COMMAND_COMPLETE writes its completion (R424). -/
  | finishing (st : Status) (result : BitVec 32)
  deriving DecidableEq, Repr

/-- The device's own copy of a fetched entry (R417) with the payload in force (R419). -/
structure Slot where
  seq     : Nat
  index   : Nat
  entry   : BitVec 512
  payload : BitVec 320
  stage   : Stage
  /-- Host memory answers the write of this command's completion with an error (input, R439). -/
  cplErr  : Bool
  deriving DecidableEq, Repr

/-- Command ring states (Table 15-3). -/
inductive RingState where
  | disabled | running | held | draining | stopped
  deriving DecidableEq, Repr

/-- Codes of STATE (Table 15-3). -/
def RingState.code : RingState → BitVec 3
  | .disabled => 0 | .running => 1 | .held => 2 | .draining => 3 | .stopped => 4

/-- A release in progress (R438): entries of its range not yet fetched, commands fenced out so far. -/
structure Release where
  left   : Nat
  fenced : Nat
  deriving DecidableEq, Repr

/-- One command ring with its completion ring (R416 to R418, R437 to R439). -/
structure Ring where
  cmdBaseLo : BitVec 20
  cmdBaseHi : BitVec 32
  cplBaseLo : BitVec 20
  cplBaseHi : BitVec 32
  strict    : Bool
  vec       : BitVec 5
  log2      : BitVec 4
  st        : RingState
  /-- Fetch index HEAD and the tail last written. -/
  head      : Nat
  tail      : Nat
  /-- Completion write index, host's completion head, phase, completions not yet released. -/
  cplIdx    : Nat
  hostHead  : Nat
  phase     : Bool
  unread    : Nat
  nextSeq   : Nat
  /-- Commands fetched and not completed, in issue order. -/
  slots     : List Slot
  release   : Option Release
  deriving DecidableEq, Repr

/-- One item of the internal event queue (R435): an event with the tick of its posting,
or the place that EVT_OVERFLOW takes. -/
inductive QItem where
  | ev (atTick : Nat) (e : EvtEntry)
  | overflow
  deriving DecidableEq, Repr

/-- The event ring and its internal queue (R416, R434, R435, R439). -/
structure EvtRing where
  baseLo   : BitVec 20
  baseHi   : BitVec 32
  en       : Bool
  vec      : BitVec 5
  coal     : BitVec 9
  log2     : BitVec 5
  stopped  : Bool
  wrIdx    : Nat
  hostHead : Nat
  phase    : Bool
  unread   : Nat
  queue    : List QItem
  /-- Events of the current overflow run. -/
  ovf      : Nat
  lost     : BitVec 16
  /-- Entries written since the last message and the tick of the oldest of them. -/
  sinceMsg : Nat
  oldest   : Option Nat
  deriving DecidableEq, Repr

/-- One MSI-X table entry as PCI Express defines it (R415). -/
structure MsixEntry where
  addr    : BitVec 64
  data    : BitVec 32
  masked  : Bool
  pending : Bool
  deriving DecidableEq, Repr

/-- Fault classes (R440), highest priority first. -/
inductive FClass where
  | power | clock | time | link | datapath | solver | calibration | host
  deriving DecidableEq, Repr

/-- Class codes (R440). -/
def FClass.code : FClass → Nat
  | .power => 0 | .clock => 1 | .time => 2 | .link => 3 | .datapath => 4 | .solver => 5 | .calibration => 6 | .host => 7

/-- The faults of Table 15-14. -/
inductive FCode where
  | railOut | thermalMute | thermalDeep | loUnlock | refPllExit | monFault | noFallback | ttHung | gateTo
  | expired | portFailed | memberLost | d2dUncorr | memUncorr | solver | calFail | calRepeat | tackWorn
  | fetchBusErr | cplBusErr | evtBusErr | badDoorbell
  deriving DecidableEq, Repr

/-- Codes of Table 15-14. -/
def FCode.code : FCode → BitVec 8
  | .railOut => 0x01 | .thermalMute => 0x02 | .thermalDeep => 0x03 | .loUnlock => 0x10 | .refPllExit => 0x11
  | .monFault => 0x12 | .noFallback => 0x13 | .ttHung => 0x14 | .gateTo => 0x15 | .expired => 0x20
  | .portFailed => 0x30 | .memberLost => 0x31 | .d2dUncorr => 0x40 | .memUncorr => 0x41 | .solver => 0x50
  | .calFail => 0x60 | .calRepeat => 0x61 | .tackWorn => 0x62 | .fetchBusErr => 0x70 | .cplBusErr => 0x71
  | .evtBusErr => 0x72 | .badDoorbell => 0x73

/-- Class of each fault (Table 15-14). -/
def FCode.cls : FCode → FClass
  | .railOut | .thermalMute | .thermalDeep => .power
  | .loUnlock | .refPllExit | .monFault | .noFallback | .ttHung | .gateTo => .clock
  | .expired => .time
  | .portFailed | .memberLost => .link
  | .d2dUncorr | .memUncorr => .datapath
  | .solver => .solver
  | .calFail | .calRepeat | .tackWorn => .calibration
  | .fetchBusErr | .cplBusErr | .evtBusErr | .badDoorbell => .host

/-- How the arbiter holds a fault (R442). -/
inductive Hold where
  | running | queued | preempted
  deriving DecidableEq, Repr

/-- A fault held by the arbiter from its raising until its recovery completes (R442). -/
structure HeldFault where
  code    : FCode
  res     : Res
  level   : Nat
  id      : BitVec 16
  refId   : BitVec 16
  hold    : Hold
  /-- Whether its recovery has ever started. -/
  ever    : Bool
  /-- Tick at which the running recovery started. -/
  started : Nat
  /-- Tick of its raising, for the order of waiting faults. -/
  raised  : Nat
  deriving DecidableEq, Repr

/-- The fault arbiter (R440 to R446). -/
structure Arbiter where
  held    : List HeldFault
  d2dErr  : BitVec 16
  /-- A recovery has run since power-up: until then FCLASS keeps its reset value. -/
  ran     : Bool
  deriving DecidableEq, Repr

/-- The TOP_ registers' own state and the PCI Express link (R414, R415, R444, R570). -/
structure Top where
  safe      : Bool
  badAccess : BitVec 16
  linkUp    : Bool
  /-- PERST_N at its high level (not asserted). -/
  perstHigh : Bool
  /-- The link is in L1.2 (R570). -/
  l12       : Bool
  deriving DecidableEq, Repr

/-- The host interface. -/
structure HostIf where
  top       : Top
  rings     : Vector Ring 16
  evt       : EvtRing
  msix      : Vector MsixEntry 32
  arb       : Arbiter
  deriving DecidableEq, Repr

/-- A command ring after reset (R449, Table 15-3). -/
def Ring.reset : Ring :=
  { cmdBaseLo := 0, cmdBaseHi := 0, cplBaseLo := 0, cplBaseHi := 0, strict := false, vec := 0, log2 := 4
    st := .disabled, head := 0, tail := 0, cplIdx := 0, hostHead := 0, phase := true, unread := 0, nextSeq := 0
    slots := [], release := none }

/-- The event ring after reset (R449, Table 15-3). -/
def EvtRing.reset : EvtRing :=
  { baseLo := 0, baseHi := 0, en := false, vec := 0, coal := 1, log2 := 6, stopped := false, wrIdx := 0, hostHead := 0
    phase := true, unread := 0, queue := [], ovf := 0, lost := 0, sinceMsg := 0, oldest := none }

/-- An MSI-X entry after reset: masked, as PCI Express defines it. -/
def MsixEntry.reset : MsixEntry := { addr := 0, data := 0, masked := true, pending := false }

/-- The host interface after reset (R449). -/
def HostIf.reset : HostIf :=
  { top := { safe := false, badAccess := 0, linkUp := false, perstHigh := false, l12 := false }
    rings := Vector.replicate 16 Ring.reset, evt := EvtRing.reset, msix := Vector.replicate 32 MsixEntry.reset
    arb := { held := [], d2dErr := 0, ran := false } }

end Sys2Proof.Machine
end

