-- ==== Sys2Proof/Machine/StCarrier.lean ====
section
/-! DEFINITION. State of the converters (chapter 04), carriers, sections and beams (05), sounding, the channel book and
on-device weights (06). -/

namespace Sys2Proof.Machine

/-- Saturation counters of one path (Table 4-6). -/
structure ConvSat where
  adcOvr : BitVec 16
  rxNco  : BitVec 16
  rxRs   : BitVec 16
  derot  : BitVec 16
  txRs   : BitVec 16
  txComb : BitVec 16
  dacClip : BitVec 16
  deriving DecidableEq, Repr

/-- A running FC_SET (R112): its command, new FC_N, end of its blank, its own end (after the trim, if one runs), whether the converter clock has
been switched, and PERSIST. -/
structure FcRun where
  ref     : CmdRef
  fcN     : BitVec 16
  blank   : Nat
  fin     : Nat
  switched : Bool
  trim    : Bool
  persist : Bool
  deriving DecidableEq, Repr

/-- Converters and resamplers (R108 to R129). A coefficient set is `none` for the ROM set, else its 512 coefficients. -/
structure Conv where
  fcN     : BitVec 16
  run     : Option FcRun
  coef    : Vector (Option (List (BitVec 18))) 8
  /-- Set that serves from a frame boundary to come: tick of the boundary and the set. -/
  coefNext : Vector (Option (Tick × Option (List (BitVec 18)))) 8
  sat     : Vector ConvSat 64
  /-- Frame boundary from which converters, NCOs and resamplers serve after an FC_SET (R112); none once they serve. -/
  serveAt : Option Tick
  /-- Air tick up to which the received samples of a path and carrier have been counted. -/
  rxTo    : Vector (Vector Tick 8) 64
  /-- FC_N values with a stored converter mismatch trim set (R113: up to four). -/
  trims   : List (BitVec 16)
  /-- Stored boot value of FC_N (R109). -/
  bootFc  : Option (BitVec 16)
  deriving DecidableEq, Repr

/-- Carrier configuration (Table 5-1). -/
structure CarrierCfg where
  scs30    : Bool
  bw       : BitVec 7
  group    : BitVec 3
  derotOn  : Bool
  fbPrev   : Bool
  srcMask  : BitVec 3
  centre   : BitVec 32
  dlLayers : BitVec 6
  ulLayers : BitVec 5
  fbBeam   : BitVec 12
  preShift : BitVec 3
  combShift : BitVec 3
  fftAdjTx : BitVec 3
  fftAdjRx : BitVec 3
  fftAdv   : BitVec 2
  txAtt    : BitVec 8
  deriving DecidableEq, Repr

/-- Counters of CARRIER_STATUS (Table 5-8). -/
structure CarrierCount where
  fftSat : BitVec 32
  combSat : BitVec 32
  decompSat : BitVec 32
  preSat : BitVec 32
  ifftSat : BitVec 32
  srcDenied : BitVec 32
  allocFail : BitVec 32
  noSection : BitVec 16
  deriving DecidableEq, Repr

/-- Weight behaviour of a carrier (Table 6-4). -/
structure WeightCfg where
  aheadDir : BitVec 2
  onDemand : Bool
  kAhead   : BitVec 3
  smooth   : BitVec 2
  maxAge   : BitVec 8
  sigE     : BitVec 8
  sigM     : BitVec 16
  deriving DecidableEq, Repr

/-- Counters of WEIGHT_STATUS (Table 6-9). -/
structure WeightCount where
  soundings : BitVec 32
  sndRefused : BitVec 32
  bookEvict : BitVec 32
  bookFull : BitVec 32
  sidings : BitVec 32
  promoted : BitVec 32
  scrapped : BitVec 32
  reused : BitVec 32
  onDemand : BitVec 32
  lateWeights : BitVec 32
  fbPrev : BitVec 32
  fbBeam : BitVec 32
  noEstimate : BitVec 32
  solveFail : BitVec 16
  mapConflict : BitVec 16
  estSat : BitVec 16
  noSiding : BitVec 16
  deriving DecidableEq, Repr

/-- Uplink egress of a carrier's flow (R307). -/
structure FlowCfg where
  port    : BitVec 3
  ordered : Bool
  mantM1  : BitVec 4
  /-- Port that carries the flow while its own is FAILED (R310). -/
  moved   : Option (BitVec 3)
  /-- Layers whose flow has returned to its own port, while others still wait on the backup (R311). -/
  home    : BitVec 32
  deriving DecidableEq, Repr

/-- One carrier C0 to C7. -/
structure Carrier where
  cfg       : Option CarrierCfg
  suspended : Bool
  /-- Air tick from which the carrier carries traffic (R37, R405, R448); before it, messages are outside their window. -/
  serveFrom : Tick
  count     : CarrierCount
  wcfg      : WeightCfg
  wcount    : WeightCount
  recipInvalid : Bool
  /-- First-use periods of DL and UL (R188): tick from which entries count, none when no period runs. -/
  firstUseDl : Option Tick
  firstUseUl : Option Tick
  flow      : FlowCfg
  /-- Weight kernel slot of SOLVER_SELECT (R493). -/
  kernel    : BitVec 2
  /-- Ever configured since power-up (R303). -/
  seen      : Bool
  deriving DecidableEq, Repr

/-- What a section's source carries (R143): inline weights (per layer the 64 words), beams, or sounding ports, one per mapped layer. -/
inductive SecSource where
  | baseband (blocks : List (Nat × List (List (BitVec 32))))
  | codebook (beams : List (BitVec 12))
  | onDevice (ports : List (BitVec 8))
  deriving DecidableEq, Repr

/-- An accepted C-plane section (R143 to R145, R290). -/
structure Section where
  id      : Nat
  carrier : Fin 8
  ul      : Bool
  /-- Air tick at which its slot starts. -/
  slot    : Tick
  symFirst : Nat
  symNum  : Nat
  prbFirst : Nat
  prbNum  : Nat
  layers  : List Nat
  source  : SecSource
  /-- Served by the fallback run although its source is another (R144, R150, R183). -/
  fallback : Bool
  /-- Groups of a baseband section that found no block of weight memory (R150). -/
  fbGroups : List Nat
  /-- Section number on the wire and its fronthaul port, for blocks and window counts. -/
  secId   : Nat
  port    : Nat
  /-- Yardmaster group of its symbol events. -/
  group   : Nat
  /-- UL symbols released whose data has not left yet. -/
  released : List Nat
  deriving DecidableEq, Repr

/-- A computed weight set of one group, direction and slot (R148, R176): words at their word offsets, absent ones 0. -/
structure WSet where
  carrier : Fin 8
  ul      : Bool
  grp     : Nat
  slot    : Tick
  map     : List (Nat × Nat)
  sigE    : BitVec 8
  sigM    : BitVec 16
  derot   : Bool
  kernel  : BitVec 2
  /-- The SEQ of each port's entry that was read. -/
  seqs    : List (Nat × BitVec 16)
  /-- Tick of publication of the newest entry read. -/
  fresh   : Tick
  words   : List (Nat × BitVec 32)
  /-- The allocation of weight memory that holds it (R149), by its number. -/
  blk     : Nat
  deriving DecidableEq, Repr

/-- How a claimed group stands (R183 to R186). -/
inductive Resolve where
  | served (w : WSet)
  /-- Confirmed work: admitted on demand or taken out of a siding, its deadline, its allocation, and the set once computed. -/
  | waiting (onDemand : Bool) (deadline : Tick) (blk : Nat) (set : Option WSet)
  | beam
  deriving DecidableEq, Repr

/-- A group claimed by an on-device section of a slot (R183). -/
structure Claim where
  carrier : Fin 8
  ul      : Bool
  slot    : Tick
  grp     : Nat
  map     : List (Nat × Nat)
  how     : Resolve
  /-- WEIGHT_HINT commands that a member's COMMIT is to complete (R180, R332). -/
  cmds    : List CmdRef
  deriving DecidableEq, Repr

/-- One group of a siding (R179, R181). -/
structure SidingGroup where
  grp  : Nat
  map  : List (Nat × Nat)
  blk  : Nat
  /-- The computed set, once computed. -/
  set  : Option WSet
  deriving DecidableEq, Repr

/-- A siding of a carrier and direction (Table 6-7); none is EMPTY. -/
structure Siding where
  target : Tick
  ready  : Bool
  /-- The maps that its hint or the last confirmed sets gave, and the groups that are not claimed yet. -/
  maps   : List (Nat × List (Nat × Nat))
  groups : List SidingGroup
  /-- The WEIGHT_HINT commands that wait on it. -/
  cmds   : List CmdRef
  deriving DecidableEq, Repr

/-- A schedule hint in force (R179, R296): its target and (PRB range, map) list. -/
structure Hint where
  carrier : Fin 8
  ul      : Bool
  target  : Tick
  ranges  : List (Nat × Nat × List (Nat × Nat))
  deriving DecidableEq, Repr

/-- An accepted sounding occasion (R161 to R164, Table 6-1). -/
structure Occasion where
  id      : Nat
  port    : BitVec 8
  carrier : Fin 8
  slot    : Tick
  sym0    : Nat
  nsym    : Nat
  ktc     : Nat
  combOff : Nat
  ncs     : Nat
  u       : Nat
  v       : Nat
  prbStart : Nat
  prbNum  : Nat
  group   : Nat
  abandoned : Bool
  /-- SMOOTH in force at its first symbol (R174). -/
  smooth  : BitVec 2
  /-- Its entry has been published, or found no room. -/
  published : Bool
  /-- Air tick at which its last symbol ends. -/
  lastEnd : Tick
  /-- The sounding of its slot is over (R170); it stays listed to the end of the slot (R162). -/
  done    : Bool
  deriving DecidableEq, Repr

/-- A channel-book entry (R169, Table 6-3). A sample is the 64 words of one group. -/
structure BookEntry where
  port    : BitVec 8
  carrier : Fin 8
  seq     : BitVec 16
  /-- Air tick of the occasion's first symbol and of its slot. -/
  at_     : Tick
  slot    : Tick
  pubAt   : Tick
  exp     : BitVec 5
  firstG  : BitVec 9
  samples : List (List (BitVec 32))
  deriving DecidableEq, Repr

/-- A DL symbol of a carrier on its way to the balls (R138 to R140, R155): its configuration, symbol in the slot, due tick and length, the
precoded and derotated values by path and PRB, and once it has begun the samples of each path at the carrier rate. -/
structure TxSym where
  carrier : Fin 8
  cfg     : CarrierCfg
  sym     : Nat
  due     : Tick
  len     : Nat
  grid    : List (Nat × Nat × List (Int × Int))
  wave    : Option (List (Nat × List (Int × Int)))
  deriving DecidableEq, Repr

/-- A staged beam-table replacement (R154): the boundary, the entries and the command to complete. -/
structure BeamStage where
  boundary : Tick
  first    : Nat
  entries  : List (List (BitVec 32))
  cmd      : Option CmdRef
  deriving DecidableEq, Repr

/-- The frequency-domain engine with its memories. Beams list only entries that are not all zero (R152). -/
structure Ofdm where
  carriers  : Vector Carrier 8
  sections  : List Section
  beams     : List (Nat × List (BitVec 32))
  stages    : List BeamStage
  /-- Beams of which a read found an uncorrectable error, and when: they are used as 0 for the slot (R526). -/
  beamsBad  : List (Nat × Tick)
  occasions : List Occasion
  book      : List BookEntry
  portSeq   : List (Nat × BitVec 16)
  sidingsDl : Vector (Option Siding) 8
  sidingsUl : Vector (Option Siding) 8
  hints     : List Hint
  /-- Slots whose sounding was completed, and hints that were accepted, in the present tick (R170). -/
  sndNow    : List (Fin 8 × Tick)
  hintNow   : List (Hint × List CmdRef)
  claims    : List Claim
  confirmed : List WSet
  tx        : List TxSym
  /-- The map under which a group was last served by confirmed on-device weights (R179). -/
  lastMap   : List ((Fin 8 × Bool × Nat) × List (Nat × Nat))
  nextId    : Nat
  deriving DecidableEq, Repr

/-- The values of fields that have not been configured (Table 5-2); what the table does not name is 0. -/
def CarrierCfg.initial : CarrierCfg :=
  { scs30 := false, bw := 0, group := 2, derotOn := false, fbPrev := false, srcMask := 0, centre := 0, dlLayers := 0, ulLayers := 0, fbBeam := 0
    preShift := 0, combShift := 3, fftAdjTx := 0, fftAdjRx := 0, fftAdv := 1, txAtt := 0 }

/-- Cleared saturation counters. -/
def ConvSat.zero : ConvSat := { adcOvr := 0, rxNco := 0, rxRs := 0, derot := 0, txRs := 0, txComb := 0, dacClip := 0 }

/-- Converters at power-up with an empty tack store (R109, R121). -/
def Conv.reset : Conv :=
  { fcN := 32768, run := none, coef := Vector.replicate 8 none, coefNext := Vector.replicate 8 none
    sat := Vector.replicate 64 ConvSat.zero, serveAt := none, rxTo := Vector.replicate 64 (Vector.replicate 8 0), trims := [], bootFc := none }

/-- Cleared carrier counters. -/
def CarrierCount.zero : CarrierCount :=
  { fftSat := 0, combSat := 0, decompSat := 0, preSat := 0, ifftSat := 0, srcDenied := 0, allocFail := 0, noSection := 0 }

/-- Weight behaviour at a carrier's creation (Table 6-4, last column). -/
def WeightCfg.initial : WeightCfg :=
  { aheadDir := 0, onDemand := true, kAhead := 0, smooth := 1, maxAge := 20, sigE := 118, sigM := 1 }

/-- Cleared weight counters. -/
def WeightCount.zero : WeightCount :=
  { soundings := 0, sndRefused := 0, bookEvict := 0, bookFull := 0, sidings := 0, promoted := 0, scrapped := 0, reused := 0
    onDemand := 0, lateWeights := 0, fbPrev := 0, fbBeam := 0, noEstimate := 0, solveFail := 0, mapConflict := 0
    estSat := 0, noSiding := 0 }

/-- Uplink flow at a carrier's creation (R307). -/
def FlowCfg.initial : FlowCfg := { port := 0, ordered := false, mantM1 := 8, moved := none, home := 0 }

/-- A carrier that is not configured (R31, R134); first use begins at power-up (R188). -/
def Carrier.reset : Carrier :=
  { cfg := none, suspended := false, serveFrom := 0, count := CarrierCount.zero, wcfg := WeightCfg.initial
    wcount := WeightCount.zero, recipInvalid := false, firstUseDl := some 0, firstUseUl := some 0
    flow := FlowCfg.initial, kernel := 0, seen := false }

/-- The frequency-domain engine at power-up (R31, R152). -/
def Ofdm.reset : Ofdm :=
  { carriers := Vector.replicate 8 Carrier.reset, sections := [], beams := [], stages := [], beamsBad := [], occasions := [], book := []
    portSeq := [], sidingsDl := Vector.replicate 8 none, sidingsUl := Vector.replicate 8 none, hints := []
    sndNow := [], hintNow := [], claims := []
    confirmed := [], tx := [], lastMap := [], nextId := 0 }

end Sys2Proof.Machine
end

