-- ==== Sys2Proof/Machine/StNet.lean ====
section
/-! DEFINITION. State of the fronthaul (chapter 10), the hitch chain (11) and network time (12). -/

namespace Sys2Proof.Machine

/-- Port states (Table 10-3) in the code order of Table 10-17. -/
inductive PortState where
  | disabled | training | up | failed
  deriving DecidableEq, Repr

/-- Codes of Table 10-17. -/
def PortState.code : PortState → BitVec 2
  | .disabled => 0 | .training => 1 | .up => 2 | .failed => 3

/-- Configuration of a port (Table 10-2). `lanes` are the eight lane bytes. -/
structure PortCfg where
  speed    : BitVec 4
  role     : BitVec 2
  fec      : BitVec 2
  vlanEn   : Bool
  backupEn : Bool
  revert   : Bool
  backup   : BitVec 3
  ownMac   : BitVec 48
  peerMac  : BitVec 48
  pcp      : BitVec 3
  dei      : Bool
  vid      : BitVec 12
  maxFrame : BitVec 16
  failUcw  : BitVec 8
  holdoff  : BitVec 8
  lanes    : List (BitVec 8)
  deriving DecidableEq, Repr

/-- Counters of FH_STATUS (Table 10-17). -/
structure PortCount where
  rxBytes : BitVec 64
  rxFrames : BitVec 32
  rxFcs : BitVec 32
  rxUncl : BitVec 32
  rxLen : BitVec 32
  rxGap : BitVec 32
  rxSeqDrop : BitVec 32
  rxResource : BitVec 32
  rxOutage : BitVec 32
  rxEarly : BitVec 32
  rxLate : BitVec 32
  rxOrphan : BitVec 32
  rxBufDrop : BitVec 32
  txBytes : BitVec 64
  txFrames : BitVec 32
  txDrop : BitVec 32
  compSat : BitVec 32
  fecCorr : BitVec 32
  fecUncorr : BitVec 32
  failures : BitVec 16
  dlyResp : BitVec 16
  deriving DecidableEq, Repr

/-- One Ethernet port. -/
structure Port where
  cfg     : PortCfg
  st      : PortState
  /-- Model tick since which the port has been UP without a break. -/
  upSince : Nat
  onBackup : Bool
  /-- RX deskew depth D in ns × 10 (Table 12-1), measured at lock. -/
  deskew  : Nat
  count   : PortCount
  deriving DecidableEq, Repr

/-- An uplink message waiting for egress (R308, R310): its flow and its length; `sending` when partly sent. -/
structure EgressMsg where
  port    : Nat
  carrier : Nat
  layer   : Nat
  bytes   : Bytes
  sending : Bool
  deriving DecidableEq, Repr

/-- Accepted downlink U-plane data of one layer and symbol (R293 to R295): first PRB and 12 values per PRB (I, Q). -/
structure DlData where
  carrier : Fin 8
  layer   : Nat
  sym     : Tick
  prb     : Nat
  vals    : List (List (BitVec 16 × BitVec 16))
  size    : Nat
  /-- Port on which the message came. -/
  port    : Nat
  deriving DecidableEq, Repr

/-- A baseband weight block (Table 10-9): group, first layer, words of 64 antennas per layer. -/
structure WBlock where
  grp    : Nat
  layer0 : Nat
  layers : List (List (BitVec 32))
  deriving DecidableEq, Repr

/-- A baseband section whose blocks are not complete, as parsed (R292). -/
structure OpenSection where
  sec    : Section
  blocks : List WBlock
  seqId  : BitVec 16
  deriving DecidableEq, Repr

/-- A weight block held for a section that has not arrived (R292). -/
structure HeldBlock where
  carrier : Fin 8
  ul      : Bool
  slot    : Tick
  secId   : Nat
  port    : Nat
  block   : WBlock
  deriving DecidableEq, Repr

/-- A pending type-5 request with follow-up (R302): port, measurement ID, time stamp of arrival, model tick of its end. -/
structure DelayReq where
  port : Nat
  id   : BitVec 8
  stamp : Int
  fin  : Nat
  deriving DecidableEq, Repr

/-- The fronthaul. -/
structure Fh where
  ports   : Vector Port 8
  /-- Receive windows OPEN and CLOSE in µs (Table 10-15). -/
  windows : Vector (BitVec 16 × BitVec 16) 6
  /-- Expected SEQ of each flow (TYPE, FLOW_ID) and next egress SEQ (R287). -/
  rxSeq   : List ((Nat × Nat) × BitVec 8)
  txSeq   : List ((Nat × Nat) × BitVec 8)
  dlData  : List DlData
  /-- Delivered data that has left the buffer, as long as a message can still name its symbol: carrier, layer, symbol, first PRB, PRBs (R289, R295). -/
  dlGone  : List (Fin 8 × Nat × Tick × Nat × Nat)
  openSecs : List OpenSection
  held    : List HeldBlock
  egress  : List EgressMsg
  delays  : List DelayReq
  /-- Lane equalisation registers (R576). -/
  laneEq  : Vector (BitVec 32) 32
  /-- Physical lanes retired (R539). -/
  lanesRetired : BitVec 32
  deriving DecidableEq, Repr

/-- Place in the chain (Table 11-1). -/
structure HitCfg where
  dev    : Nat
  ndev   : Nat
  upEn   : Bool
  upPort : BitVec 3
  downEn : Bool
  downPort : BitVec 3
  deriving DecidableEq, Repr

/-- A partial uplink sum received from below (R327): symbol, carrier, layer, PRB run, components, MISS. -/
structure PSum where
  carrier : Fin 8
  layer   : Nat
  sym     : Tick
  prb     : Nat
  vals    : List (List (Int × Int))
  miss    : Bool
  deriving DecidableEq, Repr

/-- A partial Gram matrix (R331): every port has a usable value, the exponent of the units plus 100, the elements row by row. -/
structure Gram where
  usable : Bool
  exp    : Nat
  vals   : List (Int × Int)
  deriving DecidableEq, Repr

/-- What a device holds of a group computed along the chain (R331, R333). -/
structure ChainGroup where
  carrier : Fin 8
  ul      : Bool
  slot    : Tick
  grp     : Nat
  map     : List (Nat × Nat)
  /-- The allocation of weight memory for its set. -/
  blk     : Nat
  /-- The partial of this device, that from below, and whether the sum has gone on. -/
  own     : Option Gram
  below   : Option Gram
  gramOut : Bool
  /-- Matrix M, with the exponent of its units, and W_d once computed. -/
  solved  : Option (Int × List (BitVec 32))
  set     : Option WSet
  /-- READY from below shows the group; this device has shown it. -/
  readyBelow : Bool
  readyOut : Bool
  deriving DecidableEq, Repr

/-- The hitch. -/
structure Hitch where
  cfg      : Option HitCfg
  members  : BitVec 8
  timeLock : Bool
  cutOff   : Bool
  aligned  : Bool
  timeOfs  : BitVec 16
  good     : Nat
  lost     : Nat
  psumMiss : BitVec 32
  commitMiss : BitVec 32
  hopLate  : BitVec 32
  badFrame : BitVec 32
  chainFb  : BitVec 32
  /-- Next SEQ per (KIND, port). -/
  txSeq    : List ((Nat × Nat) × BitVec 16)
  psums    : List PSum
  groups   : List ChainGroup
  /-- Slots whose SND_DONE arrived from below, with the ports it names. -/
  sndDone  : List ((Nat × Tick) × Bytes)
  /-- Slots whose own entries are published while SND_DONE from below is missing. -/
  sndOwn   : List (Nat × Tick)
  /-- Model tick of the last KEEPALIVE received and sent on each port; memberships reported from below and from above. -/
  lastAlive : Vector Nat 8
  aliveOut  : Vector (Option Nat) 8
  belowMap  : Option (BitVec 8)
  upMap     : Option (BitVec 8)
  /-- Model tick of the last TIME sent, and of the last complete TIME exchange. -/
  timeOut   : Option Nat
  timeAt    : Nat
  /-- Groups whose COMMIT D0 has sent. -/
  committed : List (Fin 8 × Bool × Tick × Nat)
  /-- Members lost and the boundary at which they leave the membership (R334). -/
  leaving  : Option (BitVec 8 × Tick)
  /-- κ_dev (0.001 dB, 0.001 degree) and δ_dev (2^−10 tick) of this device (R324). -/
  kappaDev : Int × Int
  deltaDev : Int
  /-- What κ_dev and δ_dev step toward, and the newest result that waits (R264, R324). -/
  devTo    : (Int × Int) × Int
  devWait  : Option ((Int × Int) × Int)
  /-- Bursts of this device that D0 measured, as it forwarded them: sending path and arrival (R324). -/
  measD0   : List (BitVec 6 × Tick)
  deriving DecidableEq, Repr

/-- Servo states (Table 12-2) in code order. -/
inductive Servo where
  | idle | freqAcq | track | locked | holdover | expired
  deriving DecidableEq, Repr

/-- Codes of Table 12-2. -/
def Servo.code : Servo → BitVec 3
  | .idle => 0 | .freqAcq => 1 | .track => 2 | .locked => 3 | .holdover => 4 | .expired => 5

/-- TIME_CFG fields of a domain (Table 12-4, part 1). -/
structure TimeCfg where
  source    : BitVec 2
  ptpDomain : BitVec 8
  ports     : BitVec 8
  bw        : BitVec 8
  lockTh    : BitVec 16
  stepTh    : BitVec 16
  outlier   : BitVec 16
  holdMax   : BitVec 16
  ppsDelay  : BitVec 16
  deriving DecidableEq, Repr

/-- A master heard by Announce (R343): port, the message as received, model tick of its arrival. -/
structure Master where
  port   : Nat
  data   : Bytes
  heard  : Nat
  deriving DecidableEq, Repr

/-- One time base TB0 or TB1 with its servo. Times are counts of 2^−40/3 ns, the finest unit of R339. -/
structure Tb where
  count   : Int
  cfg     : TimeCfg
  st      : Servo
  /-- Integral term I and output y in ns/s, frequency word FREQ (R346). -/
  i       : Q
  y       : Q
  freq    : Int
  lastTheta : Q
  /-- Last accepted offset as R349 uses it (0 after a step) and its model tick. -/
  lastAcc : Q
  lastAt  : Nat
  /-- Offsets of FREQ_ACQ: model tick and θ (first the step, then eight). -/
  acq     : List (Nat × Q)
  /-- I values formed since the servo left IDLE, newest first, with their ticks (R347). -/
  hist    : List (Nat × Q)
  inLock  : Nat
  outLock : Nat
  outRun  : Nat
  /-- Offsets are being accepted after eight outliers (R349). -/
  accepting : Bool
  holdAt  : Nat
  parent  : Option (BitVec 3)
  masters : List Master
  mpd     : Q
  outliers : BitVec 32
  lost    : BitVec 32
  steps   : BitVec 32
  /-- Two-step Sync waiting for its Follow_Up: sequence, t2, correction (ns). -/
  sync    : Option (BitVec 16 × Q × Q)
  /-- Destination address of the last Sync on the parent port, sequence of the next Delay_Req and model tick of the last (R343). -/
  syncDst : Option (BitVec 48)
  reqSeq  : BitVec 16
  reqAt   : Option Nat
  /-- Delay_Req sent: sequence and t3; last completed exchange: s (R345). -/
  delayReq : Option (BitVec 16 × Q)
  exchange : Option Q
  deriving DecidableEq, Repr

/-- TIME_DEV_SET fields (Table 12-4, part 2). -/
structure TimeDev where
  autoSwitch : Bool
  ppsOutEn   : Bool
  slew       : BitVec 8
  ppsWidth   : BitVec 16
  switchMax  : BitVec 32
  asym       : Vector (BitVec 16) 8
  deriving DecidableEq, Repr

/-- Network time. τ3 and B in counts of 2^−40/3 ns. -/
structure Time where
  tb       : Vector Tb 2
  tb2      : Nat
  /-- TB_S: true is TB1. -/
  sel      : Bool
  b        : Int
  /-- Bleed: B at its start and the model tick of its start (R354). -/
  bleed    : Option (Int × Nat)
  pull     : Int
  dev      : TimeDev
  ptpIgnored : BitVec 16
  /-- An automatic switch waits for a state change of the other domain (R355). -/
  armed    : Bool
  /-- PPS_IN: model time of the last edge in 1/32 tick, named seconds (R350). -/
  ppsLast  : Option Int
  tod      : Option (BitVec 48)
  ppsOut   : Bool
  ppsFall  : Option Nat
  /-- Whole seconds of τ3 that gave an edge (R356), as runs from the newest. -/
  ppsDone  : List (Int × Int)
  /-- TB2 count in ticks of the last anchor in the event ring's order (R358). -/
  anchorAt : Option Nat
  /-- τ3 whole second whose anchor was posted last; a TB2 second while air time does not count. -/
  anchorSec : Int
  deriving DecidableEq, Repr

/-- Port fields at power-up (R315); fields the spec gives no value are 0. -/
def PortCfg.reset : PortCfg :=
  { speed := 0, role := 0, fec := 0, vlanEn := false, backupEn := false, revert := false, backup := 0, ownMac := 0
    peerMac := 0, pcp := 0, dei := false, vid := 0, maxFrame := 0, failUcw := 0, holdoff := 0, lanes := List.replicate 8 0 }

/-- Cleared port counters. -/
def PortCount.zero : PortCount :=
  { rxBytes := 0, rxFrames := 0, rxFcs := 0, rxUncl := 0, rxLen := 0, rxGap := 0, rxSeqDrop := 0, rxResource := 0
    rxOutage := 0, rxEarly := 0, rxLate := 0, rxOrphan := 0, rxBufDrop := 0, txBytes := 0, txFrames := 0, txDrop := 0
    compSat := 0, fecCorr := 0, fecUncorr := 0, failures := 0, dlyResp := 0 }

/-- A disabled port (R315). -/
def Port.reset : Port :=
  { cfg := PortCfg.reset, st := .disabled, upSince := 0, onBackup := false, deskew := 0, count := PortCount.zero }

/-- Default windows (Table 10-15). -/
def defaultWindows : Vector (BitVec 16 × BitVec 16) 6 :=
  #v[(200, 40), (1000, 60), (1000, 20), (5000, 0), (2000, 20), (10000, 25)]

/-- The fronthaul at power-up (R315, R576). -/
def Fh.reset : Fh :=
  { ports := Vector.replicate 8 Port.reset, windows := defaultWindows, rxSeq := [], txSeq := [], dlData := [], dlGone := []
    openSecs := [], held := [], egress := [], delays := [], laneEq := Vector.replicate 32 0x821, lanesRetired := 0 }

/-- The hitch at power-up (R338). -/
def Hitch.reset : Hitch :=
  { cfg := none, members := 0, timeLock := false, cutOff := false, aligned := false, timeOfs := 0, good := 0, lost := 0
    psumMiss := 0, commitMiss := 0, hopLate := 0, badFrame := 0, chainFb := 0, txSeq := [], psums := [], groups := []
    sndDone := [], sndOwn := [], lastAlive := Vector.replicate 8 0
    aliveOut := Vector.replicate 8 none, belowMap := none, upMap := none, timeOut := none, timeAt := 0, committed := [], leaving := none, kappaDev := (0, 0), deltaDev := 0, devTo := ((0, 0), 0), devWait := none, measD0 := [] }

/-- TIME_CFG of a domain at power-up (Table 12-4). -/
def TimeCfg.reset (domain : BitVec 8) : TimeCfg :=
  { source := 0, ptpDomain := domain, ports := 0, bw := 10, lockTh := 100, stepTh := 1000, outlier := 500, holdMax := 300
    ppsDelay := 0 }

/-- A time base at power-up (R364). -/
def Tb.reset (domain : BitVec 8) : Tb :=
  { count := 0, cfg := TimeCfg.reset domain, st := .idle, i := Q.zero, y := Q.zero, freq := 0, lastTheta := Q.zero, lastAcc := Q.zero, lastAt := 0, acq := []
    hist := [], inLock := 0, outLock := 0, outRun := 0, accepting := false, holdAt := 0, parent := none, masters := []
    mpd := Q.zero, outliers := 0, lost := 0, steps := 0, sync := none, syncDst := none, reqSeq := 0, reqAt := none, delayReq := none, exchange := none }

/-- Network time at power-up (R340, R364). -/
def Time.reset : Time :=
  { tb := #v[Tb.reset 24, Tb.reset 25], tb2 := 0, sel := false, b := 0, bleed := none, pull := 0
    dev := { autoSwitch := false, ppsOutEn := false, slew := 5, ppsWidth := 10000, switchMax := 1000
             asym := Vector.replicate 8 0 }
    ptpIgnored := 0, armed := false, ppsLast := none, tod := none, ppsOut := false, ppsFall := none, ppsDone := [], anchorAt := none
    anchorSec := 0 }

end Sys2Proof.Machine
end

