-- ==== Sys2Proof/Machine/StLin.lean ====
section
/-! DEFINITION. State of calibration bursts and quality reports (chapter 07), crest-factor reduction and pre-distortion (08),
the Farrier and calibrations (09). -/

namespace Sys2Proof.Machine

/-- BURST_CFG fields (Table 7-5). -/
structure BurstCfg where
  syncWord : BitVec 32
  unitId   : BitVec 24
  syncTol  : BitVec 3
  capture  : BitVec 8
  detThr   : BitVec 8
  iterMax  : BitVec 4
  nfAvg    : BitVec 4
  deriving DecidableEq, Repr

/-- An open search window (R202): its paths, expected NSYM, opening and close (datapath cycles), offset and tag. -/
structure BurstWindow where
  paths  : BitVec 64
  nsym   : Nat
  /-- Air tick of the window's first sample. -/
  first  : Tick
  openAt : Nat
  close  : Nat
  off    : BitVec 32
  tag    : BitVec 16
  deriving DecidableEq, Repr

/-- Lane states (Table 7-8). -/
inductive LaneState where
  | search | hold | sync | train | decode
  deriving DecidableEq, Repr

/-- A receiver lane with its candidate (R204 to R208). -/
structure Lane where
  st      : LaneState
  /-- Candidate timing t_c in samples from the window's opening, level in 0.25 dB. -/
  tc      : Nat
  level   : Int
  hyp     : Nat
  /-- The long training is over (R207). -/
  trained : Bool
  syncErr : BitVec 3
  nsym    : Nat
  tag     : BitVec 16
  /-- Datapath cycle of the window's opening, to which t_c refers. -/
  base    : Nat
  /-- Air tick of that sample; offset of the window; frequency offset of the candidate in Hz (R203). -/
  first   : Tick
  off     : BitVec 32
  freq    : Int
  paths   : BitVec 64
  deriving DecidableEq, Repr

/-- Burst counters (Table 7-11). -/
structure BurstCount where
  detections : BitVec 32
  falseDet : BitVec 32
  decoded : BitVec 32
  crcFail : BitVec 32
  captured : BitVec 32
  ignored : BitVec 32
  lostBusy : BitVec 32
  deriving DecidableEq, Repr

/-- One path's record of a measurement set (Table 7-10). -/
structure MeasRec where
  path  : Fin 64
  phase : BitVec 16
  delay : BitVec 16
  gain  : BitVec 16
  snr   : BitVec 8
  deriving DecidableEq, Repr

/-- A held measurement set (R210) with its outcome, sending unit, device and path, and tick of arrival. -/
structure MeasSet where
  id      : BitVec 16
  ok      : Bool
  unitId  : BitVec 24
  dev     : BitVec 3
  txPath  : BitVec 6
  arrived : Tick
  recs    : List MeasRec
  deriving DecidableEq, Repr

/-- Released work that keeps paths transmitting, for R200: its event's number, paths, interval in datapath cycles. -/
structure TxOn where
  id    : Nat
  paths : BitVec 64
  start : Nat
  fin   : Nat
  deriving DecidableEq, Repr

/-- A burst on its way to a path's ball (R190 to R198): its offset, due tick and samples at 30.72 MS/s. -/
structure TxWave where
  path : Fin 64
  off  : BitVec 32
  due  : Tick
  vals : List (Int × Int)
  deriving DecidableEq, Repr

/-- The burst transmitter and receiver. -/
structure Burst where
  cfg     : BurstCfg
  seq     : BitVec 16
  window  : Option BurstWindow
  lanes   : Vector Lane 2
  count   : BurstCount
  sets    : List MeasSet
  nextMeas : BitVec 16
  /-- End of the interval of the last window (R202). -/
  busy    : Nat
  /-- Bursts and DL symbols that have been released (R200). -/
  bursts  : List TxOn
  dl      : List TxOn
  waves   : List TxWave
  deriving DecidableEq, Repr

/-- Quality values of one path (Table 7-12); NF per carrier with its running block of idle symbols. -/
structure Quality where
  nf      : Vector (BitVec 16) 8
  txEvm   : BitVec 16
  capAt   : Tick
  blocks  : BitVec 32
  /-- Idle symbols of each carrier that the running block holds, and the air tick since which the path is in RX and unmuted (R213). -/
  idle    : Vector (List Tick) 8
  rxFrom  : Option Tick
  deriving DecidableEq, Repr

/-- CFR settings of a band (Table 8-1). -/
structure CfrCfg where
  passes : BitVec 3
  target : BitVec 8
  ref    : BitVec 16
  deriving DecidableEq, Repr

/-- DPD_SET fields (Table 8-5). -/
structure DpdCfg where
  autoStore : Bool
  adaptEn   : Bool
  blendB    : BitVec 4
  capPeriod : BitVec 8
  convTh    : BitVec 8
  deriving DecidableEq, Repr

/-- A complex coefficient (R224). -/
abbrev Coef := BitVec 18 × BitVec 18

/-- A coefficient set of 80 elements (R224). -/
abbrev CoefSet := List Coef

/-- A stored temperature set (Table 8-4). -/
structure DpdSet where
  path   : Fin 64
  paTemp : BitVec 16
  residual : BitVec 16
  adaptSeq : BitVec 32
  /-- Model tick of its writing (for the 600 s rule of R241). -/
  wrote  : Nat
  coefs  : CoefSet
  deriving DecidableEq, Repr

/-- A band key with its sets (R239): profile 0 PW, 1 PN, 2 PL. -/
structure DpdKey where
  profile : BitVec 2
  fcN     : BitVec 16
  loKhz   : BitVec 23
  sets    : List DpdSet
  deriving DecidableEq, Repr

/-- A SHU_CAPTURE's own part of a capture (R465): SOURCE, slots, flag and command. -/
structure ShuCap where
  src   : Nat
  first : Nat
  nslot : Nat
  flag  : Nat
  ref   : CmdRef
  deriving DecidableEq, Repr

/-- An observation capture of a path under way (R230 to R233). -/
structure Capture where
  path  : Fin 64
  obs   : Nat
  start : Nat
  fin   : Nat
  gen   : BitVec 16
  /-- Recorded with the set in force alone (no blend), for R234. -/
  clean : Bool
  shu   : Option ShuCap
  /-- What has been recorded of the CFR input (R214) and of x, z, v_0 and v_1 (R230): CFR output, DPD output, neighbour signals. -/
  u     : List (Int × Int)
  x     : List (Int × Int)
  z     : List (Int × Int)
  v0    : List (Int × Int)
  v1    : List (Int × Int)
  deriving DecidableEq, Repr

/-- A capture's adaptation under way (R235): end of the capture, its generation, the depth and the slots in use, and its data: y_n, z and the
neighbour signals. -/
structure Adapting where
  fin  : Nat
  gen  : BitVec 16
  deep : Bool
  use0 : Bool
  use1 : Bool
  y    : List (Q × Q)
  z    : List (Int × Int)
  v0   : List (Int × Int)
  v1   : List (Int × Int)
  deriving DecidableEq, Repr

/-- DPD of one path (R222 to R251). -/
structure Dpd where
  /-- No set in force: DPD bypassed. -/
  bypass  : Bool
  cold    : Bool
  /-- CAP: the cold-start limit or its ramp. Attenuation in force in 0.25 dB. -/
  cap     : Bool
  ramping : Bool
  attenNow : BitVec 7
  frozen  : Bool
  noObs   : Bool
  seed    : BitVec 2
  tempSubst : Bool
  paTemp  : BitVec 16
  /-- Model tick of the temperature reading. -/
  paTempAt : Nat
  gen     : BitVec 16
  noConv  : BitVec 4
  /-- An adaptation was published and no converged capture followed yet (R245). -/
  unconverged : Bool
  /-- The small-signal gain G (R233). -/
  gain    : Option (Q × Q)
  old     : CoefSet
  new     : CoefSet
  /-- Blend in progress: boundaries counted, exponent b, first cycle of the blend (R237). -/
  blend   : Option (Nat × Nat × Nat)
  residual : BitVec 16
  /-- Residual of the converged capture behind the set in force. -/
  setResidual : BitVec 16
  /-- PA temperature and ADAPTS at the learning of the set in force; none where it was not learnt as one set (Table 8-4). -/
  learnt  : Option (BitVec 16 × BitVec 32)
  /-- Invalidated (R113, R228): seeded at the next transition that brings TX traffic. -/
  stale   : Bool
  /-- An adaptation has been published since the last seeding or cold start. -/
  adapted : Bool
  adapts  : BitVec 32
  capAbort : BitVec 32
  adaptDrop : BitVec 32
  cfrPeaks : BitVec 32
  cfrResid : BitVec 32
  dpdSat  : BitVec 32
  adapting : List Adapting
  fails   : Nat
  deriving DecidableEq, Repr

/-- Per-paddock capture owner (R229): the position whose turn is next, its last decision, the DPD_SET fields taken at it (R247), and the path of
that decision while its symbol is looked for. -/
structure CapOwner where
  pos    : Nat
  lastAt : Nat
  cfg    : DpdCfg
  want   : Option (Fin 64)
  deriving DecidableEq, Repr

/-- CFR and DPD. `obsOut m`: OBSm is out of service; `obs8`: the paddock OBS8 serves. -/
structure Linear where
  cfr   : Vector CfrCfg 2
  cfg   : DpdCfg
  paths : Vector Dpd 64
  adj   : Vector (BitVec 8 × BitVec 8) 64
  keys  : List DpdKey
  owners : Vector CapOwner 8
  caps  : List Capture
  obsOut : Vector Bool 9
  obs8  : Option (Fin 8)
  deriving DecidableEq, Repr

/-- CAL_SET fields (Table 9-3). -/
structure CalCfg where
  bgEn      : BitVec 16
  calB      : BitVec 4
  autoStore : Bool
  tempDelta : BitVec 8
  refPath   : BitVec 6
  deriving DecidableEq, Repr

/-- A calibration of one subject: ID of Table 9-1 and subject (Table 9-6). -/
structure CalKey where
  id  : Nat
  cls : Nat
  idx : Nat
  deriving DecidableEq, Repr

/-- Last outcome of a calibration (Table 9-6). -/
inductive CalOut where
  | none | ok | fail | outlier | aborted
  deriving DecidableEq, Repr

/-- The completion record of a calibration and subject (Table 9-6) with its run counts (R265, R269). -/
structure CalRec where
  key    : CalKey
  last   : CalOut
  halted : Bool
  stored : Bool
  count  : BitVec 32
  atLast : Option Tick
  tb0s   : BitVec 32
  tb0ns  : BitVec 32
  outRun : Nat
  failRun : Nat
  /-- Model tick and temperature of the last completion (R253, R255). -/
  doneAt : Nat
  temp   : Int
  /-- The fields of CAL_SET that its last period decision found (R261). -/
  cfg    : Option CalCfg
  deriving DecidableEq, Repr

/-- A calibration result in force: components in their own finest units. `step` counts boundaries of a running blend or
stepping toward `target` (R262, R264). -/
structure CalVal where
  key     : CalKey
  valid   : Bool
  now     : List Int
  old     : List Int
  target  : List Int
  moving  : Bool
  step    : Nat
  fromDp  : Nat
  /-- Blend exponent of the running blend. -/
  b       : Nat
  waiting : Option (List Int)
  deriving DecidableEq, Repr

/-- A running or waiting CAL_RUN (R257 to R260). -/
structure CalRun where
  ref     : CmdRef
  paths   : BitVec 64
  mask    : BitVec 16
  lend    : Bool
  store   : Bool
  waiting : Bool
  accepted : Tick
  /-- Every calibration of the run, and those still to complete, in the order in which they run. -/
  all     : List CalKey
  left    : List CalKey
  /-- Those under way, each with the cycle at which it started (R252). -/
  busy    : List (CalKey × Nat)
  failed  : Bool
  /-- Paths lent by it and not yet rejoined. -/
  lentNow : BitVec 64
  deriving DecidableEq, Repr

/-- A background calibration's partial result over its slots (R253). -/
structure CalPartial where
  key   : CalKey
  slots : Nat
  first : Nat
  deriving DecidableEq, Repr

/-- A guard period in use (R99): its subject, end in datapath cycles and the path state to return to. -/
structure CalSlot where
  key  : CalKey
  fin  : Nat
  back : PState
  /-- Number of its CAL_SLOT event: later numbers were accepted after it. -/
  ev   : Nat
  deriving DecidableEq, Repr

/-- A stored calibration set (R266): profile, LO key and the (ID, subject) results it holds. -/
structure CalSet where
  profile : BitVec 2
  loKhz   : BitVec 23
  results : List (CalKey × List Int)
  /-- Model tick at which background results were last written to it (R266). -/
  bgAt    : Option Nat
  deriving DecidableEq, Repr

/-- The Farrier. -/
structure Cal where
  cfg     : CalCfg
  recs    : List CalRec
  vals    : List CalVal
  runs    : List CalRun
  partials : List CalPartial
  slots   : List CalSlot
  /-- Calibration sets of the tack store, most recently matched first (R266). -/
  sets    : List CalSet
  deriving DecidableEq, Repr

/-- BURST_CFG at power-up (Table 7-5). -/
def BurstCfg.reset : BurstCfg :=
  { syncWord := 0x6B0E2D97, unitId := 0, syncTol := 3, capture := 12, detThr := 96, iterMax := 12, nfAvg := 6 }

/-- A lane in SEARCH. -/
def Lane.idle : Lane :=
  { st := .search, tc := 0, level := 0, hyp := 0, trained := false, syncErr := 0, nsym := 1, tag := 0, base := 0, first := 0, off := 0, freq := 0, paths := 0 }

/-- Cleared burst counters. -/
def BurstCount.zero : BurstCount :=
  { detections := 0, falseDet := 0, decoded := 0, crcFail := 0, captured := 0, ignored := 0, lostBusy := 0 }

/-- Bursts at power-up (R216). -/
def Burst.reset : Burst :=
  { cfg := BurstCfg.reset, seq := 0, window := none, lanes := Vector.replicate 2 Lane.idle, count := BurstCount.zero
    sets := [], nextMeas := 0, busy := 0, bursts := [], dl := [], waves := [] }

/-- Quality values at power-up (R216). -/
def Quality.reset : Quality := { nf := Vector.replicate 8 0x8000, txEvm := 0x8000, capAt := 0, blocks := 0, idle := Vector.replicate 8 [], rxFrom := none }

/-- CFR at power-up (Table 8-1): bypass, 8.0 dB, −15.0 dBFS. -/
def CfrCfg.reset : CfrCfg := { passes := 0, target := 80, ref := -150 }

/-- DPD_SET at power-up (Table 8-5). -/
def DpdCfg.reset : DpdCfg := { autoStore := true, adaptEn := true, blendB := 6, capPeriod := 20, convTh := -64 }

/-- The identity set (R224). -/
def identitySet : CoefSet := (16384, 0) :: List.replicate 79 (0, 0)

/-- DPD of a path at power-up: cold start, no capture history (R243, R251). -/
def Dpd.reset : Dpd :=
  { bypass := true, cold := true, cap := true, ramping := false, attenNow := 127, frozen := false, noObs := false, seed := 0
    tempSubst := false, paTemp := 0, paTempAt := 0, gen := 0, noConv := 0, unconverged := false, gain := none
    old := identitySet, new := identitySet, blend := none, residual := 0x8000, setResidual := 0x8000, learnt := none, stale := false, adapted := false, adapts := 0
    capAbort := 0, adaptDrop := 0, cfrPeaks := 0, cfrResid := 0, dpdSat := 0, adapting := [], fails := 0 }

/-- CFR and DPD at power-up with an empty tack store (R226, R251). -/
def Linear.reset : Linear :=
  { cfr := Vector.replicate 2 CfrCfg.reset, cfg := DpdCfg.reset, paths := Vector.replicate 64 Dpd.reset
    adj := Vector.replicate 64 (0, 0), keys := [], owners := Vector.replicate 8 { pos := 0, lastAt := 0, cfg := DpdCfg.reset, want := none }, caps := []
    obsOut := Vector.replicate 9 false, obs8 := none }

/-- CAL_SET where the tack store holds no record (Table 9-3). -/
def CalCfg.reset : CalCfg := { bgEn := 0x0FF8, calB := 6, autoStore := true, tempDelta := 6, refPath := 0 }

/-- The Farrier at power-up (R261, R268). -/
def Cal.reset : Cal :=
  { cfg := CalCfg.reset, recs := [], vals := [], runs := [], partials := [], slots := [], sets := [] }

end Sys2Proof.Machine
end

