-- ==== Sys2Proof/Machine/StRadio.lean ====
section
/-! DEFINITION. State of the radio paths and synthesisers (chapter 03). Instants inside the device are counted in cycles
of the datapath clock, one tick each (R56). -/

namespace Sys2Proof.Machine

/-- Return state after a TX run (Table 3-8). -/
inductive RetTx where
  | standby | sleep | rx
  deriving DecidableEq, Repr

/-- A change of path state that has been decided: it begins at `start` and ends in `target`; a traffic interval then
holds the path until `hold` (R91, R92). -/
structure PathJob where
  start  : Nat
  /-- The interval's due time, or the start of a mere change. -/
  due    : Nat
  target : PState
  hold   : Option Nat
  deriving DecidableEq, Repr

/-- The direct transition in progress (R89): its ends and the link chain's final target. -/
structure Transit where
  src    : PState
  dst    : PState
  start  : Nat
  fin    : Nat
  target : PState
  hold   : Option Nat
  deriving DecidableEq, Repr

/-- The run that keeps a path in TX or RX (R97): its last tick, exclusive, and whether it is a TX run. -/
structure Run where
  isTx : Bool
  fin  : Nat
  deriving DecidableEq, Repr

/-- One radio path (R71, R88 to R98, R102, R408, R409, R541). -/
structure Path where
  st       : PState
  transit  : Option Transit
  /-- Decided changes that have not begun, in order (R92). -/
  jobs     : List PathJob
  run      : Option Run
  retTx    : RetTx
  retRxSleep : Bool
  rxGain   : BitVec 5
  txAtten  : BitVec 7
  transitions : BitVec 32
  retired  : Bool
  /-- Command mutes (R409) and symbol mutes (R28, R408) of the TX and RX chains, protection mute of a trip (R508). -/
  cmdMuteTx : Bool
  cmdMuteRx : Bool
  symMuteTx : Bool
  symMuteRx : Bool
  /-- Lent to a calibration (R259). -/
  lent     : Bool
  deriving DecidableEq, Repr

/-- One synthesiser preset (Table 3-4). -/
structure Preset where
  valid    : Bool
  pinned   : Bool
  phaseValid : Bool
  vcoBand  : BitVec 4
  capCode  : BitVec 8
  loopGain : BitVec 8
  freq     : BitVec 23
  kvco     : BitVec 16
  phase    : BitVec 16
  calTemp  : BitVec 8
  useSeq   : BitVec 16
  deriving DecidableEq, Repr

/-- What a synthesiser's interval does when it ends (R75, R78). -/
inductive SynthOp where
  /-- Retune from preset `slot`. -/
  | retune (slot : Nat)
  /-- Full calibration of a channel; the result goes to the slot that R78 chooses, unless `noStore`. -/
  | calibrate (freq : BitVec 23) (noStore : Bool)
  | hop
  | realign
  /-- The recovery retune of R86 from preset `slot`: UNLOCKED until it is LOCKED. -/
  | recover (slot : Nat)
  deriving DecidableEq, Repr

/-- One operation of a synthesiser: its interval and what it does. -/
structure SynthJob where
  start : Nat
  op    : SynthOp
  deriving DecidableEq, Repr

/-- One synthesiser (R74 to R87, R102). -/
structure Synth where
  st       : SState
  freq     : BitVec 23
  slot     : Nat
  noPreset : Bool
  /-- Aligned to the present phase epoch. -/
  aligned  : Bool
  /-- Phase offset in force in the modulator, 2^-16 turn a step (R79). -/
  phase    : BitVec 16
  /-- The interval in progress: operation, start and end. -/
  op       : Option SynthOp
  opStart  : Nat
  opEnd    : Nat
  /-- Decided operations that have not begun. -/
  jobs     : List SynthJob
  lockLoss : BitVec 16
  lastLoss : Option Nat
  useCount : BitVec 16
  presets  : Vector Preset 32
  deriving DecidableEq, Repr

/-- An interval of datapath cycles in which a path's RX chain is blanked (R94, R95): its end is open while it lasts. -/
structure Dark where
  path  : Fin 64
  start : Nat
  fin   : Option Nat
  deriving DecidableEq, Repr

/-- Paths, synthesisers and the phase epoch. -/
structure Radio where
  paths      : Vector Path 64
  synths     : Vector Synth 16
  /-- Active synthesiser of each paddock: true is SYB. -/
  activeB    : Vector Bool 8
  epochValid : Bool
  epoch      : Tick
  /-- Blanked intervals of RX chains, as far back as a symbol reaches. -/
  dark       : List Dark
  deriving DecidableEq, Repr

/-- A path at power-up (R98, R104). -/
def Path.reset : Path :=
  { st := .off, transit := none, jobs := [], run := none, retTx := .standby, retRxSleep := false, rxGain := 0
    txAtten := 127, transitions := 0, retired := false, cmdMuteTx := false, cmdMuteRx := false, symMuteTx := false
    symMuteRx := false, lent := false }

/-- An empty preset. -/
def Preset.empty : Preset :=
  { valid := false, pinned := false, phaseValid := false, vcoBand := 0, capCode := 0, loopGain := 0, freq := 0, kvco := 0
    phase := 0, calTemp := 0, useSeq := 0 }

/-- A synthesiser at power-up (R104, Table 3-10). -/
def Synth.reset : Synth :=
  { st := .off, freq := 0, slot := 0, noPreset := false, aligned := false, phase := 0, op := none, opStart := 0, opEnd := 0
    jobs := [], lockLoss := 0, lastLoss := none, useCount := 0, presets := Vector.replicate 32 Preset.empty }

/-- The radio at power-up (R104). -/
def Radio.reset : Radio :=
  { paths := Vector.replicate 64 Path.reset, synths := Vector.replicate 16 Synth.reset
    activeB := Vector.replicate 8 false, epochValid := false, epoch := 0, dark := [] }

end Sys2Proof.Machine
end

