-- ==== Sys2Proof/Machine/StSup.lean ====
section
/-! DEFINITION. State of supervision (chapter 18), memories, tests and spares (19), security (20), the tack store (09)
and the package (21). -/

namespace Sys2Proof.Machine

/-- A spot conversion waiting in a converter's queue (R503); an internal owner has no command. -/
structure SpotReq where
  ch   : Nat
  fmt  : BitVec 2
  cmd  : Option CmdRef
  deriving DecidableEq, Repr

/-- The conversion in progress: its sampling instant and end in datapath cycles, and whether it is of the sweep. -/
structure HkOp where
  ch    : Nat
  fmt   : BitVec 2
  samp  : Nat
  fin   : Nat
  sweep : Bool
  cmd   : Option CmdRef
  deriving DecidableEq, Repr

/-- A timed trigger released and not yet sampled, or accepted (R504): sampling cycle, what it samples. -/
structure HkTimed where
  samp  : Nat
  spot  : Option (Nat × BitVec 2)
  cmd   : CmdRef
  deriving DecidableEq, Repr

/-- One housekeeping converter. -/
structure HkConv where
  list    : List (Nat × BitVec 2)
  loop    : Bool
  pin0    : Bool
  pin1    : Bool
  powered : Bool
  /-- The cycle at which its start-up is over. -/
  upAt    : Nat
  idleAt  : Nat
  /-- A sweep runs; the next entry of it, and the cycle at which that entry samples at the earliest. -/
  run     : Bool
  pos     : Nat
  nextAt  : Nat
  op      : Option HkOp
  queue   : List SpotReq
  timed   : List HkTimed
  stop    : List CmdRef
  /-- The self-calibration under way: its command and its end; and those that wait (R505). Power-up's own has no command. -/
  cal     : Option (Option CmdRef × Nat)
  calWait : List (Option CmdRef)
  gain    : BitVec 16
  ofs     : BitVec 16
  ovr     : BitVec 16
  deriving DecidableEq, Repr

/-- Record and comparator of one channel (R500, R507, R519). -/
structure HkChan where
  value   : BitVec 16
  code    : BitVec 16
  valid   : Bool
  at_     : BitVec 64
  /-- Model tick of its sampling instant. -/
  tick    : Nat
  en      : Bool
  mute    : Bool
  event   : Bool
  persist : BitVec 4
  lo      : BitVec 16
  hi      : BitVec 16
  paddocks : BitVec 8
  tripped : Bool
  count   : BitVec 4
  deriving DecidableEq, Repr

/-- A running test waveform (R516). -/
structure Gen where
  wave : BitVec 2
  lo   : BitVec 16
  hi   : BitVec 16
  up   : Bool
  /-- No update has been made yet. -/
  first : Bool
  s    : BitVec 23
  deriving DecidableEq, Repr

/-- A halter or rein output (R509 to R517). -/
structure OutCh where
  /-- Stored target: range and code. `now` is the code driven, `range` the range in force. -/
  tgtRange : BitVec 2
  tgt      : BitVec 16
  now      : BitVec 16
  range    : BitVec 2
  /-- End of the range-change dwell. -/
  dwell    : Option Nat
  compliance : Bool
  opSafe   : Bool
  /-- Driven at the safe value under R510. -/
  held     : Bool
  /-- A VALUE has taken effect since power-up. -/
  valued   : Bool
  step     : BitVec 16
  period   : BitVec 10
  gen      : Option Gen
  deriving DecidableEq, Repr

/-- Thermistor mapping of a paddock (R518). -/
structure ThMap where
  en   : Bool
  pair : BitVec 3
  deriving DecidableEq, Repr

/-- Supervision. Outputs 0 to 63 are halters, 64 to 79 reins. -/
structure Sup where
  conv  : Vector HkConv 2
  chan  : Vector HkChan 184
  out   : Vector OutCh 80
  th    : Vector ThMap 8
  thCoef : Vector (BitVec 16 × BitVec 16) 8
  /-- Cycle of the last update tick (R515). -/
  updAt : Option Nat
  deriving DecidableEq, Repr

/-- Counts and repairs of an SRAM bank (R525, R531, R542). Banks never touched are not listed. -/
structure BankRec where
  corr   : BitVec 32
  uncorr : BitVec 16
  /-- Corrected errors of each row since power-up, and the rows marked. -/
  rowCorr : List (Nat × Nat)
  marked : List Nat
  /-- The row that the last uncorrectable error, or the last failure of a march, named. -/
  bad    : BitVec 8
  rows   : Vector (Option (BitVec 8)) 3
  cols   : Vector (Option (BitVec 9)) 2
  deriving DecidableEq, Repr

/-- A bank under test: its global number and the cycles in which the test of it starts and ends. -/
structure MarchBank where
  bank  : Nat
  start : Nat
  fin   : Nat
  deriving DecidableEq, Repr

/-- A running or waiting MARCH_RUN (R533, R534): the global banks `first` to `first + count - 1`, of which `todo` have not started. -/
structure March where
  ref     : CmdRef
  memory  : Nat
  first   : Nat
  count   : Nat
  ss      : Bool
  destroy : Bool
  repair  : Bool
  waiting : Bool
  todo    : List Nat
  run     : List MarchBank
  failing : Nat
  repairs : Nat
  unrepaired : Bool
  deriving DecidableEq, Repr

/-- An accepted LBIST_RUN (R536): the cycle in which its run ends, once it has begun, and how it ended while its lent path has still to
rejoin. -/
structure Lbist where
  ref    : CmdRef
  target : Nat
  index  : Nat
  addr   : BitVec 64
  lend   : Bool
  accepted : Tick
  fin    : Option Nat
  result : Option (Status × BitVec 32)
  deriving DecidableEq, Repr

/-- A PATH_RETIRE whose paths retire at a cycle (R541). -/
structure Retiring where
  ref   : CmdRef
  paths : BitVec 64
  due   : Nat
  deriving DecidableEq, Repr

/-- A spare ledger record (Table 19-6). -/
structure LedgerRec where
  kind   : BitVec 8
  cause  : BitVec 8
  res    : Res
  detail : BitVec 64
  boots  : BitVec 32
  deriving DecidableEq, Repr

/-- Memories, tests and spares. `lastMem`, `lastBank`, `lastRow` are MEM_MARCH_STATUS. -/
structure Mem where
  banks   : List (Nat × BankRec)
  corr    : BitVec 32
  uncorr  : BitVec 32
  marches : List March
  lastMem : BitVec 3
  lastBank : BitVec 11
  lastRow : BitVec 8
  lbist   : List Lbist
  retiring : List Retiring
  /-- Cycle of the last patrol (R525). -/
  patrolAt : Nat
  deriving DecidableEq, Repr

/-- A stored image: the header's fields (Table 20-1) and the whole bytes. -/
structure Image where
  bytes : Bytes
  deriving DecidableEq, Repr

/-- Firmware and Farrier images in force and boot status (R553, R554, R562). A measurement is 48 bytes. -/
structure Sec where
  fwB     : Bool
  farB    : Bool
  mFw     : Bytes
  mFar    : Bytes
  mK1     : Bytes
  mK2     : Bytes
  recovery : Bool
  lastType : BitVec 4
  lastCause : BitVec 4
  fails   : BitVec 8
  cfgDigest : Bytes
  cfgCount : BitVec 32
  /-- Image slots with a bad record in the tack store, found at power-up (R550 cause 8). -/
  slotBad : BitVec 6
  /-- An image loaded in RECOVERY makes the boot ROM verify again (R554). -/
  rerun   : Bool
  deriving DecidableEq, Repr

/-- One record write on its way to the tack store (R272). -/
inductive TackRec where
  | bootFc (n : BitVec 16)
  | calCfg (c : CalCfg)
  | rollback (counter : Nat) (v : BitVec 32)
  | preferred (fw : Bool) (slotB : Bool)
  | identity (pub priv : Bytes)
  | cert (b : Bytes)
  | ledger (r : LedgerRec)
  | presets
  | convTrim
  | adjacency
  | calSet
  | dpdSet
  | faultLog (r : Bytes)
  | image (slot : Nat) (b : Bytes)
  | directory
  deriving DecidableEq, Repr

/-- A queued sector write: the logical sector, the record, the command that waits for it as its last write, and
whether it has been retried after a failed verification (R273). -/
structure TackWrite where
  sector : Nat
  rec_   : TackRec
  cmd    : Option CmdRef
  retried : Bool
  deriving DecidableEq, Repr

/-- Committed records of the regions whose contents serve from their own blocks' state (Table 9-8). -/
structure Nv where
  presets : Vector (Vector Preset 32) 16
  trims   : List (BitVec 16)
  adj     : Vector (BitVec 8 × BitVec 8) 64
  sets    : List CalSet
  keys    : List DpdKey
  bootFc  : Option (BitVec 16)
  calCfg  : Option CalCfg
  deriving DecidableEq, Repr

/-- What the tack store holds across power cycles (Table 9-8); `counters` are the write counters of physical sectors that
differ from 0. -/
structure Tack where
  nv       : Nv
  ledger   : List LedgerRec
  boots    : BitVec 32
  svn      : Vector (BitVec 32) 4
  fwPrefB  : Bool
  farPrefB : Bool
  images   : Vector (Option Image) 6
  pub      : Option (Bytes × Bytes)
  cert     : Option Bytes
  faultLog : List Bytes
  nextFault : BitVec 16
  map      : List (Nat × Nat)
  counters : List (Nat × BitVec 32)
  /-- Physical sectors retired. -/
  bad      : List Nat
  spares   : Nat
  retired  : Nat
  readOnly : Bool
  crcFail  : BitVec 16
  writes   : BitVec 32
  queue    : List TackWrite
  /-- The boot sequence has read the store (R275). -/
  read     : Bool
  deriving DecidableEq, Repr

/-- Test access port controller states (IEEE 1149.1, R569). -/
inductive TapState where
  | reset | idle | selDr | capDr | shiftDr | exit1Dr | pauseDr | exit2Dr | updDr
  | selIr | capIr | shiftIr | exit1Ir | pauseIr | exit2Ir | updIr
  deriving DecidableEq, Repr

/-- Instructions of the test access port (R569). -/
inductive TapInstr where
  | idcode | bypass | sample | extest | extestPulse | extestTrain
  deriving DecidableEq, Repr

/-- Pins and the test access port: whether TRST_N holds it in reset, its controller, the instruction in force, the two shift registers
(the bit next to TDO first), the update latches of the boundary register, and what TDO drives (none: high impedance). -/
structure Pkg where
  testMode : Bool
  trst     : Bool
  tap      : TapState
  tapInstr : TapInstr
  irShift  : List Bool
  drShift  : List Bool
  bsr      : List Bool
  tdo      : Option Bool
  clkreqLow : Bool
  faultN   : Bool
  deriving DecidableEq, Repr

/-- A converter at power-up (R506, R523). -/
def HkConv.reset : HkConv :=
  { list := [], loop := false, pin0 := false, pin1 := false, powered := false, upAt := 0, idleAt := 0, run := false, pos := 0
    nextAt := 0, op := none, queue := [], timed := [], stop := [], cal := none, calWait := [], gain := 0x4000
    ofs := 0, ovr := 0 }

/-- A channel at power-up: never converted, comparator disabled (R523). -/
def HkChan.reset : HkChan :=
  { value := 0, code := 0, valid := false, at_ := 0, tick := 0, en := false, mute := false, event := false, persist := 0, lo := 0
    hi := 0, paddocks := 0, tripped := false, count := 0 }

/-- An output at power-up (R523): 0 µA at RANGE 0, or CODE 0. -/
def OutCh.reset (halter : Bool) : OutCh :=
  { tgtRange := 0, tgt := 0, now := 0, range := 0, dwell := none, compliance := false, opSafe := false, held := false
    valued := false, step := if halter then 16 else 0, period := if halter then 31 else 0, gen := none }

/-- Supervision at power-up (R523): pair m serves paddock Km. -/
def Sup.reset : Sup :=
  { conv := Vector.replicate 2 HkConv.reset, chan := Vector.replicate 184 HkChan.reset
    out := Vector.replicate 64 (OutCh.reset true) ++ Vector.replicate 16 (OutCh.reset false)
    th := Vector.ofFn fun m : Fin 8 => { en := true, pair := BitVec.ofNat 3 m.val }
    thCoef := Vector.replicate 8 (0, 0), updAt := none }

/-- A bank without errors or repairs. -/
def BankRec.empty : BankRec :=
  { corr := 0, uncorr := 0, rowCorr := [], marked := [], bad := 0, rows := Vector.replicate 3 none, cols := Vector.replicate 2 none }

/-- Memories at power-up (R546, Table 19-7). -/
def Mem.reset : Mem :=
  { banks := [], corr := 0, uncorr := 0, marches := [], lastMem := 0, lastBank := 0, lastRow := 0, lbist := [], retiring := [], patrolAt := 0 }

/-- Security at power-up (R561, R562). -/
def Sec.reset : Sec :=
  { fwB := false, farB := false, mFw := List.replicate 48 0, mFar := List.replicate 48 0, mK1 := List.replicate 48 0
    mK2 := List.replicate 48 0, recovery := false, lastType := 0, lastCause := 0, fails := 0
    cfgDigest := List.replicate 48 0, cfgCount := 0, slotBad := 0, rerun := false }

/-- Regions with nothing written. -/
def Nv.empty : Nv :=
  { presets := Vector.replicate 16 (Vector.replicate 32 Preset.empty), trims := [], adj := Vector.replicate 64 (0, 0)
    sets := [], keys := [], bootFc := none, calCfg := none }

/-- A tack store with nothing written. -/
def Tack.reset : Tack :=
  { nv := Nv.empty, ledger := [], boots := 0, svn := Vector.replicate 4 0, fwPrefB := false, farPrefB := false
    images := Vector.replicate 6 none, pub := none, cert := none, faultLog := [], nextFault := 0, map := [], counters := []
    bad := [], spares := 123, retired := 0, readOnly := false, crcFail := 0, writes := 0, queue := [], read := false }

/-- Pins with VIN absent (Table 21-12). -/
def Pkg.reset : Pkg :=
  { testMode := false, trst := true, tap := .reset, tapInstr := .idcode, irShift := [], drShift := [], bsr := [], tdo := none, clkreqLow := false
    faultN := false }

end Sys2Proof.Machine
end

