-- ==== Sys2Proof/Machine/StSys.lean ====
section
/-! DEFINITION. State of clocks (chapter 13), power (14), the Shunter (16) and the solver cores (17). -/

namespace Sys2Proof.Machine

/-- Reference PLL states (Table 13-2) in code order. -/
inductive Pll where
  | off | acquire | locked | holdover | freerun
  deriving DecidableEq, Repr

/-- Codes of Table 13-2. -/
def Pll.code : Pll → BitVec 3
  | .off => 0 | .acquire => 1 | .locked => 2 | .holdover => 3 | .freerun => 4

/-- Monitor states (R372) in code order. -/
inductive Mon where
  | unqualified | qualified | fault | dead
  deriving DecidableEq, Repr

/-- Codes of R372. -/
def Mon.code : Mon → BitVec 2
  | .unqualified => 0 | .qualified => 1 | .fault => 2 | .dead => 3

/-- REF_CFG fields (Table 13-5). -/
structure RefCfg where
  bw      : BitVec 2
  revert  : Bool
  priXo   : Bool
  priLane : BitVec 5
  secEn   : Bool
  secXo   : Bool
  secLane : BitVec 5
  fineTh  : BitVec 8
  hold    : BitVec 16
  deriving DecidableEq, Repr

/-- Domains that a switch can move. -/
inductive ClkDomain where
  | aon | refIn | cb | dp
  deriving DecidableEq, Repr

/-- A switch of a running domain under way (R374, R376): new source as a clock index, method, start. -/
structure ClkSwitch where
  domain  : ClkDomain
  /-- Clock index (Table 13-4) left and taken. -/
  src     : Nat
  dst     : Nat
  restart : Bool
  deriving DecidableEq, Repr

/-- The clock system. -/
structure Clk where
  cfg     : RefCfg
  pll     : Pll
  /-- ACTIVE: 0 none, 1 PRIMARY, 2 SECONDARY. -/
  active  : BitVec 2
  noFallback : Bool
  aonXo   : Bool
  cbPll   : Bool
  xoSel   : BitVec 2
  /-- XO_SEL holds its reserved code or does not name the oscillator that is fitted (R366). -/
  xoBad   : Bool
  ttHung  : BitVec 8
  switches : BitVec 8
  /-- Monitors of clocks 0 to 10 with their counts of clean windows, and the switches under way. -/
  mon     : Vector (Mon × Nat) 11
  sw      : List ClkSwitch
  /-- Model tick at which a revert hold began (R377). -/
  revertAt : Option Nat
  dpByp   : Bool
  cbDiv   : BitVec 2
  busy    : Bool
  done    : Bool
  err     : Bool
  gateSel : BitVec 4
  testSel : BitVec 4
  meterN  : BitVec 32
  result  : BitVec 48
  gateTo  : BitVec 16
  /-- Blocks whose gate request waits for bus quiet, and blocks whose gate is closed (block numbers of Table 19-2). -/
  gateReq : List Nat
  gated   : List Nat
  deriving DecidableEq, Repr

/-- What an entry or a wake is doing (Tables 14-5, 14-6, 14-9). -/
inductive PwrStep where
  | steady
  /-- Accepted: Q is still to come. -/
  | beforeQ
  | e1 | e2 | e3 | e4
  /-- Wake step W1 to W8 (1 to 8). -/
  | wake (n : Nat)
  /-- Undoing an abandoned entry (R400). -/
  | undo
  /-- Cold power-up (Table 14-9). -/
  | cold
  /-- Held after four failures (R406, R411). -/
  | hold
  deriving DecidableEq, Repr

/-- Power states, rails, wake and power-up. -/
structure Pwr where
  vin      : Bool
  st       : PwrState
  target   : PwrState
  bootStage : BitVec 3
  /-- FAULT: FAULT_N asserted under R406 or R411. -/
  fault    : Bool
  step     : PwrStep
  /-- Due time of the step: air tick of Q for `beforeQ`, model tick otherwise. -/
  stepDue  : Nat
  /-- Model tick of the acceptance of the request, or of the start of the wake, the undoing or the attempt. -/
  since    : Nat
  qAt      : Tick
  cmd      : Option CmdRef
  /-- Pending ALARM event of the request. -/
  alarm    : Option Nat
  wakeFrom : PwrState
  lastWake : BitVec 4
  /-- Wake source latched (coded as LAST_WAKE). -/
  latch    : Option (BitVec 4)
  attempts : Nat
  wakeCfg  : BitVec 26
  /-- A write of PWR_WAKE_CFG waiting for the next abort point. -/
  wakeCfgNext : Option (BitVec 26)
  wakeFail : BitVec 32
  /-- Abort point at which the entry under way was abandoned. -/
  point    : BitVec 2
  /-- The power-up march has ended (R528). -/
  memReady : Bool
  thermalMute : Bool
  /-- A thermal entry into DEEP ignores abort points, and its wake waits for every sensor below 100 °C (R388); `thermalSelf`: no wake
  source was enabled at the entry (R389). -/
  thermalDeep : Bool
  thermalSelf : Bool
  /-- Rails 0 to 8 ready, and phases of each buck replaced by its spare (rail, phase). -/
  rails    : BitVec 9
  spared   : List (Nat × Nat)
  phasesOut : List (Nat × Nat)
  /-- The time keeper has air time (R395) since a model tick. -/
  keeper   : Bool
  keeperAt : Nat
  /-- Synthesisers that were tuned at Q (R404). -/
  tuned    : BitVec 16
  /-- Paths that lack a stored calibration set after DEEP (R405). -/
  needCal  : BitVec 64
  /-- Carriers suspended by the entry and the frame boundary at which they resume (R405). -/
  resumeAt : Option Tick
  /-- The resumption follows a wake or an abandonment (R405). -/
  resumeWake : Bool
  deriving DecidableEq, Repr

/-- Shunter channel states (R450). -/
inductive ShuState where
  | idle | running | waiting | stopping
  deriving DecidableEq, Repr

/-- Codes of R450. -/
def ShuState.code : ShuState → BitVec 2
  | .idle => 0 | .running => 1 | .waiting => 2 | .stopping => 3

/-- An enclosing LOOP (R456): index of the first body word, TARGET, passes, i, whether the LOOP had LAST. -/
structure ShuLoop where
  body   : Nat
  target : Nat
  count  : Nat
  i      : Nat
  last   : Bool
  deriving DecidableEq, Repr

/-- What a WAIT waits for (R457). -/
inductive ShuWait where
  | at_ (due : Tick)
  | flag (m : Nat) (clear : Bool)
  | doorbell
  deriving DecidableEq, Repr

/-- One channel. -/
structure ShuChan where
  st      : ShuState
  prog    : BitVec 64
  wb      : BitVec 64
  pc      : Nat
  loops   : List ShuLoop
  tick    : Tick
  db      : BitVec 8
  crc     : BitVec 32
  bytes   : Nat
  bad     : BitVec 16
  lateWait : Bool
  stopped : Bool
  wait    : Option ShuWait
  waitEnd : Option Nat
  /-- LAST of the WAIT under way; the program ends after it. -/
  last    : Bool
  /-- Final status once the program is ending. -/
  ending  : Option Status
  /-- Whether any MOVE was bad with CODE 1 to 4. -/
  anyBad  : Bool
  /-- EXECS of each MOVE by instruction index. -/
  execs   : List (Nat × BitVec 16)
  cmd     : Option CmdRef
  /-- SHU_STOP commands that wait for this channel. -/
  stopCmds : List CmdRef
  deriving DecidableEq, Repr

/-- The Shunter. Program area words that nothing has written are undefined; capture slots hold samples or nothing. -/
structure Shu where
  chans    : Vector ShuChan 16
  flags    : BitVec 64
  /-- Flags set in the present cycle (R458). -/
  setNow   : BitVec 64
  /-- Of these, the flags that were 0 before: a WAIT finds them from the next cycle on. -/
  rose     : BitVec 64
  badCount : BitVec 32
  /-- Words of the program area that have been written, by word index, rising. -/
  prog     : List (Nat × BitVec 64)
  /-- Content of capture slots 0 to 63, for slots that hold any: 32-bit samples (R106); an empty list is a slot that
holds 0 throughout. -/
  caps     : List (Nat × List (BitVec 32))
  deriving DecidableEq, Repr

/-- Core states (Table 17-9) in code order. -/
inductive CoreState where
  | inService | spare | retired | testing
  deriving DecidableEq, Repr

/-- Codes of Table 17-9. -/
def CoreState.code : CoreState → BitVec 2
  | .inService => 0 | .spare => 1 | .retired => 2 | .testing => 3

/-- A banked context (Table 17-1). An accumulator lane is (I, Q). -/
structure Bank where
  pc    : BitVec 14
  s     : Vector (BitVec 32) 16
  x     : Vector (BitVec 18) 16
  xcfg  : Vector (BitVec 32) 16
  acc   : Vector (Vector (BitVec 48 × BitVec 48) 32) 4
  vmask : BitVec 32
  /-- Repetitions left of the instruction at `pc` under a REPT. -/
  rept  : Nat
  /-- Accumulators written by the last instruction and the one before (R482). -/
  wr1   : Option (BitVec 2)
  wr2   : Option (BitVec 2)
  deriving DecidableEq, Repr

/-- What a job of the dispatcher computes (R474). -/
inductive JobKind where
  /-- A weight group: its map, `confirmed` work or siding work, and the allocation that its set is for. -/
  | weight (carrier : Fin 8) (ul : Bool) (slot : Tick) (grp : Nat) (map : List (Nat × Nat)) (confirmed : Bool) (blk : Nat)
  /-- A stage of R331: 0 Gram, 1 solve, 2 apply. -/
  | chain (stage : Nat) (carrier : Fin 8) (ul : Bool) (slot : Tick) (grp : Nat) (map : List (Nat × Nat)) (blk : Nat)
  | smoothing (occ : Nat)
  | adapt (path : Fin 64) (fin : Nat)
  /-- A SOLVER_TEST; whether host memory refuses its response (input). -/
  | test (ref : CmdRef) (out : BitVec 64) (respErr : Bool)
  deriving DecidableEq, Repr

/-- A job waiting or in hand: deadline, cycle budget, kernel slot. -/
structure Job where
  kind     : JobKind
  deadline : Tick
  budget   : Nat
  kernel   : BitVec 2
  deriving DecidableEq, Repr

/-- One solver core. Data memory lists the words that have been written, by word index, rising; the others hold what power-up or a
background transfer left there: `genF` and `genB` count how often that became undefined in the two regions. -/
structure SolCore where
  st       : CoreState
  standsFor : BitVec 4
  lastCause : BitVec 4
  satcnt   : BitVec 16
  fgJobs   : BitVec 32
  fgCycles : BitVec 32
  faults   : BitVec 16
  watchdog : BitVec 16
  fg       : Bank
  bg       : Bank
  v        : Vector (Vector (BitVec 32) 32) 32
  data     : List (Nat × BitVec 32)
  genF     : Nat
  genB     : Nat
  /-- Banks whose unlisted words of the foreground and of the background region hold 0 (R530, R546). -/
  zeroF    : BitVec 8
  zeroB    : BitVec 8
  fgJob    : Option Job
  /-- The set that the foreground weight job computes: what was staged for it (R487). -/
  prep     : Option WSet
  bgJob    : Option Job
  /-- Cycles since entry of the foreground job (and of the background job). -/
  fgCyc    : Nat
  bgCyc    : Nat
  /-- Cycles of instructions already executed that the clock has still to count. -/
  ahead    : Nat
  /-- The background context issues. -/
  bgOn     : Bool
  /-- END has been reached in the foreground context with this S1. -/
  ended    : Option (BitVec 32)
  /-- What the library left (Table 17-7): exponent of the units of the Gram matrix in the scratch, the factorised matrix, the columns of W. -/
  gramExp  : Int
  factored : List (List (Q × Q))
  columns  : List (List (Q × Q))
  /-- Model tick at which a reset core takes jobs again. -/
  resetEnd : Option Nat
  deriving DecidableEq, Repr

/-- A user kernel slot (R478, R490). -/
structure Kernel where
  loaded    : Bool
  withdrawn : Bool
  entry     : BitVec 12
  code      : List (BitVec 32)
  c0        : BitVec 16
  c1        : BitVec 16
  c2        : BitVec 16
  c3        : BitVec 16
  deriving DecidableEq, Repr

/-- The solver. `used` counts admitted foreground cycles of the window that starts at `window` (R474). -/
structure Sol where
  cores  : Vector SolCore 9
  k1     : Kernel
  k2     : Kernel
  ready  : List Job
  window : Nat
  used   : Vector Nat 9
  deriving DecidableEq, Repr

/-- REF_CFG at power-up (Table 13-5). -/
def RefCfg.reset : RefCfg :=
  { bw := 1, revert := false, priXo := true, priLane := 0, secEn := false, secXo := false, secLane := 0, fineTh := 200, hold := 60 }

/-- The clock system at power-good (R385, Table 13-6). -/
def Clk.reset : Clk :=
  { cfg := RefCfg.reset, pll := .off, active := 0, noFallback := false, aonXo := false, cbPll := false, xoSel := 0, xoBad := false
    ttHung := 0, switches := 0, mon := Vector.replicate 11 (.unqualified, 0), sw := [], revertAt := none
    dpByp := false, cbDiv := 0, busy := false, done := false, err := false, gateSel := 0, testSel := 0, meterN := 0
    result := 0, gateTo := 0, gateReq := [], gated := [] }

/-- Power with VIN absent (Table 14-2 OFF, Tables 14-10 to 14-13). -/
def Pwr.reset : Pwr :=
  { vin := false, st := .off, target := .off, bootStage := 0, fault := false, step := .steady, stepDue := 0, since := 0, qAt := 0
    cmd := none, alarm := none, wakeFrom := .off, lastWake := 0, latch := none, attempts := 0, wakeCfg := 0
    wakeCfgNext := none, wakeFail := 0, point := 0, memReady := false, thermalMute := false, thermalDeep := false, thermalSelf := false, rails := 0
    spared := [], phasesOut := [], keeper := false, keeperAt := 0, tuned := 0, needCal := 0, resumeAt := none
    resumeWake := false }

/-- An IDLE channel (R472). -/
def ShuChan.reset : ShuChan :=
  { st := .idle, prog := 0, wb := 0, pc := 0, loops := [], tick := 0, db := 0, crc := 0xFFFFFFFF, bytes := 0, bad := 0
    lateWait := false, stopped := false, wait := none, waitEnd := none, last := false, ending := none, anyBad := false
    execs := [], cmd := none, stopCmds := [] }

/-- The Shunter at power-up (R472). -/
def Shu.reset : Shu :=
  { chans := Vector.replicate 16 ShuChan.reset, flags := 0, setNow := 0, rose := 0, badCount := 0, prog := [], caps := [] }

/-- A cleared register bank. -/
def Bank.reset : Bank :=
  { pc := 0, s := Vector.replicate 16 0, x := Vector.replicate 16 0, xcfg := Vector.replicate 16 0
    acc := Vector.replicate 4 (Vector.replicate 32 (0, 0)), vmask := 0, rept := 0, wr1 := none, wr2 := none }

/-- A core at power-up (R497). -/
def SolCore.reset (st : CoreState) : SolCore :=
  { st := st, standsFor := 0xF, lastCause := 0, satcnt := 0, fgJobs := 0, fgCycles := 0, faults := 0, watchdog := 0
    fg := Bank.reset, bg := Bank.reset, v := Vector.replicate 32 (Vector.replicate 32 0), data := [], genF := 0, genB := 0, zeroF := 0, zeroB := 0, fgJob := none, prep := none
    bgJob := none, fgCyc := 0, bgCyc := 0, ahead := 0, bgOn := false, ended := none, gramExp := 0, factored := [], columns := [], resetEnd := none }

/-- An empty kernel slot (R492, R497). -/
def Kernel.empty : Kernel :=
  { loaded := false, withdrawn := false, entry := 0, code := [], c0 := 0, c1 := 0, c2 := 0, c3 := 0 }

/-- The solver at power-up with no stored kernel (R497). -/
def Sol.reset : Sol :=
  { cores := (Vector.replicate 9 (SolCore.reset .inService)).set 8 (SolCore.reset .spare), k1 := Kernel.empty
    k2 := Kernel.empty, ready := [], window := 0, used := Vector.replicate 9 0 }

end Sys2Proof.Machine
end

