-- ==== Sys2Proof/Machine/StYm.lean ====
section
/-! DEFINITION. State of air time and the Yardmaster (chapter 02) and of the mode control (chapter 01). -/

namespace Sys2Proof.Machine

/-- Event kinds (Table 2-4) in code order. -/
inductive Kind where
  | dlSymbol | ulSymbol | sounding | burstTx | burstRx | pathState | mute | synthHop | synthRetune | phaseSync
  | obsCapture | hkTrigger | outputSet | pinEdge | calSlot | modeChange | config | alarm
  deriving DecidableEq, Repr

/-- Codes of Table 2-4. -/
def Kind.code : Kind → Nat
  | .dlSymbol => 1 | .ulSymbol => 2 | .sounding => 3 | .burstTx => 4 | .burstRx => 5 | .pathState => 6 | .mute => 7
  | .synthHop => 8 | .synthRetune => 9 | .phaseSync => 10 | .obsCapture => 11 | .hkTrigger => 12 | .outputSet => 13
  | .pinEdge => 14 | .calSlot => 15 | .modeChange => 16 | .config => 17 | .alarm => 18

/-- Release latencies L of Table 2-4, in ticks. -/
def Kind.latency : Kind → Int
  | .dlSymbol => 32768 | .ulSymbol => 4096 | .sounding => 4096 | .burstTx => 20480 | .burstRx => 4096
  | .pathState => 2048 | .mute => 2048 | .synthHop => 1024 | .synthRetune => 1024 | .phaseSync => 2048
  | .obsCapture => 8192 | .hkTrigger => 1024 | .outputSet => 2048 | .pinEdge => 1024 | .calSlot => 16384
  | .modeChange => 491520 | .config => 98304 | .alarm => 1024

/-- The traffic kinds (R56). -/
def Kind.traffic : Kind → Bool
  | .dlSymbol | .ulSymbol | .sounding | .burstTx | .burstRx => true
  | _ => false

/-- Who created an event (R68). -/
inductive Source where
  | cmd (ref : CmdRef) (tag : BitVec 16)
  | sarfaip (port : Nat) (tag : BitVec 16)
  | internal (o : Owner)
  deriving DecidableEq, Repr

/-- Causes of a LATE record (Table 2-6). -/
inductive Cause where
  | arrival | synthSettling | synthCalibrating | pathState | resourceBusy | dependency | rebase
  deriving DecidableEq, Repr

/-- Codes of Table 2-6. -/
def Cause.code : Cause → Nat
  | .arrival => 1 | .synthSettling => 2 | .synthCalibrating => 3 | .pathState => 4 | .resourceBusy => 5
  | .dependency => 6 | .rebase => 7

/-- What a CONFIG event changes. -/
inductive CfgChange where
  | pathReturn (paths : BitVec 64) (retTx : RetTx) (rxSleep : Bool)
  | pathLevels (paths : BitVec 64) (rx : Option (BitVec 5)) (tx : Option (BitVec 7))
  | carrier (c : Fin 8) (cfg : CarrierCfg)
  | carrierRemove (c : Fin 8)
  | weight (c : Fin 8) (cfg : WeightCfg)
  | cfr (band : Fin 2) (cfg : CfrCfg)
  | flow (c : Fin 8) (port : BitVec 3) (ordered : Bool) (mantM1 : BitVec 4)
  | kernel (c : Fin 8) (slot : BitVec 2)
  deriving DecidableEq, Repr

/-- A calibration burst to send (Table 7-4). -/
structure BurstTxPar where
  path  : Fin 64
  nsym  : Nat
  att   : BitVec 8
  pwr   : BitVec 8
  off   : BitVec 32
  user  : BitVec 16
  deriving DecidableEq, Repr

/-- What an event carries. -/
inductive EvBody where
  /-- One symbol of a C-plane section, on the antennas of its carrier: section number, symbol, length in ticks. -/
  | symbol (sec : Nat) (sym : Nat) (len : Nat)
  /-- One symbol of a sounding occasion. -/
  | sounding (occ : Nat) (sym : Nat) (len : Nat)
  | burstTx (p : BurstTxPar)
  /-- Burst window: paths, expected symbols, window length in samples, frequency offset word, tag. -/
  | burstRx (paths : BitVec 64) (nsym : Nat) (window : Nat) (off : BitVec 32) (tag : BitVec 16)
  | pathState (path : Fin 64) (target : PState)
  /-- A mute change of one path's chain; `cmd` tells a command mute from a symbol mute. -/
  | mute (path : Fin 64) (tx rx on cmd : Bool)
  | hop (paddock : Fin 8) (toB : Bool)
  | retune (synth : Fin 16) (op : SynthOp)
  | phaseSync
  /-- A DPD capture of a path with an observation receiver and length in ticks. -/
  | capture (path : Fin 64) (obs : Nat) (len : Nat)
  /-- A SHU_CAPTURE (R465): path, SOURCE, first slot, slots, length in ticks, flag. -/
  | shuCapture (path : Fin 64) (src first nslot len flag : Nat)
  | hkSweep (conv : Fin 2)
  | hkSpot (conv : Fin 2) (ch : Nat) (fmt : BitVec 2)
  /-- A halter (index 0 to 63) or rein (64 + n) output takes a value, or its safe value. -/
  | output (idx : Nat) (range : BitVec 2) (code : BitVec 16) (safe : Bool)
  | pinEdge (sec : Int)
  | calSlot (key : CalKey) (len : Nat)
  | modeChange
  | config (ch : CfgChange)
  | alarm
  deriving DecidableEq, Repr

/-- Ticks of a whole burst (Table 7-1). -/
def BurstTxPar.len (b : BurstTxPar) : Nat := 67584 + 9216 * b.nsym

/-- Ticks of a burst window's interval: to its close and the longest reception after it (R202). -/
def burstSpan (nsym window : Nat) : Nat := 32 * (window + 1856 + 288 * nsym)

/-- A pending event (R58, R59). `id` is the order of acceptance. -/
structure Event where
  id     : Nat
  group  : Nat
  kind   : Kind
  due    : Tick
  src    : Source
  res    : Res
  body   : EvBody
  /-- Air tick at which the command of the group completes (R424), when the Yardmaster completes it. -/
  doneAt : Option Tick
  /-- The group has passed the check at its earliest release tick (R66). -/
  judged : Bool
  deriving DecidableEq, Repr

/-- The release tick (R59). -/
def Event.release (e : Event) : Tick := e.due - e.kind.latency

/-- A change that has been released and takes effect at a cycle of the datapath clock to come. -/
inductive Act where
  /-- A command completes. -/
  | complete (ref : CmdRef) (st : Status) (result : BitVec 32)
  /-- A decided path change begins; a decided synthesiser operation begins. -/
  | pathStart (p : Fin 64)
  | synthStart (i : Fin 16)
  | hop (k : Fin 8) (toB : Bool)
  | phaseSync
  | mute (path : Fin 64) (tx rx on cmd : Bool)
  /-- A CONFIG change takes effect; its number of acceptance. -/
  | cfg (ch : CfgChange) (ord : Nat)
  | output (idx : Nat) (range : BitVec 2) (code : BitVec 16) (safe : Bool)
  | pps
  | alarmFire
  /-- The start point of the transition whose MODE_CHANGE has been released. -/
  | modeStart
  deriving DecidableEq, Repr

/-- An Act with its cycle. -/
structure Timed where
  due : Nat
  act : Act
  deriving DecidableEq, Repr

/-- Air time and the event table. -/
structure Ym where
  air     : AirState
  /-- Air ticks from the air epoch now (R50). -/
  now     : Tick
  offset  : BitVec 32
  events  : List Event
  nextId  : Nat
  hwm     : Nat
  late    : BitVec 32
  full    : BitVec 32
  timed   : List Timed
  deriving DecidableEq, Repr

/-- A mode transition pending or in progress (R33 to R46). -/
structure Transition where
  ref      : CmdRef
  target   : Mode
  parent   : Mode
  drop     : Bool
  autoCal  : Bool
  bandA    : BitVec 32
  bandB    : BitVec 32
  start    : Tick
  started  : Bool
  seamless : Bool
  /-- Free value behind the time that AUTO_CAL adds (the model's own, R36). -/
  calFree  : Nat
  /-- Datapath cycle at which the transition's work ends, and the air tick at which traffic resumes; foretold until the start. -/
  endDp    : Nat
  resume   : Tick
  fromMode : Mode
  removed  : BitVec 8
  /-- A fault was raised while it ran (R45). -/
  faulted  : Bool
  /-- Results it invalidates (Table 1-7), and paths whose DPD state it invalidates. -/
  redo     : List CalKey
  reseed   : BitVec 64
  deriving DecidableEq, Repr

/-- Mode control (R23). A band's LO is in kHz, 0 before it is set. `prof` and `plo` are the analogue profile and the LO of
each paddock in force, which CALIBRATE keeps; `bias` the RX bias in force. -/
structure ModeCtl where
  cur     : Mode
  parent  : Mode
  prof    : Profile
  bias    : RxBias
  plo     : Vector (BitVec 32) 8
  bandA   : BitVec 32
  bandB   : BitVec 32
  trans   : Option Transition
  deriving DecidableEq, Repr

/-- Air time at power-up (Tables 2-7, 2-8). -/
def Ym.reset : Ym :=
  { air := .noTime, now := 0, offset := 0, events := [], nextId := 0, hwm := 0, late := 0, full := 0, timed := [] }

/-- The mode after a cold power-up (R31). -/
def ModeCtl.reset : ModeCtl := { cur := .bringup, parent := .full, prof := .pb, bias := Profile.rxBias .pb, plo := Vector.replicate 8 0, bandA := 0, bandB := 0, trans := none }

end Sys2Proof.Machine
end

