-- ==== Sys2Proof/Machine/State.lean ====
section
/-! DEFINITION. The state of the block, the stops and the state before power-good. -/

namespace Sys2Proof.Machine

/-- Faults that stop the model: none. Every command of the table has an effect the manual gives in every state (or none,
where its condition does not hold), so no constructor exists; safe. -/
inductive Fault where
  deriving DecidableEq, Repr

/-- Refusals. -/
inductive Refusal where
  /-- Raised by the dispatcher for a command without a meaning; safe: nothing is claimed of it. -/
  | notModelled (mnemonic : String)
  deriving DecidableEq, Repr

/-- What the counters that a read clears, and the flags that a write of 1 clears, held when the present control-bus cycle began
(Table 0-4). -/
structure RcBase where
  badAccess : BitVec 16
  ttHung    : BitVec 8
  switches  : BitVec 8
  gateTo    : BitVec 16
  late      : BitVec 32
  full      : BitVec 32
  lost      : BitVec 16
  shuBad    : BitVec 32
  ovr0      : BitVec 16
  ovr1      : BitVec 16
  corr      : BitVec 32
  uncorr    : BitVec 32
  fails     : BitVec 8
  done      : Bool
  err       : Bool
  wakeFail  : BitVec 32
  deriving DecidableEq, Repr

/-- The block. -/
structure State where
  /-- Commands that wait, first in, first out. -/
  pending : List Instr
  /-- What the device has sent out, oldest first (the model's own record). -/
  out     : List Out
  /-- How many free values have been taken (the model's own counter). -/
  free    : Nat
  /-- Cycles of the datapath clock (one tick each, R56) since power-good. -/
  dp      : Nat
  /-- What Table 0-4 compares with in the present control-bus cycle. -/
  rc      : RcBase
  host    : HostIf
  ym      : Ym
  mode    : ModeCtl
  radio   : Radio
  conv    : Conv
  ofdm    : Ofdm
  burst   : Burst
  quality : Vector Quality 64
  lin     : Linear
  cal     : Cal
  fh      : Fh
  hit     : Hitch
  time    : Time
  clk     : Clk
  pwr     : Pwr
  shu     : Shu
  sol     : Sol
  sup     : Sup
  mem     : Mem
  sec     : Sec
  tack    : Tack
  pkg     : Pkg
  deriving DecidableEq, Repr

/-- Nothing counted, no flag set. -/
def RcBase.reset : RcBase :=
  { badAccess := 0, ttHung := 0, switches := 0, gateTo := 0, late := 0, full := 0, lost := 0, shuBad := 0, ovr0 := 0, ovr1 := 0
    corr := 0, uncorr := 0, fails := 0, done := false, err := false, wakeFail := 0 }

/-- VIN absent, nothing stored: the machine before its first power-good. -/
def State.reset : State :=
  { pending := [], out := [], free := 0, dp := 0, rc := RcBase.reset, host := HostIf.reset, ym := Ym.reset, mode := ModeCtl.reset
    radio := Radio.reset, conv := Conv.reset, ofdm := Ofdm.reset, burst := Burst.reset
    quality := Vector.replicate 64 Quality.reset, lin := Linear.reset, cal := Cal.reset, fh := Fh.reset
    hit := Hitch.reset, time := Time.reset, clk := Clk.reset, pwr := Pwr.reset, shu := Shu.reset, sol := Sol.reset
    sup := Sup.reset, mem := Mem.reset, sec := Sec.reset, tack := Tack.reset, pkg := Pkg.reset }

/-- What a meaning answers. -/
abbrev R := Host.Outcome State Fault Refusal

end Sys2Proof.Machine
end

