-- ==== Sys2Proof/Machine/Ops.lean ====
section
/-! DEFINITION. Named operations shared by all meanings: access to fields, records, the event queue, MSI-X, the tack-store
queue, the fault arbiter's entry, completions and the schedule of effects. -/

namespace Sys2Proof.Machine

/-- Replace an element of a vector. -/
def vset {α : Type} {n : Nat} (v : Vector α n) (i : Fin n) (x : α) : Vector α n := v.set i.val x i.isLt

/-- Change an element of a vector. -/
def vmod {α : Type} {n : Nat} (v : Vector α n) (i : Fin n) (f : α → α) : Vector α n := vset v i (f v[i])

/-- A number as an index of `n` things, if it is one. -/
def toFin (n x : Nat) : Option (Fin n) := if h : x < n then some ⟨x, h⟩ else none

/-- The indices below `n` of the bits set in `m`, ascending. -/
def bitsOf (n m : Nat) : List Nat := (List.range n).filter fun i => m.testBit i

/-- The indices of the bits set in a bit vector, as indices of `w` things. -/
def setBits {w : Nat} (m : BitVec w) : List (Fin w) := (List.finRange w).filter fun i => m.getLsbD i.val

/-- A bit field of a payload: `w` bits from bit `lo` of byte `byte` (R10). -/
def pf {n : Nat} (p : BitVec n) (byte lo w : Nat) : BitVec w := p.extractLsb' (8 * byte + lo) w

/-- A single bit of a payload. -/
def pb {n : Nat} (p : BitVec n) (byte lo : Nat) : Bool := p.getLsbD (8 * byte + lo)

/-- The signed 16-bit value of a field. -/
def sgn {w : Nat} (x : BitVec w) : Int := x.toInt

/-- Round up a division. -/
def cdiv (a b : Int) : Int := -((-a) / b)

-- Addressed contents: (index, value) pairs, indices strictly rising

/-- Store a value at an index. -/
def cellPut {α : Type} (k : Nat) (x : α) : List (Nat × α) → List (Nat × α)
  | [] => [(k, x)]
  | (j, y) :: r => if k < j then (k, x) :: (j, y) :: r else if k = j then (k, x) :: r else (j, y) :: cellPut k x r

/-- Take an index out of the list. -/
def cellDel {α : Type} (k : Nat) (l : List (Nat × α)) : List (Nat × α) := l.filter fun c => c.1 != k

/-- The value listed at an index. -/
def cellGet {α : Type} (k : Nat) : List (Nat × α) → Option α
  | [] => none
  | (j, y) :: r => if j = k then some y else cellGet k r

/-- Indices rise strictly, all above a bound. -/
def cellsFrom {α : Type} : Nat → List (Nat × α) → Bool
  | _, [] => true
  | b, (j, _) :: r => decide (b ≤ j) && cellsFrom (j + 1) r

/-- The canonical form: indices rise strictly. -/
def cellsWf {α : Type} (l : List (Nat × α)) : Bool := cellsFrom 0 l

/-- Store successive values from an index on. -/
def cellPuts {α : Type} (k : Nat) : List α → List (Nat × α) → List (Nat × α)
  | [], m => m
  | x :: xs, m => cellPuts (k + 1) xs (cellPut k x m)

/-- Write one beam-table entry; entries of zeros are not listed (R152). -/
def putBeam (l : List (Nat × List (BitVec 32))) (n : Nat) (e : List (BitVec 32)) : List (Nat × List (BitVec 32)) :=
  if e.all fun w => w == 0 then cellDel n l else cellPut n e l

/-- The beam table is in canonical form: indices rise, and no entry of zeros is listed. -/
def beamsWf (l : List (Nat × List (BitVec 32))) : Bool := cellsWf l && l.all fun c => c.2.any fun w => w != 0

/-- A word of data memory that is not listed holds 0 (R530, R546): power-up or a destroying march has cleared its bank. -/
def SolCore.zeroAt (m : SolCore) (i : Nat) : Bool := (if i < 32768 then m.zeroF else m.zeroB).getLsbD (i / 32 % 8)

/-- Write a word of data memory; one that reads 0 unlisted is not listed for a 0. -/
def SolCore.put (m : SolCore) (i : Nat) (v : BitVec 32) : SolCore :=
  if v = 0 ∧ m.zeroAt i = true then { m with data := cellDel i m.data } else { m with data := cellPut i v m.data }

/-- The data memory of a core is in canonical form. -/
def SolCore.dataWf (m : SolCore) : Bool := cellsWf m.data && m.data.all fun c => !(c.2 == 0 && m.zeroAt c.1)

-- Output and free values

/-- Send something out. -/
def State.emit (s : State) (o : Out) : State := { s with out := s.out ++ [o] }

/-- Take a free value of `w` bits. -/
def State.takeFree (s : State) (w : Nat) : BitVec w × State := (Config.freeBits w s.free, { s with free := s.free + 1 })

/-- A number that the spec gives a range, and that no check covers, acts as given inside the range, and outside it as some value of the
range (R2): a free value. -/
def State.within (s : State) (lo hi n : Nat) : Nat × State :=
  if lo ≤ n ∧ n ≤ hi then (n, s) else let f := s.takeFree 16; (lo + f.1.toNat % (hi + 1 - lo), f.2)

/-- A field of a record, from the least significant bit upward: a value, or reserved bits, which read undefined (R16). -/
inductive Fld where
  | v (w x : Nat)
  | u (w : Nat)
  /-- A value of which only the range is given: `n` values from `lo` up. -/
  | r (w lo n : Nat)
  deriving DecidableEq, Repr

/-- Put fields together from the lowest bit; reserved bits take free values. -/
def packFlds : List Fld → Nat → Nat × Nat
  | [], fr => (0, fr)
  | .v w x :: fs, fr => let r := packFlds fs fr; (x % 2 ^ w + 2 ^ w * r.1, r.2)
  | .r w lo n :: fs, fr => let r := packFlds fs (fr + 1); ((lo + (Config.freeBits w fr).toNat % n) % 2 ^ w + 2 ^ w * r.1, r.2)
  | .u w :: fs, fr => let r := packFlds fs (fr + 1); ((Config.freeBits w fr).toNat + 2 ^ w * r.1, r.2)

/-- A record of `n` bytes (R10). -/
def State.record (s : State) (n : Nat) (fs : List Fld) : Bytes × State :=
  let r := packFlds fs s.free
  (leBytes n r.1, { s with free := r.2 })

/-- A 32-bit register value. -/
def State.reg32 (s : State) (fs : List Fld) : BitVec 32 × State :=
  let r := packFlds fs s.free
  (BitVec.ofNat 32 r.1, { s with free := r.2 })

/-- A boolean as a number. -/
def b2n (b : Bool) : Nat := if b then 1 else 0

/-- Big-endian bytes (R10). -/
def beBytes (n x : Nat) : Bytes := (leBytes n x).reverse

-- Time

/-- TB2 in whole ns: one tick is 3125/3072 ns (R50, R357). -/
def State.tb2Ns (s : State) : Nat := s.time.tb2 * 3125 / 3072

/-- The air-time word of a tick (Table 2-2). -/
def airWord (n : Tick) : BitVec 64 :=
  BitVec.ofInt 32 (n / frameTicks) ++ BitVec.ofInt 32 (n % frameTicks)

/-- An air-time word as fields of a record (Table 2-2): the reserved bits read undefined; a word of 0 stands for no air time. -/
def airFlds (w : BitVec 64) : List Fld :=
  if w = 0 then [.v 64 0] else [.v 24 (w.extractLsb' 0 24).toNat, .u 8, .v 32 (w.extractLsb' 32 32).toNat]

/-- An air-time word is in its format (R52). -/
def airWordOk (w : BitVec 64) : Bool := ((w.extractLsb' 0 24).toNat : Int) < frameTicks && w.extractLsb' 24 8 == 0

/-- The air tick an air-time word names, its frame taken within 2^31 frames of now (R53). -/
def State.ofAirWord (s : State) (w : BitVec 64) : Tick :=
  let fNow := s.ym.now / frameTicks
  let d := (w.extractLsb' 32 32 - BitVec.ofInt 32 fNow).toInt
  (fNow + d) * frameTicks + (w.extractLsb' 0 24).toNat

/-- Air time counts (R56). -/
def State.counting (s : State) : Bool := s.ym.air != .noTime

/-- The air-time word now; 0 in NO_TIME. -/
def State.atNow (s : State) : BitVec 64 := if s.counting then airWord s.ym.now else 0

/-- The frame now; 0xFFFF_FFFF in NO_TIME (Tables 18 to 21: field F of events). -/
def State.frameNow (s : State) : Nat :=
  if s.counting then (BitVec.ofInt 32 (s.ym.now / frameTicks)).toNat else 0xFFFFFFFF

/-- The datapath cycle of an air tick (R56: one tick per cycle). -/
def State.dpOf (s : State) (t : Tick) : Nat := ((s.dp : Int) + (t - s.ym.now)).toNat

/-- The air tick of a datapath cycle. -/
def State.airOf (s : State) (c : Nat) : Tick := s.ym.now + ((c : Int) - s.dp)

/-- The first multiple of `m` at or after `t`. -/
def ceilTo (m t : Int) : Int := cdiv t m * m

-- MSI-X

/-- Send the message of a vector; a masked vector keeps it pending, as PCI Express defines it (R414, R433). -/
def State.sendMsix (s : State) (v : BitVec 5) : State :=
  let i : Fin 32 := v.toFin
  if s.host.msix[i].masked then
    { s with host := { s.host with msix := vmod s.host.msix i fun e => { e with pending := true } } }
  else s.emit (.msix v)

-- The internal event queue (R434, R435)

/-- Whether an event may take one of the last 32 places: time anchors, fault events, ring events (R435). -/
def EvtEntry.reserved (e : EvtEntry) : Bool :=
  e.type == 0x0D || e.type == 0x0E || (e.type == 0x0A && e.body.length == 32)

/-- Place an event: in order of its tick, and within a tick by TYPE (R434). -/
def insertEv (t : Nat) (e : EvtEntry) : List QItem → List QItem
  | [] => [.ev t e]
  | .ev t' e' :: q =>
    if t' = t ∧ e.type < e'.type then .ev t e :: .ev t' e' :: q else .ev t' e' :: insertEv t e q
  | .overflow :: q => .overflow :: insertEv t e q

/-- Places taken in the queue. -/
def evPlaces (q : List QItem) : Nat := (q.filter fun i => match i with | .ev _ _ => true | .overflow => false).length

/-- Discard an event: counted in LOST; the first of a run leaves the place of EVT_OVERFLOW (R435). -/
def EvtRing.discard (r : EvtRing) : EvtRing :=
  { r with lost := satInc r.lost, ovf := r.ovf + 1
           queue := if r.ovf = 0 ∧ ¬ r.stopped then r.queue ++ [.overflow] else r.queue }

/-- τ3 in counts of 2^-40/3 ns (R341). -/
def State.tau3 (s : State) : Int := s.time.tb[if s.time.sel then (1 : Fin 2) else 0].count - s.time.b

/-- Seconds and whole ns of a count of 2^-40/3 ns. -/
def secNs (c : Int) : Int × Int := let ns := c / (3 * 2 ^ 40); (ns / 1000000000, ns % 1000000000)

/-- The body of a time anchor of the present tick (Table 12-3). -/
def State.anchorBody (s : State) : Bytes × State :=
  let t := secNs s.tau3
  let valid : List Fld := if s.counting then airFlds s.atNow ++ [.v 48 (BitVec.ofInt 48 t.1).toNat, .v 32 t.2.toNat] else [.u 64, .u 48, .u 32]
  s.record 32 ([.v 8 1, .v 1 (b2n s.time.sel), .v 1 (b2n (s.time.b != 0)), .v 1 (b2n s.counting), .u 5, .u 16, .v 64 s.tb2Ns] ++ valid ++ [.u 16])

/-- Post one entry (R434, R435, R439), behind all others if `last`: an anchor that finds a place becomes the one that precedes what follows. -/
def State.postOne (s : State) (type : BitVec 8) (body : Bytes) (last : Bool := false) : State :=
  let r := s.host.evt
  let e : EvtEntry := { type := type, stamp := BitVec.ofNat 32 s.tb2Ns, body := body }
  let fits : Bool := !r.stopped && decide (evPlaces r.queue < (if e.reserved then 512 else 480))
  let r' := if fits then { r with queue := if last then r.queue ++ [.ev s.dp e] else insertEv s.dp e r.queue } else r.discard
  let anchor : Bool := fits && type == 0x0A && body.length == 32
  { s with host := { s.host with evt := r' }, time := if anchor then { s.time with anchorAt := some s.time.tb2 } else s.time }

/-- Post an event (R434), with a further anchor before it where the one that precedes it lies 2^31 ns or more back (R358). -/
def State.post (s : State) (type : BitVec 8) (body : Bytes) : State :=
  let far : Bool := match s.time.anchorAt with
    | some t => !(type == 0x0A && body.length == 32) && decide (2 ^ 31 ≤ (s.time.tb2 - t) * 3125 / 3072)
    | none => false
  if far then let b := s.anchorBody; (b.2.postOne 0x0A b.1).postOne type body true else s.postOne type body

/-- Post an event whose body is a record. -/
def State.postRec (s : State) (type : BitVec 8) (n : Nat) (fs : List Fld) : State :=
  let r := s.record n fs
  r.2.post type r.1

/-- A resource as two bytes of a record: RES_INDEX, RES_CLASS (Table 2-5). -/
def resFlds (r : Res) : List Fld := [.v 12 r.idx, .v 4 r.cls]

/-- The ring event (Table 15-12). -/
def State.postRing (s : State) (code ring tag index lost : Nat) : State :=
  s.postRec 0x0E 8 [.v 8 code, .v 4 ring, .u 4, .v 16 tag, .v 16 index, .v 16 lost]

/-- The spare event (R545). -/
def State.postSpare (s : State) (code kind : Nat) (r : Res) : State :=
  s.postRec 0x11 8 ([.v 8 code, .v 8 kind] ++ resFlds r ++ [.v 32 s.frameNow])

/-- The supervision event (R522). -/
def State.postSup (s : State) (code index pcount : Nat) : State :=
  s.postRec 0x10 8 [.v 8 code, .v 16 index, .v 8 pcount, .v 32 s.frameNow]

/-- The security event (R563). -/
def State.postSec (s : State) (code type cause slot : Nat) : State :=
  s.postRec 0x12 8 [.v 8 code, .v 8 type, .v 8 cause, .v 8 slot, .v 32 s.frameNow]

/-- The calibration event (Table 9-7). -/
def State.postCal (s : State) (code id : Nat) (r : Res) : State :=
  s.postRec 0x07 8 ([.v 8 code, .v 8 id] ++ resFlds r ++ [.v 32 s.frameNow])

-- The schedule of effects

/-- A CONFIG change that takes effect with another goes by acceptance (R136). -/
def Act.goesBefore (a b : Act) : Bool := match a, b with | .cfg _ m, .cfg _ n => decide (m < n) | _, _ => false

/-- Order of the schedule: by cycle, then as placed, CONFIG changes in order of acceptance. -/
def insertTimed (t : Timed) : List Timed → List Timed
  | [] => [t]
  | x :: xs => if t.due < x.due ∨ (t.due = x.due ∧ t.act.goesBefore x.act = true) then t :: x :: xs else x :: insertTimed t xs

/-- Schedule an effect at a datapath cycle. -/
def State.at_ (s : State) (due : Nat) (a : Act) : State :=
  { s with ym := { s.ym with timed := insertTimed { due := due, act := a } s.ym.timed } }

-- The tack store's queue (R272)

/-- Regions that stay writable in the state of R274: ROLLBACK, LEDGER and FAULT_LOG (and the DIRECTORY). -/
def sectorAlways (n : Nat) : Bool := n ≤ 1 || (3 ≤ n && n ≤ 4) || (9 ≤ n && n ≤ 16) || (457 ≤ n && n ≤ 520)

/-- Queue one sector write; a read-only region stores nothing (R274). -/
def State.tackPut (s : State) (sector : Nat) (r : TackRec) (cmd : Option CmdRef := none) : State :=
  if s.tack.readOnly && !sectorAlways sector then s
  else { s with tack := { s.tack with queue := s.tack.queue ++ [{ sector := sector, rec_ := r, cmd := cmd, retried := false }] } }

/-- Write or rewrite the ledger record of a resource (R542): both copies of the LEDGER region. -/
def State.ledgerPut (s : State) (kind cause : Nat) (r : Res) (detail : BitVec 64) (cmd : Option CmdRef := none) : State :=
  let rec_ : LedgerRec := { kind := BitVec.ofNat 8 kind, cause := BitVec.ofNat 8 cause, res := r, detail := detail, boots := s.tack.boots }
  (s.tackPut 9 (.ledger rec_)).tackPut 13 (.ledger rec_) cmd

-- Faults: records and entry (R440, R446)

/-- States of a fault record (Table 15-13). -/
inductive FRec where
  | raised | queued | preempted | restarted | escalated | complete
  deriving DecidableEq, Repr

/-- Codes of STATE (Table 15-13). -/
def FRec.code : FRec → Nat
  | .raised => 0 | .queued => 1 | .preempted => 2 | .restarted => 3 | .escalated => 4 | .complete => 5

/-- Post a fault event and write its record to the FAULT_LOG region (R446). -/
def State.faultRec (s : State) (st : FRec) (f : HeldFault) : State :=
  let r := s.record 32 ([.v 3 st.code, .v 2 f.level, .v 3 f.code.cls.code, .v 8 f.code.code.toNat] ++ resFlds f.res ++
    [.v 16 f.id.toNat, .v 16 f.refId.toNat, .v 16 s.host.arb.d2dErr.toNat, .u 16] ++ airFlds s.atNow ++
    [.v 32 s.tack.boots.toNat, .v 64 s.tb2Ns])
  (r.2.post 0x0D r.1).tackPut 457 (.faultLog r.1)

/-- Change the arbiter's held faults. -/
def State.setHeld (s : State) (h : List HeldFault) : State :=
  { s with host := { s.host with arb := { s.host.arb with held := h } } }

/-- Change one held fault. -/
def State.modHeld (s : State) (id : BitVec 16) (f : HeldFault → HeldFault) : State :=
  s.setHeld (s.host.arb.held.map fun (h : HeldFault) => if h.id = id then f h else h)

/-- The next FAULT_ID (R446). -/
def State.nextFaultId (s : State) : BitVec 16 × State :=
  (s.tack.nextFault, { s with tack := { s.tack with nextFault := s.tack.nextFault + 1 } })

/-- A fault raised while a transition runs fails it (R45). -/
def State.faultTrans (s : State) : State :=
  { s with mode := { s.mode with trans := s.mode.trans.map fun (t : Transition) => { t with faulted := t.faulted || t.started } } }

/-- A new fault that escalates nothing enters the arbiter (R442), and fails a transition in progress (R45): it pre-empts a
running recovery of a lower class, and otherwise waits; RAISED is recorded, and QUEUED when the arbiter holds others. -/
def State.enterFault (s : State) (code : FCode) (res : Res) (level : Nat) : State :=
  let i := s.nextFaultId
  let s := i.2
  let run := s.host.arb.held.find? fun h => h.hold == .running
  let pre : Bool := match run with | some r => decide (code.cls.code < r.code.cls.code) | none => false
  let f : HeldFault :=
    { code := code, res := res, level := level, id := i.1
      refId := match run with | some r => if pre then r.id else i.1 | none => i.1
      hold := .queued, ever := false, started := 0, raised := s.dp }
  let s := s.faultRec .raised f
  let s := match run with
    | some r => if pre then
        (s.modHeld r.id fun (h : HeldFault) => { h with hold := .preempted }).faultRec .preempted r
      else s.faultRec .queued f
    | none => if s.host.arb.held.isEmpty then s else s.faultRec .queued f
  s.faultTrans.setHeld (s.host.arb.held ++ [f])

/-- A fault of the host class, which never escalates (R443). -/
def State.hostFault (s : State) (code : FCode) (idx : Nat) : State := s.enterFault code { cls := 9, idx := idx } 0

-- Rings

/-- Change a ring. -/
def State.modRing (s : State) (n : Fin 16) (f : Ring → Ring) : State :=
  { s with host := { s.host with rings := vmod s.host.rings n f } }

/-- Entries of a command ring (R416). -/
def Ring.size (r : Ring) : Nat := 2 ^ r.log2.toNat

/-- Commands fetched whose completions the host has not consumed (Table 15-3). -/
def Ring.outstanding (r : Ring) : Nat := r.slots.length + r.unread

/-- The slot of a command. -/
def State.slot? (s : State) (c : CmdRef) : Option Slot := s.host.rings[c.ring].slots.find? fun x => x.seq == c.seq

/-- OPCODE, TAG and flags of an entry (Table 15-4). -/
def Slot.opcode (x : Slot) : BitVec 8 := pf x.entry 0 0 8
def Slot.tag (x : Slot) : BitVec 16 := pf x.entry 2 0 16
def Slot.fence (x : Slot) : Bool := pb x.entry 1 7
def Slot.timed (x : Slot) : Bool := pb x.entry 1 6
def Slot.halt (x : Slot) : Bool := pb x.entry 1 5
def Slot.irq (x : Slot) : Bool := pb x.entry 1 4
def Slot.indirect (x : Slot) : Bool := pb x.entry 1 3
def Slot.at_ (x : Slot) : BitVec 64 := pf x.entry 8 0 64

/-- Opcodes whose OK completions are folded into CFG_DIGEST (R561). -/
def cfgSet : List (BitVec 8) :=
  [0x10, 0x20, 0x21, 0x28, 0x30, 0x38, 0x40, 0x41, 0x43, 0x49, 0x50, 0x51, 0x52, 0x58, 0x60, 0x61, 0x68, 0x78, 0x79,
   0x88, 0x81, 0x94, 0x99]

/-- Fold a command into CFG_DIGEST (R561). -/
def State.foldCfg (s : State) (x : Slot) : State :=
  { s with sec := { s.sec with
      cfgDigest := Config.sha3 (s.sec.cfgDigest ++ [x.opcode] ++ leBytes 40 x.payload.toNat)
      cfgCount := s.sec.cfgCount + 1 } }

/-- A ring enters STOPPED and the fault is raised (R439): `fault` FETCH_BUS_ERR or CPL_BUS_ERR, `idx` the index named. -/
def State.stopRing (s : State) (n : Fin 16) (fault : FCode) (idx : Nat) : State :=
  let s := s.modRing n fun r => { r with st := .stopped, release := none }
  (s.hostFault fault (0x800 + n.val)).postRing 3 n.val 0 idx 0

/-- Write a completion (R421, R432, R433) and hold the ring where R437 says so. A command unknown to its ring, or of a
ring that is STOPPED, writes nothing (R439, R570). -/
def State.complete (s : State) (c : CmdRef) (st : Status) (result : BitVec 32 := 0) : State :=
  match s.slot? c with
  | none => s
  | some x =>
    let r := s.host.rings[c.ring]
    let rest := r.slots.filter fun y => y.seq != c.seq
    let s := s.modRing c.ring fun r => { r with slots := rest }
    if r.st = .stopped then s
    else if x.cplErr then
      (s.emit (.cplUndefined c.ring r.cplIdx)).stopRing c.ring .cplBusErr r.cplIdx
    else
      let e : Completion := { tag := x.tag, status := st, phase := r.phase, ring := c.ring, stamp := BitVec.ofNat 32 s.tb2Ns, result := result, cmdHead := BitVec.ofNat 16 r.head, index := BitVec.ofNat 16 x.index }
      let wrap := r.cplIdx + 1 = r.size
      let s := (s.emit (.cpl r.cplIdx e)).modRing c.ring fun r =>
        { r with cplIdx := if wrap then 0 else r.cplIdx + 1, phase := if wrap then !r.phase else r.phase, unread := r.unread + 1 }
      let s := if x.irq then s.sendMsix r.vec else s
      let s := if st = .ok ∧ x.opcode ∈ cfgSet then s.foldCfg x else s
      if st.failed && st != .fencedOut && (x.fence || r.strict || x.halt) && (r.st == .running || r.st == .held) then
        (s.modRing c.ring fun r => { r with st := .held }).postRing 1 c.ring.val x.tag.toNat x.index 0
      else s

/-- Change the stage of a command. -/
def State.setStage (s : State) (c : CmdRef) (g : Stage) : State :=
  s.modRing c.ring fun r => { r with slots := r.slots.map fun x => if x.seq = c.seq then { x with stage := g } else x }

/-- A command's effect is done and a later step writes its completion (R424). -/
def State.finish (s : State) (c : CmdRef) (st : Status) (result : BitVec 32 := 0) : State :=
  s.setStage c (.finishing st result)

-- Pins

/-- FAULT_N is asserted in the safe state and under R406 and R411 (R447). -/
def State.setFaultN (s : State) : State :=
  let low := s.host.top.safe || s.pwr.fault
  if s.pkg.faultN = low then s
  else { s with pkg := { s.pkg with faultN := low } }.emit (.pin "FAULT_N" (!low))

end Sys2Proof.Machine
end

