-- ==== Sys2Proof/Machine/Operands.lean ====
section
/-! DEFINITION. Command entries and their payloads: the entry check of R420, and what every host command goes through. -/

namespace Sys2Proof

/-- The reference of a command. -/
def Cmd.ref (c : Cmd) : Machine.CmdRef := { ring := c.ring, seq := c.seq }

end Sys2Proof

namespace Sys2Proof.Machine

/-- Timing of a command (R423). -/
inductive Timing where
  | t | o | u
  deriving DecidableEq, Repr

/-- What Table 15-8, Table 15-10 and the payload tables give an opcode: its timing, the option bits allowed
(DUMP 4, DETAIL 2, CLEAR 1), and the payload bits that are not reserved, as (byte, bit, width). -/
structure OpInfo where
  timing : Timing
  opts   : Nat
  used   : List (Nat × Nat × Nat)
  deriving DecidableEq, Repr

/-- The common payload of a status command (R425) with the bits of SPECIFIC and of SELECT that Table 15-10 gives. -/
def statusInfo (opts selBits : Nat) (spec : List (Nat × Nat × Nat) := []) : OpInfo :=
  { timing := .u, opts := opts, used := [(0, 0, selBits), (8, 0, 64), (16, 0, 32)] ++ spec }

/-- Opcodes 0x01 to 0x3F (Table 15-8 and the payload tables of chapters 01 to 07). -/
def opInfoLow (op : Nat) : Option OpInfo :=
  match op with
  | 0x01 => some ⟨.u, 0, []⟩
  | 0x02 => some ⟨.u, 0, [(0, 0, 16)]⟩
  | 0x03 => some ⟨.u, 0, [(0, 0, 16), (4, 0, 64)]⟩
  | 0x04 => some ⟨.u, 0, [(0, 0, 8)]⟩
  | 0x05 => some (statusInfo 0 64 [(20, 0, 48)])
  | 0x10 => some ⟨.o, 0, [(0, 0, 4), (1, 0, 2), (2, 0, 4), (4, 0, 64)]⟩
  | 0x11 => some ⟨.u, 0, []⟩
  | 0x12 => some ⟨.o, 0, []⟩
  | 0x13 => some ⟨.u, 0, [(0, 0, 3), (1, 0, 1), (8, 0, 64)]⟩
  | 0x14 => some ⟨.o, 0, [(0, 0, 64), (8, 0, 3)]⟩
  | 0x18 => some ⟨.o, 0, [(0, 0, 8), (1, 0, 5), (2, 0, 5), (2, 7, 1), (4, 0, 32)]⟩
  | 0x19 => some (statusInfo 2 64)
  | 0x1A => some ⟨.o, 0, [(0, 0, 64), (8, 0, 4), (9, 0, 3), (10, 0, 3), (11, 0, 5), (12, 0, 8), (13, 0, 2)]⟩
  | 0x1B => some (statusInfo 2 64)
  | 0x20 => some ⟨.u, 0, [(0, 0, 2), (2, 0, 16)]⟩
  | 0x21 => some ⟨.u, 0, [(0, 0, 8), (1, 0, 1), (8, 0, 64)]⟩
  | 0x22 => some (statusInfo 1 64)
  | 0x23 => some (statusInfo 0 64)
  | 0x28 => some ⟨.o, 0, [(0, 0, 5), (1, 0, 8), (2, 0, 5), (3, 0, 3), (4, 0, 32), (8, 0, 6), (9, 0, 5), (10, 0, 12), (12, 0, 3),
      (12, 4, 3), (13, 0, 3), (13, 4, 3), (14, 0, 2), (15, 0, 8)]⟩
  | 0x29 => some ⟨.u, 0, [(0, 0, 12), (2, 0, 13), (8, 0, 64)]⟩
  | 0x2A => some (statusInfo 1 64)
  | 0x30 => some ⟨.o, 0, [(0, 0, 3), (1, 0, 3), (1, 5, 3), (2, 0, 2), (3, 0, 8), (4, 0, 24)]⟩
  | 0x31 => some ⟨.t, 0, [(0, 0, 4), (4, 0, 32), (8, 0, 256)]⟩
  | 0x32 => some (statusInfo 4 64 [(20, 0, 16)])
  | 0x33 => some (statusInfo 1 64)
  | 0x38 => some ⟨.u, 0, [(0, 0, 56), (8, 0, 3), (9, 0, 24)]⟩
  | 0x39 => some ⟨.t, 0, [(0, 0, 6), (1, 0, 2), (2, 0, 64)]⟩
  | 0x3A => some ⟨.t, 0, [(0, 0, 66), (10, 0, 48)]⟩
  | 0x3B => some (statusInfo 0 64 [(20, 0, 16)])
  | 0x3C => some (statusInfo 1 64)
  | 0x3D => some (statusInfo 0 64)
  | _ => none

/-- Opcodes 0x40 to 0x9F (Table 15-8 and the payload tables of chapters 08 to 20). -/
def opInfoHigh (op : Nat) : Option OpInfo :=
  match op with
  | 0x40 => some ⟨.o, 0, [(0, 0, 1), (1, 0, 3), (2, 0, 8), (4, 0, 16)]⟩
  | 0x41 => some ⟨.u, 0, [(0, 0, 6), (1, 0, 16)]⟩
  | 0x42 => some ⟨.u, 0, [(0, 0, 64), (8, 0, 4), (9, 0, 3), (16, 0, 64)]⟩
  | 0x43 => some ⟨.u, 0, [(8, 0, 64)]⟩
  | 0x44 => some (statusInfo 1 64)
  | 0x48 => some ⟨.u, 0, [(0, 0, 64), (8, 1, 10), (10, 0, 2)]⟩
  | 0x49 => some ⟨.u, 0, [(0, 0, 16), (2, 0, 1), (2, 4, 4), (3, 0, 8), (4, 0, 6)]⟩
  | 0x4A => some (statusInfo 0 64 [(20, 1, 11)])
  | 0x4B => some (statusInfo 0 64)
  | 0x50 => some ⟨.u, 0, [(0, 0, 3), (1, 0, 4), (2, 1, 7), (3, 0, 3), (4, 0, 144), (22, 0, 5), (22, 6, 2), (23, 0, 5), (23, 6, 2),
      (24, 0, 5), (24, 6, 2), (25, 0, 5), (25, 6, 2), (26, 0, 5), (26, 6, 2), (27, 0, 5), (27, 6, 2), (28, 0, 5), (28, 6, 2),
      (29, 0, 5), (29, 6, 2)]⟩
  | 0x51 => some ⟨.u, 0, [(0, 0, 3), (2, 0, 32)]⟩
  | 0x52 => some ⟨.o, 0, [(0, 0, 3), (1, 0, 3), (2, 0, 4), (2, 7, 1)]⟩
  | 0x53 => some (statusInfo 1 64)
  | 0x58 => some ⟨.u, 0, [(0, 0, 3), (1, 0, 4), (2, 0, 3), (2, 7, 1), (3, 0, 3), (3, 7, 1)]⟩
  | 0x59 => some (statusInfo 1 64)
  | 0x60 => some ⟨.u, 0, [(0, 0, 3), (1, 0, 104)]⟩
  | 0x61 => some ⟨.u, 0, [(0, 0, 3), (1, 0, 184)]⟩
  | 0x62 => some ⟨.u, 0, [(0, 0, 48)]⟩
  | 0x63 => some (statusInfo 1 64)
  | 0x68 => some ⟨.u, 0, [(0, 1, 3), (1, 0, 5), (1, 7, 1), (2, 0, 5), (2, 6, 2), (3, 0, 24)]⟩
  | 0x70 => some ⟨.u, 0, [(0, 0, 4), (8, 0, 128)]⟩
  | 0x71 => some ⟨.u, 0, [(0, 0, 16)]⟩
  | 0x72 => some ⟨.u, 0, [(0, 0, 128)]⟩
  | 0x73 => some ⟨.t, 0, [(0, 0, 6), (1, 0, 1), (2, 0, 6), (3, 0, 4), (4, 0, 5)]⟩
  | 0x74 => some (statusInfo 0 64)
  | 0x75 => some ⟨.u, 0, [(0, 0, 128)]⟩
  | 0x78 => some ⟨.u, 0, [(0, 0, 2), (8, 0, 96)]⟩
  | 0x79 => some ⟨.o, 0, [(0, 0, 3), (1, 0, 2)]⟩
  | 0x7A => some (statusInfo 1 64)
  | 0x7B => some ⟨.u, 0, [(0, 0, 2), (8, 0, 128)]⟩
  | 0x80 => some ⟨.u, 0, [(0, 0, 1), (1, 0, 7), (2, 0, 3), (8, 0, 64)]⟩
  | 0x81 => some ⟨.u, 0, [(0, 0, 8), (1, 0, 4), (1, 5, 3), (2, 0, 40)]⟩
  | 0x82 => some ⟨.o, 0, [(0, 0, 1), (0, 2, 2), (1, 0, 10)]⟩
  | 0x83 => some ⟨.u, 0, [(0, 0, 2)]⟩
  | 0x84 => some (statusInfo 0 64 [(20, 0, 16)])
  | 0x85 => some ⟨.o, 0, [(0, 0, 67), (8, 7, 1), (9, 0, 2), (10, 0, 66)]⟩
  | 0x86 => some ⟨.u, 0, [(0, 0, 8), (8, 0, 184)]⟩
  | 0x87 => some (statusInfo 0 64 [(20, 0, 16)])
  | 0x88 => some ⟨.u, 0, [(0, 0, 3), (0, 7, 4), (1, 7, 4), (2, 7, 4), (3, 7, 4), (4, 7, 4), (5, 7, 4), (6, 7, 4), (7, 7, 1), (8, 0, 256)]⟩
  | 0x90 => some ⟨.u, 0, [(0, 0, 3), (1, 0, 3), (2, 0, 32)]⟩
  | 0x91 => some ⟨.u, 0, [(0, 0, 2), (1, 0, 9), (8, 0, 64)]⟩
  | 0x92 => some (statusInfo 1 64)
  | 0x93 => some (statusInfo 0 64 [(20, 0, 32)])
  | 0x94 => some ⟨.u, 0, [(0, 0, 72)]⟩
  | 0x98 => some ⟨.u, 0, [(0, 0, 2), (8, 0, 96)]⟩
  | 0x99 => some ⟨.u, 0, [(0, 0, 2), (4, 0, 32)]⟩
  | 0x9A => some ⟨.u, 0, [(0, 0, 320)]⟩
  | 0x9B => some ⟨.u, 0, [(8, 0, 64)]⟩
  | 0x9C => some ⟨.u, 0, [(8, 0, 64)]⟩
  | 0x9D => some ⟨.u, 0, [(8, 0, 96)]⟩
  | _ => none

/-- What the tables give an opcode; none for a reserved one (R423). -/
def opInfo (op : BitVec 8) : Option OpInfo := if op.toNat < 0x40 then opInfoLow op.toNat else opInfoHigh op.toNat

/-- The mask of a list of fields. -/
def usedMask (l : List (Nat × Nat × Nat)) : Nat := l.foldl (fun a f => a ||| (2 ^ f.2.2 - 1) <<< (8 * f.1 + f.2.1)) 0

/-- Codes that a payload table marks reserved (R420). -/
def codesOk (op : BitVec 8) (p : BitVec 320) : Bool :=
  match op.toNat with
  | 0x04 => pf p 0 0 8 == 1 || pf p 0 0 8 == 2
  | 0x10 => let m := (pf p 0 0 4).toNat; 1 ≤ m && m ≤ 8
  | 0x13 => (pf p 0 0 3).toNat ≤ 4
  | 0x18 => let o := (pf p 1 0 4).toNat; 1 ≤ o && o ≤ 6
  | 0x1A => let o := (pf p 8 0 4).toNat; 1 ≤ o && o ≤ 3 && !(o == 1 && (pf p 9 0 3).toNat > 4) && !(o == 2 && pf p 10 0 2 == 3)
  | 0x28 => let o := (pf p 0 3 2).toNat; (o == 1 || o == 2) && (pf p 2 2 3).toNat ≤ 4 && pf p 13 0 3 != 4 && pf p 13 4 3 != 4
  | 0x42 => let o := (pf p 8 0 4).toNat; 1 ≤ o && o ≤ 6
  | 0x50 => pf p 2 6 2 != 3 && pf p 2 4 2 != 3
  | 0x51 => (pf p 0 0 3).toNat ≤ 5
  | 0x60 => pf p 0 1 2 != 3
  | 0x68 => pf p 0 2 2 != 3
  | 0x82 => pf p 0 2 2 != 0
  | 0x85 => let o := (pf p 8 0 3).toNat; 1 ≤ o && o ≤ 4
  | 0x86 => pf p 0 0 8 == 1 || pf p 0 0 8 == 2
  | 0x94 => pf p 8 0 8 == 1 || pf p 8 0 8 == 2
  | _ => true

/-- TIMED suits the opcode (R420, R80, R517). -/
def timingOk (i : OpInfo) (op : BitVec 8) (timed : Bool) (p : BitVec 320) : Bool :=
  match i.timing with
  | .t => timed
  | .u => !timed
  | .o => !(timed && ((op == 0x18 && (pf p 1 0 4).toNat ≥ 4) || (op == 0x82 && pf p 0 2 2 == 3) ||
      (op == 0x85 && (pf p 8 0 3 == 2 || pf p 8 0 3 == 3))))

/-- The entry check of R420 and the format of the air-time word (R52), but for the fetch of an indirect payload. -/
def entryOk (entry : BitVec 512) (p : BitVec 320) : Bool :=
  match opInfo (pf entry 0 0 8) with
  | none => false
  | some i =>
    let ind := pb entry 1 3
    pf entry 1 0 3 == 0 && pf entry 4 3 5 == 0 && pf entry 5 0 24 == 0
    && ((pf entry 4 0 3).toNat &&& i.opts == (pf entry 4 0 3).toNat)
    && (if ind then pf entry 24 0 320 == 0 && pf entry 16 0 3 == 0 else pf entry 16 0 64 == 0)
    && (!pb entry 1 6 || airWordOk (pf entry 8 0 64))
    && (p.toNat ||| usedMask i.used == usedMask i.used)
    && codesOk (pf entry 0 0 8) p && timingOk i (pf entry 0 0 8) (pb entry 1 6) p

/-- The part of the entry check that needs no payload (R420): before an indirect payload is read. -/
def entryHeadOk (entry : BitVec 512) : Bool :=
  match opInfo (pf entry 0 0 8) with
  | none => false
  | some i =>
    pf entry 1 0 3 == 0 && pf entry 4 3 5 == 0 && pf entry 5 0 24 == 0
    && ((pf entry 4 0 3).toNat &&& i.opts == (pf entry 4 0 3).toNat)
    && (if pb entry 1 3 then pf entry 24 0 320 == 0 && pf entry 16 0 3 == 0 else pf entry 16 0 64 == 0)
    && (!pb entry 1 6 || airWordOk (pf entry 8 0 64))
    && (match i.timing with | .t => pb entry 1 6 | .u => !pb entry 1 6 | .o => true)

/-- A host command acts when it has started with its opcode and operation (R428); the boot ROM in RECOVERY serves only NOP,
REG_READ, SEC_IMAGE_LOAD and SEC_ID_READ (R554). A command that is not the one named changes nothing. -/
def State.hostCmd (s : State) (c : Cmd) (op : BitVec 8) (sel : BitVec 320 → Bool) (f : Slot → State) : State :=
  match s.slot? c.ref with
  | none => s
  | some x =>
    if x.stage = .started ∧ x.opcode = op ∧ sel x.payload = true then
      if !entryOk x.entry x.payload then s.complete c.ref .badArg
      else if s.sec.recovery && !(op == 0x01 || op == 0x02 || op == 0x98 || op == 0x9B) then s.complete c.ref .notReady
      else f x
    else s

/-- Every payload selects. -/
def anyOp : BitVec 320 → Bool := fun _ => true

/-- The OP field of a payload: `w` bits at bit `lo` of byte `byte`. -/
def opIs (byte lo w v : Nat) : BitVec 320 → Bool := fun p => (pf p byte lo w).toNat == v

/-- Write data to host memory for a command: false reports the host-memory error, after which the whole range is undefined
(R425, R432). -/
def State.hostPut (s : State) (c : Cmd) (addr : BitVec 64) (b : Bytes) : Bool × State :=
  if c.respErr then (false, s.emit (.hostUndefined addr b.length)) else (true, s.emit (.hostWrite addr b))

/-- A status command's response (R425): `b` the records, `clear` what CLEAR does after the whole response is written. -/
def State.respond (s : State) (c : Cmd) (x : Slot) (b : Bytes) (clear : State → State := id) : State :=
  let addr := pf x.payload 8 0 64
  if addr.extractLsb' 0 3 ≠ 0 ∨ (pf x.payload 16 0 32).toNat < b.length then s.complete c.ref .badArg
  else if c.respErr then (s.emit (.hostUndefined addr b.length)).complete c.ref .busErr
  else
    let s := s.emit (.hostWrite addr b)
    (if pb x.entry 4 0 then clear s else s).complete c.ref .ok (BitVec.ofNat 32 b.length)

/-- SELECT of a status command. -/
def Slot.select (x : Slot) : BitVec 64 := pf x.payload 0 0 64

/-- Records of the selected resources in ascending order, each built with the free values it takes. -/
def State.records (s : State) (idx : List Nat) (f : State → Nat → Bytes × State) : Bytes × State :=
  idx.foldl (fun a i => let r := f a.2 i; (a.1 ++ r.1, r.2)) ([], s)

/-- A transition is pending or in progress (R46). -/
def State.inTransition (s : State) : Bool := s.mode.trans.isSome

/-- A transition is in progress. -/
def State.transitionRunning (s : State) : Bool := match s.mode.trans with | some t => t.started | none => false

/-- R46: a carrier, calibration, BIST, retune or power-state request meets a transition: untimed while it is in progress, or
timed from its start point up to its end. -/
def State.transitionBlocks (s : State) (due : Option Tick) : Bool :=
  match s.mode.trans with
  | none => false
  | some t =>
    match due with
    | none => t.started
    | some d => t.start ≤ d && d < t.resume

/-- The due time of a timed command. -/
def State.dueOf (s : State) (x : Slot) : Option Tick := if x.timed then some (s.ofAirWord x.at_) else none

/-- The mode's active set of paths (Table 1-2, R27), retired paths left out. -/
def State.activeSet (s : State) : List (Fin 64) :=
  (List.finRange 64).filter fun p =>
    !s.radio.paths[p].retired &&
    match s.mode.cur with
    | .lean => p.val % 2 = 0
    | .bringup => p.val < 16
    | _ => true

/-- Whether a path lies in the active set. -/
def State.inActive (s : State) (p : Fin 64) : Bool :=
  !s.radio.paths[p].retired &&
  match s.mode.cur with
  | .lean => p.val % 2 == 0
  | .bringup => p.val < 16
  | _ => true

/-- The paddock of a path (R4). -/
def paddockOf (p : Fin 64) : Fin 8 := ⟨p.val / 8, by omega⟩

end Sys2Proof.Machine
end

