-- ==== Sys2Proof/Machine/Dsp.lean ====
section
/-! DEFINITION. The arithmetic of the sample datapath (R106, R107, R116, R118 to R121, R128, R138, R219 to R225): streams of samples and
what a converter, an NCO, a resampler stage, a transform, CFR and DPD make of them. -/

namespace Sys2Proof.Machine

/-- A stream of complex samples; sample 0 lies at the frame boundary at which NCOs and accumulators were loaded (R117, R119). -/
abbrev Sig := Int → Int × Int

/-- Silence. -/
def Sig.zero : Sig := fun _ => (0, 0)

/-- The output of a stage: its words, and at which samples it saturated. -/
abbrev Flow := Int → (Int × Int) × Bool

/-- The words of a stage's output. -/
def Flow.sig (f : Flow) : Sig := fun n => (f n).1

/-- The samples in ticks `a` to `b` from the frame boundary of a stream with `num` samples in `den` ticks. -/
def samplesIn (num den : Nat) (a b : Int) : List Int :=
  let lo := cdiv (a * num) den
  (List.range (cdiv (b * num) den - lo).toNat).map fun (i : Nat) => lo + (i : Int)

/-- How many of some samples a stage saturated. -/
def Flow.count (f : Flow) (l : List Int) : Nat := (l.filter fun n => (f n).2).length

/-- The samples that a list gives from a first one on; silence elsewhere. -/
def sigOf (first : Int) (vals : List (Int × Int)) : Sig := fun n => if n < first then (0, 0) else (vals[(n - first).toNat]?).getD (0, 0)

/-- A sum of 18-bit by 16-bit products in the 40-bit accumulators of R128, rounded once. -/
def stageOut (l : List (Int × Int)) (frac : Nat) : (Int × Int) × Bool := cround (accSum 40 l) frac

-- Converters (R106, R107)

/-- One component of an ADC from the input in codes of 14 bits: the 16-bit word, and whether the input lay beyond full scale. -/
def adcWord (x : Int) : BitVec 16 × Bool := let c := clampI (-8192) 8191 x; (BitVec.ofInt 16 (4 * c), c != x)

/-- One component of a DAC's 14-bit code from a 16-bit word, and whether it saturated. -/
def dacCode (x : Int) : Int × Bool := let r := rshift x 2; let c := clampI (-8192) 8191 r; (c, c != r)

-- NCOs (R115 to R117)

/-- The 48-bit frequency word of an offset in 100 Hz, one step being Fc/2 over 2^48, rounded to nearest (R116). No tie arises. -/
def ncoWord (off : Int) (fcN : Nat) : BitVec 48 := BitVec.ofInt 48 (rdiv (off * pow2 48) (600 * fcN))

/-- Phase of an NCO at sample m after the frame boundary at which it started at zero (R117). -/
def ncoPhase (w : BitVec 48) (m : Int) : BitVec 48 := BitVec.ofInt 48 ((w.toNat : Int) * m)

/-- The 18-bit complex factor exp(j2π n/2^18) (R128). -/
def factor18 (n : Int) : Int × Int := turnWord 18 Config.sinCosFrac n 262144

/-- The complex conjugate. -/
def conj (v : Int × Int) : Int × Int := (v.1, -v.2)

/-- The factor at a 48-bit phase: 18 bits of it select cosine and sine (R116; DEDUCED, log 72: the upper 18). -/
def phaseFactor (ph : BitVec 48) : Int × Int := factor18 ((ph.extractLsb' 30 18).toNat : Int)

/-- An RX NCO: the sample times exp(−j2πf_off t). -/
def rxNco (w : BitVec 48) (x : Sig) : Flow := fun m => stageOut [cmul (x m) (conj (phaseFactor (ncoPhase w m)))] Config.sinCosFrac

/-- TX NCOs and carrier combining: the sum of the up-mixed carriers without scaling, rounded once (R115, R128). -/
def txCombine (cs : List (BitVec 48 × Sig)) : Flow := fun m => stageOut (cs.map fun c => cmul (c.2 m) (phaseFactor (ncoPhase c.1 m))) Config.sinCosFrac

-- The fractional stage (R118 to R121)

/-- The integer sample of a position and its fraction μ to 32 bits. -/
def splitPos (q : Q) : Int × Nat :=
  let r := ((q.sub (Q.ofInt q.floor)).mul (Q.ofInt 4294967296)).round.toNat
  if r = 4294967296 then (q.floor + 1, 0) else (q.floor, r)

/-- Taps of the fractional stage at fraction μ with the sample each multiplies, counted back from the sample after the position's (R120):
c(p, t) + ν (c(p + 1, t) − c(p, t)), phase 32 being phase 0 one input sample later. DEDUCED (log 72): ν is truncated to 16 bits, and the tap used is an
18-bit word, rounded half to even. -/
def fracTaps (tap : Nat → Nat → Int) (mu : Nat) : List (Nat × Int) :=
  let p := mu / 134217728
  let nu : Int := (mu / 2048 % 65536 : Nat)
  let lo (u : Nat) : Int := if u = 0 ∨ 16 < u then 0 else tap p (u - 1)
  let hi (u : Nat) : Int := if p = 31 then (if u < 16 then tap 0 u else 0) else if u = 0 ∨ 16 < u then 0 else tap (p + 1) (u - 1)
  (List.range 17).map fun u => (u, rshift (65536 * lo u + nu * (hi u - lo u)) 16)

/-- One output of the fractional stage at a position (R120, R128). -/
def fracOut (tap : Nat → Nat → Int) (x : Sig) (at_ : Int × Nat) : (Int × Int) × Bool :=
  stageOut ((fracTaps tap at_.2).map fun c => cmul (c.2, 0) (x (at_.1 + 1 - c.1))) 17

-- Half-band stages (R118, R121)

/-- One half-band stage down by 2. -/
def halfDown (x : Sig) : Flow := fun m => stageOut (Config.halfBand.zipIdx.map fun c => cmul (c.1, 0) (x (2 * m - (c.2 : Int)))) 17

/-- A stage up by 2 with gain 2 (DEDUCED, log 72). -/
def upBy2 (taps : List Int) (x : Sig) : Flow := fun m =>
  stageOut (taps.zipIdx.map fun c => if (m - (c.2 : Int)) % 2 = 0 then cmul (2 * c.1, 0) (x ((m - (c.2 : Int)) / 2)) else (0, 0)) 17

/-- j half-band stages down. DEDUCED (log 72): one list of coefficients serves every stage, both ways. -/
def downBy : Nat → Sig → Sig
  | 0, x => x
  | j + 1, x => (halfDown (downBy j x)).sig

/-- j half-band stages up. -/
def upBy : Nat → Sig → Sig
  | 0, x => x
  | j + 1, x => (upBy2 Config.halfBand (upBy j x)).sig

-- The transforms (R138)

/-- Σ x[t] exp(±j2π n t/N) with 18-bit twiddles in 32-bit sums (R138; DESIGN CHOICE, log 73: each product is rounded once into the sum's format). -/
def dftSum (size : Nat) (back : Bool) (x : Nat → Int × Int) (n : Nat) : Int × Int :=
  accSum 32 ((List.range size).map fun t =>
    let w := turnWord 18 Config.twiddleFrac ((n * t % size : Nat) : Int) size
    crescale (cmul (x t) (if back then w else conj w)) Config.twiddleFrac Config.fftFrac)

/-- Bin n of the RX FFT. -/
def fftBin (size : Nat) (shift : Int) (x : Nat → Int × Int) (n : Nat) : (Int × Int) × Bool := scaleRound (dftSum size false x n) ((Config.fftFrac : Int) + shift)

/-- The 18-bit factor g_TX = 10^(−TX_ATT/20) of a TX_ATT code in 0.125 dB. -/
def txGain (att : Nat) : Int := fitWord 18 (pow10Round (2 ^ Config.txGainFrac) 1 (-(att : Int)) 160 18)

/-- Sample t of the TX iFFT. -/
def ifftSample (size : Nat) (att : Nat) (shift : Int) (x : Nat → Int × Int) (t : Nat) : (Int × Int) × Bool :=
  scaleRound (cmul (txGain att, 0) (dftSum size true x t)) ((Config.fftFrac + Config.txGainFrac : Nat) + shift)

-- Crest-factor reduction (R219, R220)

/-- The greatest n below 2^15 with n^200 ≤ 32,768^200 × 10^k. -/
def thresholdFloor (k : Int) : Nat :=
  greatest (fun n => if k < 0 then decide (n ^ 200 * 10 ^ k.natAbs ≤ 32768 ^ 200) else decide (n ^ 200 ≤ 32768 ^ 200 * 10 ^ k.natAbs)) 15 0

/-- The 18-bit coefficient h(d) of the cancellation pulse (R220) at FC_N and a filter bandwidth in MHz, 0 beyond 12. -/
def cfrPulse (fcN band d : Nat) : Int :=
  if d = 0 then fitWord 18 (pow2 Config.cfrPulseFrac)
  else if 12 < d then 0
  else
    let top := (pow2 128 + (turnExp (d : Int) 26).1) * (turnExp (25 * band * d : Nat) (3 * fcN)).2 * ((3 * fcN : Nat) : Int) * pow2 Config.cfrPulseFrac
    fitWord 18 (rdiv top (2 ^ 129 * (2 * halfPi128.toNat) * (50 * band * d)))

/-- |u| as an 18-bit word (R219). -/
def magnitude (v : Int × Int) : Nat := min 262143 (rootRound ((power2 v).toNat * 4 ^ Config.magFrac))

/-- Whether sample n is a peak of a pass (R219): above the threshold, no less than its neighbours of four, the earliest winning a tie. -/
def cfrPeak (a : Nat) (u : Sig) (n : Int) : Bool :=
  let m (d : Int) : Nat := magnitude (u (n + d))
  decide (a * 2 ^ Config.magFrac < m 0) && [1, 2, 3, 4].all fun d : Nat => decide (m (-d) < m 0) && decide (m d ≤ m 0)

/-- A peak's excess c = (|u| − A) u/|u| as the sums hold it. -/
def cfrExcess (a : Nat) (v : Int × Int) : Int × Int :=
  let m := magnitude v
  let one (x : Int) : Int := rdiv (((m : Int) - a * pow2 Config.magFrac) * x * pow2 Config.cfrFrac) m
  (one v.1, one v.2)

/-- One pass (R219): the pulses of the peaks within twelve samples are taken off in 40-bit sums, rounded once. -/
def cfrPass (a : Nat) (h : Nat → Int) (u : Sig) : Flow := fun n =>
  let pulse (d : Int) : Int × Int :=
    if cfrPeak a u (n - d) then crescale (cmul (-(h d.natAbs), 0) (cfrExcess a (u (n - d)))) (Config.cfrPulseFrac + Config.cfrFrac) Config.cfrFrac else (0, 0)
  stageOut (cmul (pow2 Config.cfrFrac, 0) (u n) :: (List.range 25).map fun (i : Nat) => pulse ((i : Int) - 12)) Config.cfrFrac

/-- The input of pass i + 1 of those of a list of thresholds and pulses. -/
def cfrInput (a : Nat) (h : Nat → Int) : Nat → Sig → Sig
  | 0, u => u
  | i + 1, u => (cfrPass a h (cfrInput a h i u)).sig

-- Pre-distortion (R222, R224, R225)

/-- A term of Tables 8-2 and 8-3: the signal's delay, the envelope's delay, and the power (k − 1)/2 of the squared envelope. -/
structure DpdTerm where
  m : Nat
  at_ : Int
  e : Nat
  deriving DecidableEq, Repr

/-- The l of an index 0 to 3: −2, −1, 1, 2. -/
def lagOf (i : Nat) : Int := match i with | 0 => -2 | 1 => -1 | 2 => 1 | _ => 2

/-- Own basis function q (Table 8-2) at depth 12 or 8. -/
def ownTerm (deep : Bool) (q : Nat) : DpdTerm :=
  if deep then
    if q < 36 then ⟨q % 12, (q % 12 : Nat), q / 12⟩
    else if q < 48 then ⟨(q - 36) % 6, ((q - 36) % 6 : Nat), 3 + (q - 36) / 6⟩
    else let r := q - 48; ⟨r % 2, (r % 2 : Nat) + lagOf (r % 8 / 2), 1 + r / 8⟩
  else
    if q < 40 then ⟨q % 8, (q % 8 : Nat), q / 8⟩
    else let r := q - 40; ⟨r % 3, (r % 3 : Nat) + lagOf (r % 12 / 3), 1 + r / 12⟩

/-- Which signals a coupling basis function takes (Table 8-3), as a term over (signal, envelope): true is the neighbour's. -/
def couplingTerm (r : Nat) : DpdTerm × Bool × Bool :=
  if r < 4 then (⟨r, 0, 0⟩, true, true)
  else if r < 6 then (⟨r - 4, (r - 4 : Nat), 1⟩, true, true)
  else if r = 6 then (⟨0, 0, 1⟩, true, false)
  else (⟨0, 0, 1⟩, false, true)

/-- |v|² as an 18-bit word, 2^15 being 1, and a power of it as an 18-bit word (R225). -/
def envelope (v : Int × Int) : Int := min 262143 (rescale (power2 v) 30 (Config.powerFrac 1))
def powerWord (e : Nat) (v : Int × Int) : Int := if e = 1 then envelope v else min 262143 (rescale (envelope v ^ e) (e * Config.powerFrac 1) (Config.powerFrac e))

/-- One product a x(n − m) |y(n − m')|^(2e) as the 40-bit sums hold it. -/
def dpdProduct (a : Int × Int) (t : DpdTerm) (x y : Sig) (n : Int) : Int × Int :=
  if t.e = 0 then crescale (cmul a (x (n - t.m))) 29 Config.dpdFrac
  else
    let w := powerWord t.e (y (n - t.at_))
    crescale (cmul a (cmul (w, 0) (x (n - t.m)))) (29 + Config.powerFrac t.e) Config.dpdFrac

/-- The integers of a coefficient (R224), in units of 2^-14. -/
def coefVal (c : Coef) : Int × Int := (c.1.toInt, c.2.toInt)

/-- DPD under one set (R222, R225): own terms, and the coupling terms of the slots that have a signal; an empty slot's coefficients are 0. -/
def dpdOutput (deep : Bool) (set : CoefSet) (x : Sig) (v : Nat → Option Sig) : Flow := fun n =>
  let a (q : Nat) : Int × Int := coefVal ((set[q]?).getD (0, 0))
  let own := (List.range 64).map fun q => dpdProduct (a q) (ownTerm deep q) x x n
  let nb := [0, 1].flatMap fun j : Nat => match v j with
    | some v => (List.range 8).map fun r => let t := couplingTerm r; dpdProduct (a (64 + 8 * j + r)) t.1 (if t.2.1 then v else x) (if t.2.2 then v else x) n
    | none => []
  scaleRound (accSum 40 (own ++ nb)) ((Config.dpdFrac : Int) - 15)

end Sys2Proof.Machine
end

