-- ==== Sys2Proof/Machine/Lsq.lean ====
section
/-! DEFINITION. Complex rationals and least squares (R175, R177, R207, R214, R233 to R235): gains, delays, regularised normal equations. -/

namespace Sys2Proof.Machine

/-- A complex rational. -/
abbrev CQ := Q × Q

namespace CQ

/-- A complex integer. -/
def ofInts (v : Int × Int) : CQ := (Q.ofInt v.1, Q.ofInt v.2)

/-- Zero. -/
def zero : CQ := (Q.zero, Q.zero)

/-- Arithmetic; a quotient by zero is free. -/
def add (a b : CQ) : CQ := (a.1.add b.1, a.2.add b.2)
def sub (a b : CQ) : CQ := (a.1.sub b.1, a.2.sub b.2)
def mul (a b : CQ) : CQ := ((a.1.mul b.1).sub (a.2.mul b.2), (a.1.mul b.2).add (a.2.mul b.1))
def conj (a : CQ) : CQ := (a.1, a.2.neg)
def power (a : CQ) : Q := (a.1.mul a.1).add (a.2.mul a.2)
def scale (k : Q) (a : CQ) : CQ := (k.mul a.1, k.mul a.2)
def div (a b : CQ) : CQ := if b.power.num = 0 then Config.overZero a else let n := a.mul b.conj; (n.1.div b.power, n.2.div b.power)
def sum (l : List CQ) : CQ := l.foldl add zero

end CQ

/-- Σ conj(a) b. -/
def inner (a b : List CQ) : CQ := CQ.sum (List.zipWith (fun x y => (CQ.conj x).mul y) a b)

/-- Σ |a|². -/
def energy (a : List CQ) : Q := Q.sum (a.map CQ.power)

/-- Σ |a − b|². -/
def distance (a b : List CQ) : Q := energy (List.zipWith CQ.sub a b)

/-- The complex gain g that minimises Σ |g a − b|². -/
def lsGain (a b : List CQ) : CQ := (inner a b).div (energy a, Q.zero)

/-- Samples times a gain. -/
def gained (g : CQ) (a : List CQ) : List CQ := a.map fun x => g.mul x

/-- A stream delayed by i/64 sample. What lies outside it counts as 0, and values between its samples are free (log 75). -/
def delayed (y : List (Int × Int)) (i : Int) : List CQ :=
  let f := (i % 64).toNat
  let b := if f = 0 then y.map CQ.ofInts else Config.between y f
  (List.range y.length).map fun (n : Nat) => if (n : Int) < i / 64 then CQ.zero else (b[((n : Int) - i / 64).toNat]?).getD CQ.zero

/-- A stream aligned to a reference by least squares (R214, R233): the delay, in 1/64 sample, and the complex gain that leave the least error,
the earliest delay on a tie. -/
def aligned (y x : List (Int × Int)) : List CQ :=
  let r := x.map CQ.ofInts
  let at_ (i : Int) : List CQ := let a := delayed y i; gained (lsGain a r) a
  let span : Int := 64 * (Config.delaySpan : Int)
  ((List.range (128 * Config.delaySpan + 1)).foldl (fun (b : List CQ × Q) (n : Nat) =>
    let a := at_ ((n : Int) - span)
    let e := distance a r
    if b.2.le e then b else (a, e)) (at_ (-span), distance (at_ (-span)) r)).1

/-- u × 10 log10 of a ratio, rounded to the nearest integer; free where either is zero. -/
def dbRatio (u : Nat) (a b : Q) : Int :=
  let r := a.div b
  if a.num = 0 ∨ b.num = 0 then Config.logZero u a b else logDb u r.num.toNat r.den

-- Regularised normal equations

/-- The entry at a place of a row. -/
def entry (r : List CQ) (i : Nat) : CQ := (r[i]?).getD CQ.zero

/-- ΦᴴΦ of the columns of Φ. -/
def gram (cols : List (List CQ)) : List (List CQ) := cols.map fun a => cols.map fun b => inner a b

/-- A matrix with a real number added on its diagonal. -/
def ridge (l : Q) (m : List (List CQ)) : List (List CQ) :=
  m.zipIdx.map fun r => r.1.zipIdx.map fun x => if x.2 = r.2 then x.1.add (l, Q.zero) else x.1

/-- The trace of a Hermitian matrix. -/
def trace (m : List (List CQ)) : Q := Q.sum (m.zipIdx.map fun r => (entry r.1 r.2).1)

/-- One elimination by the pivot row: what is left of the other rows, each with its right side, one column shorter. -/
def eliminate (p : List CQ × CQ) (rows : List (List CQ × CQ)) : List (List CQ × CQ) :=
  rows.map fun r =>
    let f := (entry r.1 0).div (entry p.1 0)
    (List.zipWith (fun a b => a.sub (f.mul b)) r.1.tail p.1.tail, r.2.sub (f.mul p.2))

/-- The solution of a Hermitian system by elimination, as Cholesky forms it; none where a pivot is not positive. The first argument is the
number of rows. -/
def solve : Nat → List (List CQ × CQ) → Option (List CQ)
  | 0, _ => some []
  | n + 1, rows =>
    match rows with
    | [] => some []
    | p :: rest =>
      let d := entry p.1 0
      if d.1.num ≤ 0 then none
      else (solve n (eliminate p rest)).map fun x => ((p.2.sub (CQ.sum (List.zipWith CQ.mul p.1.tail x))).div d) :: x

end Sys2Proof.Machine
end

