-- ==== Sys2Proof/Machine/Adapt.lean ====
section
/-! DEFINITION. The measurements of an observation capture and the fit of a pre-distorter (R214, R222, R233 to R235). -/

namespace Sys2Proof.Machine

/-- The small-signal gain (R233): the least-squares gain from x to ŷ over the samples with |x| ≤ A_th/4. -/
def smallGain (a : Nat) (x : List (Int × Int)) (y : List CQ) : CQ :=
  let l := (x.zip y).filter fun s => decide (16 * power2 s.1 ≤ (a : Int) * a)
  lsGain (l.map fun s => CQ.ofInts s.1) (l.map fun s => s.2)

/-- The normalised output y_n = ŷ/G (R233). -/
def normalised (g : CQ) (y : List CQ) : List CQ := y.map fun v => v.div g

/-- The error of a stream against a reference in 0.25 dB (R214, R234). -/
def errorDb (y : List CQ) (x : List (Int × Int)) : BitVec 16 :=
  let r := x.map CQ.ofInts
  BitVec.ofInt 16 (clampI (-32768) 32767 (dbRatio 4 (distance y r) (energy r)))

/-- A stream of a capture buffer, 2^15 being 1. -/
def unitSig (l : List CQ) (n : Int) : CQ := if n < 0 then CQ.zero else CQ.scale (Q.make 1 32768) ((l[n.toNat]?).getD CQ.zero)

/-- One basis value x(n − m) |y(n − m')|^(2e). -/
def basisVal (t : DpdTerm) (x y : Int → CQ) (n : Int) : CQ :=
  let p := (y (n - t.at_)).power
  CQ.scale ((List.replicate t.e p).foldl Q.mul (Q.ofInt 1)) (x (n - t.m))

/-- The basis functions in use (Tables 8-2 and 8-3) with their indices: the coupling functions of an empty slot are left out (R227). -/
def basisOf (deep use0 use1 : Bool) (y : Int → CQ) (v0 v1 : Int → CQ) : List (Nat × (Int → CQ)) :=
  let slot (j : Nat) (v : Int → CQ) : List (Nat × (Int → CQ)) :=
    (List.range 8).map fun r => let t := couplingTerm r; (64 + 8 * j + r, basisVal t.1 (if t.2.1 then v else y) (if t.2.2 then v else y))
  ((List.range 64).map fun q => (q, basisVal (ownTerm deep q) y y)) ++ (if use0 then slot 0 v0 else []) ++ (if use1 then slot 1 v1 else [])

/-- The samples of a capture at which every term of the basis lies inside the capture (DEDUCED, log 75). -/
def fitRange (deep : Bool) (n : Nat) : List Int :=
  let a : Nat := if deep then 11 else 7
  (List.range (n - 2 - a)).map fun (i : Nat) => ((a + i : Nat) : Int)

/-- A coefficient in the format of R224; none beyond its range. -/
def coefOf (c : CQ) : Option Coef :=
  let one (q : Q) : Int := (q.mul (Q.ofInt 16384)).round
  let ok (x : Int) : Bool := decide (-131072 ≤ x ∧ x ≤ 131071)
  if ok (one c.1) && ok (one c.2) then some (BitVec.ofInt 18 (one c.1), BitVec.ofInt 18 (one c.2)) else none

/-- The set of coefficients by index; none where one is out of range. -/
def coefSetOf (l : List (Nat × CQ)) : Option CoefSet :=
  (List.range 80).foldr (fun q r => match (match l.find? fun x => x.1 == q with | some x => coefOf x.2 | none => some (0, 0)), r with
    | some c, some r => some (c :: r)
    | _, _ => none) (some [])

/-- The least-squares set of an adaptation (R235): it minimises Σ |Φ c − z|² + λ |c|² with λ = 2^-24 trace(ΦᴴΦ)/80. Exact arithmetic, rounded
once into the format of R224 (DEDUCED, log 75). -/
def Adapting.fit (a : Adapting) : Option CoefSet :=
  let u (l : List (Int × Int)) : Int → CQ := unitSig (l.map CQ.ofInts)
  let ns := fitRange a.deep a.y.length
  let fs := basisOf a.deep a.use0 a.use1 (unitSig a.y) (u a.v0) (u a.v1)
  let cols := fs.map fun f => ns.map f.2
  let z := ns.map (u a.z)
  let g := gram cols
  let m := ridge ((trace g).mul (Q.make 1 (16777216 * 80))) g
  match solve cols.length (m.zip (cols.map fun c => inner c z)) with
  | none => none
  | some c => coefSetOf (List.zipWith (fun f x => (f.1, x)) fs c)

end Sys2Proof.Machine
end

