-- ==== Sys2Proof/Machine/Late.lean ====
section
/-! DEFINITION. LATE records (R68, R69): the report of every event that is dropped. -/

namespace Sys2Proof.Machine

/-- SOURCE code, TAG and SRC_INDEX (Table 2-5). -/
def Source.code : Source → Nat
  | .cmd _ _ => 0 | .sarfaip _ _ => 1 | .internal _ => 2
def Source.tagNat : Source → Nat
  | .cmd _ t => t.toNat | .sarfaip _ t => t.toNat | .internal _ => 0
def Source.index : Source → Nat
  | .cmd r _ => r.ring.val | .sarfaip p _ => p | .internal o => o.code

/-- MISS of Table 2-5: ticks late as µs rounded up, saturating. -/
def missOf (late : Int) : Nat := min 255 (cdiv (late * 100) 98304).toNat

/-- The half-subframe of a due time as a LATE record's body gives it (R69): frame and half-subframe. -/
def lateHalf (b : Bytes) : Nat × Nat :=
  (ofLe ((b.drop 4).take 4), ofLe ((b.drop 8).take 3) / 491520)

/-- Two LATE bodies that R69 merges: same KIND, SOURCE, CAUSE, SRC_INDEX and half-subframe; never from a command ring. The
reserved bits of byte 1 are left out of the comparison. -/
def lateMerges (a b : Bytes) : Bool :=
  a.head? == b.head? && (ofLe ((a.drop 1).take 1) &&& 0xCF) == (ofLe ((b.drop 1).take 1) &&& 0xCF)
  && ofLe ((a.drop 1).take 1) / 64 != 0 && (a.drop 11).head? == (b.drop 11).head? && lateHalf a == lateHalf b

/-- Add one to MERGED of the first waiting record that absorbs a drop (R69); none if there is none. -/
def mergeLate (b : Bytes) : List QItem → Option (List QItem)
  | [] => none
  | .ev t e :: q =>
    if e.type = 2 ∧ lateMerges e.body b then
      some (.ev t { e with body := putAt e.body 15 (satInc ((e.body.drop 15).headD 0)) } :: q)
    else (mergeLate b q).map (QItem.ev t e :: ·)
  | .overflow :: q => (mergeLate b q).map (QItem.overflow :: ·)

/-- Report one dropped event (R68, R69), its CAUSE given as a field. -/
def State.lateRecF (s : State) (src : Source) (k : Kind) (due : Tick) (r : Res) (cause : Fld) (miss : Nat) : State :=
  let w := airWord due
  let b := s.record 16 ([.v 8 k.code, cause, .u 2, .v 2 src.code, .v 16 src.tagNat, .v 32 (w.extractLsb' 32 32).toNat,
    .v 24 (w.extractLsb' 0 24).toNat, .v 8 src.index] ++ resFlds r ++ [.v 8 miss, .v 8 0])
  let s := { b.2 with ym := { b.2.ym with late := satInc b.2.ym.late } }
  match mergeLate b.1 s.host.evt.queue with
  | some q => { s with host := { s.host with evt := { s.host.evt with queue := q } } }
  | none => s.post 0x02 b.1

/-- Report one dropped event with a cause of Table 2-6. -/
def State.lateRec (s : State) (src : Source) (k : Kind) (due : Tick) (r : Res) (c : Cause) (miss : Nat) : State :=
  s.lateRecF src k due r (.v 4 c.code) miss

/-- Report a dropped event for which Table 2-6 has no cause: the field is free. -/
def State.lateOpen (s : State) (e : Event) : State := s.lateRecF e.src e.kind e.due e.res (.u 4) 0

end Sys2Proof.Machine
end

