-- ==== Sys2Proof/Machine/Radio.lean ====
section
/-! DEFINITION. Paths and synthesisers: transition times, the interlock, and the states that accepted events lead to
(chapter 03, R66). -/

namespace Sys2Proof.Machine

/-- Insert by key, after equal keys. -/
def insertKey {α : Type} (x : Nat × α) : List (Nat × α) → List (Nat × α)
  | [] => [x]
  | y :: ys => if x.1 < y.1 then x :: y :: ys else y :: insertKey x ys

/-- Sort by key, keeping the order of equal keys. -/
def sortKey {α : Type} (l : List (Nat × α)) : List (Nat × α) := l.foldl (fun a x => insertKey x a) []

/-- Change a path. -/
def State.modPath (s : State) (p : Fin 64) (f : Path → Path) : State :=
  { s with radio := { s.radio with paths := vmod s.radio.paths p f } }

/-- Change a synthesiser. -/
def State.modSynth (s : State) (i : Fin 16) (f : Synth → Synth) : State :=
  { s with radio := { s.radio with synths := vmod s.radio.synths i f } }

/-- Times of the direct transitions (Table 3-6); none where the change is a chain. -/
def directTime (a b : PState) : Option Nat :=
  match a, b with
  | .off, .off => none
  | _, .off => some 1967
  | .off, .sleep => some 49152
  | .sleep, .standby => some 34407
  | .standby, .sleep => some 984
  | .standby, .rx => some 1180
  | .standby, .tx => some 1475
  | .standby, .obs => some 2950
  | .rx, .tx => some 1967
  | .tx, .rx => some 1770
  | .rx, .standby => some 394
  | .tx, .standby => some 590
  | .obs, .standby => some 984
  | _, _ => none

/-- The next link of the chain toward a target (R89): every change from OFF passes through SLEEP, every other chain through
STANDBY. -/
def nextLink (a b : PState) : PState :=
  if (directTime a b).isSome then b else if a = .off then .sleep else .standby

/-- Total time of a change of state (R89). -/
def chainTime (a b : PState) : Nat :=
  if a = b then 0 else
  match directTime a b with
  | some t => t
  | none =>
    let m := nextLink a b
    let t1 := (directTime a m).getD 0
    if m = b then t1 else
    match directTime m b with
    | some t => t1 + t
    | none => t1 + (directTime m .standby).getD 0 + (directTime .standby b).getD 0

/-- The return state after a run (R97). -/
def Path.ret (p : Path) (isTx : Bool) : PState :=
  if isTx then (match p.retTx with | .standby => .standby | .sleep => .sleep | .rx => .rx)
  else if p.retRxSleep then .sleep else .standby

/-- A latched MUTE trip targets a path (R507). -/
def State.tripOn (s : State) (p : Fin 64) : Bool :=
  (List.finRange 184).any fun c =>
    let h := s.sup.chan[c]
    h.tripped && h.mute &&
    (if c.val < 64 then c.val == p.val else if 112 ≤ c.val && c.val < 176 then c.val == p.val + 112
     else h.paddocks.getLsbD (paddockOf p).val)

/-- A halter output holds a valid bias (R513). -/
def OutCh.validBias (o : OutCh) : Bool :=
  o.valued && o.now == o.tgt && o.range == o.tgtRange && o.dwell.isNone && !o.compliance && o.gen.isNone && !o.held && !o.opSafe

/-- The halter output of a path (R5). -/
def hbOf (p : Fin 64) : Fin 80 := ⟨p.val, by omega⟩

/-- The TX enable interlock of a path is closed (R513). -/
def State.interlock (s : State) (p : Fin 64) : Bool :=
  s.sup.out[hbOf p].validBias && !s.tripOn p && s.inActive p

/-- Serving synthesiser of a paddock now (R74). -/
def State.active (s : State) (k : Fin 8) : Fin 16 :=
  if s.radio.activeB[k] then ⟨2 * k.val + 1, by omega⟩ else ⟨2 * k.val, by omega⟩

/-- The synthesiser SYA or SYB of a paddock. -/
def synthOf (k : Fin 8) (b : Bool) : Fin 16 := if b then ⟨2 * k.val + 1, by omega⟩ else ⟨2 * k.val, by omega⟩

/-- The paddock of a synthesiser. -/
def synthPaddock (i : Fin 16) : Fin 8 := ⟨i.val / 2, by omega⟩

-- Prediction of paths (R66, R92, R97)

/-- Something a path is to do: a state to hold from `due` to `fin`, or (no `fin`) a change to a state that begins at `due`. -/
structure PlanItem where
  due  : Nat
  rel  : Nat
  need : PState
  fin  : Option Nat
  /-- It has been evaluated: released, or judged with its group. -/
  sure : Bool
  deriving DecidableEq, Repr

/-- Where a path stands in a prediction: state, cycle at which it is settled there, run that keeps it. -/
structure PathSim where
  st   : PState
  free : Nat
  run  : Option Run
  deriving DecidableEq, Repr

/-- Paths of the antennas of a carrier (R134, R158): the active set, in SPLIT the half of its band; lent paths left out. -/
def State.antennas (s : State) (c : Fin 8) : List (Fin 64) :=
  s.activeSet.filter fun p =>
    !s.radio.paths[p].lent && s.mode.cur != .calibrate && (s.mode.cur != .split || (c.val < 4 && p.val < 32) || (c.val ≥ 4 && p.val ≥ 32))

/-- The traffic interval an event needs of a path: state and length. -/
def State.needs (s : State) (e : Event) (p : Fin 64) : Option (PState × Nat) :=
  match e.body with
  | .symbol sec _ len =>
    match s.ofdm.sections.find? fun x => x.id == sec with
    | some x => if p ∈ s.antennas x.carrier then some (if x.ul then .rx else .tx, len) else none
    | none => none
  | .sounding occ _ len =>
    match s.ofdm.occasions.find? fun x => x.id == occ with
    | some x => if p ∈ s.antennas x.carrier then some (.rx, len) else none
    | none => none
  | .burstTx b => if b.path = p then some (.tx, b.len) else none
  | .burstRx ps n w _ _ => if ps.getLsbD p.val then some (.rx, burstSpan n w) else none
  | .shuCapture q src _ _ n _ => if q = p ∧ src = 1 then some (.rx, n) else none
  | _ => none

/-- Plan order. -/
def insertPlan (i : PlanItem) : List PlanItem → List PlanItem
  | [] => [i]
  | x :: xs => if i.due < x.due then i :: x :: xs else x :: insertPlan i xs

/-- What is decided for a path: jobs already released, PATH_STATE events accepted, traffic events that have been judged. -/
def State.plan (s : State) (p : Fin 64) : List PlanItem :=
  let js := s.radio.paths[p].jobs.map fun (j : PathJob) =>
    match j.hold with
    | some f => { due := j.due, rel := 0, need := j.target, fin := some f, sure := true : PlanItem }
    | none => { due := j.start, rel := 0, need := j.target, fin := none, sure := true }
  let es := s.ym.events.filterMap fun (e : Event) =>
    match e.body with
    | .pathState q t => if q = p then some { due := s.dpOf e.due, rel := s.dpOf e.release, need := t, fin := none, sure := e.judged : PlanItem } else none
    | _ => if e.judged then (s.needs e p).map fun (n : PState × Nat) =>
        { due := s.dpOf e.due, rel := s.dpOf e.release, need := n.1, fin := some (s.dpOf e.due + n.2), sure := true : PlanItem } else none
  (js ++ es).foldl (fun l i => insertPlan i l) []

/-- The state of a path after what is in progress. -/
def Path.sim (p : Path) : PathSim :=
  match p.transit with
  | some t => { st := t.target, free := t.fin + chainTime t.dst t.target
                run := t.hold.map fun (f : Nat) => { isTx := t.target = .tx, fin := f } }
  | none => { st := p.st, free := 0, run := p.run }

/-- The automatic return that comes before an item, unless the item keeps the path or replaces the return (R97). -/
def PathSim.return (m : PathSim) (p : Path) (i : PlanItem) : PathSim :=
  match m.run with
  | none => m
  | some r =>
    if i.due ≤ r.fin then m
    else
      let t := p.ret r.isTx
      if t = m.st then { m with run := none }
      else if i.rel < r.fin + chainTime m.st t ∨ i.due ≤ r.fin + 4096 then m
      else { st := t, free := r.fin + chainTime m.st t, run := none }

/-- Carry out one item of the plan. -/
def PathSim.step (m : PathSim) (p : Path) (i : PlanItem) : PathSim :=
  let m := m.return p i
  match i.fin with
  | some f =>
    let f' := match m.run with | some r => if m.st = i.need then max r.fin f else f | none => f
    { st := i.need, free := max m.free i.due, run := some { isTx := i.need = .tx, fin := f' } }
  | none =>
    let b := max i.due m.free
    { st := i.need, free := b + chainTime m.st i.need, run := none }

/-- The prediction before a cycle: every item due earlier carried out, but for a change that is still to be evaluated and would reach
into what begins then: that one gives way (R92). -/
def State.pathBefore (s : State) (p : Fin 64) (due : Nat) : PathSim :=
  ((s.plan p).filter fun i => i.due < due).foldl (fun (m : PathSim) i =>
    let n := m.step s.radio.paths[p] i
    if !i.sure && decide (due < n.free) then m else n) s.radio.paths[p].sim

/-- A traffic interval as an item of a plan. -/
def trafficItem (need : PState) (due fin rel : Nat) : PlanItem := { due := due, rel := rel, need := need, fin := some fin, sure := true }

/-- A traffic interval fits a path (R90 to R92, R97, R98): it is in the state, or the transition it carries ends at the due
time within the latency, and nothing evaluated earlier is in the way. -/
def State.pathFits (s : State) (p : Fin 64) (need : PState) (due fin : Nat) (lat : Nat) (rel : Nat) : Bool :=
  let m := (s.pathBefore p due).return s.radio.paths[p] (trafficItem need due fin rel)
  let t := chainTime m.st need
  let okIn :=
    if m.st = need then m.free ≤ due
    else m.st != .obs && t ≤ lat && m.free + t ≤ due && (match m.run with | some r => r.fin + t ≤ due | none => true)
  let later := (s.plan p).all fun (i : PlanItem) =>
    !i.sure || i.due < due || i.need == need || (match i.fin with | some _ => fin + chainTime need i.need ≤ i.due | none => fin ≤ i.due)
  okIn && later

/-- The transition a traffic interval carries: its length. -/
def State.carriedTime (s : State) (p : Fin 64) (need : PState) (due fin rel : Nat) : Nat :=
  chainTime ((s.pathBefore p due).return s.radio.paths[p] (trafficItem need due fin rel)).st need

-- Prediction of synthesisers (R74, R75, R85)

/-- The state during an operation (Table 3-3, R75). -/
def SynthOp.during : SynthOp → SState
  | .calibrate _ _ => .calibrating
  | .recover _ => .unlocked
  | _ => .settling

/-- Time of an operation that begins in a state (Table 3-3). -/
def SynthOp.time (o : SynthOp) (before : SState) : Nat :=
  match o with
  | .retune _ => if before = .off then 49152 else 34407
  | .recover _ => 34407
  | .calibrate _ _ => 393216
  | .hop => 787
  | .realign => 9831

/-- What is decided for a synthesiser: (cycle, operation), in order. While the epoch is invalid the first PHASE_SYNC re-aligns it; those
after it find it aligned (R85). -/
def State.synthPlan (s : State) (i : Fin 16) : List (Nat × SynthOp) :=
  let js := s.radio.synths[i].jobs.map fun (j : SynthJob) => (j.start, j.op)
  let es := s.ym.events.filterMap fun (e : Event) =>
    match e.body with
    | .retune q o => if q = i then some (s.dpOf e.due, o) else none
    | .hop k b => if synthOf k b = i then some (s.dpOf e.due, SynthOp.hop) else none
    | _ => none
  let ts := s.ym.timed.filterMap fun (t : Timed) =>
    match t.act with
    | .hop k b => if synthOf k b = i then some (t.due, SynthOp.hop) else none
    | _ => none
  let sync := (s.ym.events.filterMap fun (e : Event) => if e.body = .phaseSync then some (s.dpOf e.due, ()) else none)
    ++ (s.ym.timed.filterMap fun (t : Timed) => if t.act = .phaseSync then some (t.due, ()) else none)
  let first := if s.radio.epochValid then [] else ((sortKey sync).take 1).map fun (x : Nat × Unit) => (x.1, SynthOp.realign)
  sortKey (js ++ es ++ ts ++ first)

/-- A synthesiser in a prediction: its state, and the end of the interval in progress (0 with none). -/
abbrev SynthSim := SState × Nat

/-- The state at a cycle: an interval that has ended leaves LOCKED (R75). -/
def SynthSim.now (m : SynthSim) (t : Nat) : SState := if m.2 ≠ 0 ∧ m.2 ≤ t then .locked else m.1

/-- Carry out the operations decided up to a cycle `t`, and look at the synthesiser at a cycle `q`: one that waits for a calibration
begins when that ends (R75). -/
def synthRun (t q : Nat) : List (Nat × SynthOp) → SynthSim → SynthSim
  | [], m => m
  | (d, o) :: l, m =>
    if t < d then m
    else
      match o, m.now d with
      | _, .retired => synthRun t q l m
      | .realign, .locked => synthRun t q l (.settling, d + o.time .locked)
      | .realign, _ => synthRun t q l m
      | .hop, .locked => synthRun t q l (.settling, d + o.time .locked)
      | .hop, _ => synthRun t q l m
      | _, .calibrating => if q < m.2 then synthRun t q l m else synthRun t q l (o.during, m.2 + o.time .locked)
      | _, st => synthRun t q l (o.during, d + o.time st)

/-- A synthesiser as it stands. -/
def Synth.sim (y : Synth) : SynthSim := (y.st, if y.op.isSome then y.opEnd else 0)

/-- The state of a synthesiser at a cycle, given what has been accepted (R75, R101). -/
def State.synthAt (s : State) (i : Fin 16) (t : Nat) : SState := (synthRun t t (s.synthPlan i) s.radio.synths[i].sim).now t

/-- The serving synthesiser of a paddock at a cycle, taking account of accepted hops (R74). -/
def State.servingAt (s : State) (k : Fin 8) (t : Nat) : Fin 16 :=
  let es := s.ym.events.filterMap fun (e : Event) =>
    match e.body with
    | .hop q b => if q = k ∧ s.dpOf e.due ≤ t then some (s.dpOf e.due, b) else none
    | _ => none
  let ts := s.ym.timed.filterMap fun (x : Timed) =>
    match x.act with
    | .hop q b => if q = k ∧ x.due ≤ t then some (x.due, b) else none
    | _ => none
  match (sortKey (es ++ ts)).getLast? with
  | some (_, b) => synthOf k b
  | none => s.active k

/-- The cycle at which an operation decided for a cycle ends. -/
def State.synthEnd (s : State) (i : Fin 16) (t : Nat) (o : SynthOp) : Nat :=
  (synthRun t (t + 393216) (insertKey (t, o) (s.synthPlan i)) s.radio.synths[i].sim).2

/-- The cycle from which a synthesiser is LOCKED by what has begun and what waits for it (R75). -/
def State.lockAt (s : State) (i : Fin 16) : Nat :=
  let y := s.radio.synths[i]
  max s.dp (synthRun (max s.dp y.opEnd) (max s.dp y.opEnd) (y.jobs.map fun (j : SynthJob) => (j.start, j.op)) y.sim).2

/-- Cycles inside an interval at which a synthesiser's state may change. -/
def State.synthBreaks (s : State) (k : Fin 8) (a b : Nat) : List Nat :=
  let l := (s.synthPlan (synthOf k false) ++ s.synthPlan (synthOf k true)).map fun (x : Nat × SynthOp) => x.1
  a :: (l.filter fun x => a < x && x < b)

/-- R101: the cause for which an event over `[a, b)` fails on the LO of a paddock. -/
def State.loCause (s : State) (k : Fin 8) (a b : Nat) : Option Cause :=
  (s.synthBreaks k a b).findSome? fun t =>
    match s.synthAt (s.servingAt k t) t with
    | .locked => none
    | .calibrating => some .synthCalibrating
    | _ => some .synthSettling

/-- A change of a path may end at a cycle: STANDBY, RX, TX and OBS need the serving synthesiser LOCKED there (R89), TX and OBS the
interlock (R93). -/
def State.mayEnter (s : State) (p : Fin 64) (t : PState) (fin : Nat) : Bool :=
  (t == .off || t == .sleep || s.synthAt (s.servingAt (paddockOf p) fin) fin == .locked) && (!(t == .tx || t == .obs) || s.interlock p)

/-- Whether a path's TX chain is blanked (R94, R95, R408, R409, R444, R508, R388): mutes, trips, LO, safe state, thermal mute. -/
def State.txBlanked (s : State) (p : Fin 64) : Bool :=
  let x := s.radio.paths[p]
  x.cmdMuteTx || x.symMuteTx || s.tripOn p || s.radio.synths[s.active (paddockOf p)].st != .locked
    || s.host.top.safe || s.pwr.thermalMute || s.hit.cutOff

/-- Whether a path's RX chain is blanked (R94, R95). -/
def State.rxBlanked (s : State) (p : Fin 64) : Bool :=
  let x := s.radio.paths[p]
  x.cmdMuteRx || x.symMuteRx || s.radio.synths[s.active (paddockOf p)].st != .locked

/-- A chain of the path is muted (MUTED of Table 3-9). -/
def State.pathMuted (s : State) (p : Fin 64) : Bool :=
  let x := s.radio.paths[p]
  x.cmdMuteTx || x.symMuteTx || x.cmdMuteRx || x.symMuteRx || s.tripOn p || s.pwr.thermalMute

/-- Die temperature of a paddock in 0.125 °C: the mean of its two sensors' latest results (R498); code 0 is −200 °C. Before
their first conversions no result exists and the temperature is free. -/
def State.dieTemp8 (s : State) (k : Fin 8) : Int :=
  let a := s.sup.chan[(⟨88 + 2 * k.val, by omega⟩ : Fin 184)]
  let b := s.sup.chan[(⟨89 + 2 * k.val, by omega⟩ : Fin 184)]
  if a.valid && b.valid then rdiv ((a.code.toNat : Int) + b.code.toNat - 3200) 2 else Config.dieTemp k.val * 8

/-- Die temperature of a paddock in °C. -/
def State.dieTemp (s : State) (k : Fin 8) : Int := rdiv (s.dieTemp8 k) 8

/-- A preset is usable for a retune (R77): VALID, and the die temperature within 50 °C of CAL_TEMP. -/
def State.presetUsable (s : State) (i : Fin 16) (slot : Fin 32) : Bool :=
  let q := s.radio.synths[i].presets[slot]
  q.valid && (s.dieTemp8 (synthPaddock i) - 8 * q.calTemp.toInt).natAbs ≤ 400

/-- The slot that a full calibration of a frequency writes (R78); none when every slot is PINNED. -/
def Synth.calSlot (y : Synth) (f : BitVec 23) : Option (Fin 32) :=
  let all := List.finRange 32
  match all.find? fun j => y.presets[j].valid && y.presets[j].freq == f with
  | some j => some j
  | none =>
    match all.find? fun j => !y.presets[j].valid with
    | some j => some j
    | none =>
      let cand := all.filter fun j => !y.presets[j].pinned
      cand.foldl (fun (b : Option (Fin 32)) (j : Fin 32) =>
        match b with
        | none => some j
        | some i => if (y.useCount - y.presets[j].useSeq).toNat > (y.useCount - y.presets[i].useSeq).toNat then some j else some i) none

/-- The operation by which the device brings a synthesiser to a channel for its own sequences (R75, R77, R78, R105): a usable
preset, else a full calibration, stored where R78 allows. -/
def State.tuneOp (s : State) (i : Fin 16) (f : BitVec 23) : SynthOp :=
  let y := s.radio.synths[i]
  match (List.finRange 32).find? fun j => y.presets[j].freq == f && s.presetUsable i j with
  | some j => .retune j.val
  | none => .calibrate f (y.calSlot f).isNone

/-- A retune of the serving synthesiser: NF of the paddock's paths reads no value until a new block completes (R215). -/
def State.nfRetuned (s : State) (i : Fin 16) (o : SynthOp) : State :=
  let tuned : Bool := match o with | .retune _ | .calibrate _ _ | .recover _ => true | _ => false
  if tuned && s.active (synthPaddock i) == i then
    { s with quality := Vector.ofFn fun p : Fin 64 => if paddockOf p = synthPaddock i then { s.quality[p] with nf := Vector.replicate 8 0x8000, idle := Vector.replicate 8 [] } else s.quality[p] }
  else s

/-- A preset is taken for a retune: its channel becomes the current one, and the use counter advances (R76). -/
def Synth.take (y : Synth) (j : Fin 32) : Synth :=
  { y with freq := y.presets[j].freq, slot := j.val, noPreset := false, useCount := y.useCount + 1
           presets := vmod y.presets j fun q => { q with useSeq := y.useCount + 1 } }

/-- The slot that holds a channel, if one does. -/
def Synth.slotOf (y : Synth) (f : BitVec 23) : Option (Fin 32) := (List.finRange 32).find? fun j => y.presets[j].valid && y.presets[j].freq == f

/-- Begin an operation of a synthesiser now (R75): its interval, state and channel; behind a calibration it waits, as the calibration is
not cut short. A channel being calibrated that no slot holds is not yet stored (Table 3-10). -/
def State.synthBegin (s : State) (i : Fin 16) (o : SynthOp) : State :=
  (s.nfRetuned i o).modSynth i fun y =>
    if y.st = .retired then y
    else if y.st = .calibrating then { y with jobs := y.jobs ++ [{ start := y.opEnd, op := o }] }
    else
      let y := { y with op := some o, opStart := s.dp, opEnd := s.dp + o.time y.st, st := o.during, aligned := false }
      match o with
      | .retune j | .recover j => match toFin 32 j with | some j => y.take j | none => y
      | .calibrate f _ => match y.slotOf f with
        | some j => { y with freq := f, slot := j.val, noPreset := false }
        | none => { y with freq := f, noPreset := true }
      | _ => y

/-- Decide an operation at a later cycle. -/
def State.synthLater (s : State) (i : Fin 16) (start : Nat) (o : SynthOp) : State :=
  (s.modSynth i fun y => { y with jobs := y.jobs ++ [{ start := start, op := o }] }).at_ start (.synthStart i)

/-- The first decided operation that is due begins. -/
def State.synthStart (s : State) (i : Fin 16) : State :=
  match s.radio.synths[i].jobs.find? fun j => j.start ≤ s.dp with
  | some j => (s.modSynth i fun y => { y with jobs := y.jobs.erase j }).synthBegin i j.op
  | none => s

/-- Begin a change of a path now (R88, R89): the first link of the chain. -/
def State.pathBegin (s : State) (p : Fin 64) (target : PState) (hold : Option Nat) : State :=
  s.modPath p fun x =>
    if x.transit.isSome then { x with jobs := { start := s.dp, due := s.dp, target := target, hold := hold } :: x.jobs }
    else if x.st = target then
      { x with run := match hold with
          | some f => some { isTx := target = .tx, fin := match x.run with | some r => max r.fin f | none => f }
          | none => none }
    else
      let d := nextLink x.st target
      { x with transit := some { src := x.st, dst := d, start := s.dp, fin := s.dp + (directTime x.st d).getD 0, target := target, hold := hold }
               run := none }

/-- Decide a change of a path at a later cycle; a traffic interval begins at `due`, its change earlier. -/
def State.pathLater (s : State) (p : Fin 64) (start : Nat) (target : PState) (hold : Option Nat) (due : Nat := start) : State :=
  (s.modPath p fun x => { x with jobs := x.jobs ++ [{ start := start, due := due, target := target, hold := hold }] }).at_ start (.pathStart p)

/-- The traffic interval of a released event on a path: the transition that it carries ends at the due time (R91). -/
def State.trafficPath (s : State) (p : Fin 64) (need : PState) (due fin rel : Nat) : State :=
  s.pathLater p (due - s.carriedTime p need due fin rel) need (some fin) due

/-- The first decided change of a path that is due begins, unless a transition is in progress (R92). -/
def State.pathStart (s : State) (p : Fin 64) : State :=
  if s.radio.paths[p].transit.isSome then s
  else
    match s.radio.paths[p].jobs.find? fun j => j.start ≤ s.dp with
    | some j => (s.modPath p fun x => { x with jobs := x.jobs.erase j }).pathBegin p j.target j.hold
    | none => s

/-- Put a path in OFF at once with nothing decided for it (retirement, power states). -/
def State.pathOff (s : State) (p : Fin 64) : State :=
  s.modPath p fun x => { x with st := .off, transit := none, jobs := [], run := none }

/-- The phase epoch becomes invalid (R84). -/
def State.epochInvalid (s : State) : State :=
  { s with radio := { s.radio with epochValid := false, synths := s.radio.synths.map fun y => { y with aligned := false } } }

end Sys2Proof.Machine
end

