-- ==== Sys2Proof/Machine/Yard.lean ====
section
/-! DEFINITION. The Yardmaster: presentation of groups, the check at the earliest release tick, drops and LATE records
(R56 to R69). -/

namespace Sys2Proof.Machine

/-- A member of a group before acceptance. -/
structure NewEv where
  kind : Kind
  due  : Tick
  res  : Res
  body : EvBody
  deriving DecidableEq, Repr

/-- The release tick of a member. -/
def NewEv.release (e : NewEv) : Tick := e.due - e.kind.latency

/-- How a presentation ends. -/
inductive Verdict where
  | ok | late | full | tooFar | dup | noTime | notReleased
  deriving DecidableEq, Repr

/-- An internal owner's event. -/
def Source.isInternal : Source → Bool
  | .internal _ => true | _ => false

/-- Complete the command of a source. -/
def State.completeSrc (s : State) (src : Source) (st : Status) (result : BitVec 32 := 0) : State :=
  match src with
  | .cmd r _ => s.complete r st result
  | _ => s

/-- Pending events (R58). -/
def State.pendingCount (s : State) : Nat := s.ym.events.length

/-- Pending events of internal owners. -/
def State.internalCount (s : State) : Nat :=
  (s.ym.events.filter fun e => match e.src with | .internal _ => true | _ => false).length

/-- No unreserved entry is free for `n` events of an external source (R58: 256 of 4,096 entries are reserved). -/
def State.tableFull (s : State) (n : Nat) : Bool :=
  let i := s.internalCount
  s.pendingCount - i + (i - 256) + n > 3840

/-- The resource that R65 compares: class, index and, for symbols of sections, the first PRB. -/
def State.evKey (s : State) (r : Res) (b : EvBody) : Res × Nat :=
  match b with
  | .symbol sec _ _ => (r, match s.ofdm.sections.find? fun x => x.id == sec with | some x => x.prbFirst + 1 | none => 0)
  | .sounding occ _ _ => (r, match s.ofdm.occasions.find? fun x => x.id == occ with | some x => x.port.toNat + 1 | none => 0)
  | _ => (r, 0)

/-- Accept a group's events: each gets its number; the high-water mark follows (R58, Table 2-8). -/
def State.accept (s : State) (src : Source) (doneAt : Option Tick) (evs : List NewEv) : State :=
  let g := s.ym.nextId
  let es := evs.zipIdx.map fun (x : NewEv × Nat) =>
    { id := g + x.2, group := g, kind := x.1.kind, due := x.1.due, src := src, res := x.1.res, body := x.1.body, doneAt := doneAt, judged := false : Event }
  let all := s.ym.events ++ es
  { s with ym := { s.ym with events := all, nextId := g + evs.length, hwm := max s.ym.hwm all.length } }

/-- Present a group to the table (R56, R58, R62, R63, R65). DESIGN CHOICE (log 71): what R63 and R65 refuse is judged before lateness, and
YM_FULL_COUNT counts one for each group refused. A late group is recorded and its command completed with LATE; every
other verdict leaves the completion to the caller. -/
def State.present (s : State) (src : Source) (doneAt : Option Tick) (evs : List NewEv) : Verdict × State :=
  let internal := match src with | .internal _ => true | _ => false
  if s.ym.air = .noTime then (.noTime, s)
  else if s.ym.air = .running ∧ evs.any (fun e => e.kind.traffic) then (.notReleased, s)
  else if evs.any fun e => e.due - s.ym.now > 256 * frameTicks then (.tooFar, s)
  else if evs.any fun e => s.ym.events.any fun x => x.kind == e.kind && x.due == e.due && s.evKey x.res x.body == s.evKey e.res e.body then (.dup, s)
  else if evs.any fun e => e.release < s.ym.now then
    let s := evs.foldl (fun s e =>
      if e.release < s.ym.now then s.lateRec src e.kind e.due e.res .arrival (missOf (s.ym.now - e.release))
      else s.lateRec src e.kind e.due e.res .dependency 0) s
    (.late, s.completeSrc src .late)
  else if !internal && s.tableFull evs.length then
    (.full, match src with | .sarfaip _ _ => { s with ym := { s.ym with full := satInc s.ym.full } } | _ => s)
  else (.ok, s.accept src doneAt evs)

/-- Present a command's group and complete the command where it is refused (R56, R58, R62, R63, R65). -/
def State.presentCmd (s : State) (c : CmdRef) (tag : BitVec 16) (doneAt : Option Tick) (evs : List NewEv) (ok : State → State := id) : State :=
  let r := s.present (.cmd c tag) doneAt evs
  match r.1 with
  | .ok => ok (r.2.setStage c .running)
  | .late => r.2
  | .full | .noTime | .notReleased => r.2.complete c .notReady
  | .tooFar | .dup => r.2.complete c .badArg

/-- The due time of a command's event (R60): its air-time word, or acceptance plus L. -/
def State.eventDue (s : State) (x : Slot) (k : Kind) : Tick :=
  match s.dueOf x with
  | some d => d
  | none => s.ym.now + k.latency

/-- A timed command's air-time word is badly formed (R52). -/
def Slot.atBad (x : Slot) : Bool := x.timed && !airWordOk x.at_

/-- Remove an event from the table. -/
def State.removeEvent (s : State) (id : Nat) : State :=
  { s with ym := { s.ym with events := s.ym.events.filter fun e => e.id != id } }

/-- Abandon an occasion (R164): nothing is smoothed for it any more. -/
def State.abandonOcc (s : State) (id : Nat) : State :=
  let mine (j : Job) : Bool := match j.kind with | .smoothing o => o == id | _ => false
  { s with
    ofdm := { s.ofdm with occasions := s.ofdm.occasions.map fun (x : Occasion) => if x.id = id then { x with abandoned := true } else x }
    sol := { s.sol with
      ready := s.sol.ready.filter fun j => !mine j
      cores := s.sol.cores.map fun (m : SolCore) => match m.bgJob with | some j => if mine j then { m with bgJob := none, bgOn := false, bgCyc := 0 } else m | none => m } }

/-- What a dropped event leaves behind is taken back (R67): the pending transition, the section or occasion, the alarm. -/
def State.forget (s : State) (e : Event) : State :=
  match e.body with
  | .modeChange => { s with mode := { s.mode with trans := none } }
  | .symbol sec _ _ => { s with ofdm := { s.ofdm with sections := s.ofdm.sections.filter fun x => x.id != sec } }
  | .sounding occ _ _ => s.abandonOcc occ
  | .alarm => { s with pwr := { s.pwr with alarm := none } }
  | _ => s

/-- Drop a group: its events leave the table, each is recorded (R66, R68), the command completes with LATE. -/
def State.dropGroup (s : State) (g : Nat) (cause : Event → Cause × Res) : State :=
  let es := s.ym.events.filter fun e => e.group == g
  let s := { s with ym := { s.ym with events := s.ym.events.filter fun e => e.group != g } }
  let s := es.foldl (fun s e => let c := cause e; (s.forget e).lateRec e.src e.kind e.due c.2 c.1 0) s
  match es.head? with
  | some e => s.completeSrc e.src .late
  | none => s

/-- Withdraw a group without a record (R57, R81). -/
def State.withdrawGroup (s : State) (g : Nat) : State :=
  let s := (s.ym.events.filter fun e => e.group == g).foldl (fun s e => s.forget e) s
  { s with ym := { s.ym with events := s.ym.events.filter fun e => e.group != g } }

/-- The count of air ticks that TB3 and the air offset give (R50, R51, R341): time bases count 2^-40/3 ns. -/
def State.airFromTb (s : State) : Tick :=
  let t := s.time.tb[if s.time.sel then (1 : Fin 2) else 0].count - s.time.b
  (t - s.ym.offset.toInt * 3 * 2 ^ 40) * 3072 / (3125 * 3 * 2 ^ 40)

/-- Mode control's own events on a new count (R57, R85, R407): a PHASE_SYNC at the first grid point in time, a mute of a chain as soon
as one can act; an unmute has nothing left to serve. -/
def State.reissue (s : State) (e : Event) : State :=
  let again (due : Tick) : State := (s.present e.src none [{ kind := e.kind, due := due, res := e.res, body := e.body }]).2
  match e.body with
  | .phaseSync => again (ceilTo 32 (s.ym.now + e.kind.latency))
  | .mute _ _ _ true _ => again (s.ym.now + e.kind.latency)
  | _ => s

/-- The boundary at which staged beam entries replace the old ones (R154). -/
def State.beamBoundary (s : State) : Tick := (s.ym.now / subframe + 1) * subframe

/-- A frame boundary to come, on the count that now runs: the first one there at or after the same instant. Where air time did not count before,
the boundary is the first at least 983,040 ticks after its start (R448). -/
def State.frameAgain (s old : State) (t : Tick) : Tick :=
  if old.counting then ceilTo frameTicks (s.airOf (old.dpOf t)) else ceilTo frameTicks (s.ym.now + 983040)

/-- What waits for a boundary goes by the count that now runs: staged beam entries (R154), the quiesce boundary of an entry (R399), the boundary at
which carriers resume (R405, R448). -/
def State.restage (s old : State) : State :=
  let serve (x : Carrier) : Carrier := { x with serveFrom := if old.ym.now < x.serveFrom then s.frameAgain old x.serveFrom else min x.serveFrom s.ym.now }
  { s with
    ofdm := { s.ofdm with
      stages := s.ofdm.stages.map fun (x : BeamStage) => { x with boundary := s.beamBoundary }
      carriers := s.ofdm.carriers.map serve }
    pwr := { s.pwr with
      qAt := if s.pwr.step = .beforeQ then s.frameAgain old s.pwr.qAt else s.pwr.qAt
      resumeAt := s.pwr.resumeAt.map (s.frameAgain old) } }

/-- Air time is re-based at once (R57): events of command rings and of Sarfaip drop with cause REBASE, each command completing
with LATE; those of internal owners are withdrawn, and mode control issues its own again; the other owners do so by their own rows. -/
def State.rebase (s : State) : State :=
  let own := s.ym.events.filter fun e => match e.src with | .internal .modeControl => true | _ => false
  let gs := (s.ym.events.map fun e => (e.group, match e.src with | .internal _ => true | _ => false)).eraseDups
  let s := gs.foldl (fun s g => if g.2 then s.withdrawGroup g.1 else s.dropGroup g.1 fun e => (.rebase, e.res)) s
  own.foldl (fun (s : State) e => s.reissue e) ({ s with ym := { s.ym with now := s.airFromTb } }.restage s)

/-- Order of release (R64): release tick, kind code, acceptance. -/
def Event.before (a b : Event) : Bool :=
  a.release < b.release || (a.release == b.release && (a.kind.code < b.kind.code || (a.kind == b.kind && a.id < b.id)))

/-- The event of this number and kind may be released now: its release tick has come and no other due event goes before it. -/
def State.releasable (s : State) (id : Nat) (k : Kind) : Option Event :=
  match s.ym.events.find? fun e => e.id == id && e.kind == k with
  | none => none
  | some e =>
    if s.counting && e.release ≤ s.ym.now && s.ym.events.all (fun x => x.id == e.id || !x.before e) then some e else none

/-- Members of a group in the order in which R66 takes them. -/
def insertEvent (e : Event) : List Event → List Event
  | [] => [e]
  | x :: xs => if e.before x then e :: x :: xs else x :: insertEvent e xs

/-- Mark an event as judged. -/
def State.judge (s : State) (id : Nat) : State :=
  { s with ym := { s.ym with events := s.ym.events.map fun e => if e.id = id then { e with judged := true } else e } }

/-- R66: judge the members of a group in order, each after those before it; the member that fails, with its cause. -/
def State.checkMembers (chk : State → Event → Option (Cause × Res)) : List Event → State → State × Option (Event × Cause × Res)
  | [], s => (s, none)
  | e :: es, s =>
    match chk s e with
    | some c => (s, some (e, c))
    | none => State.checkMembers chk es (s.judge e.id)

/-- Release one event (R64, R66): at the group's earliest release every member is judged, once for all, and the group goes on whole or
drops whole; an event that passes leaves the table and `eff` carries it out. The command of a group whose last event this is
completes at the group's last effect point (R424). -/
def State.release (s : State) (id : Nat) (k : Kind) (chk : State → Event → Option (Cause × Res)) (eff : State → Event → State) : State :=
  match s.releasable id k with
  | none => s
  | some e =>
    let go (s : State) : State :=
      let s := eff (s.removeEvent id) e
      match e.doneAt, e.src with
      | some t, .cmd r _ => if s.ym.events.any fun x => x.group == e.group then s else s.at_ (s.dpOf t) (.complete r .ok 0)
      | _, _ => s
    if e.judged then go s
    else
      let ms := (s.ym.events.filter fun x => x.group == e.group).foldl (fun l x => insertEvent x l) []
      match State.checkMembers chk ms s with
      | (s', none) => go s'
      | (_, some (f, c)) => s.dropGroup e.group fun x => if x.id = f.id then c else (.dependency, x.res)

end Sys2Proof.Machine
end

