-- ==== Sys2Proof/Machine/Faults.lean ====
section
/-! DEFINITION. Stopping traffic (R43, R391, R444), retirements and spares (R87, R232, R495, R538 to R541), and the fault
arbiter's raising and escalation (R440 to R445). -/

namespace Sys2Proof.Machine

/-- Change a carrier. -/
def State.modCarrier (s : State) (c : Fin 8) (f : Carrier → Carrier) : State :=
  { s with ofdm := { s.ofdm with carriers := vmod s.ofdm.carriers c f } }

/-- The siding of a carrier and direction. -/
def State.siding (s : State) (c : Fin 8) (ul : Bool) : Option Siding := if ul then s.ofdm.sidingsUl[c] else s.ofdm.sidingsDl[c]

/-- Replace a siding. -/
def State.setSiding (s : State) (c : Fin 8) (ul : Bool) (x : Option Siding) : State :=
  if ul then { s with ofdm := { s.ofdm with sidingsUl := vset s.ofdm.sidingsUl c x } }
  else { s with ofdm := { s.ofdm with sidingsDl := vset s.ofdm.sidingsDl c x } }

/-- Change a carrier's weight counters. -/
def State.modWcount (s : State) (c : Fin 8) (f : WeightCount → WeightCount) : State :=
  s.modCarrier c fun x => { x with wcount := f x.wcount }

/-- The allocation that a job's set is for. -/
def Job.blk? (j : Job) : Option Nat :=
  match j.kind with
  | .weight _ _ _ _ _ _ b | .chain _ _ _ _ _ _ b => some b
  | _ => none

/-- The computation of an allocation is given up: its jobs that wait leave the solver's list, and in an array its group is forgotten; a job that
runs is never interrupted (R178), and finds nobody who waits for its result. -/
def State.dropWork (s : State) (b : Nat) : State :=
  { s with
    sol := { s.sol with ready := s.sol.ready.filter fun j => j.blk? != some b }
    hit := { s.hit with groups := s.hit.groups.filter fun (g : ChainGroup) => g.blk != b } }

/-- Scrap the unclaimed groups of a siding: each counts in SCRAPPED, its pending work completes with SCRAPPED, its computation ends (R181,
R333). -/
def State.scrapSiding (s : State) (c : Fin 8) (ul : Bool) : State :=
  match s.siding c ul with
  | none => s
  | some x =>
    let s := (s.setSiding c ul none).modWcount c fun w => { w with scrapped := satAdd w.scrapped x.groups.length }
    let s := x.groups.foldl (fun (s : State) (g : SidingGroup) => s.dropWork g.blk) s
    x.cmds.foldl (fun (s : State) r => s.complete r .scrapped) s

/-- Scrap every siding of a carrier (R181). -/
def State.scrapCarrier (s : State) (c : Fin 8) : State := (s.scrapSiding c false).scrapSiding c true

/-- A first-use period begins in both directions (R188). -/
def State.firstUse (s : State) (c : Fin 8) : State :=
  s.modCarrier c fun x => { x with firstUseDl := some s.ym.now, firstUseUl := some s.ym.now }

/-- Discard all of a carrier's channel-book entries (R43, R127, R136): a first-use period begins (R188). -/
def State.discardBook (s : State) (c : Fin 8) : State :=
  { s with ofdm := { s.ofdm with book := s.ofdm.book.filter fun b => b.carrier != c } }.firstUse c

/-- R43: what the start point of a transition does to weights: sidings scrapped, the channel book cleared, and the confirmed
sets emptied unless it is seamless. -/
def State.dropWeights (s : State) (seamless : Bool) : State :=
  let s := (List.finRange 8).foldl (fun s c => (s.scrapCarrier c).discardBook c) s
  if seamless then s else { s with ofdm := { s.ofdm with confirmed := [], claims := [] } }

/-- Drop the pending events that meet a condition: each is reported (R68), with a cause that Table 2-6 does not give. -/
def State.dropEvents (s : State) (p : Event → Bool) : State :=
  let es := s.ym.events.filter p
  es.foldl (fun (s : State) e => s.lateOpen e) { s with ym := { s.ym with events := s.ym.events.filter fun e => !p e } }

/-- Drop a section with its pending events. -/
def State.dropSection (s : State) (x : Section) : State :=
  let s := s.dropEvents fun e => match e.body with | .symbol i _ _ => i == x.id | _ => false
  { s with ofdm := { s.ofdm with sections := s.ofdm.sections.filter fun y => y.id != x.id } }

/-- Abandon an occasion and drop its pending events. -/
def State.dropOccasion (s : State) (x : Occasion) : State :=
  let s := s.dropEvents fun e => match e.body with | .sounding i _ _ => i == x.id | _ => false
  s.abandonOcc x.id

/-- Change a port. -/
def State.modPort (s : State) (n : Fin 8) (f : Port → Port) : State :=
  { s with fh := { s.fh with ports := vmod s.fh.ports n f } }

/-- Count in RX_OUTAGE of a port (Table 10-14). -/
def State.countOutage (s : State) (n : Nat) : State :=
  match toFin 8 n with
  | some n => s.modPort n fun p => { p with count := { p.count with rxOutage := satInc p.count.rxOutage } }
  | none => s

/-- R44, R391: what was accepted for a carrier's symbols in `[a, b)` is dropped: sections, those that wait for blocks and held blocks, which
count in RX_OUTAGE, and occasions. -/
def State.dropOutage (s : State) (c : Fin 8) (a : Tick) (b : Option Tick) : State :=
  let inside (d : Tick) : Bool := a ≤ d && (match b with | some b => d < b | none => true)
  let secs := s.ofdm.sections.filter fun x => x.carrier == c &&
    s.ym.events.any fun e => match e.body with | .symbol i _ _ => i == x.id && inside e.due | _ => false
  let s := secs.foldl (fun s x => (s.dropSection x).countOutage x.port) s
  let opens := s.fh.openSecs.filter fun (o : OpenSection) => o.sec.carrier == c && inside o.sec.slot
  let held := s.fh.held.filter fun (h : HeldBlock) => h.carrier == c && inside h.slot
  let s := { s with fh := { s.fh with openSecs := s.fh.openSecs.filter fun o => !(o.sec.carrier == c && inside o.sec.slot)
                                      held := s.fh.held.filter fun h => !(h.carrier == c && inside h.slot) } }
  let s := opens.foldl (fun (s : State) o => s.countOutage o.sec.port) s
  let s := held.foldl (fun (s : State) h => s.countOutage h.port) s
  let occs := s.ofdm.occasions.filter fun x => x.carrier == c &&
    s.ym.events.any fun e => match e.body with | .sounding i _ _ => i == x.id && inside e.due | _ => false
  occs.foldl (fun s x => s.dropOccasion x) s

/-- Drop downlink data of a carrier whose symbols lie in `[a, b)`; each message counts in RX_OUTAGE. -/
def State.dropData (s : State) (c : Fin 8) (a : Tick) (b : Option Tick) : State :=
  let out (d : DlData) : Bool := d.carrier == c && a ≤ d.sym && (match b with | some b => d.sym < b | none => true)
  let s' := { s with fh := { s.fh with dlData := s.fh.dlData.filter fun d => !out d } }
  (s.fh.dlData.filter fun d => out d && d.size != 0).foldl (fun (s : State) d => s.countOutage d.port) s'

/-- R391, R444: traffic stops as at a quiesce boundary: every configured carrier is suspended until traffic resumes, and what was
accepted for it is dropped. -/
def State.quiesce (s : State) : State :=
  (List.finRange 8).foldl (fun (s : State) c =>
    if s.ofdm.carriers[c].cfg.isNone then s
    else ((s.dropOutage c s.ym.now none).dropData c s.ym.now none).modCarrier c fun x => { x with suspended := true }) (s.dropWeights false)

/-- The DPD event (Table 8-8). -/
def State.postDpd (s : State) (code index : Nat) : State := s.postRec 0x06 8 [.v 8 code, .v 8 index, .u 16, .v 32 s.frameNow]

/-- The clock event (Table 13-7) and the power event (Table 14-14) have bodies of their chapters. -/
def State.modOut (s : State) (i : Fin 80) (f : OutCh → OutCh) : State := { s with sup := { s.sup with out := vmod s.sup.out i f } }

/-- Drive a halter output at the safe value under R510; the stored value stays. -/
def OutCh.hold (o : OutCh) : OutCh := { o with held := true, now := 0, range := 0, dwell := none, gen := none }

-- DPD captures and calibrations that are cut short

/-- Change the DPD of a path. -/
def State.modDpd (s : State) (p : Fin 64) (f : Dpd → Dpd) : State := { s with lin := { s.lin with paths := vmod s.lin.paths p f } }

/-- A capture attempt of a path fails (R229, R231): after three in a row the order moves on. -/
def State.capFail (s : State) (p : Fin 64) : State :=
  let k := paddockOf p
  let s := s.modDpd p fun d => { d with capAbort := satInc d.capAbort, fails := d.fails + 1 }
  if s.lin.paths[p].fails ≥ 3 then
    { s.modDpd p fun d => { d with fails := 0 } with lin := { (s.modDpd p fun d => { d with fails := 0 }).lin with
        owners := vmod s.lin.owners k fun o => { o with pos := (p.val % 8 + 1) % 8 } } }
  else s

/-- Discard captures that are under way (R231, R465): a DPD capture is an attempt that failed; a SHU_CAPTURE completes with HW_FAULT. -/
def State.capDiscard (s : State) (sel : Capture → Bool) : State :=
  (s.lin.caps.filter sel).foldl (fun (s : State) (c : Capture) =>
    let s := { s with lin := { s.lin with caps := s.lin.caps.erase c } }
    match c.shu with
    | none => s.capFail c.path
    | some u =>
      let left := s.shu.caps.filter fun x => !(48 + u.first ≤ x.1 && x.1 < 48 + u.first + u.nslot)
      { s with shu := { s.shu with caps := left } }.complete u.ref .hwFault) s

/-- Discard every capture of a path: retirement, loss of lock, receiver fault. -/
def State.capAbort (s : State) (p : Fin 64) : State := s.capDiscard fun c => c.path == p

/-- Discard the captures that the muting of a path's chains, or its opened interlock, ends (R231, R465). -/
def State.capMuted (s : State) (p : Fin 64) (tx rx : Bool) : State :=
  s.capDiscard fun c => c.path == p && (match c.shu with | some u => if u.src = 1 then rx else tx | none => tx)

/-- The record of a calibration and subject; a fresh one where none is kept (R268). -/
def State.calRec (s : State) (k : CalKey) : CalRec :=
  match s.cal.recs.find? fun r => r.key == k with
  | some r => r
  | none => { key := k, last := .none, halted := false, stored := false, count := 0, atLast := none, tb0s := 0, tb0ns := 0
              outRun := 0, failRun := 0, doneAt := 0, temp := 0, cfg := none }

/-- Change a record. -/
def State.modCalRec (s : State) (k : CalKey) (f : CalRec → CalRec) : State :=
  let r := f (s.calRec k)
  if s.cal.recs.any fun x => x.key == k then
    { s with cal := { s.cal with recs := s.cal.recs.map fun x => if x.key = k then r else x } }
  else { s with cal := { s.cal with recs := s.cal.recs ++ [r] } }

/-- The calibrations under way: in guard periods and in CAL_RUNs. -/
def State.calActive (s : State) : List CalKey := (s.cal.slots.map fun x => x.key) ++ s.cal.runs.flatMap fun (r : CalRun) => r.busy.map fun x => x.1

/-- A calibration is interrupted (R269): outcome ABORTED, the result in force stays, its slot and partial result are gone; that of a CAL_RUN has
still to complete (R260), and starts again. -/
def State.calAborted (s : State) (k : CalKey) : State :=
  { s with cal := { s.cal with
      slots := s.cal.slots.filter fun x => x.key != k
      partials := s.cal.partials.filter fun x => x.key != k
      runs := s.cal.runs.map fun (r : CalRun) => { r with busy := r.busy.filter fun x => x.1 != k } } }.modCalRec k fun r => { r with last := .aborted }

/-- Retire a path (R29, R510, R540): path OFF, halter output at the safe value. -/
def State.retirePath (s : State) (p : Fin 64) (cause : Nat) : State :=
  if s.radio.paths[p].retired then s
  else
    let s := ((s.pathOff p).modPath p fun x => { x with retired := true }).modOut (hbOf p) OutCh.hold
    let s := s.capAbort p
    let s := (s.calActive.filter fun x => x.cls == 1 && x.idx == p.val).foldl (fun (s : State) x => s.calAborted x) s
    (s.ledgerPut 8 cause { cls := 1, idx := p.val } 0).postSpare 2 8 { cls := 1, idx := p.val }

/-- The paths of a paddock (R4). -/
def paddockPaths (k : Fin 8) : List (Fin 64) := (List.finRange 64).filter fun p => p.val / 8 == k.val

/-- Retire a paddock: its eight paths. -/
def State.retirePaddock (s : State) (k : Fin 8) (cause : Nat) : State := (paddockPaths k).foldl (fun s p => s.retirePath p cause) s

/-- Retire a synthesiser (R87): the other serves alone, retuned to the active channel if the retired one was active; with both
retired, the paddock's paths are retired. DEDUCED (log 77): with no usable preset the other calibrates the channel and shows CALIBRATING; a
calibration under way on it comes first (R75). -/
def State.retireSynth (s : State) (i : Fin 16) (cause : Nat) : State :=
  let k := synthPaddock i
  let y := s.radio.synths[i]
  if y.st = .retired then s
  else
    let wasActive : Bool := s.active k = i
    let o := synthOf k (i.val % 2 == 0)
    let s := s.modSynth i fun y => { y with st := .retired, op := none, jobs := [], aligned := false }
    let s := (s.ledgerPut 5 cause { cls := 3, idx := i.val } 0).postSpare 2 5 { cls := 3, idx := i.val }
    if s.radio.synths[o].st = .retired then s.retirePaddock k cause
    else if wasActive then
      let s := { s with radio := { s.radio with activeB := vset s.radio.activeB k (o.val % 2 == 1) } }
      if y.freq = 0 then s else s.synthBegin o (s.tuneOp o y.freq)
    else s

/-- An observation receiver OBS0 to OBS7 goes out of service (R232, R443): OBS8 stands in where it is free. -/
def State.obsSubstitute (s : State) (k : Fin 8) (cause : Nat) : State :=
  let i : Fin 9 := ⟨k.val, by omega⟩
  let s := (paddockPaths k).foldl (fun (s : State) p => s.capAbort p) s
  let s := { s with lin := { s.lin with obsOut := vset s.lin.obsOut i true, obs8 := some k }
                    cal := { s.cal with vals := s.cal.vals.map fun (v : CalVal) =>
                      if v.key.id = 4 ∧ v.key.cls = 1 ∧ v.key.idx / 8 = k.val then { v with valid := false } else v } }
  let r : Res := { cls := 5, idx := k.val }
  ((s.ledgerPut 4 cause r 8).postSpare 1 4 r).postDpd 3 k.val

/-- No observation receiver serves a paddock any more (R232): its paths are frozen with their coefficients in force, TX_EVM reads no value. -/
def State.noObserver (s : State) (k : Fin 8) : State :=
  (paddockPaths k).foldl (fun (s : State) p =>
    let s := (s.capAbort p).modDpd p fun d => { d with noObs := true }
    { s with quality := vmod s.quality p fun q => { q with txEvm := 0x8000 } }) s
def State.obsNone (s : State) (k : Fin 8) : State := (s.noObserver k).postDpd 4 k.val

/-- OBS0 to OBS7 goes out of service while OBS8 serves another paddock (R232). -/
def State.obsOff (s : State) (k : Fin 8) (cause : Nat) : State :=
  let r : Res := { cls := 5, idx := k.val }
  let s := { s with lin := { s.lin with obsOut := vset s.lin.obsOut ⟨k.val, by omega⟩ true } }
  ((s.ledgerPut 4 cause r 0).postSpare 2 4 r).obsNone k

/-- OBS8 goes out of service (R443): captures through it are discarded, and the paddock that it served has no receiver. -/
def State.obs8Out (s : State) (cause : Nat) : State :=
  let r : Res := { cls := 5, idx := 8 }
  let old := s.lin.obs8
  let s := { s with lin := { s.lin with obsOut := vset s.lin.obsOut 8 true, obs8 := none } }
  let s := (s.ledgerPut 4 cause r 8).postSpare 2 4 r
  match old with
  | none => s
  | some k => s.obsNone k

/-- SC8 stands in for a core (R495). -/
def State.coreSubstitute (s : State) (c : Fin 9) (cause : Nat) : State :=
  let r : Res := { cls := 9, idx := 0x100 + c.val }
  let busy := s.sol.cores[(8 : Fin 9)].fgJob
  let s := match busy with
    | some { kind := .test ref _ _, .. } => s.complete ref .hwFault
    | _ => s
  let cs := vmod s.sol.cores c fun x => { x with st := .retired, fgJob := none, bgJob := none, resetEnd := none }
  let cs := vmod cs 8 fun x => { x with st := .inService, standsFor := BitVec.ofNat 4 c.val, fgJob := none, resetEnd := some (s.dp + 98304) }
  let s := { s with sol := { s.sol with cores := cs } }
  (s.ledgerPut 3 cause r 8).postSpare 1 3 r

/-- Change a bank's record. -/
def State.modBank (s : State) (b : Nat) (f : BankRec → BankRec) : State :=
  let old := match s.mem.banks.find? fun x => x.1 == b with | some x => x.2 | none => BankRec.empty
  { s with mem := { s.mem with banks := (s.mem.banks.filter fun x => x.1 != b) ++ [(b, f old)] } }

/-- A bank's record. -/
def State.bank (s : State) (b : Nat) : BankRec := match s.mem.banks.find? fun x => x.1 == b with | some x => x.2 | none => BankRec.empty

/-- A core whose data memory is under a march, or that logic BIST tests, takes no jobs (R532, R536). A march has taken a core when one of
its banks is under test, or is the next to be. -/
def State.coreTested (s : State) (c : Fin 9) : Bool :=
  let mine (b : Nat) : Bool := 272 + 8 * c.val ≤ b && b < 280 + 8 * c.val
  (s.mem.marches.any fun m => !m.waiting && m.memory == 4 &&
    (if m.run.isEmpty then (match m.todo.head? with | some b => mine b | none => false) else m.run.any fun x => mine x.bank))
  || s.mem.lbist.any fun l => l.target == 0 && l.fin.isSome || l.target == 2 && l.index == c.val

/-- The repair word D of a bank (Table 19-6, KIND 1). -/
def BankRec.detail (b : BankRec) : BitVec 64 :=
  let row (r : Nat) (x : Option (BitVec 8)) : Nat := match x with | some v => (256 + v.toNat) <<< (9 * r) | none => 0
  let col (c : Nat) (x : Option (BitVec 9)) : Nat := match x with | some v => (512 + v.toNat) <<< (27 + 10 * c) | none => 0
  BitVec.ofNat 64 (row 0 b.rows[0] + row 1 b.rows[1] + row 2 b.rows[2] + col 0 b.cols[0] + col 1 b.cols[1])

/-- Take a repair row for a failing row (R531): the ledger record is written and REPAIRED is posted; none if no row is free. -/
def State.repairRow (s : State) (b : Nat) (row : BitVec 8) (cause : Nat) : Option State :=
  match (List.finRange 3).find? fun r => (s.bank b).rows[r].isNone with
  | none => none
  | some r =>
    let res : Res := { cls := 9, idx := 0x400 + b }
    let s := s.modBank b fun x => { x with rows := vset x.rows r (some row), marked := x.marked.filter (· != row.toNat), rowCorr := x.rowCorr.filter (·.1 != row.toNat) }
    some ((s.ledgerPut 1 cause res (s.bank b).detail).postSpare 4 1 res)

/-- The device safe state (R444). -/
def State.enterSafe (s : State) : State :=
  if s.host.top.safe then s
  else
    let s := s.quiesce
    let s := { s with host := { s.host with top := { s.host.top with safe := true } } }
    ((List.finRange 64).foldl (fun (s : State) p => s.capMuted p true false) s).setFaultN

/-- Faults that never escalate (R443). -/
def FCode.fixed (c : FCode) : Bool := c.cls == .host || c == .thermalMute || c == .thermalDeep || c == .expired || c == .memberLost

/-- An enabled port uses a lane (R278). -/
def Port.hasLane (p : Port) (l : BitVec 5) : Bool :=
  let n := match p.cfg.speed.toNat with | 1 | 2 => 1 | 3 | 5 => 4 | 4 => 2 | 6 => 8 | _ => 0
  p.st != .disabled && (p.cfg.lanes.take n).any fun b => b.extractLsb' 0 5 == l

/-- Some lane is in no enabled port and not retired (R539). -/
def State.laneFree (s : State) : Bool :=
  (List.finRange 32).any fun l =>
    !s.fh.lanesRetired.getLsbD l.val &&
    !((List.finRange 8).any fun i => s.fh.ports[i].hasLane (BitVec.ofFin l))

/-- Words of data memory of a core that lie in a row of one of its banks (R477, R524): four lines of 32 words. -/
def solRowWords (bank row : Nat) : List Nat := (List.range 128).map fun j => 1024 * row + 256 * (j / 32) + 32 * bank + j % 32

/-- The data of a row that a level-1 repair replaced is lost (R526): it becomes undefined. Of the memories whose words the model holds by
address, the captured samples of the bank's slot, the two beams of a row and the solver data of a row do. -/
def State.loseRow (s : State) (b row : Nat) : State :=
  if 192 ≤ b ∧ b < 256 then { s with shu := { s.shu with caps := s.shu.caps.filter fun x => x.1 != b - 192 } }
  else if 256 ≤ b ∧ b < 272 then
    let k := 256 * (b - 256) + 2 * row
    let draw (s : State) : List (BitVec 32) × State :=
      (List.range 64).foldl (fun (a : List (BitVec 32) × State) _ => let f := a.2.takeFree 32; (a.1 ++ [f.1], f.2)) ([], s)
    let x := draw s
    let y := draw x.2
    { y.2 with ofdm := { y.2.ofdm with beams := putBeam (putBeam y.2.ofdm.beams k x.1) (k + 1) y.1 } }
  else if 272 ≤ b ∧ b < 344 then
    match toFin 9 ((b - 272) / 8) with
    | none => s
    | some c => (solRowWords ((b - 272) % 8) row).foldl (fun (s : State) i =>
        let f := s.takeFree 32
        { f.2 with sol := { f.2.sol with cores := vmod f.2.sol.cores c fun m => m.put i f.1 } }) s
  else s

/-- The level that the ladder of R443 gives after `lv`: level 3 where a spare that the next level needs is not free. -/
def State.ladder (s : State) (r : Res) (lv : Nat) : Nat :=
  let next := lv + 1
  if next ≥ 3 then 3
  else match r.cls with
    | 1 | 7 | 2 | 3 => next
    | 5 => if r.idx = 8 then 1 else next
    | 9 =>
      if 0x100 ≤ r.idx ∧ r.idx ≤ 0x108 then (if s.sol.cores[(8 : Fin 9)].st = .spare ∧ next = 1 then 1 else 3)
      else if 0x200 ≤ r.idx ∧ r.idx ≤ 0x21F then (if next = 1 ∧ s.laneFree then 1 else 3)
      else if 0x300 ≤ r.idx ∧ r.idx < 0x390 then
        (if next = 1 ∧ r.idx % 16 ≠ 15 ∧ ¬ s.pwr.spared.any (fun x => x.1 == (r.idx - 0x300) / 16) then 1 else 3)
      else if 0x400 ≤ r.idx ∧ r.idx ≤ 0x5A0 then
        (if next = 1 ∧ (List.finRange 3).any fun k => (s.bank (r.idx - 0x400)).rows[k].isNone then 1 else 3)
      else 3
    | _ => 3

/-- The action of a recovery level above 0 (R443). -/
def State.levelAction (s : State) (f : HeldFault) : State :=
  let cause := f.code.code.toNat
  if f.level = 0 then s
  else if f.level ≥ 3 then s.enterSafe
  else match f.res.cls with
    | 1 | 7 =>
      match toFin 64 f.res.idx with
      | some p => if f.level = 1 then s.retirePath p cause else s.retirePaddock (paddockOf p) cause
      | none => s
    | 2 => match toFin 8 f.res.idx with | some k => s.retirePaddock k cause | none => s
    | 3 =>
      match toFin 16 f.res.idx with
      | some i => if f.level = 1 then s.retireSynth i cause else s.retirePaddock (synthPaddock i) cause
      | none => s
    | 5 =>
      if f.res.idx = 8 then s.obs8Out cause
      else match toFin 8 f.res.idx with
        | some k =>
          if f.level = 1 ∧ s.lin.obsOut[(8 : Fin 9)] = false then
            (match s.lin.obs8 with
            | none => s.obsSubstitute k cause
            | some o => if o = k then s.retirePaddock k cause else s.obsOff k cause)
          else s.retirePaddock k cause
        | none => s
    | 9 =>
      let i := f.res.idx
      if 0x100 ≤ i ∧ i ≤ 0x107 then (match toFin 9 (i - 0x100) with | some c => s.coreSubstitute c cause | none => s)
      else if 0x200 ≤ i ∧ i ≤ 0x21F then
        let s := { s with fh := { s.fh with lanesRetired := s.fh.lanesRetired ||| (1 <<< (i - 0x200)) } }
        (s.ledgerPut 6 cause f.res 0).postSpare 2 6 f.res
      else if 0x300 ≤ i ∧ i < 0x390 then
        let rp := ((i - 0x300) / 16, i % 16)
        let s := { s with pwr := { s.pwr with spared := rp :: s.pwr.spared, phasesOut := rp :: s.pwr.phasesOut } }
        (s.ledgerPut 7 cause f.res 0).postSpare 1 7 f.res
      else if 0x400 ≤ i ∧ i ≤ 0x5A0 then (match s.repairRow (i - 0x400) (s.bank (i - 0x400)).bad cause with
        | some t => t.loseRow (i - 0x400) (s.bank (i - 0x400)).bad.toNat
        | none => s)
      else s
    | _ => s

/-- Opcodes of the commands that work on a block that a recovery resets (R445): the memory of the failing bank, or the cores. -/
def resetOps (f : HeldFault) : List (BitVec 8) :=
  if f.code = .solver then [0x7B]
  else if f.code = .memUncorr then
    let b := f.res.idx - 0x400
    if b < 128 then [0x31] else if b < 192 then [0x32] else if b < 256 then [0x73] else if b < 272 then [0x29]
    else if b < 353 then [0x7B] else if b < 401 then [] else [0x70]
  else []

/-- R445: started commands on the reset block complete with HW_FAULT, ring by ring in reverse issue order. -/
def State.abortOps (s : State) (ops : List (BitVec 8)) : State :=
  (List.finRange 16).foldl (fun s n =>
    let xs := (s.host.rings[n].slots.filter fun x => x.stage == .running && ops.contains x.opcode).reverse
    xs.foldl (fun s x => s.complete { ring := n, seq := x.seq } .hwFault) s) s

/-- Raise a fault (R440, R442): it escalates the same resource's held fault where R443 lets it, and else enters the arbiter. -/
def State.raiseFault (s : State) (code : FCode) (res : Res) (level : Nat := 0) : State :=
  match s.host.arb.held.find? fun h => h.res == res && !h.code.fixed && !code.fixed with
  | none => s.enterFault code res level
  | some h =>
    let i := s.nextFaultId
    let s := i.2
    let lv := s.ladder res h.level
    let f : HeldFault := { h with code := code, level := lv, id := i.1, refId := h.id, raised := s.dp, started := s.dp }
    let s := (s.faultRec .raised { f with level := 0 }).faultRec .escalated f
    let s := s.faultTrans.setHeld (s.host.arb.held.map fun (x : HeldFault) => if x.id = h.id then f else x)
    if h.hold = .running then s.levelAction f else s

end Sys2Proof.Machine
end

