-- ==== Sys2Proof/Machine/Flags.lean ====
section
/-! DEFINITION. The register space (Table 15-12a): what each status and control register reads as, what a clearing read clears,
and what a write does (R15, R427). -/

namespace Sys2Proof.Machine

/-- A time-of-fault bit: FAULT_N asserted. -/
def State.topStatus (s : State) : List Fld :=
  let held := s.host.arb.held
  let run := held.find? fun h => h.hold == .running
  let waiting := (held.filter fun h => h.hold != .running).length
  [.v 16 s.host.top.badAccess.toNat, .v 10 (min 1023 waiting), .v 1 (b2n run.isSome),
   match run with | some r => .v 3 r.code.cls.code | none => if s.host.arb.ran then .u 3 else .v 3 0, .v 1 (b2n s.pkg.faultN), .v 1 (b2n s.host.top.safe)]

/-- A command ring's registers in the order of Table 15-3. -/
def Ring.reg (r : Ring) (j : Nat) : Option (List Fld) :=
  match j with
  | 0 => some [.u 12, .v 20 r.cmdBaseLo.toNat]
  | 1 => some [.v 32 r.cmdBaseHi.toNat]
  | 2 => some [.u 12, .v 20 r.cplBaseLo.toNat]
  | 3 => some [.v 32 r.cplBaseHi.toNat]
  | 4 => some [.v 4 r.log2.toNat, .u 21, .v 5 r.vec.toNat, .v 1 (b2n r.strict), .v 1 (b2n (r.st == .running || r.st == .held || r.st == .stopped))]
  | 5 => some [.v 12 r.head, .u 4, .v 13 r.outstanding, .v 3 r.st.code.toNat]
  | _ => none

/-- The event ring's registers in the order of Table 15-3. -/
def EvtRing.reg (r : EvtRing) (j : Nat) : Option (List Fld) :=
  match j with
  | 0 => some [.u 12, .v 20 r.baseLo.toNat]
  | 1 => some [.v 32 r.baseHi.toNat]
  | 2 => some [.v 5 r.log2.toNat, .u 11, .v 9 r.coal.toNat, .v 5 r.vec.toNat, .u 1, .v 1 (b2n r.en)]
  | 3 => some [.v 16 r.lost.toNat, .u 13, .v 3 (if r.stopped then 4 else if r.en then 1 else 0)]
  | _ => none

/-- Bits of a list of booleans, lowest first. -/
def boolFlds (l : List Bool) : List Fld := l.map fun b => .v 1 (b2n b)

/-- Codes of PWR_AON_STATUS STATE (Table 14-2). -/
def PwrState.code : PwrState → Nat
  | .active => 0 | .idle => 1 | .doze => 2 | .nap => 3 | .deep => 4 | .off => 5

/-- An entry is between its acceptance and its completion. -/
def State.entering (s : State) : Bool :=
  match s.pwr.step with | .beforeQ | .e1 | .e2 | .e3 | .e4 | .undo => true | _ => false

/-- A wake is in progress. -/
def State.waking (s : State) : Bool := match s.pwr.step with | .wake _ => true | _ => false

/-- VCORE of PWR_AON_STATUS: the reset value until VCORE_D rises; under the adaptive loop only its range is given (Table 14-4), and
while the voltage moves or is off nothing is. -/
def State.vcoreFld (s : State) : Fld :=
  let p := s.pwr
  if p.step = .cold ∧ p.rails.getLsbD 1 = false then .v 8 0
  else if s.waking || p.step == .e4 || p.rails.getLsbD 1 == false then .u 8
  else match p.st with
    | .active => .r 8 40 31
    | .idle => .r 8 30 21
    | .doze => .v 8 30
    | .nap => .v 8 20
    | _ => .u 8

/-- PWR_ registers (Tables 14-10 to 14-13). -/
def State.pwrReg (s : State) (j : Nat) : Option (List Fld) :=
  let p := s.pwr
  match j with
  | 0 => some [.u 8, s.vcoreFld, .v 4 p.lastWake.toNat, .v 1 (b2n s.waking), .v 1 (b2n s.entering), .v 1 (b2n p.fault),
      .v 3 p.bootStage.toNat, .v 3 p.target.code, .v 3 p.st.code]
  | 1 => let w := p.wakeCfg.toNat
         some [.u 1, .v 3 (w / 2), .u 1, .v 3 (w / 32), .u 1, .v 3 (w / 512), .u 1, .v 3 (w / 8192), .v 10 (w / 65536), .u 6]
  | 2 => let w := p.wakeFail.toNat
         some [.v 1 w, .u 7, .v 24 (w / 256)]
  | 3 => some [.v 1 0, .u 31]
  | _ => none

/-- CLK_ registers (Table 13-6). -/
def State.clkReg (s : State) (j : Nat) : Option (List Fld) :=
  let c := s.clk
  match j with
  | 0 => some [.v 8 c.switches.toNat, .v 8 c.ttHung.toNat, .u 6, .v 2 c.xoSel.toNat, .v 1 (b2n c.cbPll), .v 1 (b2n c.aonXo),
      .v 1 (b2n c.noFallback), .v 2 c.active.toNat, .v 3 c.pll.code.toNat]
  | 1 => some ((c.mon.toList.map fun m => Fld.v 2 m.1.code.toNat) ++ [.u 10])
  | 2 => some [.v 2 c.cbDiv.toNat, .v 1 (b2n c.dpByp), .u 29]
  | 3 => some [.v 4 c.testSel.toNat, .v 4 c.gateSel.toNat, .u 20, .v 1 (b2n c.err), .v 1 (b2n c.done), .v 1 (b2n c.busy), .v 1 0]
  | 4 => some [.v 32 c.meterN.toNat]
  | 5 => some [.v 16 (c.result.toNat / 2 ^ 32), .u 16]
  | 6 => some [.v 32 c.result.toNat]
  | 7 => some [.v 16 c.gateTo.toNat, .u 16]
  | _ => none

/-- Codes of AIR_STATE (Table 2-7). -/
def AirState.code : AirState → Nat
  | .noTime => 0 | .running => 1 | .released => 2

/-- TIM_, YM_ and SHU_ registers (Tables 12-6, 2-7, 2-8 and R470). -/
def State.timReg (s : State) (j : Nat) : Option (List Fld) :=
  let t := s.time
  match j with
  | 0 => some [.u 24, .v 3 t.tb[(1 : Fin 2)].st.code.toNat, .v 3 t.tb[(0 : Fin 2)].st.code.toNat, .v 1 (b2n (t.b != 0)), .v 1 (b2n t.sel)]
  | 1 => some [.v 32 (BitVec.ofInt 32 (t.b / (3 * 2 ^ 34))).toNat]
  | 2 => some [.v 32 (BitVec.ofInt 32 t.pull).toNat]
  | _ => none

def State.ymReg (s : State) (j : Nat) : Option (List Fld) :=
  match j with
  | 0 => some [.v 13 s.pendingCount, .u 16, .v 1 (b2n s.time.sel), .v 2 s.ym.air.code]
  | 1 => some [.v 32 s.ym.offset.toNat]
  | 2 => some [.v 13 s.ym.hwm, .u 19]
  | 3 => some [.v 32 s.ym.late.toNat]
  | 4 => some [.v 32 s.ym.full.toNat]
  | _ => none

def State.shuReg (s : State) (j : Nat) : Option (List Fld) :=
  match j with
  | 0 => some (s.shu.chans.toList.map fun c => Fld.v 2 c.st.code.toNat)
  | 1 => some [.v 32 s.shu.flags.toNat]
  | 2 => some [.v 32 (s.shu.flags.toNat / 2 ^ 32)]
  | 3 => some [.v 32 s.shu.badCount.toNat]
  | _ => none

/-- FH_ registers (Tables 10-18, 21-8). -/
def State.fhReg (s : State) (j : Nat) : Option (List Fld) :=
  if j = 0 then
    some ((s.fh.ports.toList.map fun p => Fld.v 2 p.st.code.toNat) ++ [.u 8] ++ boolFlds (s.fh.ports.toList.map fun p => p.onBackup))
  else match toFin 32 (j - 1) with
    | some l => let w := s.fh.laneEq[l].toNat
                some [.v 12 w, .u 8, .v 8 (w / 2 ^ 20), .u 4]
    | none => none

/-- HK0_STATE and HK1_STATE (Table 18-3). -/
def HkConv.stateCode (c : HkConv) : Nat :=
  if c.cal.isSome then 3 else match c.op with | some o => if o.sweep then 1 else 2 | none => 0

/-- HK_ registers (Table 18-3). -/
def State.hkReg (s : State) (j : Nat) : Option (List Fld) :=
  let a := s.sup.conv[(0 : Fin 2)]
  let b := s.sup.conv[(1 : Fin 2)]
  match j with
  | 0 => some [.u 9, .v 1 (b2n b.run), .v 4 b.queue.length, .v 2 b.stateCode, .u 9, .v 1 (b2n a.run), .v 4 a.queue.length, .v 2 a.stateCode]
  | 1 => some [.v 16 a.ovr.toNat, .v 16 b.ovr.toNat]
  | 2 => some [.v 16 a.ofs.toNat, .v 16 a.gain.toNat]
  | 3 => some [.v 16 b.ofs.toNat, .v 16 b.gain.toNat]
  | j => if j < 10 then some (boolFlds ((List.range 32).map fun k => if h : 32 * (j - 4) + k < 184 then (s.sup.chan[32 * (j - 4) + k]'h).tripped else false)) else none

/-- HB_, AX_, MEM_ and SEC_ registers (Tables 18-3, 19-7, 20-6). -/
def State.hbReg (s : State) (j : Nat) : Option (List Fld) :=
  let half (k : Nat) (f : Fin 64 → Bool) : List Fld := boolFlds (((List.finRange 64).filter fun p => p.val / 32 == k).map f)
  match j with
  | 0 => some (half 0 s.interlock)
  | 1 => some (half 1 s.interlock)
  | 2 => some (half 0 fun p => s.sup.out[hbOf p].compliance)
  | 3 => some (half 1 fun p => s.sup.out[hbOf p].compliance)
  | _ => none

def State.axReg (s : State) (j : Nat) : Option (List Fld) :=
  if j = 0 then some (boolFlds ((s.sup.out.toList.drop 64).map fun o => o.gen.isSome) ++ [.u 15, .v 1 (b2n s.clk.aonXo)]) else none

-- The memories (Table 19-1)

/-- First global bank, banks and words per bank of a memory. -/
def memBase (m : Nat) : Nat := ([0, 128, 192, 256, 272, 344, 353, 401][m]?).getD 417
def memBanks (m : Nat) : Nat := ([128, 64, 64, 16, 72, 9, 48, 16][m]?).getD 0
def memWords (m : Nat) : Nat := ([4096, 4096, 2048, 2048, 1024, 2048, 4096, 4096][m]?).getD 0

/-- The memory of a global bank. -/
def memOf (b : Nat) : Nat := if b < 128 then 0 else if b < 192 then 1 else if b < 256 then 2 else if b < 272 then 3 else if b < 344 then 4 else if b < 353 then 5 else if b < 401 then 6 else 7

/-- Rows of a bank: 16 words each (R524). -/
def bankRows (b : Nat) : Nat := memWords (memOf b) / 16

/-- The row under test of the bank most recently started (Table 19-7): in the preserving mode row by row, each in its share of the test. -/
def State.rowUnderTest (s : State) : BitVec 8 :=
  match (s.mem.marches.filter fun m => !m.destroy).flatMap fun (m : March) => m.run.filter fun x => x.bank == s.mem.lastBank.toNat with
  | x :: _ => BitVec.ofNat 8 (min (bankRows x.bank - 1) ((s.dp - x.start) * bankRows x.bank / max 1 (x.fin - x.start)))
  | [] => s.mem.lastRow

def State.memReg (s : State) (j : Nat) : Option (List Fld) :=
  match j with
  | 0 => some [.v 8 s.rowUnderTest.toNat, .v 11 s.mem.lastBank.toNat, .u 9, .v 3 s.mem.lastMem.toNat, .v 1 (b2n (s.mem.marches.any fun m => !m.waiting))]
  | 1 => some [.v 32 s.mem.corr.toNat]
  | 2 => some [.v 32 s.mem.uncorr.toNat]
  | 3 => some [.v 11 s.tack.ledger.length, .u 21]
  | _ => none

/-- The kernel slots have been looked at: until the last boot stage K_EMPTY keeps its reset value (Tables 14-9, 20-6). -/
def State.kernelsKnown (s : State) : Bool := decide (5 ≤ s.pwr.bootStage.toNat)

def State.secReg (s : State) (j : Nat) : Option (List Fld) :=
  match j with
  | 0 => some [.v 8 s.sec.fails.toNat, .v 4 s.sec.lastCause.toNat, .v 4 s.sec.lastType.toNat, .u 8, .v 1 (b2n (s.kernelsKnown && !s.sol.k1.loaded)),
      .v 1 (b2n (s.kernelsKnown && !s.sol.k2.loaded)), .u 1, .v 1 (b2n s.sec.fwB), .v 1 (b2n s.sec.farB), .v 1 (b2n s.tack.cert.isSome),
      .v 1 (b2n s.tack.pub.isSome), .v 1 (b2n s.sec.recovery)]
  | j => if h : 1 ≤ j ∧ j ≤ 4 then some [.v 32 (s.tack.svn[j - 1]'(by omega)).toNat] else none

/-- TOP_ registers (Table 15-2). -/
def State.topReg (s : State) (j : Nat) : Option (List Fld) :=
  match j with
  | 0 => some [.u 8, .v 8 0xA1, .v 16 0x6464]
  | 1 => some s.topStatus
  | _ => none

/-- The read-only copies of the RING_ registers: six of each command ring, then four of the event ring. -/
def State.ringReg (s : State) (j : Nat) : Option (List Fld) :=
  match toFin 16 (j / 6) with
  | some n => s.host.rings[n].reg (j % 6)
  | none => s.host.evt.reg (j - 96)

/-- The fields of the register at an address of the register space; none where there is no register (R427). -/
def State.regFlds (s : State) (a : Nat) : Option (List Fld) :=
  if a % 4 ≠ 0 then none else
  let j := a % 0x400 / 4
  match a / 0x400 with
  | 0 => s.topReg j | 1 => s.pwrReg j | 2 => s.clkReg j | 3 => s.timReg j | 4 => s.ymReg j | 5 => s.ringReg j | 6 => s.shuReg j
  | 7 => s.fhReg j | 9 => s.hkReg j | 10 => s.hbReg j | 11 => s.axReg j | 12 => s.memReg j | 13 => s.secReg j
  | _ => none

/-- What a read in the present control-bus cycle sees of a counter that it clears: no more than there was when the cycle began. -/
def rcSeen {w : Nat} (cur base : BitVec w) : BitVec w := if base ≤ cur then base else cur

/-- The overrun counters after a change that looks at what they held when the cycle began. -/
def State.ovrMap (s : State) (f : BitVec 16 → BitVec 16 → BitVec 16) : Vector HkConv 2 :=
  Vector.ofFn fun i : Fin 2 => { s.sup.conv[i] with ovr := f s.sup.conv[i].ovr (if i = 0 then s.rc.ovr0 else s.rc.ovr1) }

/-- The state as the RC fields show it (R15, Table 0-4). -/
def State.rcView (s : State) : State :=
  let k := s.rc
  { s with
    host := { s.host with top := { s.host.top with badAccess := rcSeen s.host.top.badAccess k.badAccess }
                          evt := { s.host.evt with lost := rcSeen s.host.evt.lost k.lost } }
    clk := { s.clk with ttHung := rcSeen s.clk.ttHung k.ttHung, switches := rcSeen s.clk.switches k.switches, gateTo := rcSeen s.clk.gateTo k.gateTo }
    ym := { s.ym with late := rcSeen s.ym.late k.late, full := rcSeen s.ym.full k.full }
    shu := { s.shu with badCount := rcSeen s.shu.badCount k.shuBad }
    sup := { s.sup with conv := s.ovrMap rcSeen }
    mem := { s.mem with corr := rcSeen s.mem.corr k.corr, uncorr := rcSeen s.mem.uncorr k.uncorr }
    sec := { s.sec with fails := rcSeen s.sec.fails k.fails } }

/-- What a clearing read leaves of a counter: what was counted in the present control-bus cycle is kept (Table 0-4). -/
def rcKeep {w : Nat} (cur base : BitVec w) : BitVec w := cur - rcSeen cur base

/-- What a clearing read clears (RC fields, R15). The high-water mark begins again at the events that are pending. -/
def State.regClear (s : State) (a : Nat) : State :=
  let k := s.rc
  match a with
  | 0x0004 => { s with host := { s.host with top := { s.host.top with badAccess := rcKeep s.host.top.badAccess k.badAccess } }, rc := { k with badAccess := 0 } }
  | 0x0800 => { s with clk := { s.clk with ttHung := rcKeep s.clk.ttHung k.ttHung, switches := rcKeep s.clk.switches k.switches }, rc := { k with ttHung := 0, switches := 0 } }
  | 0x081C => { s with clk := { s.clk with gateTo := rcKeep s.clk.gateTo k.gateTo }, rc := { k with gateTo := 0 } }
  | 0x1008 => { s with ym := { s.ym with hwm := s.pendingCount } }
  | 0x100C => { s with ym := { s.ym with late := rcKeep s.ym.late k.late }, rc := { k with late := 0 } }
  | 0x1010 => { s with ym := { s.ym with full := rcKeep s.ym.full k.full }, rc := { k with full := 0 } }
  | 0x158C => { s with host := { s.host with evt := { s.host.evt with lost := rcKeep s.host.evt.lost k.lost } }, rc := { k with lost := 0 } }
  | 0x180C => { s with shu := { s.shu with badCount := rcKeep s.shu.badCount k.shuBad }, rc := { k with shuBad := 0 } }
  | 0x2404 => { s with sup := { s.sup with conv := s.ovrMap fun cur base => rcKeep cur base }, rc := { k with ovr0 := 0, ovr1 := 0 } }
  | 0x3004 => { s with mem := { s.mem with corr := rcKeep s.mem.corr k.corr }, rc := { k with corr := 0 } }
  | 0x3008 => { s with mem := { s.mem with uncorr := rcKeep s.mem.uncorr k.uncorr }, rc := { k with uncorr := 0 } }
  | 0x3400 => { s with sec := { s.sec with fails := rcKeep s.sec.fails k.fails }, rc := { k with fails := 0 } }
  | _ => s

/-- CB_DIV breaks the limit of the control bus: what its accesses give is undefined (R380). -/
def State.busLost (s : State) : Bool := s.clk.cbPll && decide (2 ≤ s.clk.cbDiv.toNat)

/-- Read a register of the register space with its RC effect; none where there is no register. -/
def State.regRead (s : State) (a : Nat) : Option (BitVec 32 × State) :=
  (s.rcView.regFlds a).map fun f => let r := s.reg32 (if s.busLost then [.u 32] else f); (r.1, r.2.regClear a)

/-- A write of 1 to a reserved bit has an undefined effect (R16): the whole value written becomes a free one. -/
def State.wrVal (s : State) (old v mask reserved : BitVec 32) : BitVec 32 × State :=
  if v &&& mask &&& reserved = 0 then ((old &&& ~~~mask) ||| (v &&& mask), s)
  else s.takeFree 32

/-- Write the air offset (R57). -/
def State.writeOffset (s : State) (v mask : BitVec 32) : Status × State :=
  if s.ym.air = .released then (.modeConflict, s)
  else
    let s := { s with ym := { s.ym with offset := (s.ym.offset &&& ~~~mask) ||| (v &&& mask) } }
    (.ok, if s.ym.air = .running then s.rebase else s)

/-- Write PWR_WAKE_CFG (R412): during an entry it waits for the next abort point. -/
def State.writeWakeCfg (s : State) (v mask : BitVec 32) : State :=
  let r := s.wrVal (s.pwr.wakeCfg.setWidth 32) v mask 0xFC001111
  let w := r.1.setWidth 26
  if s.entering then { r.2 with pwr := { r.2.pwr with wakeCfgNext := some w } } else { r.2 with pwr := { r.2.pwr with wakeCfg := w } }

/-- W1C of PWR_WAKE_FAIL VALID (R15): a record written in this control-bus cycle keeps it. The effect of a 1 in a reserved bit is
undefined (R16). -/
def State.writeWakeFail (s : State) (v : BitVec 32) : State :=
  if v &&& 0xFE ≠ 0 then let r := s.takeFree 32; { r.2 with pwr := { r.2.pwr with wakeFail := r.1 } }
  else if v.getLsbD 0 && s.rc.wakeFail == s.pwr.wakeFail then { s with pwr := { s.pwr with wakeFail := s.pwr.wakeFail &&& 0xFFFFFFFE } } else s

/-- RETRY (R406, R411): out of the hold a new series of attempts begins and FAULT_N is released for it. A 1 in a reserved bit leaves
open what the write does (R16). -/
def State.writeRetry (s : State) (v : BitVec 32) : State :=
  let w := s.wrVal 0 v 0xFFFFFFFF 0xFFFFFFFE
  let v := w.1
  let s := w.2
  if v.getLsbD 0 && s.pwr.step == .hold then
    let cold : Bool := s.pwr.wakeFail.extractLsb' 28 4 == 5
    { s with pwr := { s.pwr with
        fault := false, attempts := if cold then 0 else 1, step := if cold then .cold else .wake 1
        stepDue := s.dp + 786432, since := s.dp, lastWake := if cold then s.pwr.lastWake else 9, latch := none
        target := .active, wakeFrom := if cold then .off else .deep } }.setFaultN
  else s

/-- Write CLK_OVR DP_BYP (R375, R380, R383): DP moves by stop-switch-restart. -/
def State.writeDpByp (s : State) (on : Bool) : State :=
  if s.clk.dpByp = on then s
  else { s with clk := { s.clk with dpByp := on, sw := s.clk.sw ++ [{ domain := .dp, src := if on then 4 else 1, dst := if on then 1 else 4, restart := true }] } }

/-- Write CLK_METER_CTRL (R15, R381): W1C of DONE and ERR, which stay where the hardware set them in this control-bus cycle, the selections, and START, ignored while BUSY. -/
def State.writeMeter (s : State) (v mask : BitVec 32) : State :=
  let w := v &&& mask
  let c := s.clk
  let c := { c with done := c.done && (!w.getLsbD 29 || !s.rc.done), err := c.err && (!w.getLsbD 28 || !s.rc.err) }
  let sel := s.wrVal ((c.gateSel ++ c.testSel).setWidth 32) (v &&& 0x0FFFFFFF) mask 0x0FFFFF00
  let c := { c with gateSel := sel.1.extractLsb' 4 4, testSel := sel.1.extractLsb' 0 4, busy := c.busy || w.getLsbD 31 }
  { sel.2 with clk := c }

/-- The bits of a lane equalisation value whose fields hold reserved codes (Table 21-8). -/
def laneEqReserved (v : BitVec 32) : BitVec 32 :=
  let fld (lo max : Nat) : BitVec 32 := if max < (v.extractLsb' lo 4).toNat then 0xF <<< lo else 0
  fld 24 1 ||| fld 20 12 ||| fld 8 12 ||| fld 4 9 ||| fld 0 6

/-- Write a lane equalisation register (R576); a field given a reserved code takes an undefined value. -/
def State.writeLaneEq (s : State) (l : Fin 32) (v mask : BitVec 32) : State :=
  let r := s.wrVal s.fh.laneEq[l] v mask 0xF00FF000
  let bad := laneEqReserved r.1
  let f : BitVec 32 × State := if bad = 0 then (r.1, r.2) else let f := r.2.takeFree 32; ((r.1 &&& ~~~bad) ||| (f.1 &&& bad), f.2)
  { f.2 with fh := { f.2.fh with laneEq := vset f.2.fh.laneEq l (f.1 &&& 0x0FF00FFF) } }

/-- Write a register of the register space as a host write on the masked bits (R15, R427): the status, BAD_ARG where there is no
register or no writable field. -/
def State.regWrite (s : State) (a : Nat) (v mask : BitVec 32) : Status × State :=
  let b := if s.busLost then s.takeFree 32 else (v, s)
  let v := b.1
  let s := b.2
  match a with
  | 0x0404 => (.ok, s.writeWakeCfg v mask)
  | 0x0408 => (.ok, s.writeWakeFail (v &&& mask))
  | 0x040C => (.ok, s.writeRetry (v &&& mask))
  | 0x0808 =>
    let r := s.wrVal (s.clk.cbDiv.setWidth 32 ||| (if s.clk.dpByp then 4 else 0)) v mask 0xFFFFFFF8
    let s := { r.2 with clk := { r.2.clk with cbDiv := r.1.extractLsb' 0 2 } }
    (.ok, s.writeDpByp (r.1.getLsbD 2))
  | 0x080C => (.ok, s.writeMeter v mask)
  | 0x0810 => (.ok, { s with clk := { s.clk with meterN := (s.clk.meterN &&& ~~~mask) ||| (v &&& mask) } })
  | 0x1004 => s.writeOffset v mask
  | a =>
    if 0x1C04 ≤ a ∧ a ≤ 0x1C80 ∧ a % 4 = 0 then
      match toFin 32 ((a - 0x1C04) / 4) with
      | some l => (.ok, s.writeLaneEq l v mask)
      | none => (.badArg, s)
    else (.badArg, s)

/-- A block whose clock gate waits or is closed refuses accesses (R379): block numbers are those of the register bases. -/
def State.gatedReg (s : State) (a : Nat) : Bool := (s.clk.gateReq ++ s.clk.gated).contains (a / 0x400)

/-- REG_READ of an address for a command (R379, R427). -/
def State.cmdRegRead (s : State) (c : CmdRef) (a : Nat) : State :=
  match s.regFlds a with
  | none => s.complete c .badArg
  | some _ =>
    if s.gatedReg a then s.complete c .hwFault
    else match s.regRead a with
      | some r => r.2.complete c .ok r.1
      | none => s.complete c .badArg

/-- REG_WRITE of an address for a command. -/
def State.cmdRegWrite (s : State) (c : CmdRef) (a : Nat) (v mask : BitVec 32) : State :=
  if s.gatedReg a && (s.regFlds a).isSome then s.complete c .hwFault
  else let r := s.regWrite a v mask; r.2.complete c r.1

/-- The register a REG_READ or REG_WRITE names. -/
def regAddr (p : BitVec 320) : Nat := (pf p 0 0 16).toNat

end Sys2Proof.Machine
end

