-- ==== Sys2Proof/Machine/Power.lean ====
section
/-! DEFINITION. Rails and wakes (R386, R387, R403, R404, R410, R510): what other blocks ask of the power control. -/

namespace Sys2Proof.Machine

/-- Rails that a state needs, bit n for rail n of Table 14-1. -/
def railsNeeded (p : PwrState) : BitVec 9 :=
  match p with
  | .active | .idle | .doze => 0x1FF
  | .nap => 0x1C7
  | .deep => 0x1C4
  | .off => 0

/-- Microseconds in ticks, rounded up. -/
def usTicks (n : Nat) : Nat := (cdiv ((n : Int) * 98304) 100).toNat

/-- Wake steps of a state with their ends in µs from the start of the wake (Table 14-6). -/
def wakePlan (p : PwrState) : List (Nat × Nat) :=
  match p with
  | .deep => [(1, 800), (2, 1400), (3, 1600), (4, 3000), (5, 9000), (6, 10000), (7, 17905), (8, 18000)]
  | .nap => [(1, 40), (2, 65), (3, 75), (6, 155), (8, 250)]
  | .doze => [(1, 5), (6, 85), (8, 180)]
  | .idle => [(8, 40)]
  | _ => []

/-- Halter outputs are held at the safe value from E1 of an entry into NAP or DEEP until W8 of the wake (R510). -/
def State.biasHeld (s : State) : Bool :=
  let low (p : PwrState) : Bool := p == .nap || p == .deep
  match s.pwr.step with
  | .e1 | .e2 | .e3 | .e4 => low s.pwr.target
  | .wake n => low s.pwr.st && n < 8
  | .hold => true
  | _ => low s.pwr.st

/-- NAP or DEEP, or the time keeper still has air time (R395): the servos accept no offset, no anchor is posted, PPS_OUT is low. -/
def State.asleep (s : State) : Bool := s.pwr.st == .nap || s.pwr.st == .deep || s.pwr.keeper

/-- The state whose wake sources count: the one being entered (R399, R403). -/
def State.wakeState (s : State) : PwrState := if s.entering then s.pwr.target else s.pwr.st

/-- A wake source is marked for the state and enabled (Table 14-7): 1 to 4 pins, 5 alarm, 6 message on a port, 7 doorbell, 8 command,
10 thermal recovery. -/
def State.wakeOk (s : State) (src : Nat) (port : Nat := 0) : Bool :=
  let w := s.pwr.wakeCfg
  match s.wakeState with
  | .active | .off => false
  | st =>
    match src with
    | 1 | 2 | 3 | 4 => w.getLsbD (4 * src - 1)
    | 5 | 10 => true
    | 6 => w.getLsbD 24 && (st == .idle || st == .doze || (st == .nap && w.getLsbD (16 + port)))
    | 7 => w.getLsbD 25 && st == .nap
    | 8 => st == .idle || st == .doze
    | _ => false

/-- A wake begins (R404). -/
def State.startWake (s : State) (src : Nat) : State :=
  match wakePlan s.pwr.st with
  | [] => s
  | x :: _ => { s with pwr := { s.pwr with
      lastWake := BitVec.ofNat 4 src, latch := none, wakeFrom := s.pwr.st, target := .active, step := .wake x.1, since := s.dp
      stepDue := s.dp + usTicks x.2, attempts := 1 } }

/-- The power event (Table 14-14). -/
def State.postPwr (s : State) (code : Nat) (st : PwrState) (point source path : Nat) : State :=
  s.postRec 0x0C 8 [.v 8 code, .v 2 point, .u 3, .v 3 st.code, .u 4, .v 4 source, .v 8 path, .v 32 s.frameNow]

/-- The request's ALARM is cancelled (R397). -/
def State.cancelAlarm (s : State) : State :=
  { s with pwr := { s.pwr with alarm := none }
           ym := { s.ym with events := s.ym.events.filter fun e => e.kind != .alarm, timed := s.ym.timed.filter fun t => t.act != .alarmFire } }

/-- An entry is over without effect (R400): ABANDONED is posted and the command completes with NOT_READY; a lower state that the
device stays in is woken by the source where that state allows it. -/
def State.abandoned (s : State) (point : Nat) (src : BitVec 4) : State :=
  let cmd := s.pwr.cmd
  let s := { s with pwr := { s.pwr with
    target := s.pwr.st, step := .steady, latch := none, cmd := none, wakeCfg := s.pwr.wakeCfgNext.getD s.pwr.wakeCfg, wakeCfgNext := none } }.cancelAlarm
  let s := s.postPwr 3 s.pwr.st point src.toNat 0
  let s := match cmd with | some r => s.complete r .notReady | none => s
  if s.wakeOk src.toNat then s.startWake src.toNat else s

/-- A wake source fires (R399, R401 to R403): during an entry it is latched for the next abort point, and in the cycle of the
acceptance it abandons the entry at A0; in a state below ACTIVE the wake begins, unless a thermal DEEP makes it wait (R388). -/
def State.wake (s : State) (src : Nat) (port : Nat := 0) : State :=
  if !s.wakeOk src port then s
  else match s.pwr.step with
    | .beforeQ =>
      if s.pwr.since = s.dp ∧ s.pwr.thermalDeep = false then s.abandoned 0 (BitVec.ofNat 4 src)
      else { s with pwr := { s.pwr with latch := some (s.pwr.latch.getD (BitVec.ofNat 4 src)) } }
    | .e1 | .e2 | .e3 | .e4 => { s with pwr := { s.pwr with latch := some (s.pwr.latch.getD (BitVec.ofNat 4 src)) } }
    | .steady =>
      if s.pwr.thermalDeep then { s with pwr := { s.pwr with latch := some (s.pwr.latch.getD (BitVec.ofNat 4 src)) } } else s.startWake src
    | _ => s

end Sys2Proof.Machine
end

