-- ==== Sys2Proof/Machine/Shu.lean ====
section
/-! DEFINITION. Shunter channels: what other blocks ask of them (R463, R469). -/

namespace Sys2Proof.Machine

/-- Change a channel. -/
def State.modChan (s : State) (i : Fin 16) (f : ShuChan → ShuChan) : State :=
  { s with shu := { s.shu with chans := vmod s.shu.chans i f } }

/-- Flags are cleared, but for those set in this cycle, and flags are set (R458, R466): a set wins over a clear of the same cycle. -/
def Shu.flagOp (x : Shu) (clr set : BitVec 64) : Shu :=
  { x with
    flags := (x.flags &&& ~~~(clr &&& ~~~x.setNow)) ||| set
    setNow := x.setNow ||| set
    rose := x.rose ||| (set &&& ~~~x.flags) }

/-- A channel that is not IDLE enters STOPPING (R463): a WAIT ends at once. -/
def ShuChan.halt (c : ShuChan) : ShuChan :=
  if c.st = .idle then c
  else
    { c with
        st := .stopping, wait := none, waitEnd := none, stopped := c.stopped || c.ending.isNone
        ending := if c.ending.isNone && c.st == .waiting then some .ok else c.ending }

/-- Every channel is IDLE. -/
def State.shuIdle (s : State) : Bool := (List.finRange 16).all fun i => s.shu.chans[i].st == .idle

/-- Channels that have become IDLE: a SHU_STOP that named only channels now IDLE completes (R463). -/
def State.stopsDone (s : State) (cs : List CmdRef) : State :=
  cs.foldl (fun (s : State) r => if (List.finRange 16).any fun i => s.shu.chans[i].stopCmds.contains r then s else s.complete r .ok) s

/-- A channel without a program (R450); its doorbell count stays. -/
def ShuChan.free (c : ShuChan) : ShuChan := { ShuChan.reset with db := c.db }

/-- A block reset of the Shunter (R469): no end record; the started SHU_STARTs have been reported by R445. -/
def State.shuReset (s : State) : State :=
  let cs := (List.finRange 16).flatMap fun i => s.shu.chans[i].stopCmds
  let s := { s with shu := { s.shu with chans := s.shu.chans.map ShuChan.free } }
  s.stopsDone cs.eraseDups

end Sys2Proof.Machine
end

