-- ==== Sys2Proof/Machine/FamHost.lean ====
section
/-! DEFINITION. Meanings of the host interface (chapter 15): register access, rings, doorbells, events, faults. -/

namespace Sys2Proof.Machine

/-- NOP (R423). -/
def execNop (c : Cmd) (s : State) : R := .next (s.hostCmd c 0x01 anyOp fun _ => s.complete c.ref .ok)

/-- REG_READ (R427). -/
def execRegRead (c : Cmd) (s : State) : R :=
  .next (s.hostCmd c 0x02 anyOp fun x => s.cmdRegRead c.ref (regAddr x.payload))

/-- REG_WRITE (R427). -/
def execRegWrite (c : Cmd) (s : State) : R :=
  .next (s.hostCmd c 0x03 anyOp fun x => s.cmdRegWrite c.ref (regAddr x.payload) (pf x.payload 4 0 32) (pf x.payload 8 0 32))

/-- A REG_READ of one named register (R15). -/
def State.readNamed (s : State) (c : Cmd) (a : Nat) : State :=
  s.hostCmd c 0x02 (fun p => regAddr p == a) fun _ => s.cmdRegRead c.ref a

/-- A REG_WRITE of one named register whose value and mask satisfy `sel`. -/
def State.writeNamed (s : State) (c : Cmd) (a : Nat) (sel : BitVec 32 → BitVec 32 → Bool) : State :=
  s.hostCmd c 0x03 (fun p => regAddr p == a && sel (pf p 4 0 32) (pf p 8 0 32)) fun x =>
    s.cmdRegWrite c.ref a (pf x.payload 4 0 32) (pf x.payload 8 0 32)

/-- FAULT_CTRL CLEAR_SAFE (R448). Carriers resume at the first frame boundary at least 983,040 ticks later; in NO_TIME the
boundary is counted from the start of air time, whose count is then re-based on. -/
def execClearSafe (c : Cmd) (s : State) : R :=
  .next (s.hostCmd c 0x04 (opIs 0 0 8 1) fun _ =>
    if !s.host.top.safe then s.complete c.ref .modeConflict
    else if !s.host.arb.held.isEmpty then s.complete c.ref .notReady
    else
      let s := { s with host := { s.host with top := { s.host.top with safe := false } } }.setFaultN
      let at_ := ceilTo frameTicks (s.ym.now + 983040)
      let s := { s with pwr := { s.pwr with resumeAt := some at_, resumeWake := false } }
      let s := (List.finRange 8).foldl (fun s k => if s.ofdm.carriers[k].cfg.isSome then s.firstUse k else s) s
      s.complete c.ref .ok)

/-- FAULT_CTRL CLEAR_QUEUE (R442, R448): queued calibration-class faults that have never started are discarded. -/
def execClearQueue (c : Cmd) (s : State) : R :=
  .next (s.hostCmd c 0x04 (opIs 0 0 8 2) fun _ =>
    (s.setHeld (s.host.arb.held.filter fun h => !(h.code.cls == .calibration && h.hold == .queued && !h.ever))).complete c.ref .ok)

/-- FAULT_READ (R425, R426): records of the FAULT_LOG region, newest first. -/
def execFaultRead (c : Cmd) (s : State) : R :=
  .next (s.hostCmd c 0x05 anyOp fun x =>
    if !s.tack.read then s.complete c.ref .notReady
    else if x.select ≠ 0 then s.complete c.ref .badArg
    else s.respond c x (((s.tack.faultLog.drop (pf x.payload 20 0 32).toNat).take (pf x.payload 24 0 16).toNat).flatten))

-- Ring setup (R416 to R418)

/-- Rings accept commands from BOOT_STAGE 5 on, in RECOVERY too (Table 14-9, R554), never in board-test mode (R569), and not in
NAP or DEEP (R392). -/
def State.ringsServed (s : State) : Bool :=
  (s.pwr.bootStage.toNat ≥ 5 || s.sec.recovery) && !s.pkg.testMode && !(s.pwr.st == .nap || s.pwr.st == .deep || s.pwr.st == .off)

/-- RING_CMD_ENABLE (R416, R417): EN 1 on a DISABLED ring; a size outside 4 to 12 leaves it DISABLED. -/
def execRingCmdEnable (n : Fin 16) (v : BitVec 32) (s : State) : R :=
  .next (if s.host.rings[n].st = .disabled ∧ v.getLsbD 31 then
      let w := s.wrVal 0 v 0x7FFFFFFF 0x01FFFFF0
      let l := w.1.extractLsb' 0 4
      w.2.modRing n fun r =>
        let r := { r with strict := w.1.getLsbD 30, vec := w.1.extractLsb' 25 5, log2 := l }
        if 4 ≤ l.toNat ∧ l.toNat ≤ 12 then
          { r with st := .running, head := 0, tail := 0, cplIdx := 0, hostHead := 0, phase := true, unread := 0, slots := [], release := none }
        else r
    else s)

/-- Fetched commands that have not started complete with FENCED_OUT in issue order (R418). -/
def State.fenceOutAll (s : State) (n : Fin 16) : State :=
  (s.host.rings[n].slots.filter fun x => x.stage == .fetched).foldl (fun s x => s.complete { ring := n, seq := x.seq } .fencedOut) s

/-- RING_CMD_DISABLE (R416, R418): EN 0 drains a RUNNING or HELD ring and disables a STOPPED one at once. -/
def execRingCmdDisable (n : Fin 16) (v : BitVec 32) (s : State) : R :=
  .next (if v.getLsbD 31 then s
    else match s.host.rings[n].st with
      | .running | .held => (s.modRing n fun r => { r with st := .draining, release := none }).fenceOutAll n
      | .stopped => s.modRing n fun r => { r with st := .disabled, slots := [], unread := 0, release := none }
      | _ => s)

/-- RING_DRAIN_END (R418): DISABLED once OUTSTANDING is 0. -/
def execRingDrainEnd (n : Fin 16) (s : State) : R :=
  .next (if s.host.rings[n].st = .draining ∧ s.host.rings[n].outstanding = 0 then s.modRing n fun r => { r with st := .disabled } else s)

/-- RING_EVT_ENABLE (R416, R417, R435): indices to 0; entries that wait are written by the steps that follow. The overflow of
entries discarded while the ring was stopped or disabled comes first. -/
def execRingEvtEnable (v : BitVec 32) (s : State) : R :=
  .next (if s.host.evt.en ∨ ¬ v.getLsbD 31 then s
    else
      let w := s.wrVal 0 v 0x7FFFFFFF 0x4000FFE0
      let l := w.1.extractLsb' 0 5
      let e := { w.2.host.evt with vec := w.1.extractLsb' 25 5, coal := w.1.extractLsb' 16 9, log2 := l }
      let e := if 6 ≤ l.toNat ∧ l.toNat ≤ 16 then
          { e with en := true, stopped := false, wrIdx := 0, hostHead := 0, phase := true, unread := 0, sinceMsg := 0, oldest := none }
        else e
      { w.2 with host := { w.2.host with evt := e } })

/-- Discard what waits in the internal queue: each event counts in LOST and in the overflow to come (R418, R435, R439). -/
def EvtRing.dropQueue (r : EvtRing) : EvtRing :=
  let n := evPlaces r.queue
  { r with lost := satAdd r.lost n, ovf := r.ovf + n, queue := if r.ovf + n = 0 then [] else [.overflow] }

/-- RING_EVT_DISABLE (R418, R435). -/
def execRingEvtDisable (v : BitVec 32) (s : State) : R :=
  .next (if v.getLsbD 31 ∨ ¬ s.host.evt.en then s
    else { s with host := { s.host with evt := { s.host.evt.dropQueue with en := false, stopped := false, oldest := none } } })

/-- REGISTER_WRITE: a BAR0 write to a register without behaviour of its own (R15, R18, R416): ring bases and, while a ring is
DISABLED, its configuration with EN 0; the MSI-X table. Read-only registers ignore it, and so does a ring that is not DISABLED. -/
def execRegisterWrite (addr : BitVec 16) (v : BitVec 32) (s : State) : R :=
  let a := addr.toNat
  .next (
    if 0x1000 ≤ a ∧ a < 0x1400 then
      match toFin 16 ((a - 0x1000) / 0x40) with
      | none => s
      | some n =>
        if s.host.rings[n].st ≠ .disabled then s
        else match a % 0x40 with
          | 0x00 => let w := s.wrVal 0 v 0xFFFFFFFF 0xFFF; w.2.modRing n fun r => { r with cmdBaseLo := w.1.extractLsb' 12 20 }
          | 0x04 => s.modRing n fun r => { r with cmdBaseHi := v }
          | 0x08 => let w := s.wrVal 0 v 0xFFFFFFFF 0xFFF; w.2.modRing n fun r => { r with cplBaseLo := w.1.extractLsb' 12 20 }
          | 0x0C => s.modRing n fun r => { r with cplBaseHi := v }
          | 0x10 => if v.getLsbD 31 then s else
              let w := s.wrVal 0 v 0xFFFFFFFF 0x01FFFFF0
              w.2.modRing n fun r => { r with strict := w.1.getLsbD 30, vec := w.1.extractLsb' 25 5, log2 := w.1.extractLsb' 0 4 }
          | _ => s
    else if 0x1400 ≤ a ∧ a < 0x1420 then
      if s.host.evt.en then s
      else match a - 0x1400 with
        | 0x00 => let w := s.wrVal 0 v 0xFFFFFFFF 0xFFF
                  { w.2 with host := { w.2.host with evt := { w.2.host.evt with baseLo := w.1.extractLsb' 12 20 } } }
        | 0x04 => { s with host := { s.host with evt := { s.host.evt with baseHi := v } } }
        | 0x08 => if v.getLsbD 31 then s else
            let w := s.wrVal 0 v 0xFFFFFFFF 0x4000FFE0
            { w.2 with host := { w.2.host with evt := { w.2.host.evt with vec := w.1.extractLsb' 25 5, coal := w.1.extractLsb' 16 9, log2 := w.1.extractLsb' 0 5 } } }
        | _ => s
    else if 0x3000 ≤ a ∧ a < 0x3200 then
      match toFin 32 ((a - 0x3000) / 16) with
      | none => s
      | some i =>
        let put (f : MsixEntry → MsixEntry) : State := { s with host := { s.host with msix := vmod s.host.msix i f } }
        match a % 16 with
        | 0 => put fun e => { e with addr := (e.addr.extractLsb' 32 32) ++ v }
        | 4 => put fun e => { e with addr := v ++ (e.addr.extractLsb' 0 32) }
        | 8 => put fun e => { e with data := v }
        | 12 =>
          let e := s.host.msix[i]
          let s' := put fun e => { e with masked := v.getLsbD 0, pending := e.pending && v.getLsbD 0 }
          if e.pending && !v.getLsbD 0 then s'.emit (.msix (BitVec.ofFin i)) else s'
        | _ => s
    else s)

/-- Addresses of BAR0 that hold a register (Table 15-1). -/
def bar0Has (a : Nat) : Bool :=
  a < 8 || (0x1000 ≤ a && a < 0x1400 && a % 0x40 < 0x18) || (0x1400 ≤ a && a < 0x1410) || (0x2000 ≤ a && a < 0x2010)
  || (0x3000 ≤ a && a < 0x3200) || (0x3800 ≤ a && a < 0x3808)

/-- Addresses of BAR2 that hold a doorbell (Table 15-5). -/
def bar2Has (a : Nat) : Bool := (a < 0x100 && a % 16 < 12) || a == 0x100 || (0x200 ≤ a && a < 0x240)

/-- Count a refused access (R415). -/
def State.badAccess (s : State) : State :=
  { s with host := { s.host with top := { s.host.top with badAccess := satInc s.host.top.badAccess } } }

/-- BAR_BAD_ACCESS (R415): an access that is misaligned or meets no register; reads return all ones, writes are discarded. -/
def execBarBadAccess (bar2 : Bool) (addr len : Nat) (write : Bool) (s : State) : R :=
  .next (if len = 4 ∧ addr % 4 = 0 ∧ (if bar2 then bar2Has addr else bar0Has addr) then s
    else
      let s := s.badAccess
      if write then s else s.emit (.barRead 0xFFFFFFFF))

/-- A BAR0 read of a register with its RC effect. -/
def State.barRead (s : State) (a : Nat) : State :=
  match s.regRead a with
  | some r => r.2.emit (.barRead r.1)
  | none => s

/-- TOP_STATUS_READ (R15, Table 15-2). -/
def execTopStatusRead (s : State) : R := .next (s.barRead 0x0004)

/-- RING_EVT_STATUS_READ (R15, R416). -/
def execRingEvtStatusRead (s : State) : R := .next (s.barRead 0x158C)

-- Fetching and starting (R417, R419, R420, R428 to R430)

/-- COMMAND_FETCH (R417, R438, R439): the next entry of a RUNNING ring, or of a HELD ring for its release, while OUTSTANDING is
below the size. -/
def execCommandFetch (n : Fin 16) (entry : Option (BitVec 512)) (cplErr : Bool) (s : State) : R :=
  let r := s.host.rings[n]
  let relRoom : Bool := match r.release with | some q => decide (0 < q.left) | none => false
  .next (
    if s.ringsServed ∧ r.head ≠ r.tail ∧ r.outstanding < r.size ∧ (r.st = .running ∨ (r.st = .held ∧ relRoom)) then
      match entry with
      | none => s.stopRing n .fetchBusErr r.head
      | some e =>
        s.modRing n fun r =>
          { r with head := (r.head + 1) % r.size, nextSeq := r.nextSeq + 1
                   slots := r.slots ++ [{ seq := r.nextSeq, index := r.head, entry := e, payload := pf e 24 0 320, stage := .fetched, cplErr := cplErr }]
                   release := r.release.map fun q => { q with left := q.left - 1 } }
    else s)

/-- R428 to R430: a fetched command may start when no earlier command of its ring that is fenced is outstanding, and, being
fenced itself, when no earlier command is. -/
def Ring.mayStart (r : Ring) (x : Slot) : Bool :=
  r.st == .running && x.stage == .fetched &&
  (r.slots.all fun y => x.seq ≤ y.seq || (!(y.fence || r.strict) && !(x.fence || r.strict)))

/-- COMMAND_START (R419, R420, R424, R428): the entry check, with the payload read from PAYLOAD_ADDR for an indirect entry. -/
def execCommandStart (n : Fin 16) (seq : Nat) (payload : Option (BitVec 320)) (s : State) : R :=
  let ref : CmdRef := { ring := n, seq := seq }
  .next (match s.slot? ref with
    | none => s
    | some x =>
      if !(s.ringsServed && s.host.rings[n].mayStart x) then s
      else
        let p := if x.indirect then payload else some x.payload
        match p with
        | none => if entryHeadOk x.entry then s.complete ref .busErr else s.complete ref .badArg
        | some p =>
          let s := s.modRing n fun r => { r with slots := r.slots.map fun y => if y.seq = seq then { y with payload := p, stage := .started } else y }
          if entryOk x.entry p then s else s.complete ref .badArg)

/-- UNTIMED_COMMAND_COMPLETE (R424): the completion of a command whose whole effect is done. -/
def execUntimedCommandComplete (n : Fin 16) (seq : Nat) (s : State) : R :=
  let ref : CmdRef := { ring := n, seq := seq }
  .next (match s.slot? ref with
    | some { stage := .finishing st r, .. } =>
      if s.tack.queue.any fun w => w.cmd == some ref then s else s.complete ref st r
    | _ => s)

-- Doorbells (R417, R421, R438)

/-- A doorbell that is not valid: discarded, counted, BAD_DOORBELL raised (Table 15-5). -/
def State.badDoorbell (s : State) (idx : Nat) : State := s.badAccess.hostFault .badDoorbell idx

/-- TAIL (R403, R417): in NAP a doorbell is a wake source, latched when enabled. -/
def execTail (n : Fin 16) (v : BitVec 32) (s : State) : R :=
  let r := s.host.rings[n]
  let w := s.wrVal 0 v 0xFFFFFFFF 0xFFFFF000
  let t := (w.1.extractLsb' 0 12).toNat
  let s := w.2.wake 7
  .next (
    if r.st = .disabled then s.badAccess
    else if t ≥ r.size ∨ (t + r.size - r.head) % r.size < (r.tail + r.size - r.head) % r.size then s.badDoorbell (0x800 + n.val)
    else s.modRing n fun r => { r with tail := t })

/-- CPL_HEAD (R417): releases entries up to the index written; the unchanged head releases all of a full ring. -/
def execCplHead (n : Fin 16) (v : BitVec 32) (s : State) : R :=
  let w := s.wrVal 0 v 0xFFFFFFFF 0xFFFFF000
  let s := w.2.wake 7
  let r := s.host.rings[n]
  let h := (w.1.extractLsb' 0 12).toNat
  let k := if h = r.hostHead then (if r.unread = r.size then r.size else 0) else (h + r.size - r.hostHead) % r.size
  .next (
    if r.st = .disabled then s.badAccess
    else if h ≥ r.size ∨ k > r.unread then s.badDoorbell (0x800 + n.val)
    else s.modRing n fun r => { r with hostHead := h, unread := r.unread - k })

/-- The last fenced-out completion of a release has been written: RELEASED, and the ring runs again (R438). -/
def State.releaseDone (s : State) (n : Fin 16) : State :=
  match s.host.rings[n].release with
  | some q =>
    if q.left = 0 ∧ ¬ s.host.rings[n].slots.any (fun x => x.stage == .fetched) then
      (s.modRing n fun r => { r with st := .running, release := none }).postRing 2 n.val q.fenced 0 0
    else s
  | none => s

/-- RELEASE (R421, R438): value 1 begins the release of a HELD ring; whether a reserved value does is open (R2). A release already in progress takes
no second range. -/
def execRelease (n : Fin 16) (v : BitVec 32) (s : State) : R :=
  let w := if v = 1 then ((1 : BitVec 1), s) else s.takeFree 1
  let s := w.2.wake 7
  let r := s.host.rings[n]
  .next (
    if r.st ≠ .held ∨ w.1 ≠ 1 ∨ r.release.isSome then s.badAccess
    else (s.modRing n fun r => { r with release := some { left := (r.tail + r.size - r.head) % r.size, fenced := 0 } }).releaseDone n)

/-- RELEASE_FENCE_OUT (R438): the oldest fetched command that has not started completes with FENCED_OUT. -/
def execReleaseFenceOut (n : Fin 16) (s : State) : R :=
  .next (match s.host.rings[n].release, s.host.rings[n].slots.find? fun x => x.stage == .fetched with
    | some _, some x =>
      let s := s.complete { ring := n, seq := x.seq } .fencedOut
      (s.modRing n fun r => { r with release := r.release.map fun q => { q with fenced := q.fenced + 1 } }).releaseDone n
    | _, _ => s)

/-- EVT_HEAD (R417). -/
def execEvtHead (v : BitVec 32) (s : State) : R :=
  let w := s.wrVal 0 v 0xFFFFFFFF 0xFFFF0000
  let s := w.2.wake 7
  let r := s.host.evt
  let size := 2 ^ r.log2.toNat
  let h := (w.1.extractLsb' 0 16).toNat
  let k := if h = r.hostHead then (if r.unread = size then size else 0) else (h + size - r.hostHead) % size
  .next (
    if !r.en then s.badAccess
    else if h ≥ size ∨ k > r.unread then s.badDoorbell 0x810
    else { s with host := { s.host with evt := { r with hostHead := h, unread := r.unread - k } } })

-- The event ring (R422, R432 to R435, R439)

/-- Send the event vector and begin a new count (R434). -/
def State.signalEvents (s : State) : State :=
  { s with host := { s.host with evt := { s.host.evt with sinceMsg := 0, oldest := none } } }.sendMsix s.host.evt.vec

/-- EVENT_ENTRY_WRITE (R434, R435, R439): the first waiting entry goes to the ring while it is enabled and has room. -/
def execEventEntryWrite (busErr : Bool) (s : State) : R :=
  let r := s.host.evt
  .next (
    if !r.en ∨ r.stopped ∨ r.unread ≥ 2 ^ r.log2.toNat then s
    else match r.queue with
      | [] => s
      | item :: q =>
        if busErr then
          let s := { s with host := { s.host with evt := { r.dropQueue with stopped := true } } }
          (s.emit (.evtUndefined r.wrIdx)).hostFault .evtBusErr 0x810
        else
          let es : EvtEntry × State := match item with
            | .ev _ e => (e, s)
            | .overflow =>
              let b := s.record 8 [.v 8 4, .v 4 0, .u 4, .v 32 0, .v 16 (min r.ovf 65535)]
              ({ type := 0x0E, stamp := BitVec.ofNat 32 s.tb2Ns, body := b.1 }, b.2)
          let e := es.1
          let s := es.2
          let wrap : Bool := r.wrIdx + 1 = 2 ^ r.log2.toNat
          let s := { s with host := { s.host with evt := { r with
              queue := q, ovf := (match item with | .overflow => 0 | .ev _ _ => r.ovf)
              wrIdx := if wrap then 0 else r.wrIdx + 1, phase := if wrap then !r.phase else r.phase
              unread := r.unread + 1, sinceMsg := r.sinceMsg + 1, oldest := some (r.oldest.getD s.dp) } } }
          let s := s.emit (.evt r.wrIdx r.phase e)
          let urgent : Bool := e.type == 0x0D || (e.type == 0x0E && e.body.head? == some 1)
          if urgent ∨ r.sinceMsg + 1 ≥ r.coal.toNat then s.signalEvents else s)

/-- EVENT_COALESCE_TIMEOUT (R434): 20 µs since the oldest entry not signalled. -/
def execEventCoalesceTimeout (s : State) : R :=
  .next (match s.host.evt.oldest with
    | some t => if t + 19661 ≤ s.dp then s.signalEvents else s
    | none => s)

-- The arbiter (R441, R442, R445)

/-- The next waiting fault: class order, then order of raising; a fault that is running stops the search. -/
def State.nextFault (s : State) : Option HeldFault :=
  if s.host.arb.held.any fun h => h.hold == .running then none
  else s.host.arb.held.foldl (fun (b : Option HeldFault) h =>
    match b with
    | none => some h
    | some x =>
      let k (f : HeldFault) : Nat × Nat × Nat × Nat := (f.code.cls.code, f.raised, f.res.cls, f.res.idx)
      let a := k h; let e := k x
      if a.1 < e.1 ∨ (a.1 = e.1 ∧ (a.2.1 < e.2.1 ∨ (a.2.1 = e.2.1 ∧ (a.2.2.1 < e.2.2.1 ∨ (a.2.2.1 = e.2.2.1 ∧ a.2.2.2 < e.2.2.2))))) then some h else some x) none

/-- Reset of the core a solver fault names (R441, R485): it takes jobs again 20 µs later. -/
def State.resetFaultCore (s : State) (f : HeldFault) : State :=
  if f.code = .solver then
    match toFin 9 (f.res.idx - 0x100) with
    | some c => { s with sol := { s.sol with cores := vmod s.sol.cores c fun x => { x with fgJob := none, bgJob := none, ended := none, resetEnd := some (s.dp + 19661) } } }
    | none => s
  else s

/-- RECOVERY_START (R441 to R445): the next waiting recovery starts, or restarts after its pre-emption; its level's action is
taken and the block concerned is reset, whose started commands are reported once. -/
def execRecoveryStart (s : State) : R :=
  .next (match s.nextFault with
    | none => s
    | some f =>
      let g := { f with hold := Hold.running, ever := true, started := s.dp }
      let s := s.modHeld f.id fun _ => g
      let s := { s with host := { s.host with arb := { s.host.arb with ran := true } } }
      let s := if f.ever then s.faultRec .restarted g else s
      let s := s.levelAction g
      if f.level = 0 ∧ ¬ f.ever then 
        let ops := resetOps f
        let s := s.abortOps ops
        (if ops.contains 0x70 then s.shuReset else s).resetFaultCore f
      else s)

/-- Whether a fault's level-0 condition holds (R441); levels above 0 are complete with their action. -/
def State.recovered (s : State) (f : HeldFault) : Bool :=
  if f.level > 0 then true
  else match f.code with
    | .railOut => railsNeeded s.pwr.st &&& ~~~s.pwr.rails == 0
    | .thermalMute => !s.pwr.thermalMute
    | .thermalDeep => !s.pwr.thermalDeep
    | .loUnlock => (toFin 16 f.res.idx).elim true fun i => s.radio.synths[i].st == .locked || s.radio.synths[i].st == .retired
    | .refPllExit | .noFallback => s.clk.pll == .locked
    | .monFault | .ttHung => (toFin 11 (f.res.idx - 0x3E0)).elim true fun i => s.clk.mon[i].1 == .qualified
    | .gateTo => true
    | .expired => (toFin 2 (f.res.idx - 0x3F2)).elim true fun t => s.time.tb[t].st == .locked || s.time.tb[t].st == .holdover
    | .portFailed => (List.finRange 8).any fun i => s.fh.ports[i].st == .up && s.fh.ports[i].hasLane (BitVec.ofNat 5 (f.res.idx - 0x200))
    | .memberLost => s.hit.leaving.isNone
    | .d2dUncorr | .memUncorr => f.started + 49152 ≤ s.dp
    | .solver => (toFin 9 (f.res.idx - 0x100)).elim true fun c => s.sol.cores[c].resetEnd.isNone
    | .calFail | .calRepeat | .tackWorn => true
    | .fetchBusErr | .cplBusErr => (toFin 16 (f.res.idx - 0x800)).elim true fun n => s.host.rings[n].st != .stopped && s.host.rings[n].st != .disabled
    | .evtBusErr => s.host.evt.en && !s.host.evt.stopped
    | .badDoorbell => true

/-- RECOVERY_COMPLETE (R441, R442): the running recovery's condition holds and 100 ms have passed since its start. -/
def execRecoveryComplete (s : State) : R :=
  .next (match s.host.arb.held.find? fun h => h.hold == .running with
    | none => s
    | some f =>
      if f.started + 98304000 ≤ s.dp ∧ s.recovered f then
        (s.setHeld (s.host.arb.held.filter fun h => h.id != f.id)).faultRec .complete f
      else s)

/-- D2D_UNCORR (R22). -/
def execD2dUncorr (s : State) : R := .next (s.raiseFault .d2dUncorr { cls := 9, idx := 0x3F1 })

/-- D2D_CORRECTED_ERROR (R22). -/
def execD2dCorrectedError (s : State) : R :=
  .next { s with host := { s.host with arb := { s.host.arb with d2dErr := satInc s.host.arb.d2dErr } } }

-- The link and its reset (R410, R570)

/-- PERST_N_ASSERT (R570): after link-up, the PCI Express function and every ring go to their Reset values; commands already
started run to their end without a completion, fetched ones are discarded, and event entries that wait are not written. -/
def execPerstNAssert (s : State) : R :=
  let h := s.host
  .next (if h.top.linkUp then
      { s with host := { h with
          top := { h.top with linkUp := false, perstHigh := false, l12 := false }
          rings := h.rings.map fun r => { Ring.reset with nextSeq := r.nextSeq }
          evt := { EvtRing.reset with lost := h.evt.lost, ovf := h.evt.ovf }
          msix := HostIf.reset.msix } }
    else { s with host := { h with top := { h.top with perstHigh := false } } })

/-- PERST_N_RELEASE (R410). -/
def execPerstNRelease (s : State) : R := .next { s with host := { s.host with top := { s.host.top with perstHigh := true } } }

/-- PCIE_LINK_UP (R410, R414): with VIN present and PERST_N released. -/
def execPcieLinkUp (s : State) : R :=
  .next (if s.pwr.vin ∧ s.host.top.perstHigh then { s with host := { s.host with top := { s.host.top with linkUp := true } } } else s)

/-- L1_2_ENTRY (R570): the link enters L1.2 and PCIE_CLKREQ_N is released. -/
def execL12Entry (s : State) : R :=
  .next (if s.host.top.linkUp ∧ ¬ s.host.top.l12 then
      { s with host := { s.host with top := { s.host.top with l12 := true } }, pkg := { s.pkg with clkreqLow := false } }.emit (.pin "PCIE_CLKREQ_N" true)
    else s)

/-- L1_2_EXIT (R570). -/
def execL12Exit (s : State) : R :=
  .next (if s.host.top.l12 then
      { s with host := { s.host with top := { s.host.top with l12 := false } }, pkg := { s.pkg with clkreqLow := true } }.emit (.pin "PCIE_CLKREQ_N" false)
    else s)

end Sys2Proof.Machine
end

