-- ==== Sys2Proof/Machine/Modes.lean ====
section
/-! DEFINITION. The limits and settings of the modes, the plan of a transition, carriers that are removed, suspended or
prepared (chapter 01, R105, R136). -/

namespace Sys2Proof.Machine

/-- Width of an LO's window in kHz (Table 1-2). -/
def Mode.window : Mode → Int
  | .full => 800000 | .bringup => 100000 | .calibrate => 0 | _ => 400000

/-- The carrier list (Table 1-2). -/
def Mode.carrierIn (m : Mode) (c : Fin 8) : Bool :=
  match m with
  | .full | .split => true
  | .calibrate => false
  | .bringup => c.val == 0
  | _ => c.val < 4

/-- Limits of DL and UL layers (Table 1-2). -/
def Mode.layers : Mode → Nat × Nat
  | .full | .array => (32, 16)
  | .dormant | .bringup => (8, 4)
  | .calibrate => (0, 0)
  | _ => (16, 8)

/-- Weight sources allowed, as SRC_MASK (Table 1-2). -/
def Mode.sources : Mode → BitVec 3
  | .dormant | .bringup => 3
  | .calibrate => 0
  | _ => 7

/-- Lower edge of the occupied band, in 10 Hz. -/
def CarrierCfg.low (k : CarrierCfg) : Int := k.centre.toNat - k.bw.toNat * 50000

/-- Upper edge of the occupied band, in 10 Hz. -/
def CarrierCfg.high (k : CarrierCfg) : Int := k.centre.toNat + k.bw.toNat * 50000

/-- The LO of a carrier in kHz (R134). -/
def carrierLo (m : Mode) (a b : BitVec 32) (c : Fin 8) : BitVec 32 := if m = .split ∧ c.val ≥ 4 then b else a

/-- R24: a carrier fits a mode with its LOs. -/
def fits (m : Mode) (a b : BitVec 32) (c : Fin 8) (k : CarrierCfg) : Bool :=
  let lo : Int := (carrierLo m a b c).toNat * 100
  m.carrierIn c && lo - m.window * 50 ≤ k.low && k.high ≤ lo + m.window * 50
  && k.dlLayers.toNat ≤ m.layers.1 && k.ulLayers.toNat ≤ m.layers.2 && (k.srcMask &&& ~~~ m.sources) == 0

/-- Two occupied bands overlap. -/
def CarrierCfg.overlaps (a b : CarrierCfg) : Bool := a.low < b.high && b.low < a.high

/-- The analogue profile of a mode; CALIBRATE names none (Table 1-3). -/
def profileOf (m parent : Mode) : Option Profile :=
  match m with
  | .full => some .pw
  | .reach => some .pl
  | .dormant => some (if parent = .reach then .pl else .pw)
  | .bringup => some .pb
  | .calibrate => none
  | _ => some .pn

/-- Table 1-6 in ticks; none is not allowed, 0 is seamless. -/
def baseTime (f t parent : Mode) : Option Nat :=
  match f, t with
  | .full, .dormant | .reach, .dormant => some 0
  | .dormant, .full => if parent = .full then some 0 else none
  | .dormant, .reach => if parent = .reach then some 0 else none
  | .full, .array | .lean, .dormant | .lean, .array | .split, .dormant | .split, .array => none
  | .dormant, .lean | .dormant, .split | .dormant, .array => none
  | .array, .full | .array, .lean | .array, .split | .array, .dormant | .calibrate, .dormant | .bringup, .dormant => none
  | .reach, .array | .calibrate, .array => some 39321600
  | .bringup, .array => some 58982400
  | .calibrate, .calibrate | .full, .full | .reach, .reach | .lean, .lean | .split, .split | .dormant, .dormant
  | .array, .array | .bringup, .bringup => none
  | _, .calibrate => some 983040
  | _, .bringup => some 3440640
  | .bringup, _ => some 24576000
  | .calibrate, .split => some 3440640
  | .split, _ => some 17694720
  | _, .split => some 17694720
  | _, _ => some 3440640

/-- Paddocks that serve a carrier (R158). -/
def State.servingPaddocks (s : State) (c : Fin 8) : List (Fin 8) :=
  (List.finRange 8).filter fun k =>
    match s.mode.cur with
    | .split => decide (c.val < 4 ↔ k.val < 4)
    | .bringup => k.val < 2
    | .calibrate => false
    | _ => true

/-- A carrier is configured and not suspended. -/
def State.live (s : State) (c : Fin 8) : Bool := s.ofdm.carriers[c].cfg.isSome && !s.ofdm.carriers[c].suspended

/-- A paddock serves a configured carrier that is not suspended (R81). -/
def State.inUse (s : State) (k : Fin 8) : Bool := (List.finRange 8).any fun c => s.live c && (s.servingPaddocks c).contains k

/-- Subject key of a calibration of a path or, for LO_PHASE, of its paddock (Table 9-1). -/
def calSubject (id : Nat) (p : Fin 64) : CalKey :=
  if id = 9 then { id := 9, cls := 2, idx := p.val / 8 } else { id := id, cls := 1, idx := p.val }

/-- A stored set is valid (R266): a completed result of each of 0x04 to 0x0A for every path that is not retired. -/
def State.calSetValid (s : State) (x : CalSet) : Bool :=
  (List.finRange 64).all fun p =>
    s.radio.paths[p].retired || ([4, 5, 6, 7, 8, 9, 10].all fun i => x.results.any fun r => r.1 == calSubject i p)

/-- A stored set matches a profile and an LO in kHz (R266). -/
def CalSet.fitsLo (x : CalSet) (p : Profile) (lo : BitVec 32) : Bool :=
  x.profile == p.code && ((x.loKhz.toNat : Int) - lo.toNat).natAbs ≤ 20000

/-- The valid stored set of a profile and LO: a read finds what has been committed (R272). -/
def State.calSetFor (s : State) (p : Profile) (lo : BitVec 32) : Option CalSet :=
  s.tack.nv.sets.find? fun x => x.fitsLo p lo && s.calSetValid x

/-- IDs that a change of profile, of LO, of array membership invalidates (Table 1-7). -/
def redoIds (p q : Profile) (lo arr : Bool) : List Nat :=
  let prof := if p = q then [] else
    match p, q with
    | .pn, .pl | .pl, .pn => [5, 7, 8, 10, 11]
    | _, _ => [5, 6, 7, 8, 10, 11]
  if lo then [5, 6, 7, 8, 9, 10, 11] else if arr then (prof ++ [11]).eraseDups else prof

/-- What a transition does, computed from the state and the command's fields (R35, R36, R39). -/
structure ModePlan where
  allowed  : Bool
  time     : Nat
  prof     : Profile
  plo      : Vector (BitVec 32) 8
  changed  : List (Fin 8)
  redo     : List CalKey
  reseed   : BitVec 64
  /-- Bands that lack a valid stored set. -/
  lacking  : List (BitVec 32)

/-- The neighbour that an adjacency slot names (R226). -/
def neighbour (b : BitVec 8) : Option Nat := if b.getLsbD 7 then some (b.extractLsb' 0 6).toNat else none

/-- The paths of a mode's active set, retired ones too (Table 1-2). -/
def Mode.active (m : Mode) (p : Fin 64) : Bool :=
  match m with | .lean => p.val % 2 == 0 | .bringup => p.val < 16 | _ => true

/-- The plan of a transition (R35, R36, R39). DESIGN CHOICE (log 19): a retune while the mode is DORMANT names the parent mode it has. -/
def State.modePlan (s : State) (t : Transition) : ModePlan :=
  let f := s.mode.cur
  let prof := (profileOf t.target t.parent).getD s.mode.prof
  let plo := Vector.ofFn fun k : Fin 8 =>
    if t.target = .calibrate ∧ t.bandA = 0 then s.mode.plo[k]
    else if t.target = .split ∧ k.val ≥ 4 then
      (if t.bandB ≠ 0 then t.bandB else if s.mode.bandB ≠ 0 then s.mode.bandB else if t.bandA ≠ 0 then t.bandA else s.mode.bandA)
    else if t.bandA ≠ 0 then t.bandA else s.mode.bandA
  let changed := (List.finRange 8).filter fun k => plo[k] != s.mode.plo[k]
  let base : Option Nat :=
    if f = t.target then (if changed.isEmpty ∨ (f = .dormant ∧ t.parent ≠ s.mode.parent) then none else some 17694720)
    else if t.target = .dormant ∧ t.parent ≠ f then none
    else baseTime f t.target s.mode.parent
  let time := base.getD 0
  let time := if changed.isEmpty then time else max time 17694720
  let noPreset : Bool := (base.getD 0 != 0 || !changed.isEmpty) && (List.finRange 8).any fun k =>
    plo[k] != 0 && s.radio.synths[s.active k].st != .retired && !((List.finRange 32).any fun j => s.radio.synths[s.active k].presets[j].freq == plo[k].extractLsb' 0 23 && s.presetUsable (s.active k) j)
  let arr : Bool := decide ((f = .array) ≠ (t.target = .array))
  let ids (k : Fin 8) : List Nat := redoIds s.mode.prof prof (changed.contains k) arr
  let redo := (List.finRange 64).flatMap fun p => (ids (paddockOf p)).map fun i => calSubject i p
  let need := (List.finRange 8).filter fun k => plo[k] != 0 && (prof != s.mode.prof || changed.contains k)
  let moved (p : Fin 64) : Bool := t.target != .calibrate && f.active p != t.target.active p
  let freed (p : Fin 64) (b : BitVec 8) : Bool := match (neighbour b).bind (toFin 64) with
    | some q => f == .split && t.target != .split && t.target != .calibrate && decide ((p.val < 32) ≠ (q.val < 32))
    | none => false
  let reseed := BitVec.ofNat 64 (((List.finRange 64).filter fun p =>
    prof != s.mode.prof || f == .bringup || changed.contains (paddockOf p) || freed p s.lin.adj[p].1 || freed p s.lin.adj[p].2 || (s.lin.paths[p].stale && t.target != .calibrate)
    || (List.finRange 64).any fun q => moved q && (neighbour s.lin.adj[p].1 == some q.val || neighbour s.lin.adj[p].2 == some q.val)).foldl (fun a p => a + 2 ^ p.val) 0)
  { allowed := base.isSome, time := if noPreset then time + 393216 else time, prof := prof, plo := plo, changed := changed
    redo := redo.eraseDups, reseed := reseed
    lacking := ((need.filter fun k => (s.calSetFor prof plo[k]).isNone).map fun k => plo[k]).eraseDups }

/-- The LOs of a transition's target. -/
def State.newBands (s : State) (t : Transition) : BitVec 32 × BitVec 32 :=
  let a := if t.bandA ≠ 0 then t.bandA else s.mode.bandA
  (a, if t.bandB ≠ 0 then t.bandB else if s.mode.bandB ≠ 0 then s.mode.bandB else a)

/-- Carriers that do not fit the target (R24, R42); none on the way into CALIBRATE. -/
def State.unfit (s : State) (t : Transition) : List (Fin 8) :=
  if t.target = .calibrate then []
  else
    let b := s.newBands t
    (List.finRange 8).filter fun c => match s.ofdm.carriers[c].cfg with | some k => !fits t.target b.1 b.2 c k | none => false

/-- The check of a transition at its start point (R34): the status that refuses it. -/
def State.startRefusal (s : State) (t : Transition) : Option Status :=
  let p := s.modePlan t
  if s.pwr.st ≠ .active then some .notReady
  else if !p.allowed then some .modeConflict
  else if s.unfit t ≠ [] ∧ ¬ t.drop then some .modeConflict
  else if p.lacking ≠ [] ∧ ¬ t.autoCal then some .notReady
  else if t.autoCal ∧ (t.target = .dormant ∨ s.mode.cur = .dormant) then some .badArg
  else none

/-- What AUTO_CAL adds for `n` bands that lack a set (R36): a free time of at most 20 s for each. -/
def Transition.calTime (t : Transition) (n : Nat) : Nat := if t.autoCal then t.calFree % (n * 19660800000 + 1) else 0

/-- A transition's end and the boundary at which traffic resumes, by the plan of the present state (R36, R37). -/
def State.modeFix (s : State) (t : Transition) : Transition :=
  let p := s.modePlan t
  let time := p.time + t.calTime p.lacking.length
  { t with seamless := time == 0, endDp := s.dpOf (t.start + time)
           resume := if time = 0 then t.start else max (ceilTo frameTicks (t.start + time)) ((t.start / frameTicks + 1) * frameTicks) }

-- Carriers

/-- The link event (Table 10-19). -/
def State.postLink (s : State) (n : Fin 8) (cause backup : Nat) : State :=
  s.postRec 0x08 8 [.v 3 n.val, .u 3, .v 2 s.fh.ports[n].st.code.toNat, .v 8 cause, .v 3 backup, .u 5, .u 8, .v 32 s.frameNow]

/-- NF of a carrier reads no value until a new block completes (R215). -/
def State.clearNf (s : State) (c : Fin 8) : State :=
  { s with quality := s.quality.map fun (q : Quality) => { q with nf := vset q.nf c 0x8000, idle := vset q.idle c [] } }

/-- Discard all state of a carrier (R136, R42): pending siding work completes with SCRAPPED. -/
def State.removeCarrier (s : State) (c : Fin 8) : State :=
  let s := ((s.scrapCarrier c).discardBook c).clearNf c
  let s := (s.ofdm.sections.filter fun x => x.carrier == c).foldl (fun s x => s.dropSection x) s
  let s := (s.ofdm.occasions.filter fun x => x.carrier == c).foldl (fun s x => s.dropOccasion x) s
  let s := { s with ofdm := { s.ofdm with
      occasions := s.ofdm.occasions.filter fun x => x.carrier != c
      claims := s.ofdm.claims.filter fun x => x.carrier != c, confirmed := s.ofdm.confirmed.filter fun x => x.carrier != c, hints := s.ofdm.hints.filter fun h => h.carrier != c, lastMap := s.ofdm.lastMap.filter fun x => x.1.1 != c } }
  s.modCarrier c fun x => { Carrier.reset with seen := x.seen, firstUseDl := none, firstUseUl := none }

/-- The carrier-removed event (type 0x03 of Table 15-9). -/
def State.postRemoved (s : State) (c : Fin 8) (m : Mode) : State :=
  s.postRec 0x03 8 [.v 8 c.val, .v 8 m.code.toNat, .v 16 0, .v 32 s.frameNow]

/-- Paths of a paddock's active set in OFF or SLEEP, and not on the way to another state, are brought to STANDBY, SLEEP to STANDBY ending
no earlier than the lock of the active synthesiser (R105). -/
def State.standbyPaths (s : State) (k : Fin 8) : State :=
  let lock := s.lockAt (s.active k)
  (paddockPaths k).foldl (fun s p =>
    let x := s.radio.paths[p]
    let m := (s.plan p).foldl (fun (m : PathSim) i => m.step x i) x.sim
    let from_ := max s.dp m.free
    if !s.inActive p ∨ ¬ (x.st = .off ∨ x.st = .sleep) then s
    else match m.st with
      | .off => (s.pathLater p from_ .sleep none).pathLater p (max (from_ + 49152) (lock - 34407)) .standby none
      | .sleep => s.pathLater p (max from_ (lock - 34407)) .standby none
      | _ => s) s

/-- Prepare a paddock of a carrier (R105): the active synthesiser is brought to the mode's LO unless it is LOCKED there, and its paths to
STANDBY. -/
def State.preparePaddock (s : State) (k : Fin 8) : State :=
  let lo := s.mode.plo[k]
  if lo = 0 then s
  else
    let i := s.active k
    let y := s.radio.synths[i]
    let f := lo.extractLsb' 0 23
    let s := if y.freq = f ∧ y.st = .locked then s else s.synthBegin i (s.tuneOp i f)
    s.standbyPaths k

/-- Prepare every paddock that serves a carrier. -/
def State.prepareCarrier (s : State) (c : Fin 8) : State := (s.servingPaddocks c).foldl (fun s k => s.preparePaddock k) s

/-- Paths outside the active set go to OFF with their halter outputs at the safe value (R27). -/
def State.applyActive (s : State) : State :=
  (List.finRange 64).foldl (fun s p =>
    if s.mode.cur.active p then s
    else
      let s := s.modOut (hbOf p) OutCh.hold
      if s.radio.paths[p].st = .off ∧ s.radio.paths[p].transit.isNone then s.modPath p fun x => { x with jobs := [] }
      else (s.modPath p fun x => { x with jobs := [] }).pathBegin p .off none) s

/-- Gates that chapters outside a command's own put on commands of the traffic kinds, PATH_SET to RX or TX and CAL_RUN: power
states (R392) and the device safe state (R444). -/
def State.trafficGate (s : State) : Option Status :=
  if s.host.top.safe then some .modeConflict
  else if s.pwr.st = .active then none
  else some .notReady

end Sys2Proof.Machine
end

