-- ==== Sys2Proof/Machine/LinOps.lean ====
section
/-! DEFINITION. DPD seeding and cold start, captures that are aborted (R231, R239 to R244), calibration records and results
in force (R262 to R269). -/

namespace Sys2Proof.Machine

/-- TX attenuation that the cold-start limit gives a stored setting: at least 6 dB (R72). -/
def capAtten (a : BitVec 7) : BitVec 7 := if a.toNat < 24 then 24 else a

-- Comparators of the housekeeping channels (R498, R507)

/-- The differential channels, whose codes are signed. -/
def hkSigned (ch : Nat) : Bool := 80 ≤ ch && ch < 88

/-- A code lies inside a channel's window. -/
def HkChan.inside (h : HkChan) (ch : Nat) : Bool :=
  if hkSigned ch then h.lo.toInt ≤ h.code.toInt && h.code.toInt ≤ h.hi.toInt else h.lo.toNat ≤ h.code.toNat && h.code.toNat ≤ h.hi.toNat

/-- Paths that a channel's comparator targets (R507). -/
def State.cmpTargets (s : State) (ch : Fin 184) : List (Fin 64) :=
  (List.finRange 64).filter fun p =>
    if ch.val < 64 then ch.val == p.val else if 112 ≤ ch.val ∧ ch.val < 176 then ch.val == p.val + 112
    else s.sup.chan[ch].paddocks.getLsbD (paddockOf p).val

/-- The comparator of a channel takes a result (R507, R508): a trip with MUTE opens the interlocks, which blanks the TX chains and ends
their captures. -/
def State.hkCompare (s : State) (ch : Fin 184) : State :=
  let h := s.sup.chan[ch]
  if !h.en then s
  else if h.inside ch.val then { s with sup := { s.sup with chan := vmod s.sup.chan ch fun h => { h with count := 0 } } }
  else
    let n := satInc h.count
    let trip : Bool := !h.tripped && n == h.persist
    let s := { s with sup := { s.sup with chan := vmod s.sup.chan ch fun h => { h with count := n, tripped := h.tripped || trip } } }
    if trip then
      let s := if h.mute then (s.cmpTargets ch).foldl (fun (s : State) p => s.capMuted p true false) s else s
      if h.event then s.postSup 1 ch.val h.persist.toNat else s
    else s

-- PA temperatures (R240, R518)

/-- The housekeeping channel of thermistor pair `n` (Table 18-1). -/
def thChannel (n : BitVec 3) : Fin 184 := ⟨80 + n.toNat, by omega⟩

/-- The PA temperature of a paddock in 0.5 °C from its thermistor pair; none where the channel reports out of range (R518). -/
def State.thTemp (s : State) (k : Fin 8) : Option Int :=
  let m := s.sup.th[k]
  let code := s.sup.chan[thChannel m.pair].code.toInt
  if !m.en || code == -2048 || code == 2047 then none
  else
    let t := s.sup.thCoef[m.pair.toFin]
    some (t.1.toInt + rdiv (t.2.toInt * code) 256)

/-- Refresh the reading of a path's PA temperature (R240): a reading older than 1 s is taken anew by a spot conversion, whose
code is what the ball gives (free) and which the channel's comparator judges as it does every result; an out-of-range channel takes
the paddock's die temperature. DESIGN CHOICE (log 56): the refresh is whole at once, and takes no place in the queue. -/
def State.readPaTemp (s : State) (p : Fin 64) : State :=
  let k := paddockOf p
  let m := s.sup.th[k]
  let ch := thChannel m.pair
  let s :=
    if m.en ∧ (s.sup.chan[ch].tick + 983040000 < s.dp ∨ s.sup.chan[ch].valid = false) then
      let r := s.takeFree 12
      let v := r.1.signExtend 16
      { r.2 with sup := { r.2.sup with chan := vmod r.2.sup.chan ch fun h => { h with value := v, code := v, valid := true, at_ := s.atNow, tick := s.dp } } }.hkCompare ch
    else s
  match s.thTemp k with
  | some t => s.modDpd p fun d => { d with paTemp := BitVec.ofInt 16 t, tempSubst := false, paTempAt := s.dp }
  | none => s.modDpd p fun d => { d with paTemp := BitVec.ofInt 16 (rdiv (s.dieTemp8 k) 4), tempSubst := true, paTempAt := s.dp }

/-- The band key that matches a path (R239): nearest LO, the lower on a tie. -/
def State.dpdKeyFor (s : State) (p : Fin 64) : Option DpdKey :=
  let lo : Int := s.mode.plo[paddockOf p].toNat
  let d (k : DpdKey) : Nat := ((k.loKhz.toNat : Int) - lo).natAbs
  (s.lin.keys.filter fun k => k.profile == s.mode.prof.code && k.fcN == s.conv.fcN && d k ≤ 50000).foldl (fun (b : Option DpdKey) k =>
    match b with
    | none => some k
    | some x => if d k < d x ∨ (d k = d x ∧ k.loKhz < x.loKhz) then some k else some x) none

/-- A matched key becomes the one most recently matched (R241). -/
def State.touchKey (s : State) (k : DpdKey) : State :=
  { s with lin := { s.lin with keys := k :: s.lin.keys.filter fun x => !(x.profile == k.profile && x.fcN == k.fcN && x.loKhz == k.loKhz) } }

/-- Interpolate one component (R242). -/
def interp (f : Int) (a b : BitVec 18) : BitVec 18 := BitVec.ofInt 18 (a.toInt + rdiv (f * (b.toInt - a.toInt)) 65536)

/-- The set that stored sets give at a temperature in 0.5 °C, with its SEED code, and the stored set it is, if it is one (R242). -/
def seedSet (sets : List DpdSet) (t : Int) : Option (CoefSet × BitVec 2 × Option DpdSet) :=
  let l := sortKey (sets.map fun (x : DpdSet) => ((x.paTemp.toInt + 40000).toNat, x))
  let below := (l.filter fun x => x.2.paTemp.toInt ≤ t).getLast?
  let above := (l.filter fun x => x.2.paTemp.toInt ≥ t).head?
  match below, above with
  | none, none => none
  | some (_, x), none | none, some (_, x) => some (x.coefs, 1, some x)
  | some (_, x), some (_, y) =>
    if x.paTemp = y.paTemp then some (x.coefs, 1, some x)
    else
      let f := rdiv (65536 * (t - x.paTemp.toInt)) (y.paTemp.toInt - x.paTemp.toInt).toNat
      some (List.zipWith (fun a b => (interp f a.1 b.1, interp f a.2 b.2)) x.coefs y.coefs, 2, none)

/-- Put a path into cold start (R243). -/
def State.coldStart (s : State) (p : Fin 64) : State :=
  s.modDpd p fun d =>
    { d with bypass := true, cold := true, cap := true, ramping := false, attenNow := capAtten s.radio.paths[p].txAtten
             seed := 0, gen := d.gen + 1, noConv := 0, unconverged := false, gain := none, old := identitySet, new := identitySet
             blend := none, setResidual := 0x8000, learnt := none, adapted := false }

/-- Seed a path's DPD (R41, R242); in BRINGUP it runs in cold start (R243). -/
def State.seedDpd (s : State) (p : Fin 64) : State :=
  let s := s.modDpd p fun d => { d with stale := false }
  if s.mode.cur = .bringup then s.coldStart p
  else
    let s := s.readPaTemp p
    match s.dpdKeyFor p with
    | none => s.coldStart p
    | some k =>
      let s := s.touchKey k
      match seedSet (k.sets.filter fun x => x.path == p) s.lin.paths[p].paTemp.toInt with
      | none => s.coldStart p
      | some (c, seed, one) =>
        s.modDpd p fun d =>
          { d with bypass := false, cold := false, cap := false, ramping := false, attenNow := s.radio.paths[p].txAtten
                   seed := seed, gen := d.gen + 1, noConv := 0, unconverged := false, gain := none, old := c, new := c
                   blend := none, adapted := false
                   setResidual := match one with | some x => x.residual | none => 0x8000
                   learnt := one.map fun (x : DpdSet) => (x.paTemp, x.adaptSeq) }

/-- The observation receiver that serves a path, if one is in service (R232, Table 8-7). -/
def State.obsOf (s : State) (p : Fin 64) : Option Nat :=
  let k := paddockOf p
  if s.lin.obsOut[(⟨k.val, by omega⟩ : Fin 9)] = false then some k.val
  else if s.lin.obs8 = some k ∧ s.lin.obsOut[(8 : Fin 9)] = false then some 8
  else none

-- Crest-factor targets and neighbours (R218, R226, R227)

/-- The band of a path. -/
def State.cfrBand (s : State) (p : Fin 64) : Fin 2 := if s.mode.cur = .split ∧ p.val ≥ 32 then 1 else 0

/-- The effective target in 0.1 dB (R218). -/
def State.cfrTarget (s : State) (b : Fin 2) : Nat :=
  let t := s.lin.cfr[b].target.toNat
  if s.mode.cur = .reach ∨ (s.mode.cur = .dormant ∧ s.mode.parent = .reach) then min (t + 5) 100 else t

/-- The cancellation threshold A_th (R218): 32,768 × 10^((REF + T_eff)/200), held at 32,767. -/
def State.cfrThreshold (s : State) (b : Fin 2) : Nat :=
  let k : Int := s.lin.cfr[b].ref.toInt + s.cfrTarget b
  min 32767 (thresholdFloor k + (if Config.thresholdUp k then 1 else 0))

/-- Whether a slot's neighbour counts (R227): in the active set, not retired or lent, in SPLIT of the same band. -/
def State.slotUsable (s : State) (p j : Fin 64) : Bool :=
  s.activeSet.contains j && !s.radio.paths[j].lent && (s.mode.cur != .split || (p.val < 32) == (j.val < 32))

/-- The neighbour of a slot, if the slot is not empty (R226, R227). -/
def State.slotPath (s : State) (p : Fin 64) (slot : Nat) : Option (Fin 64) :=
  let e := s.lin.adj[p]
  match (neighbour (if slot = 0 then e.1 else e.2)).bind (toFin 64 ·) with
  | some j => if s.slotUsable p j then some j else none
  | none => none

-- Calibration records and results

/-- A time base is usable for traffic (R347): LOCKED, or HOLDOVER for less than HOLD_MAX. -/
def State.tbUsable (s : State) (t : Fin 2) : Bool :=
  let b := s.time.tb[t]
  b.st == .locked || (b.st == .holdover && s.dp < b.holdAt + b.cfg.holdMax.toNat * 983040000)

/-- Seconds and nanoseconds of a count of 2^-40/3 ns. -/
def tbSec (c : Int) : Int × Int := (c / (1000000000 * 3 * 2 ^ 40), c % (1000000000 * 3 * 2 ^ 40) / (3 * 2 ^ 40))

/-- A subject's die temperature for R253, in 0.5 °C. -/
def State.calTemp (s : State) (k : CalKey) : Int :=
  let pad : Nat := if k.cls = 1 then k.idx / 8 else if k.cls = 3 then k.idx / 2 else if k.cls = 2 then k.idx else 0
  match toFin 8 pad with
  | some m => rdiv (s.dieTemp8 m) 4
  | none => 0

/-- Record a completion whose result enters service (R268). -/
def State.calDone (s : State) (k : CalKey) : State :=
  let t := tbSec s.time.tb[(0 : Fin 2)].count
  let ok := s.tbUsable 0
  let f := s.takeFree 32
  f.2.modCalRec k fun r =>
    { r with last := .ok, count := satInc r.count, atLast := if s.counting then some s.ym.now else none
             tb0s := if ok then BitVec.ofInt 32 t.1 else 0xFFFFFFFF, tb0ns := if ok then BitVec.ofInt 32 t.2 else BitVec.ofNat 32 (f.1.toNat % 1000000000)
             outRun := 0, failRun := 0, stored := false, doneAt := s.dp, temp := s.calTemp k }

/-- The value in force of a calibration and subject; none before a first result. -/
def State.calVal? (s : State) (k : CalKey) : Option CalVal := s.cal.vals.find? fun v => v.key == k

/-- Put a value in force whole (R262, R264): a blend or step under way ends with it. -/
def State.calWhole (s : State) (k : CalKey) (x : List Int) : State :=
  let v : CalVal := { key := k, valid := true, now := x, old := x, target := x, moving := false, step := 0, fromDp := 0, b := 0, waiting := none }
  { s with cal := { s.cal with vals := (s.cal.vals.filter fun y => y.key != k) ++ [v] } }

/-- The fields of CAL_SET in force for a calibration: those that its last period decision found (R261). -/
def State.calCfg (s : State) (k : CalKey) : CalCfg := (s.calRec k).cfg.getD s.cal.cfg

/-- A calibration blends (Table 9-4); the others that move step. -/
def blends (id : Nat) : Bool := id == 5 || id == 6 || id == 7 || id == 9

/-- Bring a background result into force by a blend or by steps (R262, R264): it waits for one under way. Steps of a first result begin at no
correction: κ of 1, δ of 0 (R255, R324). -/
def State.calMove (s : State) (k : CalKey) (x : List Int) : State :=
  let v : CalVal := match s.calVal? k with
    | some v => v
    | none => { key := k, valid := false, now := x.map fun _ => 0, old := x.map fun _ => 0, target := x, moving := false, step := 0, fromDp := 0, b := 0, waiting := none }
  let v := if v.moving then { v with waiting := some x }
    else { v with valid := true, old := v.now, target := x, moving := true, step := 0, fromDp := if blends k.id then s.dp + 16384 else s.dp, b := (s.calCfg k).calB.toNat }
  { s with cal := { s.cal with vals := (s.cal.vals.filter fun y => y.key != k) ++ [v] } }

/-- Every blend and step ends with its target in force (R264); a result that waited begins. -/
def State.calSettle (s : State) : State :=
  s.cal.vals.foldl (fun (s : State) (v : CalVal) =>
    if !v.moving then s
    else
      let s := s.calWhole v.key v.target
      let s := if v.valid then s else { s with cal := { s.cal with vals := s.cal.vals.map fun (y : CalVal) => if y.key = v.key then { y with valid := false } else y } }
      match v.waiting with
      | some x => s.calMove v.key x
      | none => s) s

/-- A stored set is matched (R266): it is the last to make room for another. -/
def State.calTouch (s : State) (p : Profile) (lo : BitVec 32) : State :=
  match s.cal.sets.find? fun x => x.fitsLo p lo with
  | some x => { s with cal := { s.cal with sets := x :: s.cal.sets.erase x } }
  | none => s

/-- Restore the results that a transition invalidates (R39, R40): from the stored set of the profile and LO in force, or, with
AUTO_CAL, from the foreground sequence, whose measurements are free; a result without either is no longer valid. -/
def State.calRestore (s : State) (keys : List CalKey) (auto : Bool) : State :=
  keys.foldl (fun s k =>
    let pad : Fin 8 := (toFin 8 (if k.cls = 1 then k.idx / 8 else k.idx)).getD 0
    let set := (s.calSetFor s.mode.prof s.mode.plo[pad]).bind fun x => (x.results.find? fun r => r.1 == k).map fun (r : CalKey × List Int) => r.2
    match set with
    | some x => ((s.calTouch s.mode.prof s.mode.plo[pad]).calWhole k x).modCalRec k fun r => { r with stored := true }
    | none =>
      if auto && k.id != 11 then
        let n := match s.calVal? k with | some v => max 1 v.now.length | none => 1
        let r := (List.range n).foldl (fun (a : List Int × State) _ => let f := a.2.takeFree 32; (a.1 ++ [f.1.toInt], f.2)) ([], s)
        (r.2.calWhole k r.1).calDone k
      else { s with cal := { s.cal with vals := s.cal.vals.map fun v => if v.key = k then { v with valid := false, moving := false, waiting := none } else v } }) s

-- CAL_RUN and storing (R258 to R260, R266, R267)

/-- A path is in traffic (R258). -/
def State.inTraffic (s : State) (p : Fin 64) : Bool :=
  s.inActive p && (List.finRange 8).any fun c => s.live c && (s.servingPaddocks c).contains (paddockOf p)

/-- The path of a path subject. -/
def CalKey.path? (k : CalKey) : Option (Fin 64) := if k.cls = 1 then toFin 64 k.idx else none

/-- A subject's paddock, for keys of paths, paddocks and synthesisers. -/
def CalKey.paddock? (k : CalKey) : Option (Fin 8) :=
  if k.cls = 1 then toFin 8 (k.idx / 8) else if k.cls = 2 then toFin 8 k.idx else if k.cls = 3 then toFin 8 (k.idx / 2) else none

/-- Sets that hold results of a profile and LO: the set's place and its new contents; the least recently matched makes room (R266). `bg`: the
Farrier writes background results. -/
def State.calStoreLo (s : State) (lo : BitVec 32) (rs : List (CalKey × List Int)) (cmd : Option CmdRef) (bg : Bool) : State :=
  if lo = 0 ∨ rs.isEmpty ∨ s.tack.readOnly then s
  else
    let old := s.cal.sets.find? fun x => x.fitsLo s.mode.prof lo
    let base : CalSet := match old with
      | some x => x
      | none => { profile := s.mode.prof.code, loKhz := lo.extractLsb' 0 23, results := [], bgAt := none }
    let new : CalSet := { base with results := (base.results.filter fun r => !(rs.any fun q => q.1 == r.1)) ++ rs, bgAt := if bg then some s.dp else base.bgAt }
    let rest := match old with | some x => s.cal.sets.erase x | none => s.cal.sets
    let full : Bool := old.isNone && rest.length ≥ 16
    let s := { s with cal := { s.cal with sets := new :: (if full then rest.take 15 else rest) } }
    let s := rs.foldl (fun (s : State) (r : CalKey × List Int) => s.modCalRec r.1 fun x => { x with stored := true }) s
    let dev : Res := { cls := 9, idx := 0 }
    ((if full then s.postCal 3 0 dev else s).tackPut 35 .calSet cmd).postCal 2 0 dev

/-- Background results of a set were written less than 60 s ago (R266). -/
def State.calHeld (s : State) (lo : BitVec 32) : Bool :=
  match s.cal.sets.find? fun x => x.fitsLo s.mode.prof lo with
  | some x => (match x.bgAt with | some t => decide (s.dp < t + 58982400000) | none => false)
  | none => false

/-- Store the valid results in force of some subjects (R266). -/
def State.calStore (s : State) (keys : List CalKey) (cmd : Option CmdRef) (bg : Bool) : State :=
  let los := ((List.finRange 8).map fun k => s.mode.plo[k]).eraseDups
  (los.filter fun lo => !(bg && s.calHeld lo)).foldl (fun (s : State) lo =>
    s.calStoreLo lo ((s.cal.vals.filter fun (v : CalVal) => v.valid && keys.contains v.key && decide (4 ≤ v.key.id ∧ v.key.id ≤ 10) &&
      (match v.key.paddock? with | some k => s.mode.plo[k] == lo | none => false)).map fun (v : CalVal) => (v.key, v.target)) cmd bg) s

/-- Store the device results of a run (R267): the sensor trim, the converter trim of the FC_N in force. -/
def State.calStoreDev (s : State) (keys : List CalKey) (cmd : CmdRef) : State :=
  let s := if keys.any fun k => k.id == 1 then s.tackPut 21 .directory (some cmd) else s
  if keys.any fun k => k.id == 2 then
    { s with conv := { s.conv with trims := (s.conv.fcN :: s.conv.trims.filter fun n => n != s.conv.fcN).take 4 } }.tackPut 22 .convTrim (some cmd)
  else s

/-- A path that the Farrier holds goes to OBS, once it may (R89, R93). -/
def State.obsEntry (s : State) (p : Fin 64) : State :=
  let x := s.radio.paths[p]
  if x.st != .obs && x.transit.isNone && s.mayEnter p .obs (s.dp + chainTime x.st .obs) then s.pathBegin p .obs none else s

/-- The next calibrations of a run begin (R257): paths with work to do that are out of traffic or lent go to OBS; active
synthesisers whose turn it is are calibrated. -/
def State.calRunBegin (s : State) (r : CalRun) : State :=
  let first := match r.left.head? with | some k => k.id | none => 0
  let s := if first = 3 then
      (r.left.filter fun k => k.id == 3).foldl (fun (s : State) k =>
        match toFin 16 k.idx with
        | some i => if s.radio.synths[i].st = .calibrating then s else s.synthBegin i (.calibrate s.radio.synths[i].freq (s.radio.synths[i].calSlot s.radio.synths[i].freq).isNone)
        | none => s) s
    else s
  (setBits r.paths).foldl (fun (s : State) p =>
    let busy : Bool := r.left.any fun k => k.path? == some p
    if busy && (s.radio.paths[p].lent || !s.inTraffic p) then s.obsEntry p else s) s

/-- A path without work left in any run goes back to STANDBY (R259). -/
def State.calPathDone (s : State) (p : Fin 64) : State :=
  let busy : Bool := s.cal.runs.any fun r => !r.waiting && r.left.any fun k => k.path? == some p
  if !busy && s.radio.paths[p].st == .obs && s.radio.paths[p].transit.isNone then s.pathBegin p .standby none else s

/-- Two calibrations use what runs one path, or one paddock, at a time (R252): an observation receiver, a paddock's shared loopback, the phase
against K0. -/
def CalKey.shares (a b : CalKey) : Bool :=
  let obs (k : CalKey) : Bool := k.id ∈ [4, 6, 7, 8, 10]
  a != b && ((a.id == 9 && b.id == 9) || (a.paddock? == b.paddock? && ((obs a && obs b) || (a.id == 5 && b.id == 5))))

/-- A calibration of a CAL_RUN may start (R252, R257, R259): its turn in ID order, its path in OBS out of traffic with its LO LOCKED, and nothing
under way that it must wait for. -/
def State.calMayStart (s : State) (r : CalRun) (k : CalKey) : Bool :=
  !r.waiting && (match r.left.head? with | some f => f.id == k.id | none => false) && !(s.calActive.any fun q => q == k || q.shares k) &&
  (match k.path? with
   | some p => (s.radio.paths[p].lent || !s.inTraffic p) && s.radio.paths[p].st == .obs && s.radio.paths[p].transit.isNone
       && s.radio.synths[s.active (paddockOf p)].st == .locked
   | none => if k.cls = 2 then (setBits r.paths).all fun p => p.val / 8 != k.idx || s.radio.paths[p].lent || !s.inTraffic p else true)

/-- Calibrations of the running CAL_RUNs start as they may. -/
def State.calStarts (s : State) : State :=
  s.cal.runs.foldl (fun (s : State) r => r.left.foldl (fun (s : State) k =>
    if k.id != 3 && s.calMayStart r k then
      { s with cal := { s.cal with runs := s.cal.runs.map fun (q : CalRun) => if q.ref = r.ref then { q with busy := q.busy ++ [(k, s.dp)] } else q } }
    else s) s) s

/-- Subjects of two runs overlap (R258). -/
def CalRun.overlaps (a b : CalRun) : Bool := a.all.any fun x => b.all.any fun y => x.cls == y.cls && x.idx == y.idx

/-- Subjects that retire leave their runs; runs without work left and with every path rejoined complete (R260); waiting runs
without overlap begin (R258), and paths that could not yet enter OBS do so. -/
def State.calRunSweep (s : State) : State :=
  let gone (k : CalKey) : Bool := match k.path? with
    | some p => s.radio.paths[p].retired
    | none => if k.cls = 3 then (match toFin 16 k.idx with | some i => s.radio.synths[i].st == .retired | none => false) else false
  let runs := s.cal.runs.map fun (r : CalRun) =>
    { r with left := r.left.filter fun k => !gone k
             busy := r.busy.filter fun x => !gone x.1
             lentNow := BitVec.ofNat 64 ((setBits r.lentNow).foldl (fun (a : Nat) (p : Fin 64) => if s.radio.paths[p].retired then a else a + 2 ^ p.val) 0) }
  let done := runs.filter fun r => !r.waiting && r.left.isEmpty && r.lentNow == 0
  let kept := runs.filter fun r => !(!r.waiting && r.left.isEmpty && r.lentNow == 0)
  let s := { s with cal := { s.cal with runs := kept } }
  let s := done.foldl (fun (s : State) (r : CalRun) =>
    let s := if r.store then (s.calStore r.all (some r.ref) false).calStoreDev r.all r.ref else s
    s.finish r.ref (if r.failed then .hwFault else .ok)) s
  kept.foldl (fun (s : State) (r : CalRun) =>
    if r.waiting && !(s.cal.runs.any fun q => !q.waiting && q.overlaps r) then
      let r' := { r with waiting := false, accepted := s.ym.now }
      { s with cal := { s.cal with runs := s.cal.runs.map fun (q : CalRun) => if q.ref = r.ref then r' else q } }.calRunBegin r'
    else if r.waiting then s else s.calRunBegin r) s |>.calStarts

/-- A calibration of a running CAL_RUN has completed, or failed (R260). -/
def State.calRunMet (s : State) (k : CalKey) (ok : Bool) : State :=
  let met (r : CalRun) : CalRun := if !r.waiting && r.left.contains k then { r with left := r.left.erase k, busy := r.busy.filter fun x => x.1 != k, failed := r.failed || !ok } else r
  let s := { s with cal := { s.cal with runs := s.cal.runs.map met } }
  let s := (s.cal.runs.filter fun r => !r.waiting).foldl (fun (s : State) r => s.calRunBegin r) s
  let s := match k.path? with | some p => s.calPathDone p | none => s
  s.calRunSweep

end Sys2Proof.Machine
end

