-- ==== Sys2Proof/Machine/FamRadio.lean ====
section
/-! DEFINITION. Meanings of the radio paths and synthesisers (chapter 03). -/

namespace Sys2Proof.Machine

/-- A status command that selects resources by a bitmap (R425): a selection outside the range, or none where one is required, is
BAD_ARG. -/
def State.statusCmd (s : State) (c : Cmd) (op : BitVec 8) (bits : Nat) (f : Slot → State) : State :=
  s.hostCmd c op anyOp fun x => if x.select = 0 ∨ x.select.toNat ≥ 2 ^ bits then s.complete c.ref .badArg else f x

-- SYNTH_SET (R80 to R82)

/-- Paddocks that a SYNTH_SET names. -/
def synthNamed (p : BitVec 320) : List (Fin 8) := setBits (pf p 0 0 8)

/-- The synthesiser of a paddock that a SYNTH_SET names. -/
def synthTarget (p : BitVec 320) (k : Fin 8) : Fin 16 := synthOf k (pb p 1 4)

/-- BY_FREQ, SLOT and FREQ_KHZ. -/
def synthByFreq (p : BitVec 320) : Bool := pb p 2 7
def synthSlot (p : BitVec 320) : Fin 32 := (pf p 2 0 5).toFin
def synthFreq (p : BitVec 320) : BitVec 23 := pf p 4 0 23

/-- An LO frequency lies in the range of R73. -/
def loInRange (f : Nat) : Bool := 600000 ≤ f && f ≤ 7125000

/-- BAD_ARG of R81 and R52. -/
def synthBadArg (x : Slot) : Bool :=
  x.atBad || pf x.payload 0 0 8 == 0 || (synthByFreq x.payload && !loInRange (pf x.payload 4 0 32).toNat)

/-- The operation a RETUNE decides for a synthesiser at acceptance (R77, R82); none where no slot may take a calibration. -/
def State.retuneOp (s : State) (p : BitVec 320) (i : Fin 16) : Option SynthOp :=
  let y := s.radio.synths[i]
  if synthByFreq p then
    let f := synthFreq p
    match (List.finRange 32).find? fun j => y.presets[j].freq == f && s.presetUsable i j with
    | some j => some (.retune j.val)
    | none => if (y.calSlot f).isSome then some (.calibrate f false) else none
  else
    let j := synthSlot p
    if s.presetUsable i j then some (.retune j.val) else some (.calibrate y.presets[j].freq false)

/-- The operation of a CALIBRATE (R78, R82). -/
def State.calibrateOp (s : State) (p : BitVec 320) (i : Fin 16) : Option SynthOp :=
  let y := s.radio.synths[i]
  let f := if synthByFreq p then synthFreq p else y.presets[synthSlot p].freq
  if (y.calSlot f).isSome then some (.calibrate f false) else none

/-- R81: a synthesiser is retired, active at a cycle given every hop accepted, or of a paddock in use. -/
def State.synthConflict (s : State) (k : Fin 8) (i : Fin 16) (t : Nat) : Bool :=
  s.radio.synths[i].st == .retired || s.inUse k || s.servingAt k t == i

/-- RETUNE and CALIBRATE (R80 to R82): checks at acceptance and the group of SYNTH_RETUNE events. -/
def State.synthRetuneCmd (s : State) (c : Cmd) (x : Slot) (mk : State → BitVec 320 → Fin 16 → Option SynthOp) : State :=
  let p := x.payload
  let ks := synthNamed p
  let due := s.eventDue x .synthRetune
  if synthBadArg x then s.complete c.ref .badArg
  else if s.pwr.st ≠ .active then s.complete c.ref .notReady
  else if s.transitionBlocks (s.dueOf x) then s.complete c.ref .modeConflict
  else if !synthByFreq p ∧ ks.any (fun k => !s.radio.synths[synthTarget p k].presets[synthSlot p].valid) then s.complete c.ref .notReady
  else if ks.any fun k => s.radio.synths[synthTarget p k].st == .retired || s.inUse k || (!x.timed && s.servingAt k (s.dpOf due) == synthTarget p k) then s.complete c.ref .modeConflict
  else
    let ops := ks.filterMap fun k => (mk s p (synthTarget p k)).map fun o => (k, o)
    if ops.length < ks.length then s.complete c.ref .notReady
    else
      let evs := ops.map fun (a : Fin 8 × SynthOp) =>
        let i := synthTarget p a.1
        { kind := .synthRetune, due := due, res := { cls := 3, idx := i.val }, body := .retune i a.2 : NewEv }
      let done := if x.timed then due
        else s.airOf (ops.foldl (fun m a => max m (s.synthEnd (synthTarget p a.1) (s.dpOf due) a.2)) (s.dpOf due))
      s.presentCmd c.ref x.tag (some done) evs

/-- SYNTH_RETUNE (R80, R82). -/
def execSynthRetune (c : Cmd) (s : State) : R :=
  .next (s.hostCmd c 0x18 (opIs 1 0 4 1) fun x => s.synthRetuneCmd c x State.retuneOp)

/-- SYNTH_CALIBRATE (R80, R82). -/
def execSynthCalibrate (c : Cmd) (s : State) : R :=
  .next (s.hostCmd c 0x18 (opIs 1 0 4 3) fun x => s.synthRetuneCmd c x State.calibrateOp)

/-- SYNTH_HOP (R80, R81). -/
def execSynthHop (c : Cmd) (s : State) : R :=
  .next (s.hostCmd c 0x18 (opIs 1 0 4 2) fun x =>
    let p := x.payload
    let ks := synthNamed p
    let due := s.eventDue x .synthHop
    if synthBadArg x then s.complete c.ref .badArg
    else if s.pwr.st ≠ .active then s.complete c.ref .notReady
    else if ks.any fun k => s.radio.synths[synthTarget p k].st == .retired || s.inUse k || (!x.timed && s.servingAt k (s.dpOf due) == synthTarget p k) then s.complete c.ref .modeConflict
    else
      let evs := ks.map fun (k : Fin 8) => { kind := .synthHop, due := due, res := { cls := 2, idx := k.val }, body := .hop k (pb p 1 4) : NewEv }
      s.presentCmd c.ref x.tag (some (if x.timed then due else due + 787)) evs)

/-- SYNTH_POWER_OFF (R80, R81): at acceptance. -/
def execSynthPowerOff (c : Cmd) (s : State) : R :=
  .next (s.hostCmd c 0x18 (opIs 1 0 4 4) fun x =>
    let p := x.payload
    let ks := synthNamed p
    if synthBadArg x then s.complete c.ref .badArg
    else if ks.any fun k => s.radio.synths[synthTarget p k].st == .retired || s.inUse k || s.active k == synthTarget p k then s.complete c.ref .modeConflict
    else
      (ks.foldl (fun s k => s.modSynth (synthTarget p k) fun y =>
        { y with st := .off, op := none, jobs := [], aligned := false }) s).finish c.ref .ok)

/-- The slot a PIN or UNPIN names in a synthesiser. -/
def State.pinSlot (s : State) (p : BitVec 320) (i : Fin 16) : Option (Fin 32) :=
  if synthByFreq p then (List.finRange 32).find? fun j => s.radio.synths[i].presets[j].valid && s.radio.synths[i].presets[j].freq == synthFreq p
  else some (synthSlot p)

/-- PIN and UNPIN (R80, R81): PINNED of a preset at acceptance; the presets are held in the tack store (R76). -/
def State.pinCmd (s : State) (c : Cmd) (x : Slot) (on : Bool) : State :=
  let p := x.payload
  let ks := synthNamed p
  if synthBadArg x then s.complete c.ref .badArg
  else if ks.any fun k => (s.pinSlot p (synthTarget p k)).isNone then s.complete c.ref .notReady
  else if ks.any fun k => s.radio.synths[synthTarget p k].st == .retired then s.complete c.ref .modeConflict
  else
    let s := ks.foldl (fun s k =>
      match s.pinSlot p (synthTarget p k) with
      | some j => s.modSynth (synthTarget p k) fun y => { y with presets := vmod y.presets j fun q => { q with pinned := on } }
      | none => s) s
    ((s.tackPut 17 .presets).tackPut 19 .presets (some c.ref)).finish c.ref .ok

/-- SYNTH_PIN (R80). -/
def execSynthPin (c : Cmd) (s : State) : R := .next (s.hostCmd c 0x18 (opIs 1 0 4 5) fun x => s.pinCmd c x true)

/-- SYNTH_UNPIN (R80). -/
def execSynthUnpin (c : Cmd) (s : State) : R := .next (s.hostCmd c 0x18 (opIs 1 0 4 6) fun x => s.pinCmd c x false)

/-- A synthesiser status record (Table 3-10). -/
def State.synthRecord (s : State) (i : Fin 16) : Bytes × State :=
  let y := s.radio.synths[i]
  s.record 8 [.u 3, .v 1 (b2n (y.aligned && s.radio.epochValid)), .v 1 (b2n (s.active (synthPaddock i) == i)), .v 3 y.st.code.toNat,
    .v 5 (if y.noPreset || y.st == .off then 0 else y.slot), .u 2, .v 1 (b2n y.noPreset), .v 16 y.lockLoss.toNat, .v 23 y.freq.toNat, .u 9]

/-- A preset as SYNTH_STATUS returns it (Table 3-4). -/
def State.presetRecord (s : State) (q : Preset) : Bytes × State :=
  s.record 16 [.u 5, .v 1 (b2n q.phaseValid), .v 1 (b2n q.pinned), .v 1 (b2n q.valid), .u 4, .v 4 q.vcoBand.toNat, .v 8 q.capCode.toNat,
    .v 8 q.loopGain.toNat, .v 23 q.freq.toNat, .u 9, .v 16 q.kvco.toNat, .v 16 q.phase.toNat, .v 8 q.calTemp.toNat, .u 8, .v 16 q.useSeq.toNat]

/-- SYNTH_STATUS (R102). -/
def execSynthStatus (c : Cmd) (s : State) : R :=
  .next (s.statusCmd c 0x19 16 fun x =>
    let r := s.records (bitsOf 16 x.select.toNat) fun s n =>
      match toFin 16 n with
      | none => ([], s)
      | some i =>
        let a := s.synthRecord i
        if pb x.entry 4 1 then
          let b := a.2.records (List.range 32) fun s j => match toFin 32 j with | some j => s.presetRecord s.radio.synths[i].presets[j] | none => ([], s)
          (a.1 ++ b.1, b.2)
        else a
    r.2.respond c x r.1)

-- PATH_SET (R96)

/-- Paths that a PATH_SET names. -/
def pathNamed (p : BitVec 320) : List (Fin 64) := setBits (pf p 0 0 64)

/-- The target of a PATH_SET STATE. -/
def pathTarget (p : BitVec 320) : PState :=
  match (pf p 9 0 3).toNat with | 0 => .off | 1 => .sleep | 2 => .standby | 3 => .rx | _ => .tx

/-- The end of a run that the decided intervals of the same state prolong (R97). -/
def runEnd (st : PState) (l : List PlanItem) (e : Nat) : Nat :=
  l.foldl (fun (e : Nat) (i : PlanItem) => match i.fin with | some f => if i.need = st ∧ i.due ≤ e then max e f else e | none => e) e

/-- A path-state event on its path: the cycle at which its transition begins, where it ends, and the state that it finds. Inside a run it
replaces the return that would follow (R97), and so begins when the run ends. -/
def State.pathStateRun (s : State) (p : Fin 64) (t : PState) (due rel : Nat) : Nat × Nat × PathSim :=
  let m := (s.pathBefore p due).return s.radio.paths[p] { due := due, rel := rel, need := t, fin := none, sure := true }
  let b := max (max due m.free) (match m.run with | some r => runEnd m.st (s.plan p) r.fin | none => due)
  (b, b + chainTime m.st t, m)

/-- PATH_SET_STATE (R93, R96, R392, R444, R112): one PATH_STATE event per named path. -/
def execPathSetState (c : Cmd) (s : State) : R :=
  .next (s.hostCmd c 0x1A (opIs 8 0 4 1) fun x =>
    let ps := pathNamed x.payload
    let t := pathTarget x.payload
    let live : Bool := t == .rx || t == .tx
    let due := s.eventDue x .pathState
    if x.atBad then s.complete c.ref .badArg
    else if ps.any fun p => !s.inActive p then s.complete c.ref .modeConflict
    else if s.pwr.st = .doze then s.complete c.ref .notReady
    else if live ∧ s.trafficGate.isSome then s.complete c.ref (s.trafficGate.getD .notReady)
    else if live ∧ s.conv.run.isSome then s.complete c.ref .modeConflict
    else if t = .tx ∧ ps.any (fun p => !s.interlock p) then s.complete c.ref .notReady
    else if ps.isEmpty then s.finish c.ref .ok
    else
      let evs := ps.map fun (p : Fin 64) => { kind := .pathState, due := due, res := { cls := 1, idx := p.val }, body := .pathState p t : NewEv }
      let done := if x.timed then due
        else s.airOf (ps.foldl (fun m p => max m (s.pathStateRun p t (s.dpOf due) s.dp).2.1) (s.dpOf due))
      s.presentCmd c.ref x.tag (some done) evs)

/-- The first symbol boundary at or after a tick on the 30 kHz grid, or the 15 kHz grid (Table 2-3). -/
def symbolCeil (scs30 : Bool) (t : Tick) : Tick :=
  let slot := if scs30 then halfSubframe else subframe
  let base := t / slot * slot
  let start (l : Nat) : Int := if scs30 then (if l = 0 then 0 else 512 + 35072 * l) else 70144 * l + 512 * ((if l ≥ 1 then 1 else 0) + (if l ≥ 8 then 1 else 0))
  match (List.range 14).find? fun l => t ≤ base + start l with
  | some l => base + start l
  | none => base + slot

/-- The symbol grid of a path: 15 kHz if any carrier that it serves uses 15 kHz (R236). -/
def State.grid30 (s : State) (p : Fin 64) : Bool :=
  !((List.finRange 8).any fun c => s.live c && (s.antennas c).contains p && (match s.ofdm.carriers[c].cfg with | some k => !k.scs30 | none => false))

/-- The first symbol boundary of every named path at or after a tick (R71): that of the coarser grid that any of them has. -/
def State.pathsCeil (s : State) (ps : List (Fin 64)) (t : Tick) : Tick := symbolCeil (ps.all s.grid30) t

/-- CONFIG events of a PATH_SET, one per named path (R71, R96). -/
def State.pathConfig (s : State) (c : Cmd) (x : Slot) (mk : BitVec 64 → CfgChange) : State :=
  let ps := pathNamed x.payload
  let due := s.eventDue x .config
  if x.atBad then s.complete c.ref .badArg
  else if ps.any fun p => !s.inActive p then s.complete c.ref .modeConflict
  else if s.pwr.st = .doze then s.complete c.ref .notReady
  else if ps.isEmpty then s.finish c.ref .ok
  else s.presentCmd c.ref x.tag (some (s.pathsCeil ps due)) (ps.map fun (p : Fin 64) =>
    { kind := .config, due := due, res := { cls := 1, idx := p.val }, body := .config (mk (1 <<< p.val)) : NewEv })

/-- PATH_SET_RETURN (R96). -/
def execPathSetReturn (c : Cmd) (s : State) : R :=
  .next (s.hostCmd c 0x1A (opIs 8 0 4 2) fun x =>
    let r : RetTx := match (pf x.payload 10 0 2).toNat with | 0 => .standby | 1 => .sleep | _ => .rx
    s.pathConfig c x fun m => .pathReturn m r (pb x.payload 10 2))

/-- PATH_SET_LEVELS (R71, R96); an RX_GAIN of 31 and a TX_ATTEN above 127 lie outside Table 3-1, and the level then set is free. -/
def execPathSetLevels (c : Cmd) (s : State) : R :=
  .next (s.hostCmd c 0x1A (opIs 8 0 4 3) fun x =>
    let g : BitVec 5 := pf x.payload 11 0 5
    let r := if g = 31 then s.takeFree 5 else (g, s)
    let rx := if pb x.payload 13 0 then some r.1 else none
    let a := if pb x.payload 12 7 then r.2.takeFree 7 else (pf x.payload 12 0 7, r.2)
    let tx : Option (BitVec 7) := if pb x.payload 13 1 then some a.1 else none
    a.2.pathConfig c x fun m => .pathLevels m rx tx)

/-- A path status record (Tables 3-9 and 15-11). -/
def State.pathRecord (s : State) (detail : Bool) (p : Fin 64) : Bytes × State :=
  let x := s.radio.paths[p]
  let d := s.lin.paths[p]
  let tgt : Fld := match x.transit with | some t => .v 3 t.target.code.toNat | none => .u 3
  let st := match x.transit with | some t => t.src | none => x.st
  let ret : Nat := match x.retTx with | .standby => 0 | .sleep => 1 | .rx => 2
  let base : List Fld := [.u 1, .v 1 (b2n (s.pathMuted p)), .v 1 (b2n (s.interlock p)), .v 1 (b2n (x.retired || x.lent)), .v 1 (b2n x.transit.isSome),
    .v 3 st.code.toNat, .u 2, .v 1 (b2n x.retRxSleep), .v 2 ret, tgt, .v 5 x.rxGain.toNat, .u 3, .v 7 (x.txAtten.toNat / 2), .v 1 (b2n d.cap),
    .v 32 x.transitions.toNat]
  if detail then
    s.record 16 (base ++ [.v 8 x.txAtten.toNat, .v 8 d.attenNow.toNat, .u 7, .v 1 (b2n s.radio.activeB[paddockOf p]), .u 40])
  else s.record 8 base

/-- PATH_STATUS (R102, R103). -/
def execPathStatus (c : Cmd) (s : State) : R :=
  .next (s.statusCmd c 0x1B 64 fun x =>
    let r := s.records (bitsOf 64 x.select.toNat) fun s n => match toFin 64 n with | some p => s.pathRecord (pb x.entry 4 1) p | none => ([], s)
    r.2.respond c x r.1)

-- Releases (R64, R66)

/-- R81: at a group's earliest release a member that names the active synthesiser, or a paddock in use, makes the command complete
with MODE_CONFLICT without a record. -/
def State.groupConflict (s : State) (g : Nat) : Bool :=
  s.ym.events.any fun e => e.group == g &&
    match e.body with
    | .retune i _ => s.synthConflict (synthPaddock i) i (s.dpOf e.due)
    | .hop k b => (s.removeEvent e.id).synthConflict k (synthOf k b) (s.dpOf e.due)
    | _ => false

/-- Release of a synthesiser event (R66, R81). -/
def State.synthRelease (s : State) (id : Nat) (k : Kind) (chk : State → Event → Option (Cause × Res)) (eff : State → Event → State) : State :=
  match s.releasable id k with
  | none => s
  | some e =>
    match e.src with
    | .cmd r _ => if !e.judged && s.groupConflict e.group then (s.withdrawGroup e.group).complete r .modeConflict else s.release id k chk eff
    | _ => s.release id k chk eff

/-- R100: an operation due inside a guard period that a synthesiser was given before the operation was accepted is dropped. -/
def State.retuneCheck (s : State) (e : Event) : Option (Cause × Res) :=
  match e.body with
  | .retune i _ =>
    let slot := s.cal.slots.any fun x => x.key.cls == 3 && x.key.idx == i.val && decide (x.ev ≤ e.id) && decide (s.dpOf e.due < x.fin)
    if slot then some (.synthCalibrating, e.res) else none
  | _ => none

/-- SYNTH_RETUNE_RELEASE (R75, R80, R100): the operation begins at the due time. -/
def execSynthRetuneRelease (ev : Nat) (s : State) : R :=
  .next (s.synthRelease ev .synthRetune State.retuneCheck fun s e =>
    match e.body with | .retune i o => s.synthLater i (s.dpOf e.due) o | _ => s)

/-- The check of a hop (R81): the synthesiser switched to is LOCKED at the due time. -/
def State.hopCheck (s : State) (e : Event) : Option (Cause × Res) :=
  match e.body with
  | .hop k b =>
    match (s.removeEvent e.id).synthAt (synthOf k b) (s.dpOf e.due) with
    | .locked => none
    | .calibrating => some (.synthCalibrating, e.res)
    | _ => some (.synthSettling, e.res)
  | _ => none

/-- SYNTH_HOP_RELEASE (R75, R81): the paddock switches at the due time. -/
def execSynthHopRelease (ev : Nat) (s : State) : R :=
  .next (s.synthRelease ev .synthHop State.hopCheck fun s e =>
    match e.body with | .hop k b => s.at_ (s.dpOf e.due) (.hop k b) | _ => s)

/-- The hop itself: the paddock switches now; the synthesiser switched to settles (R75, R95). One that has been retired since the release
is not switched to (R87). -/
def State.hopNow (s : State) (k : Fin 8) (b : Bool) : State :=
  let i := synthOf k b
  if s.radio.synths[i].st = .retired then s
  else
  let s := { s with radio := { s.radio with activeB := vset s.radio.activeB k b } }
  if s.radio.synths[i].st = .locked then s.synthBegin i .hop else s

/-- The check of a path-state event (R89 to R93): the interlock for TX and OBS, nothing evaluated earlier that needs another state while
its transition runs, the synthesiser LOCKED at the end. -/
def State.pathStateCheck (s : State) (e : Event) : Option (Cause × Res) :=
  match e.body with
  | .pathState p t =>
    let s' := s.removeEvent e.id
    let r := s'.pathStateRun p t (s.dpOf e.due) (s.dpOf e.release)
    let bad : Option (Cause × Res) := some (.pathState, { cls := 1, idx := p.val })
    if s.radio.paths[p].retired then bad
    else if (t = .tx ∨ t = .obs) ∧ !s.interlock p then bad
    else if r.2.2.st == .obs && !e.src.isInternal then bad
    else if (s'.plan p).any fun (i : PlanItem) => s.dpOf e.due ≤ i.due && i.due < r.2.1 && i.fin.isSome && i.need != t && i.need != r.2.2.st then bad
    else if r.2.2.st ≠ t ∧ (t = .standby ∨ t = .rx ∨ t = .tx ∨ t = .obs) then
      match s.synthAt (s.servingAt (paddockOf p) r.2.1) r.2.1 with
      | .locked => none
      | .calibrating => some (.synthCalibrating, { cls := 1, idx := p.val })
      | _ => some (.synthSettling, { cls := 1, idx := p.val })
    else none
  | _ => none

/-- PATH_STATE_RELEASE (R89 to R93, R97). -/
def execPathStateRelease (ev : Nat) (s : State) : R :=
  .next (s.release ev .pathState State.pathStateCheck fun s e =>
    match e.body with | .pathState p t => s.pathLater p (s.pathStateRun p t (s.dpOf e.due) (s.dpOf e.release)).1 t none | _ => s)

-- What then happens by itself

/-- PATH_TRANSITION_END (R89, R92): the link ends and the next link, or the next accepted change that is due, begins. -/
def execPathTransitionEnd (p : Fin 64) (s : State) : R :=
  .next (match s.radio.paths[p].transit with
    | none => s
    | some t =>
      if s.dp < t.fin then s
      else
        let s := s.modPath p fun x => { x with st := t.dst, transit := none, transitions := satInc x.transitions }
        if t.dst ≠ t.target then s.pathBegin p t.target t.hold
        else
          let s := match t.hold with
            | some f => s.modPath p fun x => { x with run := some { isTx := t.target == PState.tx, fin := f } }
            | none => s
          s.pathStart p)

/-- R97: an event accepted for the path keeps it from its return, or replaces the return (DESIGN CHOICE, log 83: PATH_STATE and traffic
events are events for the path; mutes, settings and guard periods are not). -/
def State.keepsPath (s : State) (p : Fin 64) (runEnd retEnd : Nat) : Bool :=
  s.ym.events.any fun e =>
    let needs : Bool := match e.body with | .pathState q _ => q == p | _ => (s.needs e p).isSome
    needs && (s.dpOf e.release < retEnd || s.dpOf e.due ≤ runEnd + 4096)

/-- AUTOMATIC_RETURN (R97): at the tick after a run ends the return transition begins; where the LO is not LOCKED at its end (R89) the path
stays in its state until the return is possible or an event takes it. -/
def execAutomaticReturn (p : Fin 64) (s : State) : R :=
  .next (
    let x := s.radio.paths[p]
    match x.run with
    | none => s
    | some r =>
      if x.transit.isSome ∨ s.dp < r.fin then s
      else
        let t := x.ret r.isTx
        let fin := s.dp + chainTime x.st t
        if t = x.st ∨ x.retired ∨ x.jobs ≠ [] ∨ s.keepsPath p r.fin fin then s.modPath p fun x => { x with run := none }
        else if s.mayEnter p t fin then (s.modPath p fun x => { x with run := none }).pathBegin p t none
        else s)

/-- The common phase correction of a paddock's active channel returns to 0 when a retune or hop puts PHASE in force (R263). -/
def State.phaseTaken (s : State) (i : Fin 16) : State :=
  let y := s.radio.synths[i]
  let k : CalKey := { id := 9, cls := 2, idx := (synthPaddock i).val }
  match toFin 32 y.slot, s.calVal? k with
  | some j, some v => if !y.noPreset && y.presets[j].phaseValid && s.active (synthPaddock i) == i then s.calWhole k (v.now.map fun _ => 0) else s
  | _, _ => s

/-- The phase offset in force when an operation ends (R79, R83): the PHASE of the preset in use where it is valid; a retune from another
has none. -/
def Synth.phaseAfter (y : Synth) (o : SynthOp) : BitVec 16 :=
  match o, toFin 32 y.slot with
  | .realign, _ | _, none => y.phase
  | _, some j =>
    if !y.noPreset && y.presets[j].phaseValid then y.presets[j].phase
    else match o with | .hop => y.phase | _ => 0

/-- SYNTH_OPERATION_END (R75, R79, R83, R85): LOCKED, aligned to a valid epoch; the next decided operation that is due begins. -/
def execSynthOperationEnd (i : Fin 16) (s : State) : R :=
  .next (
    let y := s.radio.synths[i]
    match y.op with
    | none => s
    | some (.calibrate _ _) => s
    | some o =>
      if s.dp < y.opEnd then s
      else
        let s := s.modSynth i fun y => { y with st := .locked, op := none, aligned := s.radio.epochValid, phase := y.phaseAfter o }
        let s := match o with | .realign => s | _ => s.phaseTaken i
        s.synthStart i)

/-- SYNTH_CALIBRATION_END (R76, R78): the measured result goes to the slot that R78 chooses, PHASE_VALID clear (Table 9-1), and
serves; with every slot PINNED, or for the device's own use, it is stored nowhere. -/
def execSynthCalibrationEnd (i : Fin 16) (m : SynthMeas) (s : State) : R :=
  .next (
    let y := s.radio.synths[i]
    match y.op with
    | some (.calibrate f ns) =>
      if s.dp < y.opEnd then s
      else
        let slot := if ns then none else y.calSlot f
        let s := match slot with
          | some j =>
            let s := s.modSynth i fun y =>
              { y with st := .locked, op := none, aligned := s.radio.epochValid, phase := 0, slot := j.val, noPreset := false, useCount := y.useCount + 1
                       presets := vmod y.presets j fun q =>
                         { q with valid := true, phaseValid := false, vcoBand := m.vcoBand, capCode := m.capCode, loopGain := m.loopGain
                                  freq := f, kvco := m.kvco, calTemp := m.temp, useSeq := y.useCount + 1 } }
            (s.tackPut 17 .presets).tackPut 19 .presets
          | none => s.modSynth i fun y => { y with st := .locked, op := none, aligned := s.radio.epochValid, phase := 0, noPreset := true }
        ((s.calDone { id := 3, cls := 3, idx := i.val }).synthStart i).calRunMet { id := 3, cls := 3, idx := i.val } true
    | _ => s)

/-- The recovery of a synthesiser that lost lock (R86): a retune from its current preset, or, where that is not usable, a full calibration
(R77; DEDUCED, log 77: it shows CALIBRATING). -/
def State.recoverSynth (s : State) (i : Fin 16) : State :=
  let y := s.radio.synths[i]
  let usable : Bool := match toFin 32 y.slot with | some j => !y.noPreset && s.presetUsable i j | none => false
  s.synthBegin i (if usable then .recover y.slot else s.tuneOp i y.freq)

/-- SYNTH_LOCK_LOSS (R86, R87, R231, R269): UNLOCKED, a clock-class fault and the recovery retune; a second loss within 10 s
retires the synthesiser. -/
def execSynthLockLoss (i : Fin 16) (s : State) : R :=
  .next (
    let y := s.radio.synths[i]
    if y.st ≠ .locked then s
    else
      let twice : Bool := match y.lastLoss with | some t => s.dp ≤ t + 9830400000 | none => false
      let s := s.modSynth i fun y => { y with st := .unlocked, aligned := false, lockLoss := satInc y.lockLoss, lastLoss := some s.dp }
      let k := synthPaddock i
      let s := if s.active k = i then (paddockPaths k).foldl (fun s p => s.capAbort p) s else s
      let lost := s.calActive.filter fun x => (x.cls == 3 && x.idx == i.val) || (s.active k == i && x.cls == 1 && x.idx / 8 == k.val) || (s.active k == i && x.cls == 2 && x.idx == k.val)
      let s := lost.foldl (fun s x => s.calAborted x) s
      let s := s.raiseFault .loUnlock { cls := 3, idx := i.val }
      if twice then s.retireSynth i FCode.loUnlock.code.toNat
      else if s.radio.synths[i].st = .retired then s
      else s.recoverSynth i)

end Sys2Proof.Machine
end

