-- ==== Sys2Proof/Machine/FamYard.lean ====
section
/-! DEFINITION. Meanings of air time and the Yardmaster (chapter 02). -/

namespace Sys2Proof.Machine

/-- The selected time base TB_S (R352). -/
def State.tbS (s : State) : Fin 2 := if s.time.sel then 1 else 0

/-- AIR_RELEASE (R56, R352). -/
def execAirRelease (c : Cmd) (s : State) : R :=
  .next (s.hostCmd c 0x11 anyOp fun _ =>
    match s.ym.air with
    | .released => s.complete c.ref .ok
    | .running =>
      if s.tbUsable s.tbS then { s with ym := { s.ym with air := .released } }.complete c.ref .ok else s.complete c.ref .notReady
    | .noTime => s.complete c.ref .notReady)

/-- Extra time that a PHASE_SYNC of D0 needs in ARRAY to reach every member (R323). -/
def State.phaseReach (s : State) : Int :=
  if s.mode.cur = .array then (match s.hit.cfg with | some h => 1180 * ((h.ndev : Int) - 1) | none => 0) else 0

/-- PHASE_SYNC (R60, R61, R83, R323): a grid point of 32 ticks; in ARRAY only D0 accepts one, and forwards it. -/
def execPhaseSync (c : Cmd) (s : State) : R :=
  .next (s.hostCmd c 0x12 anyOp fun x =>
    let reach := s.phaseReach
    let due := match s.dueOf x with | some d => d | none => ceilTo 32 (s.ym.now + 2048 + reach)
    let member : Bool := s.mode.cur == .array && (match s.hit.cfg with | some h => h.dev != 0 | none => false)
    let res : Res := { cls := 9, idx := 0 }
    if x.atBad ∨ due % 32 ≠ 0 then s.complete c.ref .badArg
    else if member then s.complete c.ref .modeConflict
    else if s.counting ∧ due - 2048 - reach < s.ym.now ∧ s.ym.now ≤ due - 2048 then
      (s.lateRec (.cmd c.ref x.tag) .phaseSync due res .arrival (missOf (s.ym.now - (due - 2048 - reach)))).complete c.ref .late
    else s.presentCmd c.ref x.tag (some due) [{ kind := .phaseSync, due := due, res := res, body := .phaseSync }] fun s =>
      match s.mode.cur, s.hit.cfg with
      | .array, some h => s.emit (.fhSend h.downPort.toNat "PHASE_SYNC" (beBytes 8 (airWord due).toNat))
      | _, _ => s)

/-- PHASE_SYNC_RELEASE (R83, R85): the reset acts at the due time. -/
def execPhaseSyncRelease (ev : Nat) (s : State) : R :=
  .next (s.release ev .phaseSync (fun _ _ => none) fun s e => s.at_ (s.dpOf e.due) .phaseSync)

/-- The phase reset itself (R85): LOCKED synthesisers not aligned to a valid epoch re-align; the others take the epoch at the end
of their interval or at their next retune. -/
def State.phaseSyncNow (s : State) : State :=
  let was : Bool := s.radio.epochValid
  let s := { s with radio := { s.radio with epochValid := true, epoch := s.ym.now } }
  (List.finRange 16).foldl (fun (s : State) i =>
    let y : Synth := s.radio.synths[i]
    if y.st == .locked && !(was && y.aligned) then s.synthBegin i .realign else s) s

/-- YM_AIR_OFFSET_WRITE (R57). -/
def execYmAirOffsetWrite (c : Cmd) (s : State) : R := .next (s.writeNamed c 0x1004 fun _ _ => true)

/-- YM_PEND_HWM_READ (R15). -/
def execYmPendHwmRead (c : Cmd) (s : State) : R := .next (s.readNamed c 0x1008)

/-- YM_LATE_COUNT_READ (R15). -/
def execYmLateCountRead (c : Cmd) (s : State) : R := .next (s.readNamed c 0x100C)

/-- YM_FULL_COUNT_READ (R15). -/
def execYmFullCountRead (c : Cmd) (s : State) : R := .next (s.readNamed c 0x1010)

end Sys2Proof.Machine
end

