-- ==== Sys2Proof/Machine/Mutes.lean ====
section
/-! DEFINITION. Automatic muting in DORMANT (R28, R407, R408): MUTE events of the mode control around the symbols that are needed. -/

namespace Sys2Proof.Machine

/-- Lead of the unmute and lag of the mute of a chain (Table 14-8). -/
def tOn (tx : Bool) : Int := if tx then 1180 else 984
def tOff (tx : Bool) : Int := if tx then 590 else 394

/-- The MUTE event of one path. -/
def muteEvent (p : Fin 64) (tx rx on cmd : Bool) (due : Tick) : NewEv :=
  { kind := .mute, due := due, res := { cls := 1, idx := p.val }, body := .mute p tx rx on cmd }

/-- Planned changes of a chain's commanded or automatic mute: cycle of the due time, muted or not, and the event's number while it waits in the table. -/
def State.mutePlan (s : State) (p : Fin 64) (tx cmd : Bool) : List (Nat × (Bool × Option Nat)) :=
  let ts := s.ym.timed.filterMap fun (x : Timed) =>
    match x.act with
    | .mute q t r on c => if q = p ∧ c = cmd ∧ (if tx then t else r) = true then some (if tx then x.due else x.due - p.val % 8, (on, none)) else none
    | _ => none
  let es := s.ym.events.filterMap fun (e : Event) =>
    match e.body with
    | .mute q t r on c => if q = p ∧ c = cmd ∧ (if tx then t else r) = true then some (s.dpOf e.due, (on, some e.id)) else none
    | _ => none
  sortKey (ts ++ es)

/-- A chain stays unmuted over cycles a to b, as planned: neither mute is in force at `a`, none begins before `b`, no trip holds (R230). -/
def State.unmutedOver (s : State) (p : Fin 64) (tx : Bool) (a b : Nat) : Bool :=
  let x := s.radio.paths[p]
  let quiet (cmd now : Bool) : Bool :=
    let l := s.mutePlan p tx cmd
    !(l.foldl (fun (m : Bool) y => if y.1 ≤ a then y.2.1 else m) now) && l.all fun y => !y.2.1 || decide (y.1 ≤ a ∨ b ≤ y.1)
  quiet true (if tx then x.cmdMuteTx else x.cmdMuteRx) && quiet false (if tx then x.symMuteTx else x.symMuteRx) && !(tx && s.tripOn p)

/-- The automatic mute of a chain at a cycle, as planned, and the change that brought it. -/
def State.muteAt (s : State) (p : Fin 64) (tx : Bool) (c : Nat) : Bool × Option (Nat × Option Nat) :=
  let x := s.radio.paths[p]
  (s.mutePlan p tx false).foldl (fun (a : Bool × Option (Nat × Option Nat)) y => if y.1 ≤ c then (y.2.1, some (y.1, y.2.2)) else a)
    (if tx then x.symMuteTx else x.symMuteRx, none)

/-- Present one automatic mute or unmute. -/
def State.autoMute (s : State) (p : Fin 64) (tx on : Bool) (due : Tick) : State :=
  (s.present (.internal .modeControl) none [muteEvent p tx (!tx) on false due]).2

/-- The unmute before a needed interval that begins at `a`: a mute planned less than 4,096 ticks before it is taken back. -/
def State.unmuteFor (s : State) (p : Fin 64) (tx : Bool) (a : Tick) : State :=
  let u := a - tOn tx
  match s.muteAt p tx (s.dpOf u) with
  | (false, _) => s
  | (true, some (c, some id)) => if s.airOf c + 4096 > u then s.removeEvent id else s.autoMute p tx false u
  | (true, _) => s.autoMute p tx false u

/-- The mute after a needed interval that ends at `b`: none where a later needed interval keeps the chain unmuted; a muted interval
shorter than 4,096 ticks is left out with the unmute that would have ended it. -/
def State.muteAfter (s : State) (p : Fin 64) (tx : Bool) (b : Tick) : State :=
  let m := b + tOff tx
  match (s.mutePlan p tx false).find? fun y => s.dpOf m ≤ y.1 with
  | some (_, (true, _)) => s
  | some (c, (false, some id)) => if s.airOf c - m < 4096 then s.removeEvent id else s.autoMute p tx true m
  | _ => s.autoMute p tx true m

/-- A needed interval of a path's chain in DORMANT. -/
def State.dormantNeed (s : State) (p : Fin 64) (tx : Bool) (a b : Tick) : State :=
  if s.mode.cur = .dormant then (s.unmuteFor p tx a).muteAfter p tx b else s

/-- The start of DORMANT: every chain is muted but for the runs in progress and the traffic already released. -/
def State.dormantEnter (s : State) : State :=
  s.activeSet.foldl (fun (s : State) p =>
    let run (tx : Bool) : Option Nat := match s.radio.paths[p].run with | some r => if r.isTx = tx then some r.fin else none | none => none
    let jobs := s.radio.paths[p].jobs
    let s := s.modPath p fun x => { x with symMuteTx := (run true).isNone, symMuteRx := (run false).isNone }
    let s := match run true with | some f => s.muteAfter p true (s.airOf f) | none => s
    let s := match run false with | some f => s.muteAfter p false (s.airOf f) | none => s
    jobs.foldl (fun (s : State) (j : PathJob) =>
      match j.hold with
      | some f => s.dormantNeed p (decide (j.target = .tx)) (s.airOf j.due) (s.airOf f)
      | none => s) s) s

/-- The end of DORMANT: automatic mutes and the changes planned for them are withdrawn. -/
def State.dormantLeave (s : State) : State :=
  let keep (b : EvBody) : Bool := match b with | .mute _ _ _ _ false => false | _ => true
  let act (a : Act) : Bool := match a with | .mute _ _ _ _ false => false | _ => true
  { s with ym := { s.ym with events := s.ym.events.filter fun e => keep e.body, timed := s.ym.timed.filter fun t => act t.act }
           radio := { s.radio with paths := s.radio.paths.map fun (x : Path) => { x with symMuteTx := false, symMuteRx := false } } }

end Sys2Proof.Machine
end

