-- ==== Sys2Proof/Machine/FamMode.lean ====
section
/-! DEFINITION. Meanings of the mode control (chapter 01). -/

namespace Sys2Proof.Machine

/-- The transition that a MODE_SET asks for, its start point still to be set. -/
def Slot.modeAsk (x : Slot) (ref : CmdRef) (start : Tick) : Option Transition :=
  let p := x.payload
  (Mode.ofCode (pf p 0 0 4)).map fun (t : Mode) =>
    { ref := ref, target := t, parent := (Mode.ofCode (pf p 2 0 4)).getD .bringup, drop := pb p 1 1, autoCal := pb p 1 0
      bandA := pf p 4 0 32, bandB := pf p 8 0 32, start := start, started := false, seamless := false, calFree := 0, endDp := 0, resume := start
      fromMode := t, removed := 0, faulted := false, redo := [], reseed := 0 }

/-- BAD_ARG of R32. -/
def Transition.badArg (t : Transition) : Bool :=
  (t.bandB != 0 && t.target != .split) || (t.target == .dormant && t.parent != .full && t.parent != .reach)
  || (t.bandA != 0 && !loInRange t.bandA.toNat) || (t.bandB != 0 && !loInRange t.bandB.toNat)

/-- The grid of start points (R33). -/
def State.startGrid (s : State) (t : Mode) : Int :=
  if t = .dormant ∨ s.mode.cur = .dormant then
    (if (List.finRange 8).any fun c => match s.ofdm.carriers[c].cfg with | some k => !k.scs30 | none => false then subframe else halfSubframe)
  else frameTicks

/-- A march that destroys contents is running (R534). -/
def State.destroyingMarch (s : State) : Bool := s.mem.marches.any fun m => m.destroy && !m.waiting

/-- What makes a MODE_SET conflict (R46, R112, R258, R444, R534). -/
def State.modeBusy (s : State) : Bool :=
  s.host.top.safe || s.inTransition || s.conv.run.isSome || !s.cal.runs.isEmpty || s.destroyingMarch

/-- MODE_SET (R32 to R34, R46, R112, R258, R444, R534): checks at acceptance and the MODE_CHANGE event of the start point. -/
def execModeSet (c : Cmd) (s : State) : R :=
  .next (s.hostCmd c 0x10 anyOp fun x =>
    match x.modeAsk c.ref 0 with
    | none => s.complete c.ref .badArg
    | some t =>
      let grid := s.startGrid t.target
      let start := match s.dueOf x with | some d => d | none => ceilTo grid (s.ym.now + 491520)
      let f := if t.autoCal then s.takeFree 64 else (0, s)
      let t := { t with start := start, resume := start, calFree := f.1.toNat }
      if x.atBad || t.badArg || start % grid != 0 then s.complete c.ref .badArg
      else if t.autoCal && (t.target == .dormant || s.mode.cur == .dormant) then s.complete c.ref .badArg
      else if s.modeBusy then s.complete c.ref .modeConflict
      else if s.pwr.st != .active || !s.counting then s.complete c.ref .notReady
      else if !(s.modePlan t).allowed then s.complete c.ref .modeConflict
      else f.2.presentCmd c.ref x.tag none [{ kind := .modeChange, due := start, res := { cls := 9, idx := 0 }, body := .modeChange }] fun (s : State) =>
        { s with mode := { s.mode with trans := some (s.modeFix t) } })

/-- R282: into BRINGUP one 25GbE port of role FH stays enabled. -/
def State.bringupPorts (s : State) : State :=
  let keep := (List.finRange 8).find? fun n => s.fh.ports[n].cfg.role == 0 && s.fh.ports[n].cfg.speed == 1
  (List.finRange 8).foldl (fun s n =>
    if keep = some n ∨ s.fh.ports[n].st = .disabled then s
    else (s.modPort n fun p => { p with st := .disabled, cfg := { p.cfg with speed := 0 } }).postLink n 6 0) s

/-- The transition as it runs: its end, the boundary at which traffic resumes, the carriers it removes (R36, R37). -/
def State.modeBegun (s : State) (t : Transition) (p : ModePlan) (out : List (Fin 8)) : Transition :=
  { s.modeFix t with
           started := true, fromMode := s.mode.cur, removed := BitVec.ofNat 8 (out.foldl (fun (a : Nat) (c : Fin 8) => a + 2 ^ c.val) 0)
           redo := p.redo, reseed := p.reseed }

/-- The mode of a transition takes force at its start point (R34). -/
def State.modeTake (s : State) (t : Transition) (p : ModePlan) : State :=
  let b := s.newBands t
  { s with mode := { cur := t.target, parent := if t.target == .dormant then t.parent else s.mode.parent, prof := p.prof, bias := p.prof.rxBias, plo := p.plo
                     bandA := b.1, bandB := if t.target == .split then b.2 else s.mode.bandB, trans := some t } }

/-- R44: traffic of every configured carrier stops at the start point: until the resume boundary, or, into CALIBRATE, for good. -/
def State.modeOutage (s : State) (t : Transition) : State :=
  (List.finRange 8).foldl (fun (s : State) c =>
    if s.ofdm.carriers[c].cfg.isNone then s
    else if t.target == .calibrate then
      ((s.dropOutage c t.start none).dropData c t.start none).modCarrier c fun x => { x with suspended := true }
    else if t.seamless then s
    else ((s.dropOutage c t.start (some t.resume)).dropData c t.start (some t.resume)).modCarrier c
      fun x => { x with suspended := false, serveFrom := t.resume }) s

/-- The smallest CLOSE of a window in µs; in ARRAY windows 0, 1, 2 and 4 are raised by 1.2 µs for each hop (Table 10-15, R325). -/
def closeMin (i hops : Nat) : Nat :=
  let up := (12 * hops + 9) / 10
  match i with | 0 | 1 => 40 + up | 2 | 4 => 5 + up | 5 => 21 | _ => 0

/-- Hops of the chain while the device runs in ARRAY. -/
def State.hops (s : State) : Nat := if s.mode.cur = .array then (bitsOf 8 s.hit.members.toNat).length - 1 else 0

/-- The array is left, or its alignment has still to be measured (R324, R335). -/
def Hitch.unaligned (h : Hitch) : Hitch := { h with aligned := false, kappaDev := (0, 0), deltaDev := 0, devTo := ((0, 0), 0), devWait := none, measD0 := [] }
def Hitch.leave (h : Hitch) : Hitch := { h.unaligned with members := 0, cutOff := false }

/-- Membership of the array at the start point (R318, R338), and the windows raised to their minima (R325). -/
def State.modeArray (s : State) (t : Transition) : State :=
  if t.target == .array then
    let n := match s.hit.cfg with | some h => h.ndev - 1 | none => 0
    let raise (i : Fin 6) (w : BitVec 16 × BitVec 16) : BitVec 16 × BitVec 16 := if w.2.toNat < closeMin i.val n then (w.1, BitVec.ofNat 16 (closeMin i.val n)) else w
    { s with fh := { s.fh with windows := Vector.ofFn fun i : Fin 6 => raise i s.fh.windows[i] }
             hit := { s.hit.unaligned with members := match s.hit.cfg with | some h => BitVec.ofNat 8 (2 ^ h.ndev - 1) | none => 0 } }
  else if t.fromMode == .array then { s with hit := s.hit.leave } else s

/-- Retunes, path preparation and the phase reset of a transition with an outage (R82, R85, R105). -/
def State.modeTune (s : State) (p : ModePlan) : State :=
  let s := s.calActive.foldl (fun (s : State) x => s.calAborted x) s
  let s := p.changed.foldl (fun (s : State) (k : Fin 8) =>
    if p.plo[k] = 0 then s else s.synthBegin (s.active k) (s.tuneOp (s.active k) (p.plo[k].extractLsb' 0 23))) s
  let s := (List.finRange 8).foldl (fun (s : State) c => if s.live c then s.prepareCarrier c else s) s
  (s.present (.internal .modeControl) none
    [{ kind := .phaseSync, due := ceilTo 32 (s.ym.now + 2048), res := { cls := 9, idx := 0 }, body := .phaseSync }]).2

/-- What the start point does (R42 to R44, R27, R39, R82, R85, R105, R282). -/
def State.modeStart (s : State) (t : Transition) : State :=
  let p := s.modePlan t
  let out := s.unfit t
  let t := s.modeBegun t p out
  let s := s.dropWeights t.seamless
  let s := out.foldl (fun (s : State) c => (s.removeCarrier c).postRemoved c t.fromMode) s
  let s := (s.modeTake t p).modeOutage t
  let s := if t.target == .bringup && t.fromMode != .bringup then s.bringupPorts else s
  let s := (s.modeArray t).applyActive
  let s := { s with sup := { s.sup with out := s.sup.out.map fun (o : OutCh) => { o with gen := none } } }
  let s := if t.target = .dormant then s.dormantEnter else if t.fromMode = .dormant then s.dormantLeave else s
  if t.seamless then s else s.modeTune p

/-- The start point of a transition whose MODE_CHANGE has been released: what R34 checks may have changed since, and is judged again. -/
def State.modeStartNow (s : State) : State :=
  match s.mode.trans with
  | some t =>
    if t.started then s
    else match s.startRefusal t with
      | some st => { s with mode := { s.mode with trans := none } }.complete t.ref st
      | none => s.modeStart { t with start := s.ym.now }
  | none => s

/-- MODE_CHANGE_RELEASE (R33, R34, R42, R43): the checks before the start point, at which the transition then starts. -/
def execModeChangeRelease (ev : Nat) (s : State) : R :=
  .next (match s.releasable ev .modeChange, s.mode.trans with
    | some e, some t =>
      let s := s.removeEvent e.id
      match s.startRefusal t with
      | some st => { s with mode := { s.mode with trans := none } }.complete t.ref st
      | none => { s with mode := { s.mode with trans := some (s.modeFix t) } }.at_ (s.dpOf e.due) .modeStart
    | _, _ => s)

/-- Carriers that are suspended, as a mask. -/
def State.suspendedMask (s : State) : Nat :=
  (List.finRange 8).foldl (fun a c => if s.ofdm.carriers[c].cfg.isSome && s.ofdm.carriers[c].suspended then a + 2 ^ c.val else a) 0

/-- The mode report (R49). -/
def State.postMode (s : State) (t : Transition) (st : Status) (f : Fld) : State :=
  s.postRec 0x01 8 [.v 4 s.mode.cur.code.toNat, .v 4 t.fromMode.code.toNat, .v 8 st.code.toNat, .v 8 t.removed.toNat, .v 8 s.suspendedMask, f]

/-- A transition fails (R45): traffic stops, every configured carrier is suspended, CALIBRATE is entered. No traffic resumes, so
RESUME_F is free. -/
def State.modeFail (s : State) (t : Transition) (st : Status) : State :=
  let s := if t.target = .dormant then s.dormantLeave else s
  let s := if t.target = .array then { s with hit := s.hit.leave } else s
  let s := { s with mode := { s.mode with cur := .calibrate, trans := none } }.applyActive
  let s := (List.finRange 8).foldl (fun s c =>
    if s.ofdm.carriers[c].cfg.isNone then s
    else ((s.dropOutage c s.ym.now none).dropData c s.ym.now none).modCarrier c fun x => { x with suspended := true }) s
  (s.complete t.ref st).postMode t st (.u 32)

/-- The array condition of R38 and R318. -/
def State.arrayReady (s : State) : Bool :=
  match s.hit.cfg with
  | none => false
  | some h =>
    let up (en : Bool) (n : BitVec 3) : Bool := !en || s.fh.ports[n.toFin].st == .up
    up h.upEn h.upPort && up h.downEn h.downPort && (h.dev == 0 || s.hit.timeLock)

/-- MODE_TRANSITION_END (R35 to R41, R45, R49): the transition completes at the boundary at which traffic resumes, its stored
results restored and DPD seeded; or it fails, for a fault raised meanwhile or (`ok` false) a synthesiser that does not lock or a
foreground calibration that does not complete. `others`: every other device that the array names has started the same transition (R38), which
no message of Table 11-3 tells. -/
def execModeTransitionEnd (ok others : Bool) (s : State) : R :=
  .next (match s.mode.trans with
    | none => s
    | some t =>
      if !t.started then s
      else if t.faulted || !ok then s.modeFail t .hwFault
      else if s.ym.now < t.resume ∨ s.dp < t.endDp ∨ (t.target = .array ∧ ¬ (s.arrayReady && others)) then s
      else
        let s := if t.redo.isEmpty && t.reseed = 0 then s else s.calSettle
        let s := s.calRestore t.redo t.autoCal
        let s := (setBits t.reseed).foldl (fun s p => if s.radio.paths[p].retired then s else s.seedDpd p) s
        let s := { s with mode := { s.mode with trans := none } }
        (s.complete t.ref .ok).postMode t .ok (.v 32 (BitVec.ofInt 32 (t.resume / frameTicks)).toNat))

/-- ARRAY_START_TIMEOUT (R38, R318): four frames after the start point the array condition still fails, or a device has not started. -/
def execArrayStartTimeout (others : Bool) (s : State) : R :=
  .next (match s.mode.trans with
    | some t => if t.started ∧ t.target = .array ∧ t.start + 4 * frameTicks ≤ s.ym.now ∧ ¬ (s.arrayReady && others) then s.modeFail t .notReady else s
    | none => s)

/-- Carriers carry traffic again from a frame boundary (R37, R405, R448); in CALIBRATE they stay suspended. -/
def State.resumeTraffic (s : State) (t : Tick) : State :=
  let s := { s with pwr := { s.pwr with resumeAt := none } }
  if s.mode.cur = .calibrate then s
  else (List.finRange 8).foldl (fun s c =>
    if s.ofdm.carriers[c].cfg.isSome then s.modCarrier c fun x => { x with suspended := false, serveFrom := t } else s) s

/-- TRAFFIC_RESUME (R37, R448): at the frame boundary after an outage the surviving carriers carry traffic again. -/
def execTrafficResume (s : State) : R :=
  .next (match s.pwr.resumeAt with
    | some t => if s.pwr.resumeWake = false ∧ t ≤ s.ym.now ∧ ¬ s.host.top.safe ∧ s.pwr.st = .active ∧ s.pwr.step = .steady then s.resumeTraffic t else s
    | none => s)

end Sys2Proof.Machine
end

