-- ==== Sys2Proof/Machine/FamDpd.lean ====
section
/-! DEFINITION. Meanings of crest-factor reduction and pre-distortion (chapter 08). -/

namespace Sys2Proof.Machine

-- Settings

/-- CFR_SET (R217): from the first multiple of 983,040 ticks at or after the due time. -/
def execCfrSet (c : Cmd) (s : State) : R :=
  .next (s.hostCmd c 0x40 anyOp fun x =>
    let p := x.payload
    let target := (pf p 2 0 8).toNat
    let ref := (pf p 4 0 16).toInt
    let due := s.eventDue x .config
    let cfg : CfrCfg := { passes := pf p 1 0 3, target := pf p 2 0 8, ref := pf p 4 0 16 }
    let band : Fin 2 := if pb p 0 0 then 1 else 0
    if x.atBad || (pf p 1 0 3).toNat > 4 || target < 70 || target > 100 || ref < -400 || ref > 0 || (pb p 0 0 && s.mode.cur != .split) then
      s.complete c.ref .badArg
    else s.presentCmd c.ref x.tag (some (ceilTo subframe due))
      [{ kind := .config, due := due, res := { cls := 9, idx := 0 }, body := .config (.cfr band cfg) }])

/-- DPD_SET (R247). -/
def execDpdSet (c : Cmd) (s : State) : R :=
  .next (s.hostCmd c 0x41 anyOp fun x =>
    let p := x.payload
    let cfg : DpdCfg := { autoStore := pb p 0 5, adaptEn := pb p 0 4, blendB := pf p 0 0 4, capPeriod := pf p 1 0 8, convTh := pf p 2 0 8 }
    if cfg.blendB.toNat > 10 || cfg.capPeriod == 0 || cfg.convTh.toInt < -100 || cfg.convTh.toInt > -30 then s.complete c.ref .badArg
    else { s with lin := { s.lin with cfg := cfg } }.finish c.ref .ok)

-- DPD_CTRL (R248)

/-- The paths a DPD_CTRL names. -/
def dpdNamed (p : BitVec 320) : List (Fin 64) := setBits (pf p 0 0 64)

/-- A DPD_CTRL without data: BAD_ARG and MODE_CONFLICT of R248, then the operation on each path. -/
def State.dpdCtrl (s : State) (c : Cmd) (op : Nat) (calOnly : Bool) (f : State → Fin 64 → State) (last : State → State := id) : State :=
  s.hostCmd c 0x42 (opIs 8 0 4 op) fun x =>
    if (dpdNamed x.payload).isEmpty then s.complete c.ref .badArg
    else if calOnly && s.mode.cur != .calibrate then s.complete c.ref .modeConflict
    else (last ((dpdNamed x.payload).foldl f s)).finish c.ref .ok

/-- DPD_FREEZE (R248). -/
def execDpdFreeze (c : Cmd) (s : State) : R := .next (s.dpdCtrl c 1 false fun s p => s.modDpd p fun d => { d with frozen := true })

/-- DPD_RESUME (R248). -/
def execDpdResume (c : Cmd) (s : State) : R := .next (s.dpdCtrl c 2 false fun s p => s.modDpd p fun d => { d with frozen := false })

/-- DPD_RESET (R243, R248). -/
def execDpdReset (c : Cmd) (s : State) : R := .next (s.dpdCtrl c 3 true fun s p => s.coldStart p)

/-- First of the sectors of the DPD_SETS region that hold a path's sets (Table 9-8; six sets of 656 bytes per sector). -/
def dpdSector (p : Fin 64) : Nat := 115 + p.val * 32 / 6

/-- Erase every stored set of a path. -/
def State.eraseSets (s : State) (p : Fin 64) : State :=
  { s with lin := { s.lin with keys := s.lin.keys.map fun (k : DpdKey) => { k with sets := k.sets.filter fun (x : DpdSet) => x.path != p } } }

/-- DPD_ERASE (R248): the sets are erased under every key, in the tack store as well. -/
def execDpdErase (c : Cmd) (s : State) : R :=
  .next (s.dpdCtrl c 4 true (fun s p => (s.eraseSets p).tackPut (dpdSector p) .dpdSet) fun s => s.tackPut 1 .directory (some c.ref))

/-- A DPD set header (Table 8-4); absent values are free. -/
def dpdHeader (valid : Bool) (profile : Nat) (p : Fin 64) (temp seq : Option Nat) (lo fcN res : Nat) : List Fld :=
  [.u 5, .v 2 profile, .v 1 (b2n valid), .v 6 p.val, .u 2, (match temp with | some t => .v 16 t | none => .u 16), .v 23 lo, .u 9,
   .v 16 fcN, .v 16 res, (match seq with | some q => .v 32 q | none => .u 32)]

/-- A coefficient set as 640 bytes (R224). -/
def coefBytes (l : CoefSet) : Bytes := l.flatMap fun (a : Coef) => leBytes 4 (a.1.signExtend 32).toNat ++ leBytes 4 (a.2.signExtend 32).toNat

/-- Free bytes. -/
def State.freeBytes (s : State) (n : Nat) : Bytes × State := (Config.freeBytes n s.free, { s with free := s.free + 1 })

/-- The record of the set in force; the coefficients in force inside a blend are free. -/
def State.activeSetRec (s : State) (p : Fin 64) : Bytes × State :=
  let d := s.lin.paths[p]
  let h := s.record 16 (dpdHeader (!d.bypass) s.mode.prof.code.toNat p (d.learnt.map fun l => l.1.toNat) (d.learnt.map fun l => l.2.toNat)
    s.mode.plo[paddockOf p].toNat s.conv.fcN.toNat d.setResidual.toNat)
  match d.blend with
  | some (_ + 1, _, _) => let b := h.2.freeBytes 640; (h.1 ++ b.1, b.2)
  | _ => (h.1 ++ coefBytes d.old, h.2)

/-- The record of a stored set; all but VALID and PATH of a set that is not held is free. -/
def State.storedSetRec (s : State) (p : Fin 64) (k : Option DpdKey) (x : Option DpdSet) : Bytes × State :=
  match k, x with
  | some k, some x =>
    let h := s.record 16 (dpdHeader true k.profile.toNat p (some x.paTemp.toNat) (some x.adaptSeq.toNat) k.loKhz.toNat k.fcN.toNat x.residual.toNat)
    (h.1 ++ coefBytes x.coefs, h.2)
  | _, _ =>
    let h := s.record 16 [.u 7, .v 1 0, .v 6 p.val, .u 2, .u 112]
    let b := h.2.freeBytes 640
    (h.1 ++ b.1, b.2)

/-- A DPD_CTRL READ: the records of the named paths are written at ADDR (R248). -/
def State.dpdRead (s : State) (c : Cmd) (op : Nat) (f : State → Fin 64 → Nat → Bytes × State) : State :=
  s.hostCmd c 0x42 (opIs 8 0 4 op) fun x =>
    let addr := pf x.payload 16 0 64
    if (dpdNamed x.payload).isEmpty || addr.extractLsb' 0 6 != 0 then s.complete c.ref .badArg
    else
      let r := (dpdNamed x.payload).foldl (fun (a : Bytes × State) p => let b := f a.2 p (pf x.payload 9 0 3).toNat; (a.1 ++ b.1, b.2)) ([], s)
      let w := r.2.hostPut c addr r.1
      if w.1 then w.2.finish c.ref .ok else w.2.complete c.ref .busErr

/-- DPD_READ_ACTIVE (R248). -/
def execDpdReadActive (c : Cmd) (s : State) : R := .next (s.dpdRead c 5 fun s p _ => s.activeSetRec p)

/-- DPD_READ_STORED (R248): four records per path for the key of index KEY, the most recently matched key being 0. -/
def execDpdReadStored (c : Cmd) (s : State) : R :=
  .next (s.dpdRead c 6 fun s p key =>
    let k := s.lin.keys[key]?
    let sets : List DpdSet := match k with | some k => k.sets.filter fun x => x.path == p | none => []
    (List.range 4).foldl (fun (a : Bytes × State) i => let b := a.2.storedSetRec p k sets[i]?; (a.1 ++ b.1, b.2)) ([], s))

-- The adjacency table (R226, R228)

/-- The entry of a path in 128 table bytes. -/
def adjEntry (b : Bytes) (p : Fin 64) : BitVec 8 × BitVec 8 := ((b[2 * p.val]?).getD 0, (b[2 * p.val + 1]?).getD 0)

/-- An entry that R228 refuses: a reserved bit, a slot naming its own path, two slots naming one neighbour. -/
def adjBad (p : Fin 64) (e : BitVec 8 × BitVec 8) : Bool :=
  e.1.getLsbD 6 || e.2.getLsbD 6 || neighbour e.1 == some p.val || neighbour e.2 == some p.val
  || ((neighbour e.1).isSome && neighbour e.1 == neighbour e.2)

/-- DPD_ADJ_LOAD (R228): for every path whose entry changes, DPD state is invalidated and its stored sets are erased. -/
def execDpdAdjLoad (c : Cmd) (s : State) : R :=
  .next (s.hostCmd c 0x43 anyOp fun x =>
    if (pf x.payload 8 0 64).extractLsb' 0 6 != 0 then s.complete c.ref .badArg
    else if s.mode.cur != .calibrate then s.complete c.ref .modeConflict
    else match c.data with
      | none => s.complete c.ref .busErr
      | some b =>
        if (List.finRange 64).any fun p => adjBad p (adjEntry b p) then s.complete c.ref .badArg
        else
          let s := (List.finRange 64).foldl (fun (s : State) p =>
            if s.lin.adj[p] = adjEntry b p then s
            else
              let s := (((s.eraseSets p).tackPut (dpdSector p) .dpdSet).coldStart p).modDpd p fun d => { d with stale := true }
              { s with lin := { s.lin with adj := vset s.lin.adj p (adjEntry b p) } }) s
          (s.tackPut 34 .adjacency (some c.ref)).finish c.ref .ok)

-- DPD_STATUS (R249)

/-- STATE of Table 8-7. -/
def Dpd.stateCode (d : Dpd) : Nat := if d.noObs then 4 else if d.frozen then 3 else if d.bypass then 0 else if d.adapted then 2 else 1

/-- A DPD status record (Table 8-7). -/
def State.dpdRecord (s : State) (p : Fin 64) : Bytes × State :=
  let d := s.lin.paths[p]
  s.record 32 [.v 2 d.seed.toNat, .v 1 (b2n d.tempSubst), .v 1 (b2n d.blend.isSome), .v 1 (b2n d.cap), .v 3 d.stateCode, .v 4 d.noConv.toNat,
    (match s.obsOf p with | some o => .v 4 o | none => .u 4), .v 16 d.paTemp.toNat, .v 16 d.residual.toNat, .v 16 d.gen.toNat,
    .v 32 d.adapts.toNat, .v 32 d.capAbort.toNat, .v 32 d.adaptDrop.toNat, .v 32 d.cfrPeaks.toNat, .v 32 d.cfrResid.toNat, .v 32 d.dpdSat.toNat]

/-- DPD_STATUS (R249). -/
def execDpdStatus (c : Cmd) (s : State) : R :=
  .next (s.statusCmd c 0x44 64 fun x =>
    let ps := setBits x.select
    let r := ps.foldl (fun (a : Bytes × State) p => let b := a.2.dpdRecord p; (a.1 ++ b.1, b.2)) ([], s)
    r.2.respond c x r.1 fun s => ps.foldl (fun (s : State) p =>
      s.modDpd p fun d => { d with adapts := 0, capAbort := 0, adaptDrop := 0, cfrPeaks := 0, cfrResid := 0, dpdSat := 0 }) s)

-- Captures (R229 to R234)

/-- Cycles of 16,384 samples at Fc/2 (R230). -/
def State.captureTicks (s : State) : Nat := (cdiv 268435456 s.conv.fcN.toNat).toNat

/-- A path is eligible for a capture (R229, R232, R243, R246). -/
def State.capEligible (s : State) (p : Fin 64) : Bool :=
  let d := s.lin.paths[p]
  s.inActive p && !s.radio.paths[p].lent && !d.frozen && !d.noObs && d.blend.isNone
  && (match s.obsOf p with
      | none => false
      | some 8 => match s.calVal? { id := 4, cls := 1, idx := p.val } with | some v => v.valid | none => false
      | some _ => true)
  && !(s.lin.caps.any fun x => x.path == p && x.shu.isNone)
  && !(s.ym.events.any fun e => match e.body with | .capture q _ _ => q == p | _ => false)

/-- The path whose turn it is (R229): from the owner's position on in cyclic order, paths in cold start before all others. -/
def State.capPick (s : State) (k : Fin 8) : Option (Fin 64) :=
  let pos := s.lin.owners[k].pos
  let ps := ((paddockPaths k).filter fun p => p.val % 8 ≥ pos) ++ ((paddockPaths k).filter fun p => p.val % 8 < pos)
  match ps.find? fun p => s.lin.paths[p].cold && s.capEligible p with
  | some p => some p
  | none => ps.find? fun p => s.capEligible p

/-- Ticks of the cyclic prefix of a symbol (Table 2-3). -/
def prefixTicks (scs30 : Bool) (first : Bool) : Int := if scs30 then (if first then 2816 else 2304) else (if first then 5120 else 4608)

/-- A path transmits, unmuted, at a cycle, given what has been accepted. -/
def State.txAt (s : State) (p : Fin 64) (t : Nat) : Bool :=
  let m := s.pathBefore p (t + 1)
  m.st == .tx && m.free ≤ t && (match m.run with | some r => decide (t < r.fin) | none => true) && s.unmutedOver p true t (t + 1) && s.interlock p

/-- A path receives, unmuted, at a cycle, given what has been accepted. -/
def State.rxAt (s : State) (p : Fin 64) (t : Nat) : Bool :=
  let m := s.pathBefore p (t + 1)
  m.st == .rx && m.free ≤ t && (match m.run with | some r => decide (t < r.fin) | none => true) && s.unmutedOver p false t (t + 1)

/-- Symbols with at least one PRB of a carrier on a path, accepted and not over: due time and length (R230). -/
def State.dlSymbols (s : State) (p : Fin 64) : List (Tick × Nat) :=
  s.ym.events.filterMap (fun (e : Event) =>
    match e.body with
    | .symbol sec _ len =>
      match s.ofdm.sections.find? fun x => x.id == sec with
      | some x => if !x.ul && x.prbNum > 0 && (s.antennas x.carrier).contains p then some (e.due, len) else none
      | none => none
    | _ => none) ++
  (s.ofdm.tx.filter fun (x : TxSym) => x.grid.any fun y => y.1 == p.val).map fun x => (x.due, x.len)

/-- The first symbol in which a path may be captured (R230), given the decision's tick: the due time of its useful part. -/
def State.capSymbol (s : State) (p : Fin 64) (from_ : Tick) : Option Tick :=
  let g := s.grid30 p
  let useful : Int := if g then 32768 else 65536
  let cand := (s.dlSymbols p).filterMap fun (y : Tick × Nat) =>
    let slot : Int := if g then halfSubframe else subframe
    let first : Bool := y.1 % slot == 0 || (!g && y.1 % slot == 7 * 70144 + 512)
    let t := y.1 + prefixTicks g first
    if symbolCeil g y.1 == y.1 && t + useful ≤ y.1 + y.2 && from_ + 16384 ≤ t && t ≤ from_ + frameTicks && s.ym.now + 8192 ≤ t
        && s.txAt p (s.dpOf y.1) && s.txAt p (s.dpOf (t + useful) - 1) && s.unmutedOver p true (s.dpOf y.1) (s.dpOf (t + useful)) then some (t.toNat, ()) else none
  ((sortKey cand).head?).map fun x => (x.1 : Int)

/-- Change the capture owner of a paddock. -/
def State.modOwner (s : State) (k : Fin 8) (f : CapOwner → CapOwner) : State := { s with lin := { s.lin with owners := vmod s.lin.owners k f } }

/-- A capture of a paddock's owner waits for its time or is under way. -/
def State.capOut (s : State) (k : Fin 8) : Bool :=
  (s.lin.caps.any fun x => paddockOf x.path == k && x.shu.isNone)
  || (s.ym.events.any fun e => match e.body with | .capture q _ _ => paddockOf q == k | _ => false)

/-- Captures and adaptation of a paddock are enabled (R246, R247). -/
def State.capModes (s : State) (k : Fin 8) : Bool := s.lin.owners[k].cfg.adaptEn && s.mode.cur != .calibrate && s.mode.cur != .bringup

/-- A capture decision of a paddock's owner (R229, R247): the DPD_SET fields in force are taken, and the next eligible path gets its turn. -/
def State.capDecide (s : State) (k : Fin 8) : State :=
  let s := s.modOwner k fun o => { o with cfg := s.lin.cfg, lastAt := s.dp }
  if s.capModes k then s.modOwner k fun o => { o with want := s.capPick k } else s

/-- The search for the symbol of the path whose turn it is (R229, R230): where none begins within a frame of the decision, the attempt fails. -/
def State.capSeek (s : State) (k : Fin 8) (p : Fin 64) : State :=
  let o := s.lin.owners[k]
  let done (s : State) : State := s.modOwner k fun o => { o with want := none }
  if !s.capModes k || !s.capEligible p then done s
  else match s.capSymbol p (s.airOf o.lastAt), s.obsOf p with
    | some t, some u =>
      let r := s.present (.internal .dpd) none
        [{ kind := .obsCapture, due := t, res := { cls := 5, idx := u }, body := .capture p u s.captureTicks }]
      done (if r.1 = .ok then r.2 else r.2.capFail p)
    | _, _ => if o.lastAt + 9830400 < s.dp then done (s.capFail p) else s

/-- DPD_CAPTURE_DECISION (R229, R230): a decision each CAP_PERIOD, and until it has its symbol or has failed, the search for it. DESIGN CHOICE
(log 79): no decision is taken while the last one's capture is still to come or under way. -/
def execDpdCaptureDecision (k : Fin 8) (s : State) : R :=
  .next (
    let o := s.lin.owners[k]
    if !s.counting then s
    else match o.want with
      | some p => s.capSeek k p
      | none =>
        if s.capOut k || s.dp < o.lastAt + o.cfg.capPeriod.toNat * 491520 then s
        else
          let s := s.capDecide k
          match s.lin.owners[k].want with
          | some p => s.capSeek k p
          | none => s)

/-- The observation receiver that a calibration of a path uses (R253, Table 9-1). -/
def State.calObs (s : State) (k : CalKey) : Option Nat :=
  if k.id ∈ [4, 6, 7, 8, 10] then k.path?.bind s.obsOf else none

/-- The observation receiver is committed over an interval: to a capture, a background calibration or an earlier accepted event
(R231). -/
def State.obsBusy (s : State) (e : Event) (o : Nat) (a b : Nat) : Bool :=
  (s.lin.caps.any fun c => c.obs == o && c.start < b && a < c.fin)
  || (s.cal.slots.any fun x => s.calObs x.key == some o && a < x.fin)
  || (s.cal.runs.any fun r => r.busy.any fun x => s.calObs x.1 == some o)
  || (s.ym.events.any fun x => x.id < e.id &&
      match x.body with
      | .capture _ q n => q == o && s.dpOf x.due < b && a < s.dpOf x.due + n
      | .shuCapture p src _ _ n _ => src == 0 && s.obsOf p == some o && s.dpOf x.due < b && a < s.dpOf x.due + n
      | .calSlot key n => s.calObs key == some o && s.dpOf x.due < b && a < s.dpOf x.due + n
      | _ => false)

/-- Another snapshot of a path's RX ADC overlaps (R465). -/
def State.snapBusy (s : State) (e : Event) (p : Fin 64) (a b : Nat) : Bool :=
  (s.lin.caps.any fun c => c.path == p && c.start < b && a < c.fin && (match c.shu with | some u => u.src == 1 | none => false))
  || (s.ym.events.any fun x => x.id < e.id &&
      match x.body with | .shuCapture q src _ _ n _ => q == p && src == 1 && s.dpOf x.due < b && a < s.dpOf x.due + n | _ => false)

/-- The checks of an observation capture at its release (R66, R230, R231). -/
def State.captureCheck (s : State) (e : Event) : Option (Cause × Res) :=
  match e.body with
  | .capture p o n =>
    let a := s.dpOf e.due
    if s.obsBusy e o a (a + 8 + n) then some (.resourceBusy, e.res)
    else if s.lin.obsOut[(toFin 9 o).getD 0] then some (.resourceBusy, e.res)
    else if !(s.txAt p a && s.txAt p (a + p.val % 8 + n - 1)) then some (.pathState, { cls := 1, idx := p.val })
    else (s.loCause (paddockOf p) a (a + 8 + n)).map fun k => (k, { cls := 1, idx := p.val })
  | .shuCapture p src _ _ n _ =>
    let a := s.dpOf e.due
    if src = 0 then
      match s.obsOf p with
      | none => some (.resourceBusy, { cls := 5, idx := p.val / 8 })
      | some o => if s.obsBusy e o a (a + 8 + n) then some (.resourceBusy, { cls := 5, idx := o }) else none
    else if s.snapBusy e p a (a + 8 + n) then some (.resourceBusy, { cls := 1, idx := p.val })
    else if !(s.rxAt p a && s.rxAt p (a + p.val % 8 + n - 1)) then some (.pathState, { cls := 1, idx := p.val })
    else none
  | _ => none

/-- What a released capture begins. -/
def State.captureBegin (s : State) (e : Event) : State :=
  match e.body with
  | .capture p o n =>
    let a := s.dpOf e.due + p.val % 8
    let d := s.lin.paths[p]
    let c : Capture := { path := p, obs := o, start := a, fin := a + n, gen := d.gen, clean := !d.bypass, shu := none, u := [], x := [], z := [], v0 := [], v1 := [] }
    { s with lin := { s.lin with caps := s.lin.caps ++ [c] } }
  | .shuCapture p src first nslot n flag =>
    let a := s.dpOf e.due + p.val % 8
    match e.src with
    | .cmd r _ =>
      let u : ShuCap := { src := src, first := first, nslot := nslot, flag := flag, ref := r }
      let c : Capture := { path := p, obs := if src = 0 then (s.obsOf p).getD 16 else 16, start := a, fin := a + n, gen := 0, clean := false, shu := some u, u := [], x := [], z := [], v0 := [], v1 := [] }
      { s with lin := { s.lin with caps := s.lin.caps ++ [c] } }
    | _ => s
  | _ => s

/-- OBS_CAPTURE_RELEASE (R230, R231, R465): a capture of the DPD owner that drops is an attempt that failed. -/
def execObsCaptureRelease (ev : Nat) (s : State) : R :=
  .next (match s.releasable ev .obsCapture with
    | none => s
    | some e =>
      let n := s.lin.caps.length
      let s := s.release ev .obsCapture State.captureCheck State.captureBegin
      match e.body with
      | .capture p _ _ => if s.lin.caps.length = n then s.capFail p else s
      | _ => s)

/-- The DPD_SET fields in force for a path: those of its paddock's last capture decision (R247). -/
def State.dpdCfg (s : State) (p : Fin 64) : DpdCfg := s.lin.owners[paddockOf p].cfg

/-- Whether a capture is converged (R234). -/
def State.converged (s : State) (c : Capture) (p : Fin 64) (res : BitVec 16) : Bool :=
  c.clean && s.lin.paths[p].old != identitySet && decide (res.toInt ≤ 2 * (s.dpdCfg p).convTh.toInt)

/-- Where R241 puts a new set among the sets of its key and path. -/
def placeSet (l : List DpdSet) (x : DpdSet) (now : Nat) : List DpdSet :=
  let d (y : DpdSet) : Nat := (y.paTemp.toInt - x.paTemp.toInt).natAbs
  let own := l.filter fun y => y.path == x.path
  let near := own.foldl (fun (b : Option DpdSet) y =>
    match b with
    | none => some y
    | some z => if d y < d z ∨ (d y = d z ∧ y.paTemp.toInt < z.paTemp.toInt) then some y else some z) none
  match near with
  | none => l ++ [x]
  | some y =>
    if d y ≤ 10 then (if now < y.wrote + 589824000000 then l else x :: l.erase y)
    else if own.length < 4 then l ++ [x]
    else x :: l.erase y

/-- Store the set in force of a path (R241): the matching key, or a new one, the key least recently matched making room. -/
def State.storeSet (s : State) (p : Fin 64) : State :=
  if s.tack.readOnly then s
  else
    let d := s.lin.paths[p]
    let key : DpdKey := match s.dpdKeyFor p with
      | some k => k
      | none => { profile := s.mode.prof.code, fcN := s.conv.fcN, loKhz := s.mode.plo[paddockOf p].extractLsb' 0 23, sets := [] }
    let known : Bool := (s.dpdKeyFor p).isSome
    let s := if known then s else { s with lin := { s.lin with keys := s.lin.keys.take 7 } }
    let x : DpdSet := { path := p, paTemp := d.paTemp, residual := d.setResidual, adaptSeq := match d.learnt with | some l => l.2 | none => d.adapts
                        wrote := s.dp, coefs := d.old }
    let sets := placeSet key.sets x s.dp
    let s := s.touchKey { key with sets := sets }
    if sets = key.sets then s else s.tackPut (dpdSector p) .dpdSet

/-- A converged capture (R234, R241, R244, R245): the limit of a cold start is lifted and AUTO_STORE stores the set. -/
def State.capConverged (s : State) (p : Fin 64) (res : BitVec 16) : State :=
  let s := s.modDpd p fun d => { d with unconverged := false, setResidual := res, ramping := d.cap, noConv := 0 }
  if (s.dpdCfg p).autoStore then s.storeSet p else s

/-- A capture that is not converged (R245). -/
def State.capNotConverged (s : State) (p : Fin 64) : State :=
  let d := s.lin.paths[p]
  if d.unconverged && d.cap && !d.ramping then
    if d.noConv.toNat + 1 ≥ 8 then (s.modDpd p fun d => { d with unconverged := false, noConv := 0 }).postDpd 2 p.val
    else s.modDpd p fun d => { d with unconverged := false, noConv := d.noConv + 1 }
  else s

/-- What a capture of the current generation brings (R233 to R235): gain, residual, what follows from convergence, and an adaptation. -/
def State.capLearn (s : State) (p : Fin 64) (c : Capture) (y : List (Int × Int)) : State :=
  let n := 16384
  let x := c.x.take n
  let hat := aligned (y.take n) x
  let g := (s.lin.paths[p].gain).getD (smallGain (s.cfrThreshold (s.cfrBand p)) x hat)
  let yn := normalised g hat
  let res := errorDb yn x
  let s := s.modDpd p fun d => { d with gain := some g, residual := res }
  let s := if s.converged c p res then s.capConverged p res else s.capNotConverged p
  let a : Adapting := { fin := c.fin, gen := c.gen, deep := s.mode.prof == .pl, use0 := (s.slotPath p 0).isSome, use1 := (s.slotPath p 1).isSome
                        y := yn, z := c.z.take n, v0 := c.v0.take n, v1 := c.v1.take n }
  let job : Job := { kind := .adapt p c.fin, deadline := s.airOf (c.fin + 98304000), budget := 1760000, kernel := 0 }
  { s.modDpd p fun d => { d with adapting := d.adapting ++ [a] } with sol := { s.sol with ready := s.sol.ready ++ [job] } }

/-- DPD_CAPTURE_END (R214, R229, R233 to R235, R240, R241, R246): the observation receiver's codes of a capture whose interval has ended. In
CALIBRATE and BRINGUP it is an attempt that failed. -/
def execDpdCaptureEnd (p : Fin 64) (obs : List (Int × Int)) (s : State) : R :=
  .next (match s.lin.caps.find? fun c => c.path == p && c.shu.isNone && c.fin ≤ s.dp with
    | none => s
    | some c =>
      let s := { s with lin := { s.lin with caps := s.lin.caps.erase c } }
      if s.mode.cur = .calibrate ∨ s.mode.cur = .bringup then s.capFail p
      else
        let y := obs.map fun v => ((adcWord v.1).1.toInt, (adcWord v.2).1.toInt)
        let s := s.modOwner (paddockOf p) fun o => { o with pos := (p.val % 8 + 1) % 8 }
        let s := (s.modDpd p fun d => { d with fails := 0 }).readPaTemp p
        let s := { s with quality := vmod s.quality p fun q =>
          { q with txEvm := errorDb (aligned (y.take 16384) (c.u.take 16384)) (c.u.take 16384), capAt := s.airOf c.start } }
        if s.lin.paths[p].gen ≠ c.gen then s else s.capLearn p c y)

-- Adaptation and the blend (R235 to R238, R244)

/-- A job is the adaptation of a path from the capture that ended at a cycle. -/
def Job.adapts (j : Job) (p : Fin 64) (fin : Nat) : Bool := match j.kind with | .adapt q f => q == p && f == fin | _ => false

/-- Take an adaptation away from the solver. -/
def State.dropAdaptJob (s : State) (p : Fin 64) (fin : Nat) : State :=
  { s with sol := { s.sol with
      ready := s.sol.ready.filter fun j => !j.adapts p fin
      cores := s.sol.cores.map fun (x : SolCore) => match x.bgJob with | some j => if j.adapts p fin then { x with bgJob := none, bgOn := false, bgCyc := 0 } else x | none => x } }

/-- An adaptation is over: its job and its data are gone. -/
def State.adaptOver (s : State) (p : Fin 64) (fin : Nat) : State :=
  (s.dropAdaptJob p fin).modDpd p fun d => { d with adapting := d.adapting.filter fun a => a.fin != fin }

/-- An adaptation's result is discarded (R235). -/
def State.adaptDrop (s : State) (p : Fin 64) (fin : Nat) : State := (s.adaptOver p fin).modDpd p fun d => { d with adaptDrop := satInc d.adaptDrop }

/-- The set of an adaptation is published (R235, R237): it goes into the idle bank and its blend is to begin. -/
def State.adaptPublish (s : State) (p : Fin 64) (set : CoefSet) : State :=
  s.modDpd p fun d =>
    { d with adapts := satInc d.adapts, new := set, blend := some (0, (s.dpdCfg p).blendB.toNat, s.dp + 16384)
             unconverged := true, adapted := true, learnt := some (d.paTemp, satInc d.adapts), setResidual := 0x8000 }

/-- DPD_ADAPT_PUBLISH (R235, R237, R246): the oldest adaptation of a path that a solver core has in hand ends. Its result is discarded where its
generation is old, where it comes more than 100 ms after its capture, where a coefficient is out of range or a pivot not positive, and in
CALIBRATE and BRINGUP; a blend under way comes first (DESIGN CHOICE, log 79). -/
def execDpdAdaptPublish (p : Fin 64) (s : State) : R :=
  .next (
    let d := s.lin.paths[p]
    match d.adapting.find? fun a => s.sol.cores.toList.any fun x => match x.bgJob with | some j => j.adapts p a.fin | none => false with
    | none => s
    | some a =>
      if a.gen ≠ d.gen ∨ a.fin + 98304000 < s.dp ∨ s.mode.cur = .calibrate ∨ s.mode.cur = .bringup then s.adaptDrop p a.fin
      else if d.blend.isSome then s
      else match a.fit with
        | none => s.adaptDrop p a.fin
        | some set => (s.adaptOver p a.fin).adaptPublish p set)

/-- ADAPT_TIMEOUT (R235): 100 ms after the capture's end the result is no longer awaited. -/
def execAdaptTimeout (p : Fin 64) (s : State) : R :=
  .next (match s.lin.paths[p].adapting.find? fun a => decide (a.fin + 98304000 < s.dp) with
    | some a => s.adaptDrop p a.fin
    | none => s)

/-- One boundary of a path's blend: the captures under way mix two sets (R234). -/
def State.blendStep (s : State) (p : Fin 64) : State :=
  match s.lin.paths[p].blend with
  | some (i, b, from_) =>
    if s.dp < from_ then s
    else
      let s := { s with lin := { s.lin with caps := s.lin.caps.map fun (c : Capture) => if c.path = p ∧ c.start ≤ s.dp then { c with clean := false } else c } }
      s.modDpd p fun d =>
        if i + 1 ≥ 2 ^ b then { d with old := d.new, blend := none, bypass := false, cold := d.cap } else { d with blend := some (i + 1, b, from_), bypass := false }
  | none => s

/-- One boundary of the ramp out of a cold start: 0.25 dB toward the stored setting (R244). -/
def State.rampStep (s : State) (p : Fin 64) : State :=
  let d := s.lin.paths[p]
  if !d.ramping then s
  else
    let want := s.radio.paths[p].txAtten
    let a : BitVec 7 := if want.toNat < d.attenNow.toNat then d.attenNow - 1 else if d.attenNow.toNat < want.toNat then d.attenNow + 1 else d.attenNow
    if a = want then (s.modDpd p fun d => { d with attenNow := a, ramping := false, cap := false, cold := false, noConv := 0 }).postDpd 1 p.val
    else s.modDpd p fun d => { d with attenNow := a }

/-- BLEND_BOUNDARY (R236, R237, R244): one boundary on every path whose grid has a symbol start at this tick. -/
def execBlendBoundary (s : State) : R :=
  .next (if !s.counting then s
    else (List.finRange 64).foldl (fun (s : State) p =>
      if symbolCeil (s.grid30 p) s.ym.now = s.ym.now then (s.blendStep p).rampStep p else s) s)

end Sys2Proof.Machine
end

