-- ==== Sys2Proof/Machine/FamCal.lean ====
section
/-! DEFINITION. Meanings of the Farrier, its calibrations and the tack store (chapter 09, R99). -/

namespace Sys2Proof.Machine

-- CAL_RUN (R257 to R260)

/-- The paddocks that hold named paths. -/
def namedPaddocks (ps : List (Fin 64)) : List (Fin 8) := (List.finRange 8).filter fun k => ps.any fun p => p.val / 8 == k.val

/-- The calibrations of a CAL_RUN in ID order (R257). -/
def State.calKeys (s : State) (ps : List (Fin 64)) (mask : Nat) : List CalKey :=
  ((List.range 11).filter fun i => mask.testBit i).flatMap fun i =>
    if i = 1 ∨ i = 2 then [{ id := i, cls := 9, idx := 0 }]
    else if i = 3 then (namedPaddocks ps).map fun k => { id := 3, cls := 3, idx := (s.active k).val }
    else if i = 9 then (namedPaddocks ps).map fun k => { id := 9, cls := 2, idx := k.val }
    else ps.map fun p => { id := i, cls := 1, idx := p.val }

/-- CAL_RUN (R257, R258, R392, R444): checked at acceptance; it waits for a running one with overlapping subjects. -/
def execCalRun (c : Cmd) (s : State) : R :=
  .next (s.hostCmd c 0x48 anyOp fun x =>
    let ps := setBits (pf x.payload 0 0 64)
    let mask := (pf x.payload 8 0 16).toNat
    let lend := pb x.payload 10 1
    if ps.isEmpty || mask == 0 then s.complete c.ref .badArg
    else if s.trafficGate.isSome then s.complete c.ref (s.trafficGate.getD .notReady)
    else if ps.any fun p => !s.inActive p then s.complete c.ref .modeConflict
    else if !lend && ps.any (fun p => s.inTraffic p) then s.complete c.ref .modeConflict
    else if mask &&& 14 != 0 && s.mode.cur != .calibrate then s.complete c.ref .modeConflict
    else if s.inTransition || s.conv.run.isSome then s.complete c.ref .modeConflict
    else if (mask.testBit 4 || mask.testBit 6) && ps.any (fun p => (s.obsOf p).isNone) then s.complete c.ref .notReady
    else
      let ks := s.calKeys ps mask
      let r : CalRun :=
        { ref := c.ref, paths := pf x.payload 0 0 64, mask := pf x.payload 8 0 16, lend := lend, store := pb x.payload 10 0, waiting := false
          accepted := s.ym.now, all := ks, left := ks, busy := [], failed := false, lentNow := 0 }
      let wait : Bool := s.cal.runs.any fun q => !q.waiting && q.overlaps r
      let r := { r with waiting := wait }
      let s := { s.setStage c.ref .running with cal := { s.cal with runs := s.cal.runs ++ [r] } }
      if wait then s else s.calRunBegin r)

/-- A path is lent: it leaves traffic, and goes to OBS as soon as it may. -/
def State.lend (s : State) (p : Fin 64) : State := (s.modPath p fun x => { x with lent := true, jobs := [], run := none }).obsEntry p

/-- LEND_START (R259, R536; DESIGN CHOICE, log 82: of a CAL_RUN that had to wait, from its start on): at the first multiple of 983,040 ticks at
or after acceptance plus 98,304, a named path in traffic is lent and goes to OBS. -/
def execLendStart (p : Fin 64) (s : State) : R :=
  .next (match s.cal.runs.find? fun r => !r.waiting && r.lend && r.paths.getLsbD p.val && r.left.any fun k => k.path? == some p || (k.cls == 2 && k.idx == p.val / 8) with
    | none =>
      let due : Bool := s.mem.lbist.any fun l => l.target == 1 && l.index == p.val && l.lend && l.fin.isNone && ceilTo subframe (l.accepted + 98304) ≤ s.ym.now
      if !due || s.radio.paths[p].lent || !s.inTraffic p || s.ym.now % subframe != 0 then s
      else s.lend p
    | some r =>
      if s.radio.paths[p].lent || !s.inTraffic p || s.ym.now < ceilTo subframe (r.accepted + 98304) || s.ym.now % subframe != 0 then s
      else
        let take (q : CalRun) : CalRun := if q.ref = r.ref then { q with lentNow := q.lentNow ||| ((1#64) <<< p.val) } else q
        { s with cal := { s.cal with runs := s.cal.runs.map take } }.lend p)

/-- The paths whose adjacency entries name a path (R226). -/
def State.namedBy (s : State) (p : Fin 64) : List (Fin 64) :=
  (List.finRange 64).filter fun q => neighbour s.lin.adj[q].1 == some p.val || neighbour s.lin.adj[q].2 == some p.val

/-- The LBIST_RUN for which a path was lent completes as the path rejoins (R424, R536). -/
def State.lbistRejoin (s : State) (p : Fin 64) : State :=
  let mine (l : Lbist) : Bool := l.target == 1 && l.index == p.val && l.result.isSome
  let done := s.mem.lbist.filter mine
  done.foldl (fun (s : State) (l : Lbist) => match l.result with | some r => s.complete l.ref r.1 r.2 | none => s)
    { s with mem := { s.mem with lbist := s.mem.lbist.filter fun l => !mine l } }

/-- LEND_REJOIN (R227, R259, R260): at a multiple of 983,040 ticks a lent path whose calibrations are done and that is back in STANDBY
rejoins. The DPD of its neighbours, whose coupling terms change, is invalidated; it is seeded in the next transition's outage (R242; log 41). -/
def execLendRejoin (p : Fin 64) (s : State) : R :=
  .next (
    let x := s.radio.paths[p]
    let busy : Bool := s.cal.runs.any fun r => !r.waiting && r.lentNow.getLsbD p.val && r.left.any fun k => k.path? == some p || (k.cls == 2 && k.idx == p.val / 8)
    let testing : Bool := s.mem.lbist.any fun l => l.target == 1 && l.index == p.val && l.result.isNone
    if !x.lent || busy || testing || x.st != .standby || x.transit.isSome || s.ym.now % subframe != 0 then s
    else
      let give (q : CalRun) : CalRun := { q with lentNow := q.lentNow &&& ~~~((1#64) <<< p.val) }
      let s := { s.modPath p fun x => { x with lent := false } with cal := { s.cal with runs := s.cal.runs.map give } }
      let s := (s.namedBy p).foldl (fun (s : State) q => if s.inActive q then s.modDpd q fun d => { d with stale := true } else s) s
      (s.lbistRejoin p).calRunSweep)

-- Results (R262 to R265, R269)

/-- Distance of two phases in 0.001 degrees. -/
def phaseDist (a b : Int) : Nat := let d := (a - b) % 360000; min d.natAbs (360000 - d).natAbs

/-- Table 9-5. Components: gains and magnitudes in 0.001 dB, phases in 0.001 degrees, delays in 2^-10 tick; of 0x05 and 0x06 the first
is the image rejection or LO leakage left, in 0.001 dB. -/
def outlier (id : Nat) (old new : List Int) : Bool :=
  match id with
  | 5 | 6 => match old.head?, new.head? with | some a, some b => b - a > 6000 | _, _ => false
  | 8 => match old.head?, new.head? with | some a, some b => decide ((b - a).natAbs > 256) | _, _ => false
  | 9 => match old.head?, new.head? with | some a, some b => decide (phaseDist a b > 10000) | _, _ => false
  | _ => (List.range (min old.length new.length)).any fun i =>
      let a := (old[i]?).getD 0
      let b := (new[i]?).getD 0
      if i % 2 = 0 then decide ((b - a).natAbs > 1000) else decide (phaseDist a b > 10000)

/-- The reference path in force (R255). -/
def State.refPath (s : State) : Fin 64 :=
  let r : Fin 64 := s.cal.cfg.refPath.toFin
  if s.inActive r then r else (s.activeSet.head?).getD r

/-- The device's own measurement sets that make a 0x0B completion of a path, newer than its last one (R256). -/
def State.burstPair (s : State) (p : Fin 64) : Bool :=
  let r := s.refPath
  let dev : Nat := if s.mode.cur = .array then (match s.hit.cfg with | some h => h.dev | none => 0) else 0
  let mine := s.burst.sets.filter fun m => m.ok && m.unitId == s.burst.cfg.unitId && m.dev.toNat == dev
  let last : Tick := match (s.calRec { id := 11, cls := 1, idx := p.val }).atLast with | some t => t | none => -1
  (mine.filter fun m => m.txPath.toNat == p.val && m.recs.any fun x => x.path == r).any fun a =>
    (mine.filter fun m => m.txPath.toNat == r.val && m.recs.any fun x => x.path == p).any fun b =>
      decide ((a.arrived - b.arrived).natAbs ≤ 983040000 ∧ max a.arrived b.arrived > last)

/-- Slots that one background completion takes (Table 9-1). -/
def calSlots (id : Nat) : Nat :=
  match id with | 3 => 1 | 4 => 16 | 5 => 64 | 6 => 96 | 7 => 32 | 8 => 32 | 9 => 8 | 10 => 64 | _ => 0

/-- Slot length in ticks (Table 9-1). -/
def calLen (id : Nat) : Nat :=
  match id with | 3 => 393216 | 4 => 4096 | 5 | 7 | 8 => 8192 | _ => 16384

/-- Period in ticks (Table 9-1). -/
def calPeriod (id : Nat) : Nat :=
  match id with | 4 => 29491200000 | 5 | 6 => 1966080000 | 7 => 983040000 | 8 | 9 => 9830400000 | 10 => 4915200000 | _ => 0

/-- Foreground time in ticks (Table 9-1). -/
def calTime (id : Nat) : Nat :=
  match id with
  | 1 => 19660800 | 2 => 78643200 | 4 => 58982400 | 5 => 245760000 | 6 => 393216000 | 7 => 122880000 | 8 => 98304000 | 9 => 49152000 | 10 => 491520000 | _ => 0

/-- A calibration of a CAL_RUN is under way, for at least so many ticks. -/
def State.calForeground (s : State) (k : CalKey) (n : Nat) : Bool := s.cal.runs.any fun r => r.busy.any fun x => x.1 == k && decide (x.2 + n ≤ s.dp)

/-- A background calibration whose slots are all done, or a pair of bursts that has come (R253, R256). -/
def State.calBackground (s : State) (k : CalKey) : Bool :=
  if k.id = 11 then (match k.path? with | some p => s.cal.cfg.bgEn.getLsbD 11 && s.mode.cur != .calibrate && s.burstPair p | none => false)
  else (s.cal.partials.any fun x => x.key == k && x.slots ≥ calSlots k.id && s.dp ≤ x.first + 10 * calPeriod k.id) && !(s.cal.slots.any fun x => x.key == k && s.dp < x.fin)

/-- A 0x09 result of a paddock's active channel is written to PHASE of the preset in use (R263). -/
def State.phasePreset (s : State) (k : CalKey) (x : List Int) : State :=
  match toFin 8 k.idx with
  | none => s
  | some pad =>
    let i := s.active pad
    let y := s.radio.synths[i]
    match toFin 32 y.slot with
    | some j =>
      if y.noPreset || y.freq == 0 then s
      else
        let v := BitVec.ofInt 16 (rdiv ((x.headD 0) * 65536) 360000)
        let s := s.modSynth i fun y => { y with presets := vmod y.presets j fun q => { q with phase := v, phaseValid := true } }
        (s.tackPut 17 .presets).tackPut 19 .presets
    | none => s

/-- What a completed result invalidates (Table 9-1). -/
def State.calInvalidates (s : State) (k : CalKey) : State :=
  match k.id, k.path? with
  | 4, some p => { s with quality := vmod s.quality p fun q => { q with txEvm := 0x8000 } }
  | _, _ => s

/-- A 0x04 result waits for the end of the receiver's current capture (Table 9-4). -/
def State.calWait (s : State) (k : CalKey) (x : List Int) : State :=
  let v : CalVal := match s.calVal? k with
    | some v => { v with waiting := some x }
    | none => { key := k, valid := false, now := [], old := [], target := [], moving := false, step := 0, fromDp := 0, b := 0, waiting := some x }
  { s with cal := { s.cal with vals := (s.cal.vals.filter fun y => y.key != k) ++ [v] } }

/-- A capture runs on the observation receiver of a path. -/
def State.obsCapturing (s : State) (p : Fin 64) : Bool := s.lin.caps.any fun c => some c.obs == s.obsOf p && c.start ≤ s.dp

/-- A background result enters service (R262, Table 9-4). DESIGN CHOICE (log 82): where no result is in force that a blend could begin at, it is
applied whole. -/
def State.calEnter (s : State) (k : CalKey) (x : List Int) : State :=
  let quiet : Bool := s.mode.cur == .calibrate || s.transitionRunning ||
    (match k.path? with
     | some p => s.radio.paths[p].lent || !s.inTraffic p
     | none => match k.paddock? with | some m => (paddockPaths m).all fun p => !s.inTraffic p | none => true)
  let first : Bool := match s.calVal? k with | some v => !v.valid | none => true
  let s := if quiet || (first && !(k.id == 8 || k.id == 10 || k.id == 11)) then s.calWhole k x
    else match k.id, k.path? with
      | 4, some p => if s.obsCapturing p then s.calWait k x else s.calWhole k x
      | 4, none | 3, _ => s.calWhole k x
      | _, _ => s.calMove k x
  let s := if k.id = 9 then s.phasePreset k x else s
  s.calInvalidates k

/-- A failed calibration (R260, R269). -/
def State.calFailed (s : State) (k : CalKey) (fore : Bool) : State :=
  let r : Res := { cls := k.cls, idx := k.idx }
  let n := (s.calRec k).failRun + 1
  let s := s.modCalRec k fun x => { x with last := .fail, failRun := if fore ∨ n ≥ 3 then 0 else n }
  if fore then (s.raiseFault .calFail r).calRunMet k false
  else
    let s := { s with cal := { s.cal with partials := s.cal.partials.filter fun x => x.key != k } }
    if n ≥ 3 then s.raiseFault .calRepeat r else s

/-- A common phase measured while the phase epoch is invalid is no result (R84). -/
def State.calVoid (s : State) (k : CalKey) : Bool := k.id == 9 && !s.radio.epochValid

/-- CALIBRATION_COMPLETE (R84, R252, R260, R262 to R265, R268, R269): the result of a foreground run after its foreground time, or its failure, or
the result of a background calibration; nothing where none is complete. -/
def execCalibrationComplete (id cls idx : Nat) (ok : Bool) (vals : List Int) (s : State) : R :=
  let k : CalKey := { id := id, cls := cls, idx := idx }
  .next (
    if id = 3 then s
    else if s.calForeground k (if ok then calTime k.id else 0) then
      if !ok then s.calFailed k true
      else if s.calVoid k then s.calRunMet k true
      else
        let s := (s.calWhole k vals).calDone k
        let s := s.modCalRec k fun r => { r with halted := false }
        let s := if id = 9 then s.phasePreset k vals else s
        (s.calInvalidates k).calRunMet k true
    else if s.calBackground k then
      if !ok then s.calFailed k false
      else
        let s := { s with cal := { s.cal with partials := s.cal.partials.filter fun x => x.key != k } }
        if s.calVoid k then s
        else
        let bad : Bool := match s.calVal? k with | some v => v.valid && outlier id v.target vals | none => false
        if bad then
          let n := (s.calRec k).outRun + 1
          let s := s.modCalRec k fun r => { r with last := .outlier, outRun := n, halted := r.halted || decide (n ≥ 3) }
          if n = 3 then s.postCal 1 id { cls := cls, idx := idx } else s
        else (s.calEnter k vals).calDone k
    else s)

/-- One step of a value toward its target: at most `lim` (R262). -/
def stepTo (lim now target : Int) : Int := now + clampI (-lim) lim (target - now)

/-- One step of a phase in 0.001 degrees, the shorter way round. -/
def stepPhase (lim now target : Int) : Int :=
  let d := (target - now) % 360000
  let d := if d > 180000 then d - 360000 else d
  if d.natAbs ≤ lim.natAbs then target else now + clampI (-lim) lim d

/-- A path of a subject, whose grid its blend follows. -/
def CalKey.gridPath (k : CalKey) : Fin 64 := (toFin 64 (if k.cls = 2 then 8 * k.idx else k.idx)).getD 0

/-- Slot boundaries of a path's carriers (R262). -/
def State.slotTicks (s : State) (p : Fin 64) : Int :=
  if (List.finRange 8).any fun c => s.live c && (s.antennas c).contains p && (match s.ofdm.carriers[c].cfg with | some k => k.scs30 | none => false) then halfSubframe
  else subframe

/-- The value after one boundary. -/
def State.calStep (s : State) (v : CalVal) : CalVal :=
  let p := v.key.gridPath
  let grid : Bool := if blends v.key.id then symbolCeil (s.grid30 p) s.ym.now == s.ym.now else s.ym.now % s.slotTicks p == 0
  if !v.moving || !grid || s.dp < v.fromDp then v
  else if blends v.key.id then
    let i := v.step + 1
    if i ≥ 2 ^ v.b then { v with now := v.target, moving := false, step := 0 }
    else { v with step := i, now := List.zipWith (fun o t => o + rdiv ((i : Int) * (t - o)) (2 ^ v.b)) v.old v.target }
  else
    let one (a : Int × Int × Nat) : Int :=
      if v.key.id = 8 then stepTo 16 a.1 a.2.1 else if a.2.2 % 2 = 0 then stepTo 100 a.1 a.2.1 else stepPhase 1000 a.1 a.2.1
    let now := (List.zip v.now (List.zip v.target (List.range v.target.length))).map one
    { v with now := now, moving := now != v.target, step := v.step + 1 }

/-- CAL_STEP_BOUNDARY (R262, R264): one boundary of a blend or of stepping; when it ends, the newest waiting result begins. A 0x04
result that waits enters once no capture runs on its receiver. -/
def execCalStepBoundary (id cls idx : Nat) (s : State) : R :=
  let k : CalKey := { id := id, cls := cls, idx := idx }
  .next (match s.calVal? k with
    | none => s
    | some v =>
      if id = 4 then
        match v.waiting, k.path? with
        | some x, some p => if s.obsCapturing p then s else s.calWhole k x
        | _, _ => s
      else
        let w := s.calStep v
        let s := { s with cal := { s.cal with vals := s.cal.vals.map fun y => if y.key = k then { w with waiting := v.waiting } else y } }
        match w.moving, v.waiting with
        | false, some x =>
          let clear (y : CalVal) : CalVal := if y.key = k then { y with waiting := none } else y
          { s with cal := { s.cal with vals := s.cal.vals.map clear } }.calMove k x
        | _, _ => s)

-- Background calibration in guard periods (R99, R253)

/-- A background calibration of a subject is due: enabled, not halted, its period over or its temperature moved, or its slots begun. -/
def State.calDue (s : State) (k : CalKey) : Bool :=
  let r := s.calRec k
  s.cal.cfg.bgEn.getLsbD k.id && s.mode.cur != .calibrate && !r.halted && s.counting &&
  ((s.cal.partials.any fun x => x.key == k) || r.count == 0 || s.dp ≥ r.doneAt + calPeriod k.id
    || decide ((s.calTemp k - r.temp).natAbs > s.cal.cfg.tempDelta.toNat))

/-- A subject that takes guard periods now. -/
def State.calSubjectOk (s : State) (k : CalKey) : Bool :=
  match k.id, k.cls with
  | 3, 3 =>
    match toFin 16 k.idx with
    | some i =>
      let y := s.radio.synths[i]
      (match toFin 32 y.slot with
       | some j => !y.noPreset && y.freq != 0 && decide ((s.dieTemp8 (synthPaddock i) - 8 * y.presets[j].calTemp.toInt).natAbs ≥ 200)
       | none => false) && y.st == .locked && s.active (synthPaddock i) != i
    | none => false
  | 9, 2 => (toFin 8 k.idx).isSome
  | i, 1 =>
    match toFin 64 k.idx with
    | some p => decide (4 ≤ i ∧ i ≤ 10 ∧ i ≠ 9) && s.inActive p && !s.radio.paths[p].lent && (!(i == 4 || i == 6) || (s.obsOf p).isSome)
    | none => false
  | _, _ => false

/-- Another subject of the paddock holds the receiver or loopback that the calibration uses (R252). -/
def State.calClash (s : State) (k : CalKey) (a b : Nat) : Bool :=
  let same (q : CalKey) : Bool := q.shares k
  (s.cal.slots.any fun x => same x.key && a < x.fin) ||
  (s.ym.events.any fun e => match e.body with | .calSlot q n => same q && s.dpOf e.due < b && a < s.dpOf e.due + n | _ => false) ||
  (s.cal.runs.any fun r => r.busy.any fun x => same x.1)

/-- BACKGROUND_CAL_DECISION (R252, R253): the Farrier asks for the next slot of a calibration that is due. SYNTH repeats where the
temperature alone calls for it (Table 9-1). -/
def execBackgroundCalDecision (id cls idx : Nat) (due : Tick) (s : State) : R :=
  let k : CalKey := { id := id, cls := cls, idx := idx }
  .next (
    let pending : Bool := (s.ym.events.any fun e => match e.body with | .calSlot q _ => q == k | _ => false)
      || s.cal.slots.any fun x => x.key == k && (id != 3 || s.dp < x.fin)
    let enough : Bool := s.cal.partials.any fun x => x.key == k && x.slots ≥ calSlots id
    let wanted : Bool := if id = 3 then s.cal.cfg.bgEn.getLsbD 3 && s.mode.cur != .calibrate && s.counting && !(s.calRec k).halted else s.calDue k
    let r := s.modCalRec k fun r => { r with cfg := some s.cal.cfg }
    let s := if s.cal.recs.any (fun x => x.key == k) || wanted then r else s
    if !wanted || pending || enough || !s.calSubjectOk k || s.calClash k (s.dpOf due) (s.dpOf due + calLen id) || due < s.ym.now + 16384 then s
    else (s.present (.internal .farrier) none
      [{ kind := .calSlot, due := due, res := { cls := cls, idx := idx }, body := .calSlot k (calLen id) }]).2)

/-- R99: no accepted event needs the path in TX, or the synthesiser as the serving one, in the slot or in the return that follows. -/
def State.calSlotFree (s : State) (e : Event) (k : CalKey) (n : Nat) : Bool :=
  let a := s.dpOf e.due
  let others := s.ym.events.filter fun x => x.id != e.id
  let path (p : Fin 64) : Bool :=
    let b := a + n + chainTime .obs (s.pathBefore p a).st
    !(others.any fun x => s.dpOf x.due < b &&
      match x.body with
      | .pathState q t => q == p && t == .tx && a ≤ s.dpOf x.due
      | _ => match s.needs x p with | some (t, len) => t == .tx && a < s.dpOf x.due + len | none => false) &&
    !((s.plan p).any fun i => i.sure && i.need == .tx && i.due < b && (match i.fin with | some f => a < f | none => a ≤ i.due))
  match k.cls with
  | 1 => (match toFin 64 k.idx with | some p => path p | none => false)
  | 2 => (match toFin 8 k.idx with | some m => (paddockPaths m).all path | none => false)
  | _ => (match toFin 16 k.idx with
      | some i => ((List.range 2).all fun j => s.servingAt (synthPaddock i) (a + j * n) != i) &&
          !(others.any fun x => match x.body with | .hop q b => synthOf q b == i && s.dpOf x.due < a + n | .retune q _ => q == i && s.dpOf x.due < a + n | _ => false)
      | none => false)

/-- One more slot of a calibration has been used. -/
def State.calSlotUsed (s : State) (k : CalKey) (ev fin : Nat) (back : PState) : State :=
  let old := s.cal.partials.find? fun x => x.key == k
  let p : CalPartial := match old with
    | some x => if s.dp ≤ x.first + 10 * calPeriod k.id then { x with slots := x.slots + 1 } else { key := k, slots := 1, first := s.dp }
    | none => { key := k, slots := 1, first := s.dp }
  { s with cal := { s.cal with partials := (s.cal.partials.filter fun x => x.key != k) ++ [p]
                               slots := (s.cal.slots.filter fun x => s.dp < x.fin) ++ [{ key := k, fin := fin, back := back, ev := ev }] } }

/-- The cause for which a path cannot take its guard period (R89, R92, R93): something evaluated earlier holds it, its interlock is open,
or its LO is not LOCKED where it enters OBS or where it has returned. -/
def State.calSlotCause (s : State) (p : Fin 64) (a n : Nat) : Option Cause :=
  let m := s.pathBefore p a
  let inn := a + chainTime m.st .obs
  let out := a + n + chainTime .obs m.st
  let held : Bool := (s.plan p).any fun i => i.sure && i.due < out && (match i.fin with | some f => a < f | none => a ≤ i.due)
  let lo (t : Nat) : Option Cause := match s.synthAt (s.servingAt (paddockOf p) t) t with
    | .locked => none
    | .calibrating => some .synthCalibrating
    | _ => some .synthSettling
  if m.run.isSome || a < m.free || held || !s.interlock p then some .pathState
  else match lo inn with
    | some c => some c
    | none => if m.st == .off || m.st == .sleep then none else lo out

/-- The check of a CAL_SLOT. -/
def State.calSlotCheck (s : State) (e : Event) : Option (Cause × Res) :=
  match e.body with
  | .calSlot k n => match k.cls, toFin 64 k.idx with
    | 1, some p => (s.calSlotCause p (s.dpOf e.due) n).map fun c => (c, e.res)
    | _, _ => none
  | _ => none

/-- A released CAL_SLOT (R99): a path is held in OBS for the slot and then returns to its state, an idle synthesiser calibrates. -/
def State.calSlotTake (s : State) (e : Event) : State :=
  match e.body with
  | .calSlot k n =>
    let a := s.dpOf e.due
    (match k.cls, toFin 64 k.idx, toFin 16 k.idx with
    | 1, some p, _ =>
      let back := (s.pathBefore p a).st
      ((s.pathLater p a .obs (some (a + n)) a).pathLater p (a + n) back none).calSlotUsed k e.id (a + n) back
    | 3, _, some i =>
      let s := s.synthLater i a (.calibrate s.radio.synths[i].freq false)
      { s with cal := { s.cal with slots := (s.cal.slots.filter fun x => s.dp < x.fin) ++ [{ key := k, fin := a + n, back := .standby, ev := e.id }] } }
    | _, _, _ => s.calSlotUsed k e.id (a + n) .standby)
  | _ => s

/-- CAL_SLOT_RELEASE (R99, R253): where R99 does not hold at the release tick, the Farrier does not issue the CAL_SLOT. -/
def execCalSlotRelease (ev : Nat) (s : State) : R :=
  .next (match s.releasable ev .calSlot with
    | none => s
    | some e =>
      match e.body with
      | .calSlot k n => if !s.calSubjectOk k || !s.calSlotFree e k n then s.removeEvent e.id else s.release ev .calSlot State.calSlotCheck State.calSlotTake
      | _ => s)

/-- PARTIAL_RESULT_EXPIRY (R253): a partial result older than ten periods is discarded. -/
def execPartialResultExpiry (id cls idx : Nat) (s : State) : R :=
  let k : CalKey := { id := id, cls := cls, idx := idx }
  .next { s with cal := { s.cal with partials := s.cal.partials.filter fun x => !(x.key == k && x.first + 10 * calPeriod id < s.dp) } }

/-- CAL_SET_STORE (R266): with AUTO_STORE, at most once in 60 s for each set, the background results are written. -/
def execCalSetStore (s : State) : R :=
  .next (
    let keys := (s.cal.recs.filter fun r => !r.stored && r.count != 0 && (s.calCfg r.key).autoStore).map fun (r : CalRec) => r.key
    if s.mode.cur == .calibrate || keys.isEmpty then s else s.calStore keys none true)

-- Settings and status

/-- CAL_SET (R261): its fields are one record of the CONFIG region. -/
def execCalSet (c : Cmd) (s : State) : R :=
  .next (s.hostCmd c 0x49 anyOp fun x =>
    let p := x.payload
    let cfg : CalCfg := { bgEn := pf p 0 0 16, calB := pf p 2 4 4, autoStore := pb p 2 0, tempDelta := pf p 3 0 8, refPath := pf p 4 0 6 }
    if cfg.calB.toNat > 10 || cfg.tempDelta == 0 || (cfg.bgEn &&& 0xF007) != 0 then s.complete c.ref .badArg
    else ({ s with cal := { s.cal with cfg := cfg } }.tackPut 2 (.calCfg cfg) (some c.ref)).finish c.ref .ok)

/-- Codes of LAST (Table 9-6). -/
def CalOut.code : CalOut → Nat
  | .none => 0 | .ok => 1 | .fail => 2 | .outlier => 3 | .aborted => 4

/-- The result in force is held in the tack store (Table 9-6). -/
def State.calHolds (s : State) (k : CalKey) : Bool :=
  match s.calVal? k, k.paddock? with
  | some v, some m => v.valid && s.tack.nv.sets.any fun x => x.fitsLo s.mode.prof s.mode.plo[m] && x.results.contains (k, v.target)
  | _, _ => false

/-- A calibration record (Table 9-6). -/
def State.calRecord (s : State) (k : CalKey) : Bytes × State :=
  let r := s.calRec k
  let mov : Bool := match s.calVal? k with | some v => v.moving || v.waiting.isSome | none => false
  let stored : Bool := if 4 ≤ k.id ∧ k.id ≤ 10 then s.calHolds k else r.stored
  s.record 24 ([.v 8 k.id, .v 4 r.last.code, .v 4 k.cls, .v 12 k.idx, .u 1, .v 1 (b2n stored), .v 1 (b2n mov), .v 1 (b2n r.halted), .v 32 r.count.toNat] ++ airFlds (match r.atLast with | some t => airWord t | none => 0) ++ [.v 32 r.tb0s.toNat, .v 32 r.tb0ns.toNat])

/-- The subjects that a CAL_STATUS selects, in ID order (R268, R425). -/
def State.calSelected (ps : List (Fin 64)) (ids : Nat) : List CalKey :=
  ((List.range 12).filter fun i => i ≥ 1 && ids.testBit i).flatMap fun i =>
    if i = 1 ∨ i = 2 then [{ id := i, cls := 9, idx := 0 }]
    else if i = 3 then (namedPaddocks ps).flatMap fun k => [{ id := 3, cls := 3, idx := 2 * k.val }, { id := 3, cls := 3, idx := 2 * k.val + 1 }]
    else if i = 9 then (namedPaddocks ps).map fun k => { id := 9, cls := 2, idx := k.val }
    else ps.map fun p => { id := i, cls := 1, idx := p.val }

/-- CAL_STATUS (R268). -/
def execCalStatus (c : Cmd) (s : State) : R :=
  .next (s.hostCmd c 0x4A anyOp fun x =>
    let ks := State.calSelected (setBits x.select) (pf x.payload 20 0 16).toNat
    let r := ks.foldl (fun (a : Bytes × State) k => let b := a.2.calRecord k; (a.1 ++ b.1, b.2)) ([], s)
    r.2.respond c x r.1)

/-- TACK_STATUS (R276). -/
def execTackStatus (c : Cmd) (s : State) : R :=
  .next (s.hostCmd c 0x4B anyOp fun x =>
    if x.select ≠ 0 then s.complete c.ref .badArg
    else
      let t := s.tack
      let r := s.record 16 [.v 16 t.spares, .v 16 t.retired, .v 32 (t.counters.foldl (fun (m : Nat) (p : Nat × BitVec 32) => max m p.2.toNat) 0),
        .v 5 ((s.tack.nv.sets.filter fun x => s.calSetValid x).length), .u 3, .v 1 (b2n t.readOnly), .u 3, .v 4 s.lin.keys.length, .v 16 t.crcFail.toNat, .v 32 t.writes.toNat]
      r.2.respond c x r.1)

-- Writes of the tack store (R272 to R274)

/-- The physical sector of a logical one (R271). -/
def Tack.phys (t : Tack) (n : Nat) : Nat := match t.map.find? fun x => x.1 == n with | some x => x.2 | none => n

/-- A physical sector's write counter. -/
def Tack.count (t : Tack) (p : Nat) : BitVec 32 := match t.counters.find? fun x => x.1 == p with | some x => x.2 | none => 0

/-- A physical sector is free: not retired, not an unused spare, holding no logical sector; the reserved logical sectors 1545 to 1924
hold nothing. -/
def Tack.isFree (t : Tack) (p : Nat) : Bool :=
  !(t.bad.contains p) && p < 1925 + (123 - t.spares) && !(t.map.any fun x => x.2 == p)
  && (p ≥ 1545 || t.map.any fun x => x.1 == p)

/-- The free sector that a write of a logical sector takes (R272, R273): the lowest, or the least written once wear calls for it. -/
def Tack.pick (t : Tack) (n : Nat) (skip : Option Nat) : Option Nat :=
  let ok (p : Nat) : Bool := t.isFree p && skip != some p
  if (t.count (t.phys n)).toNat < 2 ^ 20 then (List.range 2048).find? ok
  else
    let fr := (List.range 2048).filter ok
    let least := fr.foldl (fun (b : Option Nat) p => match b with | none => some p | some q => if (t.count p).toNat < (t.count q).toNat then some p else some q) none
    match least with
    | some q => if (t.count (t.phys n)).toNat ≥ (t.count q).toNat + 2 ^ 20 then some q else fr.head?
    | none => none

/-- One more write of a physical sector. -/
def Tack.wrote (t : Tack) (p : Nat) : Tack :=
  { t with counters := (t.counters.filter fun x => x.1 != p) ++ [(p, satInc (t.count p))], writes := satInc t.writes }

/-- A record takes force when its write commits (R272). -/
def State.tackApply (s : State) (r : TackRec) : State :=
  let t := s.tack
  let nv (f : Nv → Nv) : State := { s with tack := { t with nv := f t.nv } }
  match r with
  | .bootFc n => nv fun v => { v with bootFc := some n }
  | .calCfg c => nv fun v => { v with calCfg := some c }
  | .rollback i v =>
    match toFin 4 i with
    | some i => if t.svn[i] = v then s else { s with tack := { t with svn := vset t.svn i v } }.postSec 3 i.val 0 0xFF
    | none => s
  | .preferred fw b => { s with tack := if fw then { t with fwPrefB := b } else { t with farPrefB := b } }
  | .identity a b => { s with tack := { t with pub := some (a, b) } }.postSec 4 0 0 0xFF
  | .cert b => { s with tack := { t with cert := some b } }
  | .ledger l =>
    let same (x : LedgerRec) : Bool := x.kind == l.kind && x.res == l.res && (l.kind != 2 || x.detail == l.detail)
    { s with tack := { t with ledger := if t.ledger.any same then t.ledger.map fun x => if same x then l else x else (t.ledger ++ [l]).take 1024 } }
  | .presets => nv fun v => { v with presets := s.radio.synths.map fun y => y.presets }
  | .convTrim => nv fun v => { v with trims := s.conv.trims }
  | .adjacency => nv fun v => { v with adj := s.lin.adj }
  | .calSet => nv fun v => { v with sets := s.cal.sets }
  | .dpdSet => nv fun v => { v with keys := s.lin.keys }
  | .faultLog b => { s with tack := { t with faultLog := (b :: t.faultLog).take 8128 } }
  | .image i b => match toFin 6 i with | some i => { s with tack := { t with images := vset t.images i (some { bytes := b }) } } | none => s
  | .directory => s

/-- A physical sector failed verification (R273): retired into the ledger, a spare joins the pool; with no spare left, R274. -/
def State.tackRetire (s : State) (p : Nat) : State :=
  let t := s.tack
  let s := { s with tack := { t with bad := p :: t.bad, retired := t.retired + 1, spares := t.spares - 1 } }
  let s := s.ledgerPut 2 0xF3 { cls := 9, idx := 0x3F0 } (BitVec.ofNat 64 p)
  if t.spares - 1 = 0 ∧ t.readOnly = false then
    ({ s with tack := { s.tack with readOnly := true } }.postCal 4 0 { cls := 9, idx := 0x3F0 }).raiseFault .tackWorn { cls := 9, idx := 0x3F0 }
  else s

/-- TACK_RECORD_COMMIT (R272 to R274): the oldest queued write is verified and committed; a failed one is retried once on another free
sector, and the second time the old record stays and the command that waits for it fails with HW_FAULT. -/
def execTackRecordCommit (verified : Bool) (s : State) : R :=
  .next (match s.tack.queue with
    | [] => s
    | w :: rest =>
      let t := s.tack
      match t.pick w.sector none with
      | none => { s with tack := { t with queue := rest } }
      | some p =>
        let s := { s with tack := t.wrote p }
        if verified then
          let s := { s with tack := { s.tack with queue := rest, map := (t.map.filter fun (x : Nat × Nat) => x.1 != w.sector) ++ [(w.sector, p)] } }
          s.tackApply w.rec_
        else if w.retried then
          let s := ({ s with tack := { s.tack with queue := rest } }).tackRetire p
          match w.cmd with | some r => s.finish r .hwFault | none => s
        else ({ s with tack := { s.tack with queue := { w with retried := true } :: rest } }).tackRetire p)

end Sys2Proof.Machine
end

