-- ==== Sys2Proof/Machine/FamConv.lean ====
section
/-! DEFINITION. Meanings of converters, resamplers and delays (chapter 04). -/

namespace Sys2Proof.Machine

/-- Conditions of R111 under which FC_SET and RS_COEF_LOAD conflict; a running FC_SET is one of them (DEDUCED, log 78). -/
def State.fcConflict (s : State) : Bool :=
  let live (t : PState) : Bool := t == .rx || t == .tx || t == .obs
  s.mode.cur != .calibrate || s.inTransition || !s.cal.runs.isEmpty || !s.mem.lbist.isEmpty || s.destroyingMarch || s.conv.run.isSome ||
  (List.finRange 64).any fun p =>
    let x := s.radio.paths[p]
    live x.st || (match x.transit with | some t => live t.target | none => false)

/-- The converter clock and trims of a new FC_N take force (R113): DPD state is invalidated on every path. -/
def State.fcTake (s : State) (n : BitVec 16) : State :=
  let s := { s with conv := { s.conv with fcN := n, trims := n :: s.conv.trims.filter fun m => m != n } }
  (List.finRange 64).foldl (fun (s : State) p => (s.coldStart p).modDpd p fun d => { d with stale := true }) s

/-- PERSIST of FC_SET: the boot value of the CONFIG region (R109, R110). -/
def State.fcPersist (s : State) (r : CmdRef) (n : BitVec 16) (on : Bool) : State := if on then s.tackPut 2 (.bootFc n) (some r) else s

/-- FC_SET (R110 to R113): a blank of 2.5 ms, and 80 ms more where the mismatch trim runs. -/
def execFcSet (c : Cmd) (s : State) : R :=
  .next (s.hostCmd c 0x20 anyOp fun x =>
    let n : BitVec 16 := pf x.payload 2 0 16
    let stored : Bool := s.conv.trims.contains n
    if n.toNat < 30000 || n.toNat > 35000 then s.complete c.ref .badArg
    else if s.fcConflict then s.complete c.ref .modeConflict
    else if n = s.conv.fcN then (s.fcPersist c.ref n (pb x.payload 0 0)).finish c.ref .ok
    else if !stored && !pb x.payload 0 1 then s.complete c.ref .notReady
    else
      let r : FcRun :=
        { ref := c.ref, fcN := n, blank := s.dp + 2457600, fin := s.dp + 2457600 + (if stored then 0 else 78643200), switched := false, trim := !stored
          persist := pb x.payload 0 0 }
      { s.setStage c.ref .running with conv := { s.conv with run := some r } })

/-- The stop-switch-restart of the converter clock domain lies within the 2.5 ms of the blank, at whose end the domain runs at the new FC_N (R112,
Table 13-3). -/
def State.fcSwitch (s : State) : State :=
  match s.conv.run with
  | some r => if r.switched || s.dp < r.blank then s else { s with conv := { s.conv with run := some { r with switched := true } } }.fcTake r.fcN
  | none => s

/-- FC_SET_COMPLETE (R112, R113): a trim that ran is stored among the four of R113; converters, NCOs and resamplers serve from the next frame
boundary. -/
def execFcSetComplete (s : State) : R :=
  .next (match s.conv.run with
    | none => s
    | some r =>
      if s.dp < r.fin then s
      else
        let s := s.fcSwitch
        let s := { s with conv := { s.conv with run := none, serveAt := if s.counting then some (ceilTo frameTicks s.ym.now) else none } }
        let s := if r.trim then
            ({ s with conv := { s.conv with trims := s.conv.trims.take 4 } }.tackPut 22 .convTrim).calDone { id := 2, cls := 9, idx := 0 }
          else s
        (s.fcPersist r.ref r.fcN r.persist).finish r.ref .ok)

/-- The words of a coefficient set of 2,048 bytes, low 18 bits each (R121). -/
def coefWords (b : Bytes) : List (BitVec 18) := (List.range 512).map fun i => BitVec.ofNat 18 (ofLe ((b.drop (4 * i)).take 4))

/-- h[n] of a set: the tap (p, t) lies at word 16p + t, and h[32t + p] is that tap. -/
def coefH (l : List (BitVec 18)) (n : Nat) : Int := ((l[16 * (n % 32) + n / 32]?).getD 0).toInt

/-- R121: symmetric, each phase summing to 1 within 2^-14. -/
def coefValid (l : List (BitVec 18)) : Bool :=
  ((List.range 256).all fun n => coefH l n == coefH l (511 - n)) &&
  ((List.range 32).all fun p => ((((l.drop (16 * p)).take 16).foldl (fun (a : Int) (c : BitVec 18) => a + c.toInt) 0) - 131072).natAbs ≤ 8)

/-- RS_COEF_LOAD (R122, R123): the set serves from the next frame boundary, at which the command completes. -/
def execRsCoefLoad (c : Cmd) (s : State) : R :=
  .next (s.hostCmd c 0x21 anyOp fun x =>
    let ks : List (Fin 8) := setBits (pf x.payload 0 0 8)
    let rom := pb x.payload 1 0
    if ks.isEmpty || (!rom && (pf x.payload 8 0 64).extractLsb' 0 6 != 0) then s.complete c.ref .badArg
    else if s.fcConflict then s.complete c.ref .modeConflict
    else
      let set : Option (Option (List (BitVec 18))) := if rom then some none else c.data.map fun b => some (coefWords b)
      match set with
      | none => s.complete c.ref .busErr
      | some v =>
        if !(match v with | some l => coefValid l | none => true) then s.complete c.ref .badArg
        else if !s.counting then
          { s with conv := { s.conv with coef := ks.foldl (fun a k => vset a k v) s.conv.coef } }.finish c.ref .ok
        else
          let at_ := (s.ym.now / frameTicks + 1) * frameTicks
          let s := { s with conv := { s.conv with coefNext := ks.foldl (fun a k => vset a k (some (at_, v))) s.conv.coefNext } }
          (s.setStage c.ref .running).at_ (s.dpOf at_) (.complete c.ref .ok 0))

/-- Coefficient sets whose frame boundary has come serve (R123). -/
def State.coefServe (s : State) : State :=
  (List.finRange 8).foldl (fun (s : State) k =>
    match s.conv.coefNext[k] with
    | some (t, v) => if t ≤ s.ym.now then { s with conv := { s.conv with coef := vset s.conv.coef k v, coefNext := vset s.conv.coefNext k none } } else s
    | none => s) s

/-- A converter status record (Table 4-7). -/
def State.convRecord (s : State) (p : Fin 64) : Bytes × State :=
  let x := s.conv.sat[p]
  s.record 16 [.v 16 x.adcOvr.toNat, .v 16 x.rxNco.toNat, .v 16 x.rxRs.toNat, .v 16 x.derot.toNat, .v 16 x.txRs.toNat, .v 16 x.txComb.toNat,
    .v 16 x.dacClip.toNat, .v 3 (p.val % 8), .u 5, .u 8]

/-- CONV_STATUS (R129). -/
def execConvStatus (c : Cmd) (s : State) : R :=
  .next (s.statusCmd c 0x22 64 fun x =>
    let ps := setBits x.select
    let r := ps.foldl (fun (a : Bytes × State) p => let b := a.2.convRecord p; (a.1 ++ b.1, b.2)) ([], s)
    r.2.respond c x r.1 fun s => { s with conv := { s.conv with sat := ps.foldl (fun v p => vset v p ConvSat.zero) s.conv.sat } })

/-- N_RB and the number of half-band stages j of a bandwidth (Tables 4-4 and 5-3). -/
def carrierRate (scs30 : Bool) (bw : Nat) : Option (Nat × Nat) :=
  if scs30 then
    match bw with
    | 5 => some (11, 8) | 10 => some (24, 7) | 15 => some (38, 7) | 20 => some (51, 6) | 25 => some (65, 6) | 30 => some (78, 6)
    | 40 => some (106, 5) | 50 => some (133, 5) | 60 => some (162, 5) | 70 => some (189, 4) | 80 => some (217, 4) | 90 => some (245, 4)
    | 100 => some (273, 4) | _ => none
  else
    match bw with
    | 5 => some (25, 8) | 10 => some (52, 7) | 15 => some (79, 7) | 20 => some (106, 6) | 25 => some (133, 6) | 30 => some (160, 6)
    | 40 => some (216, 5) | 50 => some (270, 5) | _ => none

/-- The derotation state of a carrier is on (R159). -/
def CarrierCfg.derot (k : CarrierCfg) : Bool := k.derotOn || k.srcMask != 4

/-- Analogue delays A_RX and A_TX in hundredths of a tick (Table 4-8). -/
def analogueDelay : Profile → Int × Int
  | .pw => (128, 110) | .pn => (182, 160) | .pl => (192, 160) | .pb => (452, 410)

/-- A delay of R130 in 2^-16 ticks, rounded to nearest: analogue term, samples at Fc/2, half-band chain. -/
def delayWord (a : Int) (samples : Int) (fcN j : Nat) : Nat :=
  let d := ((Q.make a 100).add (Q.ofInt 32)).add ((Q.make (samples * 16384) fcN).add (Q.make (11 * (2 ^ j - 1 : Int)) 2))
  ((d.mul (Q.ofInt 65536)).round).toNat

/-- A delay report record (Table 4-11). -/
def State.delayRecord (s : State) (k : CarrierCfg) : Bytes × State :=
  let j := match carrierRate k.scs30 k.bw.toNat with | some x => x.2 | none => 0
  let a := analogueDelay s.mode.prof
  s.record 16 [.v 32 (delayWord a.1 44 s.conv.fcN.toNat j), .v 32 (delayWord a.2 158 s.conv.fcN.toNat j), .v 16 s.conv.fcN.toNat,
    .v 4 j, .v 4 s.mode.prof.code.toNat, .v 1 (b2n k.derot), .u 7, .u 32]

/-- DELAY_REPORT (R133): carriers that are not configured are skipped. -/
def execDelayReport (c : Cmd) (s : State) : R :=
  .next (s.statusCmd c 0x23 8 fun x =>
    let r := ((List.finRange 8).filter fun k => x.select.getLsbD k.val).foldl (fun (a : Bytes × State) k =>
      match s.ofdm.carriers[k].cfg with
      | some g => let b := a.2.delayRecord g; (a.1 ++ b.1, b.2)
      | none => a) ([], s)
    r.2.respond c x r.1)

end Sys2Proof.Machine
end

