-- ==== Sys2Proof/Machine/FamCarrier.lean ====
section
/-! DEFINITION. Meanings of carrier configuration, CONFIG events and the beam table (chapter 05). -/

namespace Sys2Proof.Machine

-- Where a configuration change takes effect (R71, R136, R174, R217, R307, R493)

-- The symbol grid and PRBs (Table 2-3, R137, R142)

/-- Start of a symbol within its slot (Table 2-3). -/
def symStart (scs30 : Bool) (l : Nat) : Int :=
  if scs30 then (if l = 0 then 0 else 512 + 35072 * l) else 70144 * l + 512 * ((if l ≥ 1 then 1 else 0) + (if l ≥ 8 then 1 else 0))

/-- Ticks of a symbol with its prefix (Table 2-3). -/
def symLen (scs30 : Bool) (l : Nat) : Nat :=
  if scs30 then (if l = 0 then 35584 else 35072) else (if l = 0 ∨ l = 7 then 70656 else 70144)

/-- N_RB of a carrier (Table 5-3). -/
def CarrierCfg.nRb (k : CarrierCfg) : Nat := match carrierRate k.scs30 k.bw.toNat with | some x => x.1 | none => 0

/-- PRBs of a group (R142). -/
def CarrierCfg.groupPrbs (k : CarrierCfg) : Nat := 2 ^ k.group.toNat

/-- PRB groups of a carrier (R142). -/
def CarrierCfg.groups (k : CarrierCfg) : Nat := (k.nRb + k.groupPrbs - 1) / k.groupPrbs

-- Configuration changes

/-- A slot of a carrier in ticks. -/
def slotOf (scs30 : Bool) : Int := if scs30 then halfSubframe else subframe

/-- The configuration of a carrier at an air tick, given the changes whose boundary has been settled (R136). -/
def State.cfgAt (s : State) (c : Fin 8) (t : Tick) : Option CarrierCfg :=
  s.ym.timed.foldl (fun (o : Option CarrierCfg) (x : Timed) =>
    match x.act with
    | .cfg (.carrier d k) _ => if d = c ∧ x.due ≤ s.dpOf t then some k else o
    | .cfg (.carrierRemove d) _ => if d = c ∧ x.due ≤ s.dpOf t then none else o
    | _ => o) s.ofdm.carriers[c].cfg

/-- A change that takes effect at a frame boundary: a new carrier, or another SCS, bandwidth or centre (R136). -/
def frameChange (old : Option CarrierCfg) (k : CarrierCfg) : Bool :=
  match old with
  | none => true
  | some o => o.scs30 != k.scs30 || o.bw != k.bw || o.centre != k.centre

/-- The slot length of a carrier; a carrier that does not exist takes half-subframes. -/
def State.carrierSlot (s : State) (c : Fin 8) : Int := match s.ofdm.carriers[c].cfg with | some k => slotOf k.scs30 | none => halfSubframe

/-- The first slot boundary of a carrier at or after a tick. -/
def State.slotCeil (s : State) (c : Fin 8) (due : Tick) : Tick := ceilTo (match s.cfgAt c due with | some k => slotOf k.scs30 | none => halfSubframe) due

/-- The air tick at which a change due at a tick takes effect (R71, R136, R174, R217, R307, R493): what a CONFIGURE changes is told by the
configuration that it meets at the slot boundary. -/
def State.cfgEffect (s : State) (ch : CfgChange) (due : Tick) : Tick :=
  match ch with
  | .pathReturn ps _ _ | .pathLevels ps _ _ => s.pathsCeil (setBits ps) due
  | .carrier c k => let t := ceilTo (slotOf k.scs30) due; if frameChange (s.cfgAt c t) k then ceilTo frameTicks due else t
  | .carrierRemove _ => ceilTo frameTicks due
  | .weight c _ | .flow c _ _ _ | .kernel c _ => s.slotCeil c due
  | .cfr _ _ => ceilTo subframe due

-- CARRIER_SET (R134 to R136)

/-- The configuration that a CARRIER_SET carries (Table 5-1). -/
def carrierOf (p : BitVec 320) : CarrierCfg :=
  { scs30 := pb p 1 7, bw := pf p 1 0 7, group := pf p 2 2 3, derotOn := pb p 2 1, fbPrev := pb p 2 0, srcMask := pf p 3 0 3, centre := pf p 4 0 32
    dlLayers := pf p 8 0 6, ulLayers := pf p 9 0 5, fbBeam := pf p 10 0 12, preShift := pf p 12 4 3, combShift := pf p 12 0 3
    fftAdjTx := pf p 13 4 3, fftAdjRx := pf p 13 0 3, fftAdv := pf p 14 0 2, txAtt := pf p 15 0 8 }

/-- BAD_ARG of R135 on the fields alone. -/
def CarrierCfg.bad (k : CarrierCfg) : Bool :=
  (carrierRate k.scs30 k.bw.toNat).isNone || k.srcMask == 0 || (k.dlLayers == 0 && k.ulLayers == 0) || k.dlLayers.toNat > 32
  || k.ulLayers.toNat > 16 || k.centre.toNat % 10 != 0

/-- Two carriers are served by one LO. -/
def State.sameLo (s : State) (a b : Fin 8) : Bool := s.mode.cur != .split || (decide (a.val < 4) == decide (b.val < 4))

/-- The occupied band overlaps that of another carrier of the same LO (R135). -/
def State.bandOverlap (s : State) (c : Fin 8) (k : CarrierCfg) : Bool :=
  (List.finRange 8).any fun d => d != c && s.sameLo c d && (match s.ofdm.carriers[d].cfg with | some o => k.overlaps o | none => false)

/-- Present a CONFIG event of one carrier; the command completes where the change takes effect (R136, R424), which its release settles. -/
def State.carrierEvent (s : State) (c : CmdRef) (x : Slot) (n : Fin 8) (ch : CfgChange) : State :=
  s.presentCmd c x.tag none [{ kind := .config, due := s.eventDue x .config, res := { cls := 4, idx := n.val }, body := .config ch }]

/-- CARRIER_CONFIGURE (R24, R46, R135, R136). -/
def execCarrierConfigure (c : Cmd) (s : State) : R :=
  .next (s.hostCmd c 0x28 (opIs 0 3 2 1) fun x =>
    let n : Fin 8 := (pf x.payload 0 0 3).toFin
    let k := carrierOf x.payload
    if x.atBad || k.bad || s.bandOverlap n k then s.complete c.ref .badArg
    else if s.transitionBlocks (s.dueOf x) then s.complete c.ref .modeConflict
    else if s.mode.cur != .calibrate && !fits s.mode.cur s.mode.bandA s.mode.bandB n k then s.complete c.ref .modeConflict
    else s.carrierEvent c.ref x n (.carrier n k))

/-- CARRIER_REMOVE (R46, R135, R136). -/
def execCarrierRemove (c : Cmd) (s : State) : R :=
  .next (s.hostCmd c 0x28 (opIs 0 3 2 2) fun x =>
    let n : Fin 8 := (pf x.payload 0 0 3).toFin
    if x.atBad then s.complete c.ref .badArg
    else if s.transitionBlocks (s.dueOf x) then s.complete c.ref .modeConflict
    else if s.ofdm.carriers[n].cfg.isNone then s.complete c.ref .notReady
    else s.carrierEvent c.ref x n (.carrierRemove n))

-- What the changes do

/-- R127, R136: a carrier's book entries, sidings and confirmed on-device weights are discarded; occasions that have begun to be received are
abandoned, so that what they hold is never combined with what comes after. -/
def State.discardWeights (s : State) (c : Fin 8) : State :=
  let s := (s.scrapCarrier c).discardBook c
  let begun (x : Occasion) : Bool := x.carrier == c && decide (x.slot + symStart (match s.ofdm.carriers[c].cfg with | some k => k.scs30 | none => true) x.sym0 < s.ym.now)
  { s with ofdm := { s.ofdm with
      occasions := s.ofdm.occasions.map fun (x : Occasion) => if begun x then { x with abandoned := true } else x
      confirmed := s.ofdm.confirmed.filter fun x => x.carrier != c
      claims := s.ofdm.claims.filter fun x => x.carrier != c
      lastMap := s.ofdm.lastMap.filter fun x => x.1.1 != c } }

/-- The egress port of a new carrier: the lowest-numbered port of role FH, else 0 (R307). -/
def State.firstFh (s : State) : BitVec 3 :=
  match (List.finRange 8).find? fun n => s.fh.ports[n].st != .disabled && s.fh.ports[n].cfg.role == 0 with
  | some n => BitVec.ofFin n
  | none => 0

/-- A CARRIER_SET of a carrier takes effect: the next message of each of its flows is a first one (R287). -/
def State.forgetSeq (s : State) (c : Fin 8) : State :=
  { s with fh := { s.fh with rxSeq := s.fh.rxSeq.filter fun x => x.1.2 / 8192 != c.val } }

/-- A CONFIGURE takes effect (R105, R126, R127, R136, R188). A carrier configured in CALIBRATE, or while traffic is stopped, is
suspended. -/
def State.carrierTake (s : State) (c : Fin 8) (k : CarrierCfg) : State :=
  let s := (s.clearNf c).forgetSeq c
  let stop : Bool := s.mode.cur == .calibrate || s.host.top.safe || s.pwr.st != .active
  match s.ofdm.carriers[c].cfg with
  | none =>
    let port := s.firstFh
    let s := s.modCarrier c fun x =>
      { x with cfg := some k, suspended := stop, serveFrom := s.ym.now, count := CarrierCount.zero, wcfg := WeightCfg.initial, wcount := WeightCount.zero
               recipInvalid := false, flow := { FlowCfg.initial with port := port }, seen := true }
    let s := s.discardWeights c
    if stop then s else s.prepareCarrier c
  | some o =>
    let s := if frameChange (some o) k || o.group != k.group || o.derot != k.derot then s.discardWeights c else s
    let s := s.modCarrier c fun x => { x with cfg := some k }
    if s.ofdm.carriers[c].suspended then s else s.prepareCarrier c

/-- A WEIGHT_SET takes effect (R174). -/
def State.weightTake (s : State) (c : Fin 8) (w : WeightCfg) : State :=
  let o := s.ofdm.carriers[c].wcfg
  let s := s.modCarrier c fun x => { x with wcfg := w }
  if o.sigE != w.sigE || o.sigM != w.sigM || o.kAhead != w.kAhead || o.aheadDir != w.aheadDir then s.scrapCarrier c else s

/-- Path levels take effect (R71, R72): under the cold-start limit the attenuation is held at 6 dB at least; a ramp goes on. -/
def State.levelsTake (s : State) (ps : List (Fin 64)) (rx : Option (BitVec 5)) (tx : Option (BitVec 7)) : State :=
  ps.foldl (fun (s : State) p =>
    let s := s.modPath p fun x => { x with rxGain := rx.getD x.rxGain, txAtten := tx.getD x.txAtten }
    match tx with
    | none => s
    | some a => s.modDpd p fun d => if d.ramping then d else { d with attenNow := if d.cap then capAtten a else a }) s

/-- A CONFIG change takes effect. -/
def State.applyCfg (s : State) (ch : CfgChange) : State :=
  match ch with
  | .pathReturn ps t rs => (setBits ps).foldl (fun (s : State) p => s.modPath p fun x => { x with retTx := t, retRxSleep := rs }) s
  | .pathLevels ps rx tx => s.levelsTake (setBits ps) rx tx
  | .carrier c k => s.carrierTake c k
  | .carrierRemove c => (s.forgetSeq c).removeCarrier c
  | .weight c w => if s.ofdm.carriers[c].cfg.isSome then s.weightTake c w else s
  | .cfr b k => { s with lin := { s.lin with cfr := vset s.lin.cfr b k } }
  | .flow c port ord m => s.modCarrier c fun x => { x with flow := { port := port, ordered := ord, mantM1 := m, moved := none, home := 0 } }
  | .kernel c slot => if s.ofdm.carriers[c].cfg.isSome then (s.modCarrier c fun x => { x with kernel := slot }).scrapCarrier c else s

/-- A path's state accepts PATH_SET RETURN and LEVELS in STANDBY, RX and TX alone (Table 3-7, R90). -/
def State.configCheck (s : State) (e : Event) : Option (Cause × Res) :=
  let refuse (p : Fin 64) : Bool :=
    let st := (s.pathBefore p (s.dpOf e.due)).st
    st == .off || st == .sleep || st == .obs
  match e.body with
  | .config (.pathReturn ps _ _) | .config (.pathLevels ps _ _) => if (setBits ps).any refuse then some (.pathState, e.res) else none
  | _ => none

/-- A change is placed at its boundary, in order of acceptance among those of one boundary (R136); the command of a carrier's change completes
there. -/
def State.cfgPlace (s : State) (e : Event) (ch : CfgChange) : State :=
  let t := s.dpOf (s.cfgEffect ch e.due)
  let s := s.at_ t (.cfg ch e.id)
  match e.doneAt, e.src with
  | none, .cmd r _ => s.at_ t (.complete r .ok 0)
  | _, _ => s

/-- CONFIG_RELEASE (R71, R90, R105, R126, R127, R136, R174, R217, R307, R493): the change is placed at its boundary. -/
def execConfigRelease (ev : Nat) (s : State) : R :=
  .next (s.release ev .config State.configCheck fun s e =>
    match e.body with
    | .config ch => s.cfgPlace e ch
    | _ => s)

-- Status (R160)

/-- A carrier status record (Table 5-8); a carrier that is not configured has the defaults of Table 5-2 (R134). -/
def State.carrierRecord (s : State) (c : Fin 8) : Bytes × State :=
  let x := s.ofdm.carriers[c]
  let n := x.count
  let k := x.cfg.getD CarrierCfg.initial
  s.record 32 [.v 32 n.fftSat.toNat, .v 32 n.combSat.toNat, .v 32 n.decompSat.toNat, .v 32 n.preSat.toNat, .v 32 n.ifftSat.toNat, .v 32 n.srcDenied.toNat,
    .v 32 n.allocFail.toNat, .v 16 n.noSection.toNat, .u 2, .v 3 k.group.toNat, .v 1 (b2n k.derot),
    .v 1 (b2n (x.cfg.isSome && x.suspended)), .v 1 (b2n (x.cfg.isSome && !x.suspended)), .u 8]

/-- CARRIER_STATUS (R160). -/
def execCarrierStatus (c : Cmd) (s : State) : R :=
  .next (s.statusCmd c 0x2A 8 fun x =>
    let ks := (List.finRange 8).filter fun k => x.select.getLsbD k.val
    let r := ks.foldl (fun (a : Bytes × State) k => let b := a.2.carrierRecord k; (a.1 ++ b.1, b.2)) ([], s)
    r.2.respond c x r.1 fun s => ks.foldl (fun (s : State) k => s.modCarrier k fun x => { x with count := CarrierCount.zero }) s)

-- The beam table (R152 to R154)

/-- The words of bytes. -/
def words32 (n : Nat) (b : Bytes) : List (BitVec 32) := (List.range n).map fun i => BitVec.ofNat 32 (ofLe ((b.drop (4 * i)).take 4))

/-- BEAM_LOAD (R153, R154). -/
def execBeamLoad (c : Cmd) (s : State) : R :=
  .next (s.hostCmd c 0x29 anyOp fun x =>
    let first := (pf x.payload 0 0 12).toNat
    let n := (pf x.payload 2 0 13).toNat
    if n = 0 ∨ first + n > 4096 ∨ (pf x.payload 8 0 64).extractLsb' 0 6 ≠ 0 then s.complete c.ref .badArg
    else match c.data with
      | none => s.complete c.ref .busErr
      | some b =>
        let es := (List.range n).map fun i => words32 64 (b.drop (256 * i))
        let st : BeamStage := { boundary := s.beamBoundary, first := first, entries := es, cmd := some c.ref }
        { s.setStage c.ref .running with ofdm := { s.ofdm with stages := s.ofdm.stages ++ [st] } })

/-- A beam is used as 0 in a slot that begins at `slot` and lasts `len` ticks (R526): a read for it, from the release of its first symbol to
its end, found an uncorrectable error. -/
def State.beamDead (s : State) (b : BitVec 12) (slot len : Tick) : Bool :=
  s.ofdm.beamsBad.any fun e => e.1 == b.toNat && decide (slot ≤ e.2 + 32768 ∧ e.2 < slot + len)

/-- The element of a beam for an antenna in a slot. -/
def State.beamElem (s : State) (b : BitVec 12) (slot len : Tick) (a : Nat) : BitVec 32 :=
  if s.beamDead b slot len then 0
  else match s.ofdm.beams.find? fun x => x.1 == b.toNat with | some x => (x.2[a]?).getD 0 | none => 0

/-- BEAM_TABLE_SWITCH (R154, R300): staged entries whose boundary has come take their places together, in order of acceptance. -/
def execBeamTableSwitch (s : State) : R :=
  .next (if !s.counting then s
    else
      let due := s.ofdm.stages.filter fun x => x.boundary ≤ s.ym.now
      let s := { s with ofdm := { s.ofdm with stages := s.ofdm.stages.filter fun x => !(x.boundary ≤ s.ym.now) } }
      due.foldl (fun (s : State) (x : BeamStage) =>
        let s := { s with ofdm := { s.ofdm with beams := (x.entries.zipIdx).foldl (fun l (e : List (BitVec 32) × Nat) => putBeam l (x.first + e.2) e.1) s.ofdm.beams } }
        match x.cmd with | some r => s.complete r .ok | none => s) s)

end Sys2Proof.Machine
end

