-- ==== Sys2Proof/Machine/Signal.lean ====
section
/-! DEFINITION. The sample datapath of the device under the settings that the state holds (R106, R107, R112, R115 to R120, R124 to R132, R137
to R141, R155, R159, R217 to R227, R237): reception from converter samples to derotated subcarriers, transmission from precoded subcarriers to the
balls, and the counters of what saturates. -/

namespace Sys2Proof.Machine

/-- A stage whose samples saturate, or a count of CFR. -/
inductive SatStage where
  | adcOvr | rxNco | rxRs | derot | txRs | txComb | dacClip | fft | ifft | cfrPeaks | cfrResid | dpdSat
  deriving DecidableEq, Repr

/-- What one stage counts over some samples, with its path (for path stages). -/
structure SatCount where
  path : Fin 64
  what : SatStage
  n    : Nat
  deriving DecidableEq, Repr

-- Converters in service (R107, R112)

/-- The frame boundary at or before a tick. -/
def frameStart (t : Tick) : Tick := t / frameTicks * frameTicks

/-- The 2.5 ms of a running FC_SET in which DACs hold zero code and ADCs deliver zero samples. -/
def State.convBlank (s : State) : Bool := match s.conv.run with | some r => decide (s.dp < r.blank) | none => false

/-- Converters, NCOs and resamplers serve: no FC_SET runs, and the frame boundary after the last one has come. -/
def State.convServes (s : State) : Bool := s.conv.run.isNone && (match s.conv.serveAt with | some t => decide (t ≤ s.ym.now) | none => true)

/-- Whether a path drives its TX ball: its chain is not blanked and it is in TX or OBS (R107). -/
def State.dacOn (s : State) (p : Fin 64) : Bool := !s.txBlanked p && (s.radio.paths[p].st == .tx || s.radio.paths[p].st == .obs) && !s.convBlank

/-- Whether the TX ball of a path presents its 50 Ω termination (R95, R104, R112, Table 3-7). -/
def State.txTerminated (s : State) (p : Fin 64) : Bool := !s.dacOn p

/-- A path transmits (R223). -/
def State.sends (s : State) (p : Fin 64) : Bool := s.dacOn p && s.radio.paths[p].st == .tx

/-- A path's RX chain was blanked at a cycle. -/
def State.darkAt (s : State) (p : Fin 64) (t : Nat) : Bool :=
  s.radio.dark.any fun x => x.path == p && decide (x.start ≤ t) && (match x.fin with | some f => decide (t < f) | none => true)

/-- Blanked intervals begin and end; those that ended before anything that is still to be received are forgotten. -/
def State.darkTick (s : State) : State :=
  let shut (x : Dark) : Dark := if x.fin.isNone && !s.rxBlanked x.path then { x with fin := some s.dp } else x
  let old := (s.radio.dark.map shut).filter fun x => match x.fin with | some f => decide (s.dp ≤ f + 1966080) | none => true
  let new := ((List.finRange 64).filter fun p => s.rxBlanked p && !(old.any fun x => x.path == p && x.fin.isNone)).map fun p => { path := p, start := s.dp, fin := none : Dark }
  { s with radio := { s.radio with dark := old ++ new } }

/-- The tick in which a sample at Fc/2 after a frame boundary lies. -/
def State.halfTick (s : State) (f0 : Tick) (m : Int) : Tick := f0 + m * 16384 / (s.conv.fcN.toNat : Int)

/-- The ball instant of a path's TX sample, and of its RX sample, of an engine tick (R124). -/
def txBall (p : Fin 64) (t : Tick) : Tick := t + (p.val % 8 : Nat)
def rxBall (p : Fin 64) (t : Tick) : Tick := t - (p.val % 8 : Nat)

/-- The words of a path's ADC (R106); a blanked chain and the blank of an FC_SET give zero samples (R95, R112). -/
def State.adcFlow (s : State) (p : Fin 64) (f0 : Tick) (x : Sig) : Flow := fun m =>
  if s.darkAt p (s.dpOf (rxBall p (s.halfTick f0 m))) || s.convBlank then ((0, 0), false)
  else
    let i := adcWord (x m).1
    let q := adcWord (x m).2
    ((i.1.toInt, q.1.toInt), i.2 || q.2)

-- The fractional stage (R118 to R121, R130, R132)

/-- Delay of the path at position `pos` (R130), exact. -/
def delayQ (a samples : Int) (fcN j pos : Nat) : Q :=
  (((Q.make a 100).add (Q.ofInt 32)).add ((Q.make (samples * 16384) fcN).add (Q.make (11 * (2 ^ j - 1 : Int)) 2))).add (Q.ofInt pos)

/-- The fraction of a tick that the load of the fractional stage compensates (R132). -/
def delayFraction (a samples : Int) (fcN j : Nat) : Q := let d := delayQ a samples fcN j 0; d.sub (Q.ofInt d.floor)

/-- Position of output m of the fractional stage in its input samples: m advances of ρ = FC_N/32,768 in RX, of 1/ρ in TX (R119), from
the load that compensates the fraction (R132; DEDUCED, log 72: an advance, in the samples of the stage's input). -/
def State.fracAt (s : State) (rx : Bool) (j : Nat) (m : Int) : Q :=
  let f := s.conv.fcN.toNat
  let a := analogueDelay s.mode.prof
  if rx then (Q.make (m * f) 32768).add ((delayFraction a.1 44 f j).mul (Q.make f 16384))
  else (Q.make (m * 32768) f).add ((delayFraction a.2 158 f j).mul (Q.ofInt 2))

/-- Coefficient c(p, t) of a paddock (R121). -/
def State.tap (s : State) (k : Fin 8) (p t : Nat) : Int :=
  match s.conv.coef[k] with
  | some l => ((l[16 * p + t]?).getD 0).toInt
  | none => (Config.romTaps (16 * p + t)).toInt

/-- The fractional stage of a path's paddock on a stream. -/
def State.fractional (s : State) (k : Fin 8) (rx : Bool) (j : Nat) (x : Sig) : Flow := fun m => fracOut (s.tap k) x (splitPos (s.fracAt rx j m))

-- Carriers (R115, R137, R139)

/-- Offset of a carrier at a path in 100 Hz: its centre (10 Hz units) less the LO (kHz units) of the path's paddock (R115). -/
def State.ncoOffset (s : State) (k : CarrierCfg) (p : Fin 64) : Int :=
  (k.centre.toNat : Int) / 10 - 10 * ((s.mode.plo[paddockOf p]).toNat : Int)

/-- FFT size of a carrier (R137): the carrier rate over the spacing. -/
def CarrierCfg.nFft (k : CarrierCfg) : Nat := match carrierRate k.scs30 k.bw.toNat with | some x => (if k.scs30 then 65536 else 131072) / 2 ^ x.2 | none => 0

/-- Default scaling shift: floor(log2(N_FFT)/2) (Table 5-3). -/
def CarrierCfg.sDef (k : CarrierCfg) : Int := ((Nat.log2 k.nFft / 2 : Nat) : Int)

/-- Half-band stages of a carrier (Table 4-4). -/
def CarrierCfg.stages (k : CarrierCfg) : Nat := match carrierRate k.scs30 k.bw.toNat with | some x => x.2 | none => 0

/-- Ticks of one sample at the carrier rate: 2^j at 1,966.08 MS/s. -/
def CarrierCfg.sampleTicks (k : CarrierCfg) : Nat := 2 ^ (k.stages - 1)

/-- CP of a symbol in samples (R137, Table 2-3), and the normal CP, which a symbol other than the first of a half-subframe has. -/
def CarrierCfg.cp (k : CarrierCfg) (l : Nat) : Nat := (symLen k.scs30 l - (if k.scs30 then 32768 else 65536)) / k.sampleTicks
def CarrierCfg.cpNormal (k : CarrierCfg) : Nat := k.cp 1

/-- Advance of the RX window in samples (R139): none, or the normal CP over 8, 4 or 2. DEDUCED (log 74): rounded down where that is no whole
number. -/
def CarrierCfg.advance (k : CarrierCfg) : Nat :=
  match k.fftAdv.toNat with | 0 => 0 | 1 => k.cpNormal / 8 | 2 => k.cpNormal / 4 | _ => k.cpNormal / 2

/-- Index n of occupied subcarrier i relative to the carrier centre, and its FFT bin (R141). -/
def CarrierCfg.scIndex (k : CarrierCfg) (i : Nat) : Int := (i : Int) - 6 * (k.nRb : Int)
def CarrierCfg.bin (k : CarrierCfg) (i : Nat) : Nat := (k.scIndex i % (k.nFft : Int)).toNat

-- Derotation (R125, R126, R139, R159)

/-- τ of a path in 2^-10 tick: its position and its delay residual, with the device's correction in an array (R125, R324). -/
def State.skew (s : State) (p : Fin 64) : Int :=
  let d : Int := match s.calVal? { id := 8, cls := 1, idx := p.val } with | some v => if v.valid then v.now.headD 0 else 0 | none => 0
  1024 * ((p.val % 8 : Nat) : Int) + d + (if s.mode.cur = .array then s.hit.deltaDev else 0)

/-- The phase of derotation in 2^-26 turn: where the ramp applies, n times τ over 32,768 ticks at 30 kHz or 65,536 at 15 kHz; in RX with the
compensation of the advance, n A/N_FFT, which is applied always (R125, R139). -/
def State.derotPhase (s : State) (k : CarrierCfg) (p : Fin 64) (ramp rx : Bool) (n : Int) : Int :=
  (if ramp then n * s.skew p * (if k.scs30 then 2 else 1) else 0) + (if rx then n * (k.advance : Int) * (67108864 / (k.nFft : Int)) else 0)

/-- Derotation of one value (R125): one multiply by an 18-bit factor, its phase to 18 bits (DEDUCED, log 72). -/
def State.derotate (s : State) (k : CarrierCfg) (p : Fin 64) (ramp rx : Bool) (n : Int) (v : Int × Int) : (Int × Int) × Bool :=
  cround (cmul v (factor18 (s.derotPhase k p ramp rx n / 256 % 262144))) Config.sinCosFrac

-- Reception (R115, R118, R138, R139)

/-- What a stage of a running counter has counted. -/
def satOf (p : Fin 64) (w : SatStage) (n : Nat) : SatCount := { path := p, what := w, n := n }

/-- The NCO and the fractional stage of a path for an offset in 100 Hz and j half-band stages. -/
def State.rxMixed (s : State) (p : Fin 64) (off : Int) (f0 : Tick) (x : Sig) : Flow :=
  if s.convServes then rxNco (ncoWord off s.conv.fcN.toNat) (s.adcFlow p f0 x).sig else fun _ => ((0, 0), false)
def State.rxInter (s : State) (p : Fin 64) (off : Int) (j : Nat) (f0 : Tick) (x : Sig) : Flow := s.fractional (paddockOf p) true j (s.rxMixed p off f0 x).sig

/-- The carrier-rate stream of a carrier at a path's FFT, from the samples of its ADC. -/
def State.rxChain (s : State) (k : CarrierCfg) (p : Fin 64) (f0 : Tick) (x : Sig) : Sig :=
  downBy k.stages (s.rxInter p (s.ncoOffset k p) k.stages f0 x).sig

/-- Bin b of a symbol's FFT on a path: the window begins the advance before the end of the prefix. -/
def State.rxBin (s : State) (k : CarrierCfg) (p : Fin 64) (l : Nat) (sym : Tick) (x : Sig) (b : Nat) : (Int × Int) × Bool :=
  let f0 := frameStart sym
  let i0 := (sym - f0) / (k.sampleTicks : Int) + (k.cp l : Int) - (k.advance : Int)
  fftBin k.nFft (k.sDef + k.fftAdjRx.toInt) (fun t => s.rxChain k p f0 x (i0 + (t : Int))) b

/-- What the combiner and the estimator receive of subcarrier i on a path (R138, R139, R125, R163). -/
def State.rxElement (s : State) (k : CarrierCfg) (p : Fin 64) (l : Nat) (sym : Tick) (ramp : Bool) (x : Sig) (i : Nat) : (Int × Int) × Bool :=
  s.derotate k p ramp true (k.scIndex i) (s.rxBin k p l sym x (k.bin i)).1

/-- The ADC stream of a path in what is given from outside. -/
def adcSig (raw : List AdcIn) (p : Fin 64) : Sig := match raw.find? fun r => r.path == p.val with | some r => sigOf r.first r.vals | none => Sig.zero

/-- Saturations of reception on one path over ticks a to b of a carrier (R128): the overrange of the ADC from tick `a0`. -/
def State.rxSats (s : State) (k : CarrierCfg) (p : Fin 64) (f0 : Tick) (x : Sig) (a0 a b : Tick) : List SatCount :=
  let off := s.ncoOffset k p
  let fc := s.conv.fcN.toNat
  let inter := s.rxInter p off k.stages f0 x
  let rs := inter.count (samplesIn 2 1 (a - f0) (b - f0)) +
    ((List.range k.stages).map fun h => (halfDown (downBy h inter.sig)).count (samplesIn 2 (2 ^ (h + 1)) (a - f0) (b - f0))).sum
  [satOf p .adcOvr ((s.adcFlow p f0 x).count (samplesIn fc 16384 (a0 - f0) (b - f0))),
   satOf p .rxNco ((s.rxMixed p off f0 x).count (samplesIn fc 16384 (a - f0) (b - f0))), satOf p .rxRs rs]

/-- The saturations of a received symbol, counted once: each path's stages, its derotated subcarriers, and the bins that saturated on any path. -/
def State.symbolSats (s : State) (c : Fin 8) (k : CarrierCfg) (l : Nat) (sym : Tick) (ramp : Nat → Bool) (raw : List AdcIn) : List SatCount :=
  let fin := sym + symLen k.scs30 l
  let ps := (s.antennas c).filter fun p => decide ((s.conv.rxTo[p])[c] < fin)
  let fftSat := ((List.range k.nFft).filter fun b => ps.any fun p => (s.rxBin k p l sym (adcSig raw p) b).2).length
  (ps.flatMap fun p =>
    let x := adcSig raw p
    let seen := (s.conv.rxTo[p]).toList.foldl max sym
    let n := ((List.range (12 * k.nRb)).filter fun i => (s.rxElement k p l sym (ramp (i / 12)) x i).2).length
    s.rxSats k p (frameStart sym) x seen (max sym (s.conv.rxTo[p])[c]) fin ++ [satOf p .derot n]) ++ [satOf 0 .fft fftSat]

/-- A symbol's samples have been counted. -/
def State.counted (s : State) (c : Fin 8) (fin : Tick) : State :=
  { s with conv := { s.conv with rxTo := s.conv.rxTo.map fun v => vset v c (max v[c] fin) } }

/-- Saturations go to the counters of R128, R157, R221 and R225. -/
def State.addSats (s : State) (c : Fin 8) (l : List SatCount) : State :=
  l.foldl (fun (s : State) x =>
    let cv (f : ConvSat → ConvSat) : State := { s with conv := { s.conv with sat := vmod s.conv.sat x.path f } }
    match x.what with
    | .adcOvr => cv fun k => { k with adcOvr := satAdd k.adcOvr x.n }
    | .rxNco => cv fun k => { k with rxNco := satAdd k.rxNco x.n }
    | .rxRs => cv fun k => { k with rxRs := satAdd k.rxRs x.n }
    | .derot => cv fun k => { k with derot := satAdd k.derot x.n }
    | .txRs => cv fun k => { k with txRs := satAdd k.txRs x.n }
    | .txComb => cv fun k => { k with txComb := satAdd k.txComb x.n }
    | .dacClip => cv fun k => { k with dacClip := satAdd k.dacClip x.n }
    | .fft => s.modCarrier c fun y => { y with count := { y.count with fftSat := satAdd y.count.fftSat x.n } }
    | .ifft => s.modCarrier c fun y => { y with count := { y.count with ifftSat := satAdd y.count.ifftSat x.n } }
    | .cfrPeaks => s.modDpd x.path fun d => { d with cfrPeaks := satAdd d.cfrPeaks x.n }
    | .cfrResid => s.modDpd x.path fun d => { d with cfrResid := satAdd d.cfrResid x.n }
    | .dpdSat => s.modDpd x.path fun d => { d with dpdSat := satAdd d.dpdSat x.n }) s

/-- Received resource elements: path, first PRB, and per PRB twelve values after the factor of R139. -/
abbrev RxGrid := List (Nat × Nat × List (List (Int × Int)))

/-- One received element. -/
def rxVal (r : RxGrid) (a prb sc : Nat) : Int × Int :=
  match r.find? fun y => y.1 == a && decide (y.2.1 ≤ prb ∧ prb < y.2.1 + y.2.2.length) with
  | some y => (((y.2.2[prb - y.2.1]?).getD [])[sc]?).getD (0, 0)
  | none => (0, 0)

/-- The received elements of a symbol on the antennas of a carrier. -/
def State.rxGrid (s : State) (c : Fin 8) (k : CarrierCfg) (l : Nat) (sym : Tick) (ramp : Nat → Bool) (raw : List AdcIn) : RxGrid :=
  (s.antennas c).map fun p => (p.val, 0, (List.range k.nRb).map fun prb => (List.range 12).map fun sc =>
    (s.rxElement k p l sym (ramp prb) (adcSig raw p) (12 * prb + sc)).1)

-- Transmission (R115, R118, R125, R138, R140)

/-- The bins of a symbol from the values of a path's PRBs; all others are zero (R141). -/
def CarrierCfg.bins (k : CarrierCfg) (v : List (Nat × List (Int × Int))) (b : Nat) : Int × Int :=
  csum (v.flatMap fun r => r.2.zipIdx.map fun y => if k.bin (12 * r.1 + y.2) = b then y.1 else (0, 0))

/-- The iFFT of a symbol on a path, and which of its samples saturated. -/
def CarrierCfg.body (k : CarrierCfg) (v : List (Nat × List (Int × Int))) : List ((Int × Int) × Bool) :=
  (List.range k.nFft).map fun t => ifftSample k.nFft k.txAtt.toNat (k.sDef + k.fftAdjTx.toInt) (k.bins v) t

/-- The values of one path in a symbol. -/
def TxSym.of (x : TxSym) (p : Nat) : List (Nat × List (Int × Int)) := (x.grid.filter fun y => y.1 == p).map fun y => y.2

/-- A symbol begins: its transforms, each behind a prefix of its last CP samples (R140), and IFFT_SAT. -/
def State.txBegin (s : State) (x : TxSym) : State :=
  let k := x.cfg
  let bodies := ((x.grid.map fun y => y.1).eraseDups).map fun p => (p, k.body (x.of p))
  let sat := ((List.range k.nFft).filter fun t => bodies.any fun b => match b.2[t]? with | some v => v.2 | none => false).length
  let wave := bodies.map fun b => (b.1, let w := b.2.map fun v => v.1; w.drop (k.nFft - k.cp x.sym) ++ w)
  let put (y : TxSym) : TxSym := if y.carrier = x.carrier ∧ y.due = x.due then { y with wave := some wave } else y
  { s with ofdm := { s.ofdm with tx := s.ofdm.tx.map put } }.addSats x.carrier [satOf 0 .ifft sat]

/-- The values of a released symbol join those of the same carrier and symbol that were released before. -/
def State.txJoin (s : State) (x : TxSym) : State :=
  match s.ofdm.tx.find? fun y => y.carrier == x.carrier && y.due == x.due with
  | some y => { s with ofdm := { s.ofdm with tx := s.ofdm.tx.replace y { y with grid := y.grid ++ x.grid } } }
  | none => { s with ofdm := { s.ofdm with tx := s.ofdm.tx ++ [x] } }

/-- The carrier-rate stream of a carrier on a path from a frame boundary. -/
def State.txStream (s : State) (c : Fin 8) (p : Fin 64) (k : CarrierCfg) (f0 : Tick) : Sig := fun i =>
  let t := f0 + i * (k.sampleTicks : Int)
  match s.ofdm.tx.find? fun x => x.carrier == c && decide (x.due ≤ t ∧ t < x.due + x.len) with
  | some x => match x.wave.bind fun w => w.find? fun y => y.1 == p.val with
    | some y => (y.2[((t - x.due) / (k.sampleTicks : Int)).toNat]?).getD (0, 0)
    | none => (0, 0)
  | none => (0, 0)

/-- What enters a path's half-band stages: its carriers, and the bursts that it sends as carrier samples at 30.72 MS/s do (R195): offset in
100 Hz, stages, the tick from which samples count, the stream. -/
def State.txInputs (s : State) (p : Fin 64) (f0 : Tick) : List (Int × Nat × Tick × Sig) :=
  (List.finRange 8).filterMap (fun c => match s.ofdm.carriers[c].cfg with
    | some k => if (s.antennas c).contains p then some (s.ncoOffset k p, k.stages, f0, s.txStream c p k f0) else none
    | none => none) ++
  (s.burst.waves.filter fun w => w.path == p).map fun w => (w.off.toInt, 6, w.due, sigOf 0 w.vals)

/-- The intermediate-rate stream of an input from the frame boundary. -/
def txInter (f0 : Tick) (i : Int × Nat × Tick × Sig) : Sig := fun m => upBy i.2.1 i.2.2.2 (m - 2 * (i.2.2.1 - f0))

/-- The stream of an input at Fc/2. -/
def State.txUp (s : State) (p : Fin 64) (f0 : Tick) (i : Int × Nat × Tick × Sig) : Flow := s.fractional (paddockOf p) false i.2.1 (txInter f0 i)

/-- A path's combined carriers and bursts (R115, R128, R195). -/
def State.txCombined (s : State) (p : Fin 64) (f0 : Tick) : Flow :=
  if s.convServes then txCombine ((s.txInputs p f0).map fun i => (ncoWord i.1 s.conv.fcN.toNat, (s.txUp p f0 i).sig)) else fun _ => ((0, 0), false)

-- Crest-factor reduction (R217 to R221)

/-- The input of pass i + 1 of a path. -/
def State.cfrStage (s : State) (p : Fin 64) (f0 : Tick) (i : Nat) : Sig :=
  cfrInput (s.cfrThreshold (s.cfrBand p)) (cfrPulse s.conv.fcN.toNat s.mode.prof.bandwidth) i (s.txCombined p f0).sig

/-- CFR of a path: PASSES passes of its band's setting; none where it is bypassed. -/
def State.cfrOut (s : State) (p : Fin 64) (f0 : Tick) : Sig := s.cfrStage p f0 s.lin.cfr[s.cfrBand p].passes.toNat

-- Pre-distortion (R222, R223, R225, R227, R237)

/-- Shift of a neighbour's signal in samples (R223). -/
def neighbourShift (p j : Fin 64) (fcN : Nat) : Int := rdiv ((((j.val % 8 : Nat) : Int) - ((p.val % 8 : Nat) : Int)) * fcN) 16384

/-- v_j of a slot (R223): zero where the neighbour does not transmit. -/
def State.neighbourSig (s : State) (p : Fin 64) (f0 : Tick) (slot : Nat) : Option Sig :=
  (s.slotPath p slot).map fun j => if s.sends j then (let x := s.cfrOut j f0; fun n => x (n - neighbourShift p j s.conv.fcN.toNat)) else Sig.zero

/-- DPD of a path under one set. -/
def State.dpdWith (s : State) (p : Fin 64) (f0 : Tick) (set : CoefSet) : Flow := dpdOutput (s.mode.prof == .pl) set (s.cfrOut p f0) (s.neighbourSig p f0)

/-- DPD of a path (R222, R225, R237): x unchanged where it is bypassed; in a blend the old output and α of the difference. -/
def State.dpdOut (s : State) (p : Fin 64) (f0 : Tick) : Flow := fun n =>
  let d := s.lin.paths[p]
  if d.bypass then (s.cfrOut p f0 n, false)
  else
    let o := s.dpdWith p f0 d.old n
    match d.blend with
    | none => o
    | some (i, b, _) =>
      let w := s.dpdWith p f0 d.new n
      ((o.1.1 + rshift (i * (w.1.1 - o.1.1)) b, o.1.2 + rshift (i * (w.1.2 - o.1.2)) b), o.2 || w.2)

-- Interpolator and DAC (R107)

/-- The 2× interpolator of a path, at Fc. -/
def State.interpolated (s : State) (p : Fin 64) (f0 : Tick) : Flow := upBy2 Config.interp2 (s.dpdOut p f0).sig

/-- The codes of a path's DAC at Fc. -/
def State.dacOut (s : State) (p : Fin 64) (f0 : Tick) : Flow := fun n =>
  if s.dacOn p then
    let z := s.interpolated p f0 n
    let i := dacCode z.1.1
    let q := dacCode z.1.2
    ((i.1, q.1), z.2 || i.2 || q.2)
  else ((0, 0), false)

-- One tick of transmission

/-- What saturates on a path in a tick, and the peaks cancelled and left (R128, R219, R221, R225). -/
def State.txSats (s : State) (p : Fin 64) (t : Tick) : List SatCount :=
  let f0 := frameStart t
  let fc := s.conv.fcN.toNat
  let now (num den : Nat) : List Int := samplesIn num den (t - f0) (t + 1 - f0)
  let half := now fc 16384
  let b := s.cfrBand p
  let a := s.cfrThreshold b
  let n := s.lin.cfr[b].passes.toNat
  let rs := ((s.txInputs p f0).map fun i =>
    (s.txUp p f0 i).count half + ((List.range i.2.1).map fun h =>
      (upBy2 Config.halfBand (upBy h i.2.2.2)).count (samplesIn 2 (2 ^ (i.2.1 - h - 1)) (t - i.2.2.1) (t + 1 - i.2.2.1))).sum).sum
  let peaks := ((List.range n).map fun i => (half.filter fun m => cfrPeak a (s.cfrStage p f0 i) m).length).sum
  let clip := ((List.range n).map fun i => (cfrPass a (cfrPulse fc s.mode.prof.bandwidth) (s.cfrStage p f0 i)).count half).sum
  let resid := if n = 0 then 0 else (half.filter fun m => decide (a * 2 ^ Config.magFrac < magnitude (s.cfrOut p f0 m))).length
  [satOf p .txRs rs, satOf p .txComb ((s.txCombined p f0).count half), satOf p .cfrPeaks peaks, satOf p .cfrResid (clip + resid),
   satOf p .dpdSat ((s.dpdOut p f0).count half), satOf p .dacClip ((s.dacOut p f0).count (now fc 8192))]

/-- A capture under way records x, z and the neighbour signals of the tick (R230); the sample at which it begins lies k ticks after the due time at
the balls, which is the due time in the engine (R124). -/
def State.captureTick (s : State) (c : Capture) : Capture :=
  let k : Nat := c.path.val % 8
  if c.shu.isSome || s.dp + k < c.start || c.fin ≤ s.dp + k then c
  else
    let f0 := frameStart s.ym.now
    let ms := samplesIn s.conv.fcN.toNat 16384 (s.ym.now - f0) (s.ym.now + 1 - f0)
    let v (j : Nat) : List (Int × Int) := ms.map ((s.neighbourSig c.path f0 j).getD Sig.zero)
    { c with u := c.u ++ ms.map (s.txCombined c.path f0).sig, x := c.x ++ ms.map (s.cfrOut c.path f0), z := c.z ++ ms.map (s.dpdOut c.path f0).sig, v0 := c.v0 ++ v 0, v1 := c.v1 ++ v 1 }

/-- One tick of transmission: symbols that begin are transformed, what saturates is counted, captures record, and what has left is forgotten. -/
def State.txTick (s : State) : State :=
  if !s.counting || (s.ofdm.tx.isEmpty && s.burst.waves.isEmpty && s.lin.caps.isEmpty) then s
  else
    let s := (s.ofdm.tx.filter fun x => x.wave.isNone && decide (x.due ≤ s.ym.now)).foldl (fun (s : State) x => s.txBegin x) s
    let s := ((List.finRange 64).filter s.sends).foldl (fun (s : State) p => s.addSats 0 (s.txSats p s.ym.now)) s
    { s with lin := { s.lin with caps := s.lin.caps.map s.captureTick }
             ofdm := { s.ofdm with tx := s.ofdm.tx.filter fun x => decide (s.ym.now < x.due + x.len + 262144) }
             burst := { s.burst with waves := s.burst.waves.filter fun w => decide (s.ym.now < w.due + 32 * (w.vals.length : Int) + 262144) } }

end Sys2Proof.Machine
end

