-- ==== Sys2Proof/Machine/WeightMath.lean ====
section
/-! DEFINITION. The arithmetic of on-device weights (R175 to R177, R331, Table 17-7): Gram matrix, regularised inverse, unit columns. -/

namespace Sys2Proof.Machine

/-- What a weight computation reads (Table 17-6): direction, the common exponent of H, σ² (R174), κ per packed antenna with 14 fractional bits, the
rows of H over packed antennas. -/
structure WeightIn where
  ul    : Bool
  exp   : Nat
  sigM  : Nat
  sigE  : Nat
  kappa : List (Int × Int)
  h     : List (List (Int × Int))
  deriving DecidableEq, Repr

/-- Rows of H, in DL with κ applied to the columns, and their fractional bits. -/
def WeightIn.rows (w : WeightIn) : List (List (Int × Int)) := if w.ul then w.h else w.h.map fun r => List.zipWith cmul r w.kappa
def WeightIn.frac (w : WeightIn) : Nat := if w.ul then 0 else 14

/-- Exponent of the units of a component of `rows`: the value is the component times 2 to it (R169). -/
def WeightIn.unit (w : WeightIn) : Int := (w.exp : Int) - 30 - w.frac

/-- 2^e. -/
def twoTo (e : Int) : Q := if e < 0 then Q.make 1 (2 ^ (-e).toNat) else Q.ofInt (pow2 e.toNat)

/-- σ² = SIG_M × 2^(SIG_E − 128) (R175). -/
def WeightIn.sigma (w : WeightIn) : Q := (Q.ofInt w.sigM).mul (twoTo ((w.sigE : Int) - 128))

/-- H Hᴴ, exact. -/
def gramExact (rows : List (List (Int × Int))) : List (List (Int × Int)) :=
  rows.map fun a => rows.map fun b => csum (List.zipWith (fun x y => cmul x (conj y)) a b)
where
  /-- The complex conjugate. -/
  conj (v : Int × Int) : Int × Int := (v.1, -v.2)

/-- The least shift at which every component of a matrix fits `bits` bits after rounding (DEDUCED, log 76). -/
def fitShift (bits : Nat) (m : List (List (Int × Int))) : Nat :=
  let ok (v : Int) : Bool := decide (-pow2 (bits - 1) ≤ v ∧ v < pow2 (bits - 1))
  ((List.range 128).find? fun sh => m.all fun r => r.all fun v => ok (rshift v.1 sh) && ok (rshift v.2 sh)).getD 127

/-- A matrix shifted right with convergent rounding. -/
def shifted (sh : Nat) (m : List (List (Int × Int))) : List (List (Int × Int)) := m.map fun r => r.map fun v => (rshift v.1 sh, rshift v.2 sh)

/-- A matrix of components times 2^e. -/
def scaled (e : Int) (m : List (List (Int × Int))) : List (List CQ) := m.map fun r => r.map fun v => CQ.scale (twoTo e) (CQ.ofInts v)

/-- The inverse of a Hermitian matrix, column by column; none where a pivot is not positive. -/
def inverse (m : List (List CQ)) : Option (List (List CQ)) :=
  (List.range m.length).foldr (fun i r =>
    match solve m.length (m.zipIdx.map fun row => (row.1, if row.2 = i then (Q.ofInt 1, Q.zero) else CQ.zero)), r with
    | some c, some r => some (c :: r)
    | _, _ => none) (some [])

/-- The columns of Hᴴ X for columns of X. -/
def backProject (h : List (List CQ)) (x : List (List CQ)) : List (List CQ) :=
  x.map fun c => (List.range ((h.head?).getD []).length).map fun j => CQ.sum (List.zipWith (fun r v => (CQ.conj (entry r j)).mul v) h c)

/-- The integer nearest to x/√n, halves to even. -/
def overRoot (x n : Q) : Int :=
  let q := ((x.mul x).mul (Q.ofInt 4)).div n
  let r := rootFloor q.floor.toNat
  let m : Nat := if r % 2 = 1 ∧ q = Q.ofInt (r * r : Nat) then r / 2 + r / 2 % 2 else (r + 1) / 2
  if x.num < 0 then -(m : Int) else m

/-- A value over the root of a norm as components with 2^-e as unit; free over a zero norm. -/
def overNorm (e : Int) (n : Q) (v : CQ) : Int × Int :=
  if n.num = 0 then Config.overZeroNorm v else let s := CQ.scale (twoTo (-e)) v; (overRoot s.1 n, overRoot s.2 n)

/-- LIB_GRAM (Table 17-7): H Hᴴ in 16-bit components, and the exponent of its units. -/
def WeightIn.gram16 (w : WeightIn) : Int × List (List (Int × Int)) :=
  let g := gramExact w.rows
  let sh := fitShift 16 g
  (2 * w.unit + sh, shifted sh g)

/-- LIB_CHOL (Table 17-7): what the factors of Γ give, its inverse by columns; none where a pivot is not positive. -/
def WeightIn.factor (w : WeightIn) (g : Int × List (List (Int × Int))) : Option (List (List CQ)) := inverse (ridge w.sigma (scaled g.1 g.2))

/-- LIB_SOLVE (Table 17-7): the columns of W = Hᴴ Γ⁻¹. -/
def WeightIn.columns (w : WeightIn) (x : List (List CQ)) : List (List CQ) := backProject (scaled w.unit w.rows) x

/-- A column scaled to unit 2-norm in the format of R146 (R176). -/
def unitColumn (c : List CQ) : List (Int × Int) :=
  let n := energy c
  c.map fun v => let w := overNorm (-15) n v; (clampI (-32768) 32767 w.1, clampI (-32768) 32767 w.2)

/-- The columns of the vendor kernel's set (R175 to R177, R489): LIB_GRAM, LIB_CHOL, LIB_SOLVE, LIB_NORM_OUT; none where a pivot is not positive. -/
def WeightIn.weights (w : WeightIn) : Option (List (List (Int × Int))) := (w.factor w.gram16).map fun x => (w.columns x).map unitColumn

end Sys2Proof.Machine
end

