-- ==== Sys2Proof/Machine/BurstRx.lean ====
section
/-! DEFINITION. The burst receiver (R202, R203, R205, R207 to R209, R212): the streams of its paths, detector, sync test, taps, combining,
decoder and what it measures. -/

namespace Sys2Proof.Machine

-- Streams (R202, R203, R209)

/-- A stream k/32 of a sample later: what a path at position k received at the ball instants of position 0 (R124, R209). The manual gives no
interpolation; its values are free. -/
def skewed (k : Nat) (r : Sig) : Sig :=
  if k = 0 then r
  else fun n => Config.burstSkew k ((List.range (2 * Config.delaySpan + 1)).map fun (i : Nat) => r (n + (i : Int) - (Config.delaySpan : Int)))

/-- A stream without a frequency offset in Hz, counted from its sample `t` (R203). -/
def unshifted (freq : Int) (t : Int) (r : Sig) : Sig := fun n =>
  (cround (cmul (r n) (conj (factor18 (freq * (n - t) * 262144 / 30720000)))) Config.sinCosFrac).1

/-- The 30.72 MS/s stream of a path (R202): an NCO at the window's offset, the fractional stage, six half-band stages. Sample 0 lies at the
frame boundary. -/
def State.burstPath (s : State) (p : Fin 64) (off : BitVec 32) (f0 : Tick) (x : Sig) : Sig := downBy 6 (s.rxInter p off.toInt 6 f0 x).sig

/-- The streams of the named paths, corrected for skew; sample 0 is that of tick `first`. -/
def State.burstStreams (s : State) (ps : BitVec 64) (off : BitVec 32) (first : Tick) (raw : List AdcIn) : List Sig :=
  let f0 := frameStart first
  (setBits ps).map fun p =>
    let r := skewed (p.val % 8) (s.burstPath p off f0 (adcSig raw p))
    fun n => r (n + (first - f0) / 32)

-- Detection (R203)

/-- C_p(t): the correlation of 256 samples with four periods of the short training. -/
def burstCorr (r : Sig) (t : Int) : Int × Int := csum ((List.range 256).map fun (i : Nat) => cmul (r (t - 255 + (i : Int))) (conj (shortTraining (i % 64))))

/-- E_p(t): the energy of 256 samples. -/
def burstEnergy (r : Sig) (t : Int) : Int := ((List.range 256).map fun i => power2 (r (t - 255 + (i : Nat)))).sum

/-- E_s: the energy of four periods of the short training. -/
def trainingEnergy : Int := ((List.range 256).map fun i => power2 (shortTraining (i % 64))).sum

/-- M(t) over the streams of the named paths, as a pair of numerator and denominator. -/
def burstMetric (rs : List Sig) (t : Int) : Int × Int := ((rs.map fun r => power2 (burstCorr r t)).sum, trainingEnergy * (rs.map fun r => burstEnergy r t).sum)

/-- M(t) reaches DET_THR/256. -/
def State.detects (s : State) (rs : List Sig) (t : Int) : Bool := let m := burstMetric rs t; decide (s.burst.cfg.detThr.toNat * m.2 ≤ 256 * m.1)

/-- A detection at a sample of the window: M reaches the threshold there and did not before it (DEDUCED, log 80). -/
def State.detectsAt (s : State) (rs : List Sig) (t : Nat) : Bool := s.detects rs t && (t == 0 || !s.detects rs ((t : Int) - 1))

/-- The candidate's timing: of a detection's sample and the 64 that follow, the first at which M is greatest. -/
def burstTiming (rs : List Sig) (t : Nat) : Nat :=
  (List.range 65).foldl (fun (b : Nat) (i : Nat) =>
    let m := burstMetric rs ((t + i : Nat) : Int)
    let n := burstMetric rs (b : Int)
    if n.1 * m.2 < m.1 * n.2 then t + i else b) t

/-- The candidate's level in 0.25 dB. -/
def candidateLevel (rs : List Sig) (tc : Nat) : Int :=
  dbRatio 4 (Q.ofInt (rs.map fun r => burstEnergy r tc).sum) (Q.ofInt ((256 * rs.length : Nat) * 2 ^ 30))

/-- The common frequency offset in Hz, within ±3 kHz; the manual gives no estimator. -/
def candidateOffset (rs : List Sig) (tc : Nat) : Int :=
  clampI (-3000) 3000 (Config.burstOffset (rs.map fun r => (List.range 256).map fun (i : Nat) => r ((tc : Int) - 255 + (i : Int))))

-- The sync test (R205)

/-- The real part of z turned by the conjugate phase of c, in units of 2^-64; free where c has no phase. -/
def turnedReal (z c : Int × Int) : Int :=
  if power2 c = 0 then (Config.overZeroNorm (CQ.ofInts z)).1 else overRoot (Q.ofInt ((cmul z (conj c)).1 * 2 ^ 64)) (Q.ofInt (power2 c))

/-- Bit i of the sync word at hypothesis h: each path's chip, correlated with q and turned by the conjugate phase of its C_p; the sign of the
sum's real part decides. -/
def syncBit (rs : List Sig) (tc h i : Nat) : Bool :=
  let one (r : Sig) : Int :=
    turnedReal (csum ((List.range 16).map fun j => cmul (r ((tc + 1 + 64 * h + 16 * i + j : Nat) : Int)) (conj (chipWave j)))) (burstCorr r tc)
  decide ((rs.map one).sum < 0)

/-- The bit errors of a hypothesis against the sync word. -/
def State.syncErrors (s : State) (rs : List Sig) (tc h : Nat) : Nat :=
  ((List.range 32).filter fun i => syncBit rs tc h i != chipInverted s.burst.cfg.syncWord i).length

/-- The accepted hypothesis: the first of 0 to 12 with at most SYNC_TOL errors. -/
def State.syncHypothesis (s : State) (rs : List Sig) (tc : Nat) : Option Nat :=
  (List.range 13).find? fun h => decide (s.syncErrors rs tc h ≤ s.burst.cfg.syncTol.toNat)

-- Taps and combining (R207)

/-- Bin k of the 256-point DFT of a stream from sample t, in units of 2^-128. -/
def burstBin (r : Sig) (t k : Int) : Int × Int := csum ((List.range 256).map fun (i : Nat) => cmul (r (t + (i : Int))) (conj (turnExp (k * (i : Int)) 256)))

/-- Twice the tap of place m: the bins of both training symbols times L, the long field starting at sample `t`. -/
def burstTap (r : Sig) (t : Int) (m : Nat) : Int × Int :=
  let a := burstBin r (t + 64) (dataCarrier m)
  let b := burstBin r (t + 320) (dataCarrier m)
  cmul (longSign m, 0) (a.1 + b.1, a.2 + b.2)

/-- The taps of a path. -/
def burstTaps (r : Sig) (t : Int) : List (Int × Int) := (List.range 200).map (burstTap r t)

/-- The equalised value of place m of payload symbol p, combined over paths by maximum ratio: the paths' bins times the conjugate taps, over the
power of the taps. -/
def burstCombined (rs : List (Sig × List (Int × Int))) (t : Int) (p m : Nat) : CQ :=
  let k := dataCarrier m
  let tap (x : Sig × List (Int × Int)) : Int × Int := (x.2[m]?).getD (0, 0)
  let n := csum (rs.map fun x => cmul (conj (tap x)) (burstBin x.1 (t + 576 + 288 * (p : Int) + 32) k))
  (CQ.ofInts (2 * n.1, 2 * n.2)).div (Q.ofInt (rs.map fun x => power2 (tap x)).sum, Q.zero)

/-- The combined values of a payload in order. -/
def burstPayload (rs : List (Sig × List (Int × Int))) (t : Int) (nsym : Nat) : List CQ :=
  (List.range nsym).flatMap fun p => (List.range 200).map (burstCombined rs t p)

-- EVM (R212)

/-- 1/√2 to 128 bits. -/
def halfRoot : Q := Q.make (rootRound (2 ^ 255) : Int) (2 ^ 128)

/-- The RMS error of combined values against QPSK points given in units of 1/√2, in 0.25 dB. -/
def burstEvm (z : List CQ) (d : List (Int × Int)) : Int := dbRatio 4 (distance z (d.map fun x => CQ.scale halfRoot (CQ.ofInts x))) (Q.ofInt z.length)

/-- The points of re-encoded bits, and of hard decisions. -/
def codedPoints (e : List Bool) : List (Int × Int) := (List.range (e.length / 2)).map fun i => payloadPoint e (i / 200) (i % 200)
def hardPoints (z : List CQ) : List (Int × Int) := z.map fun v => (if v.1.num < 0 then -1 else 1, if v.2.num < 0 then -1 else 1)

-- What a lane gives (R208 to R210, R212)

/-- The outcome of a decoded burst: the decoder's, the EVM, the refinement of the arrival time, and one measurement for each path. -/
structure BurstResult where
  dec    : Decoded
  evm    : Int
  refine : Int
  recs   : List MeasRec
  deriving DecidableEq, Repr

/-- Everything that a lane finds of a burst, from the streams of its paths: channel values whose estimators the manual does not give are free
functions of the taps and bins. -/
def State.burstResult (s : State) (x : Lane) (raw : List AdcIn) : BurstResult :=
  let ps := setBits x.paths
  let rs := (s.burstStreams x.paths x.off x.first raw).map (unshifted x.freq x.tc)
  let t : Int := (x.tc + 513 + 64 * x.hyp : Nat)
  let taps := rs.map fun r => burstTaps r t
  let z := burstPayload (rs.zip taps) t x.nsym
  let dec := burstDecode (z.flatMap fun v => [v.1, v.2]) x.nsym s.burst.cfg.iterMax.toNat
  let total := Q.ofInt ((taps.map fun l => (l.map power2).sum).sum)
  { dec := dec, evm := burstEvm z (if dec.crcOk then codedPoints (codedBits dec.block x.nsym) else hardPoints z), refine := Config.burstRefine taps
    recs := (ps.zip (rs.zip taps)).map fun y =>
      { path := y.1, phase := Config.burstPhase y.2.2, delay := BitVec.ofInt 16 (Config.burstDelay taps y.2.2)
        gain := BitVec.ofInt 16 (dbRatio 4 (Q.ofInt ((y.2.2.map power2).sum * (ps.length : Int))) total)
        snr := Config.burstSnr ((List.range 200).map fun m => (burstBin y.2.1 (t + 64) (dataCarrier m), burstBin y.2.1 (t + 320) (dataCarrier m))) : MeasRec } }

end Sys2Proof.Machine
end

