-- ==== Sys2Proof/Machine/Srs.lean ====
section
/-! DEFINITION. The sounding reference and the estimator (R161, R165 to R169): least-squares samples, despreading, smoothing, book values. -/

namespace Sys2Proof.Machine

-- The reference (R161)

/-- n_cs_max of a comb (R161). -/
def combShifts (ktc : Nat) : Nat := if ktc = 2 then 8 else if ktc = 4 then 12 else 6

/-- A prime, by trial division. -/
def isPrime (n : Nat) : Bool := decide (2 ≤ n) && (List.range n).all fun d => decide (d < 2) || n % d != 0

/-- The largest prime below n. -/
def primeBelow (n : Nat) : Nat := ((List.range n).reverse.find? isPrime).getD 2

/-- Phase of element n of the base sequence of length M of group u and number v, as a fraction of a turn. PRESUMED (log 27): TS 38.211 clause
5.2.2, to which R161 refers; the table values of its lengths 6 to 24 are free. -/
def basePhase (len u v n : Nat) : Int × Nat :=
  if len < 30 then (Config.srsPhase u len n, 8)
  else if len = 30 then (-(((u + 1) * (n + 1) * (n + 2) : Nat) : Int), 62)
  else
    let z := primeBelow len
    let q : Int := (((2 * z * (u + 1) + 31) / 62 : Nat) : Int) + (if (2 * z * (u + 1) / 31) % 2 = 0 then (v : Int) else -(v : Int))
    let m := n % z
    (-(q * ((m * (m + 1) : Nat) : Int)), 2 * z)

/-- Elements of an occasion: M = 12 PRB_NUM / K_TC. -/
def Occasion.elements (x : Occasion) : Nat := 12 * x.prbNum / x.ktc

/-- The reference r_p(m): the base sequence with the cyclic shift 2π N_CS/n_cs_max, as an 18-bit factor (R161). -/
def Occasion.reference (x : Occasion) (m : Nat) : Int × Int :=
  let b := basePhase x.elements x.u x.v m
  let c := combShifts x.ktc
  turnWord 18 Config.srsFrac (b.1 * c + ((x.ncs * m * b.2 : Nat) : Int)) (b.2 * c)

/-- The subcarriers that an occasion sounds (R161). -/
def Occasion.carriersOf (x : Occasion) : List Nat := (List.range x.elements).map fun m => 12 * x.prbStart + x.combOff + x.ktc * m

-- The estimator (R165 to R168)

/-- One estimate over the antennas: complex integers. -/
abbrev EstRow := List (Int × Int)

/-- A complex sum times num/den in 40 bits, rounded to 18-bit components: the value and its saturations (R165). -/
def est18 (v : Int × Int) (num : Int) (den : Nat) : (Int × Int) × Nat :=
  let i := satW 18 (rdiv (accumulate 40 v.1 * num) den)
  let q := satW 18 (rdiv (accumulate 40 v.2 * num) den)
  ((i.1, q.1), i.2 + q.2)

/-- The least-squares sample of element m from the received values of the occasion's symbols (R165). -/
def Occasion.sample (x : Occasion) (m : Nat) (ys : List (Int × Int)) : (Int × Int) × Nat :=
  let r := x.reference m
  est18 (csum (ys.map fun y => cmul y (r.1, -r.2))) 1 (x.nsym * 2 ^ Config.srsFrac)

/-- A weighted sum of rows times num/den, rounded to 18 bits (R165): the row and its saturations. -/
def estSum (l : List (Int × EstRow)) (num : Int) (den : Nat) : EstRow × Nat :=
  let r := (List.range 64).map fun a => est18 (csum (l.map fun (x : Int × EstRow) => let y := (x.2[a]?).getD (0, 0); (x.1 * y.1, x.1 * y.2))) num den
  (r.map fun v => v.1, (r.map fun v => v.2).sum)

/-- Two ports share their sounded subcarriers (R162). -/
def Occasion.shares (a b : Occasion) : Bool :=
  a.carrier == b.carrier && a.slot == b.slot && a.ktc == b.ktc && a.combOff == b.combOff && a.prbStart == b.prbStart && a.prbNum == b.prbNum && a.sym0 == b.sym0

/-- The samples that smoothing takes: subcarrier and row (R165, R166); in a shared set each block of n_cs_max elements gives its mean. -/
def Occasion.samples (x : Occasion) (despread : Bool) (ls : List EstRow) : List (Nat × EstRow) × Nat :=
  if !despread then (x.carriersOf.zip ls, 0)
  else
    let n := combShifts x.ktc
    (List.range (x.elements / n)).foldl (fun (a : List (Nat × EstRow) × Nat) b =>
      let r := estSum (((ls.drop (n * b)).take n).map fun y => (1, y)) 1 n
      (a.1 ++ [(12 * x.prbStart + x.combOff + x.ktc * n * b + x.ktc * (n - 1) / 2, r.1)], a.2 + r.2)) ([], 0)

/-- Smoothing at one subcarrier with the triangular kernel of half-width N (R167); the reciprocal of the weight sum has 18 fractional bits. -/
def smoothAt (xs : List (Nat × EstRow)) (n k : Nat) : EstRow × Nat :=
  let w := (xs.filter fun y => decide (((k : Int) - y.1).natAbs < n)).map fun y => ((n : Int) - ((k : Int) - y.1).natAbs, y.2)
  let sum := w.foldl (fun (a : Int) y => a + y.1) 0
  estSum w (rdiv (2 ^ 18) sum.toNat) (2 ^ 18)

/-- The 18-bit book values of an occasion: first group, one row per group, saturations (R165 to R168). -/
def Occasion.estimate (x : Occasion) (g : Nat) (despread : Bool) (ls : List EstRow) : Nat × List EstRow × Nat :=
  let xs := x.samples despread ls
  let n := max (12 * (x.smooth.toNat + 1)) (if despread then x.ktc * combShifts x.ktc else x.ktc)
  let first := x.prbStart / g
  let r := (List.range ((x.prbStart + x.prbNum - 1) / g + 1 - first)).foldl (fun (a : List EstRow × Nat) i =>
    let ks := x.carriersOf.filter fun k => k / 12 / g == first + i
    let hs := ks.map fun k => smoothAt xs.1 n k
    let m := estSum (hs.map fun h => (1, h.1)) 1 ks.length
    (a.1 ++ [m.1], a.2 + m.2 + (hs.map fun h => h.2).sum)) ([], xs.2)
  (first, r.1, r.2)

-- Book format (R169)

/-- A component at an exponent: its value is the component times 2^(EXP − 30) (R169). -/
def expComp (e : Nat) (v : Int) : Int := if e ≤ 30 then v * 2 ^ (30 - e) else rdiv v 2

/-- EXP: the smallest at which every component fits 16 bits, else 31 (R169). Antennas that take no part are 0 and count for nothing. -/
def bookExp (rows : List EstRow) : Nat :=
  ((List.range 32).find? fun e => rows.all fun r => r.all fun v => (satW 16 (expComp e v.1)).2 == 0 && (satW 16 (expComp e v.2)).2 == 0).getD 31

/-- The words of a row and its saturations. -/
def bookWords (e : Nat) (r : EstRow) : List (BitVec 32) × Nat :=
  let w := r.map fun v => (satW 16 (expComp e v.1), satW 16 (expComp e v.2))
  (w.map fun x => BitVec.ofInt 16 x.2.1 ++ BitVec.ofInt 16 x.1.1, (w.map fun x => x.1.2 + x.2.2).sum)

end Sys2Proof.Machine
end

