-- ==== Sys2Proof/Machine/Weights.lean ====
section
/-! DEFINITION. Shared operations of on-device weights (chapter 06): slots and groups, the weight memory, the channel book's
usable entries, admission, sidings, claims and fallbacks. -/

namespace Sys2Proof.Machine

-- Slots, symbols, groups

/-- The groups that a PRB range touches (R143). -/
def CarrierCfg.touched (k : CarrierCfg) (first num : Nat) : List Nat :=
  if num = 0 then [] else (List.range ((first + num - 1) / k.groupPrbs + 1 - first / k.groupPrbs)).map fun i => first / k.groupPrbs + i

/-- The air tick at which a carrier's slot ends. -/
def State.slotEnd (s : State) (c : Fin 8) (slot : Tick) : Tick := slot + s.carrierSlot c

/-- The map of an on-device section (R175). -/
def Section.map (x : Section) : List (Nat × Nat) :=
  match x.source with | .onDevice ps => x.layers.zip (ps.map fun p => p.toNat) | _ => []

/-- The device's place in the chain while it runs in ARRAY: index and devices (R316). -/
def State.chain (s : State) : Option (Nat × Nat) :=
  if s.mode.cur = .array then s.hit.cfg.map fun h => (h.dev, h.ndev) else none

/-- The device is a member of an array other than its leader. -/
def State.isMember (s : State) : Bool := match s.chain with | some (d, _) => d != 0 | none => false

/-- Devices in the membership (R318, R334). -/
def State.members (s : State) : Nat := (bitsOf 8 s.hit.members.toNat).length

-- The weight memory (R148 to R150)

/-- Allocations of on-device sets that are held: number and direction (true: UL). Claims hold theirs to the end of their slot, the
newest confirmed sets to two slots after theirs (R186). -/
def State.weightBlks (s : State) : List (Nat × Bool) :=
  let cl := s.ofdm.claims.filterMap fun (x : Claim) =>
    if s.slotEnd x.carrier x.slot ≤ s.ym.now then none
    else match x.how with
      | .served w => some (w.blk, x.ul)
      | .waiting _ _ b _ => some (b, x.ul)
      | .beam => none
  let cf := s.ofdm.confirmed.filterMap fun (w : WSet) => if w.slot + 3 * s.carrierSlot w.carrier ≤ s.ym.now then none else some (w.blk, w.ul)
  let sd (v : Vector (Option Siding) 8) (ul : Bool) : List (Nat × Bool) :=
    v.toList.flatMap fun (x : Option Siding) => match x with | some y => y.groups.map fun (g : SidingGroup) => (g.blk, ul) | none => []
  (cl ++ cf ++ sd s.ofdm.sidingsDl false ++ sd s.ofdm.sidingsUl true).eraseDups

/-- Sets of baseband sections that are held, by direction, to the end of their slot. -/
def State.basebandSets (s : State) (ul : Bool) : Nat :=
  (s.ofdm.sections.map fun (x : Section) =>
    if x.ul == ul && !x.fallback && s.ym.now < s.slotEnd x.carrier x.slot then
      match x.source with | .baseband b => b.length - x.fbGroups.length | _ => 0
    else 0).sum

/-- Blocks of 8,192 bytes taken, with so many further DL and UL sets; two UL sets share a block. -/
def State.blocksUsed (s : State) (dl ul : Nat) : Nat :=
  let l := s.weightBlks
  let u := (l.filter fun x => x.2).length
  (l.length - u) + s.basebandSets false + dl + (u + s.basebandSets true + ul + 1) / 2

/-- One more set of a direction fits the pool of 2,048 blocks. -/
def State.blockFree (s : State) (ul : Bool) (n : Nat := 1) : Bool := decide (s.blocksUsed (if ul then 0 else n) (if ul then n else 0) ≤ 2048)

/-- The siding whose slot lies furthest ahead (R150). -/
def State.farthest (s : State) : Option (Fin 8 × Bool) :=
  let all := (List.finRange 8).flatMap fun c => [(c, false), (c, true)]
  (all.foldl (fun (b : Option (Tick × Fin 8 × Bool)) (x : Fin 8 × Bool) =>
    match s.siding x.1 x.2 with
    | none => b
    | some y => match b with
      | none => some (y.target, x)
      | some z => if z.1 < y.target then some (y.target, x) else b) none).map fun z => z.2

/-- Make room for `k` confirmed sets: sidings are reclaimed, the furthest ahead first (R150). -/
def State.reclaim (s : State) (ul : Bool) (k : Nat) : Nat → State
  | 0 => s
  | n + 1 =>
    if s.blockFree ul k then s
    else match s.farthest with
      | none => s
      | some (c, u) => State.reclaim (s.scrapSiding c u) ul k n

/-- A new allocation number. -/
def State.newBlk (s : State) : Nat × State := (s.ofdm.nextId, { s with ofdm := { s.ofdm with nextId := s.ofdm.nextId + 1 } })

-- The channel book

/-- Age of an entry at a slot of its carrier (R171). -/
def State.bookAge (s : State) (e : BookEntry) (slot : Tick) : Int := (slot - e.slot) / s.carrierSlot e.carrier

/-- An entry covers a group. -/
def BookEntry.covers (e : BookEntry) (g : Nat) : Bool := decide (e.firstG.toNat ≤ g ∧ g < e.firstG.toNat + e.samples.length)

/-- The usable entry of a port for a group and slot (R168, R171). -/
def State.usable (s : State) (c : Fin 8) (p g : Nat) (slot : Tick) : Option BookEntry :=
  s.ofdm.book.find? fun e => e.carrier == c && e.port.toNat == p && e.covers g && decide (s.bookAge e slot ≤ s.ofdm.carriers[c].wcfg.maxAge.toNat)

/-- Every port of a map has a usable value. -/
def State.mapUsable (s : State) (c : Fin 8) (m : List (Nat × Nat)) (g : Nat) (slot : Tick) : Bool :=
  m.all fun x => (s.usable c x.2 g slot).isSome

/-- Kernel slot in force for a carrier (R475, R493). -/
def State.kernelOf (s : State) (c : Fin 8) : BitVec 2 := if s.mode.cur = .array then 0 else s.ofdm.carriers[c].kernel

/-- Derotation state of a carrier. -/
def State.derotOf (s : State) (c : Fin 8) : Bool := match s.ofdm.carriers[c].cfg with | some k => k.derot | none => false

/-- The set that a computation staged now is to give, its words still empty. -/
def State.stageSet (s : State) (c : Fin 8) (ul : Bool) (grp : Nat) (slot : Tick) (m : List (Nat × Nat)) (kernel : BitVec 2) (blk : Nat) : WSet :=
  let es := m.filterMap fun x => s.usable c x.2 grp slot
  let w := s.ofdm.carriers[c].wcfg
  { carrier := c, ul := ul, grp := grp, slot := slot, map := m, sigE := w.sigE, sigM := w.sigM, derot := s.derotOf c, kernel := kernel
    seqs := es.map fun e => (e.port.toNat, e.seq), fresh := es.foldl (fun a e => if a < e.pubAt then e.pubAt else a) 0, words := [], blk := blk }

-- Cost and admission (R178, R185, R474, R490)

/-- Cycles of one group with the kernel that serves it, for L layers and A antennas. -/
def State.groupCycles (s : State) (kernel : BitVec 2) (l a : Nat) : Nat :=
  let user (k : Kernel) : Nat := ((k.c0.toNat + k.c1.toNat * l * l) * 64 + a * (k.c2.toNat * l * l + k.c3.toNat * l) + 1023) / 1024
  if kernel = 1 then user s.sol.k1 else if kernel = 2 then user s.sol.k2
  else 150 + l * l + (a * (3 * l * l + 5 * l) + 63) / 64

/-- A core in the schedule of R185: the tick at which it is free, and the cycles taken in the window of 65,536 that holds it. -/
structure CoreSlot where
  free : Int
  used : Nat
  deriving DecidableEq, Repr

/-- When a job of a cost would start on a core: within the 57,344 cycles of its window, or in the next (R474). -/
def CoreSlot.start (x : CoreSlot) (cost : Nat) : Int := if x.used + cost ≤ 57344 then x.free else (x.free / 65536 + 1) * 65536

/-- The core after a job. -/
def CoreSlot.after (x : CoreSlot) (cost : Nat) : CoreSlot :=
  let b := x.start cost
  let base := if b = x.free then x.used else 0
  { free := b + cost, used := if (b + cost) / 65536 = b / 65536 then base + cost else 0 }

/-- Give a job to the core that starts it first: completion and the cores after it. -/
def schedule (l : List CoreSlot) (cost : Nat) : Option Int × List CoreSlot :=
  let best := l.zipIdx.foldl (fun (b : Option (CoreSlot × Nat)) (x : CoreSlot × Nat) =>
    match b with
    | none => some x
    | some y => if x.1.start cost < y.1.start cost then some x else some y) none
  match best with
  | none => (none, l)
  | some (x, i) => (some (x.start cost + cost), putAt l i (x.after cost))

/-- The cores that take jobs, with the groups running on them. -/
def State.coreSlots (s : State) : List CoreSlot :=
  let cs := (List.finRange 9).filter fun i => s.sol.cores[i].st == .inService && s.sol.cores[i].resetEnd.isNone && !s.coreTested i
  cs.map fun i =>
    let x := s.sol.cores[i]
    let left := match x.fgJob with | some j => j.budget - x.fgCyc | none => 0
    { free := s.ym.now + left, used := if s.sol.window = (s.ym.now / 65536).toNat then s.sol.used[i] else 0 }

/-- Confirmed jobs that wait, the earliest deadline first. -/
def State.confirmedJobs (s : State) : List Job :=
  (sortKey ((s.sol.ready.filter fun j => match j.kind with | .weight _ _ _ _ _ true _ => true | _ => false).map fun j => (j.deadline.toNat, j))).map fun x => x.2

/-- The tick at which `n` more groups of one cost would all be complete (R185): admitted work with deadlines no later goes first. -/
def State.predict (s : State) (n cost : Nat) (deadline : Tick) : Option Int :=
  let ahead := s.confirmedJobs.filter fun j => j.deadline ≤ deadline
  let l := ahead.foldl (fun (l : List CoreSlot) j => (schedule l j.budget).2) s.coreSlots
  ((List.range n).foldl (fun (a : Option Int × List CoreSlot) _ =>
    let r := schedule a.2 cost
    (match a.1, r.1 with | some x, some y => some (max x y) | _, _ => none, r.2)) (some s.ym.now, l)).1

/-- T_chain of R332 for groups computed along the chain. -/
def chainTicks (groups layers hops : Nat) : Int := ((groups + 7) / 8 : Nat) * (170 + 6 * layers * layers : Nat) + 4 * hops * 1180

/-- Waiting groups of the array that have been admitted with deadlines no later. -/
def State.chainAhead (s : State) (deadline : Tick) : Nat :=
  (s.ofdm.claims.filter fun x => match x.how with | .waiting _ d _ none => d ≤ deadline | _ => false).length

/-- R185, R332: the on-demand groups that one section claims are admitted only if all complete at or before their deadline. -/
def State.admits (s : State) (c : Fin 8) (n l : Nat) (deadline : Tick) : Bool :=
  match s.chain with
  | some _ => decide (s.ym.now + chainTicks (s.chainAhead deadline + n) l (s.members - 1) ≤ deadline)
  | none =>
    match s.predict n (s.groupCycles (s.kernelOf c) l (s.antennas c).length) deadline with
    | some t => decide (t ≤ deadline)
    | none => false

/-- Start a group's computation along the chain: its Gram stage on this device (R331). -/
def State.chainStart (s : State) (c : Fin 8) (ul : Bool) (slot : Tick) (grp : Nat) (m : List (Nat × Nat)) (blk : Nat) : State :=
  let g : ChainGroup :=
    { carrier := c, ul := ul, slot := slot, grp := grp, map := m, blk := blk, own := none, below := none, gramOut := false, solved := none, set := none
      readyBelow := false, readyOut := false }
  let j : Job := { kind := .chain 0 c ul slot grp m blk, deadline := slot, budget := 40 + m.length * m.length, kernel := 0 }
  { s with hit := { s.hit with groups := s.hit.groups ++ [g] }, sol := { s.sol with ready := s.sol.ready ++ [j] } }

-- Sidings (R179 to R182)

/-- The job of a group. -/
def State.weightJob (s : State) (c : Fin 8) (ul : Bool) (slot : Tick) (grp : Nat) (m : List (Nat × Nat)) (confirmed : Bool) (blk : Nat) (deadline : Tick) : Job :=
  { kind := .weight c ul slot grp m confirmed blk, deadline := deadline, budget := s.groupCycles (s.kernelOf c) m.length (s.antennas c).length, kernel := s.kernelOf c }

/-- Give a job to the dispatcher. -/
def State.addJob (s : State) (j : Job) : State := { s with sol := { s.sol with ready := s.sol.ready ++ [j] } }

/-- Start the computation of one group: a weight job, or in an array its stages. -/
def State.compute (s : State) (c : Fin 8) (ul : Bool) (slot : Tick) (grp : Nat) (m : List (Nat × Nat)) (confirmed : Bool) (blk : Nat) (deadline : Tick) : State :=
  match s.chain with
  | some _ => s.chainStart c ul slot grp m blk
  | none => s.addJob (s.weightJob c ul slot grp m confirmed blk deadline)

/-- Work of a siding group becomes confirmed work with a deadline. -/
def State.confirmJob (s : State) (blk : Nat) (deadline : Tick) : State :=
  let f (j : Job) : Job :=
    match j.kind with
    | .weight c u t g m _ b => if b = blk then { j with kind := .weight c u t g m true b, deadline := deadline } else j
    | _ => j
  { s with sol := { s.sol with ready := s.sol.ready.map f, cores := s.sol.cores.map fun (x : SolCore) => { x with fgJob := x.fgJob.map f } } }

/-- The latest hint of a direction whose target slot has not begun (R179). -/
def State.hintFor (s : State) (c : Fin 8) (ul : Bool) : Option Hint :=
  (s.ofdm.hints.filter fun h => h.carrier == c && h.ul == ul && decide (s.ym.now < h.target)).getLast?

/-- The maps that a hint gives: the first range that touches a group governs. -/
def CarrierCfg.hintMaps (k : CarrierCfg) (h : Hint) : List (Nat × List (Nat × Nat)) :=
  (List.range k.groups).filterMap fun g =>
    (h.ranges.find? fun r => (k.touched r.1 r.2.1).contains g).map fun r => (g, r.2.2)

/-- The newest confirmed set of a group and direction for slots before a tick. -/
def State.newest (s : State) (c : Fin 8) (ul : Bool) (grp : Nat) (before : Option Tick) : Option WSet :=
  s.ofdm.confirmed.foldl (fun (b : Option WSet) (w : WSet) =>
    if w.carrier == c && w.ul == ul && w.grp == grp && (match before with | some t => decide (w.slot < t) | none => true) && decide (s.ym.now < w.slot + 3 * s.carrierSlot c) then
      match b with
      | none => some w
      | some x => if x.slot ≤ w.slot then some w else b
    else b) none

/-- The maps under which groups were last served by confirmed on-device weights (R179). -/
def State.lastMaps (s : State) (c : Fin 8) (ul : Bool) (k : CarrierCfg) : List (Nat × List (Nat × Nat)) :=
  (List.range k.groups).filterMap fun g =>
    (s.ofdm.lastMap.find? fun x => x.1 == (c, ul, g)).map fun x => (g, x.2)

/-- Count a siding that is not created (R181); its pending commands end with SCRAPPED (R180). -/
def State.noSiding (s : State) (c : Fin 8) (cmds : List CmdRef) : State :=
  cmds.foldl (fun (s : State) r => s.complete r .scrapped) (s.modWcount c fun w => { w with noSiding := satInc w.noSiding })

/-- The group of a siding and its allocation. -/
def State.sidingGroups (s : State) (l : List (Nat × List (Nat × Nat))) : List SidingGroup × State :=
  l.foldl (fun (a : List SidingGroup × State) x => let b := a.2.newBlk; (a.1 ++ [{ grp := x.1, map := x.2, blk := b.1, set := none }], b.2)) ([], s)

/-- Make a siding (R179, R181): the groups that have a map and usable values, while the pool has blocks for all of them. The devices of an array
make theirs alike, each for its own antennas (R331). -/
def State.startSiding (s : State) (c : Fin 8) (ul : Bool) (target : Tick) (maps : List (Nat × List (Nat × Nat))) (cmds : List CmdRef) (allowed : Bool) : State :=
  let gs := maps.filter fun x => s.mapUsable c x.2 x.1 target
  if !allowed || decide (target ≤ s.ym.now) || gs.isEmpty || !s.blockFree ul gs.length then s.noSiding c cmds
  else
    let r := s.sidingGroups gs
    let s := (r.2.setSiding c ul (some { target := target, ready := false, maps := maps, groups := r.1, cmds := cmds })).modWcount c fun w => { w with sidings := satInc w.sidings }
    r.1.foldl (fun (s : State) (g : SidingGroup) => s.compute c ul target g.grp g.map false g.blk target) s

/-- A siding starts on a completed sounding (R179, R181). -/
def State.sidingOnSounding (s : State) (c : Fin 8) (ul : Bool) (slot : Tick) : State :=
  match s.ofdm.carriers[c].cfg with
  | none => s
  | some k =>
    let w := s.ofdm.carriers[c].wcfg
    let s := s.scrapSiding c ul
    let ok : Bool := w.kAhead != 0 && w.aheadDir.getLsbD (if ul then 1 else 0)
    match s.hintFor c ul with
    | some h => s.startSiding c ul h.target (k.hintMaps h) [] ok
    | none => s.startSiding c ul (slot + w.kAhead.toNat * s.carrierSlot c) (s.lastMaps c ul k) [] ok

/-- A hint is evaluated (R179, R181): the same target and maps as the siding's change nothing. -/
def State.sidingOnHint (s : State) (h : Hint) (cmds : List CmdRef) : State :=
  match s.ofdm.carriers[h.carrier].cfg with
  | none => s.noSiding h.carrier cmds
  | some k =>
    let s := { s with ofdm := { s.ofdm with hints := s.ofdm.hints ++ [h] } }
    let maps := k.hintMaps h
    match s.siding h.carrier h.ul with
    | some x =>
      if x.target = h.target ∧ x.maps = maps then s.setSiding h.carrier h.ul (some { x with cmds := x.cmds ++ cmds })
      else (s.scrapSiding h.carrier h.ul).startSiding h.carrier h.ul h.target maps cmds true
    | none => s.startSiding h.carrier h.ul h.target maps cmds true

/-- A hint is accepted: it is evaluated after the claims and the completed soundings of its tick (R170). -/
def State.hintAccept (s : State) (h : Hint) (cmds : List CmdRef) : State := { s with ofdm := { s.ofdm with hintNow := s.ofdm.hintNow ++ [(h, cmds)] } }

/-- A group leaves its siding; the siding ends with its last group, and pending commands with it (R180, R181). -/
def State.sidingTake (s : State) (c : Fin 8) (ul : Bool) (grp : Nat) : State :=
  match s.siding c ul with
  | none => s
  | some x =>
    let gs := x.groups.filter fun g => g.grp != grp
    if gs.isEmpty then x.cmds.foldl (fun (s : State) r => s.complete r .scrapped) (s.setSiding c ul none)
    else s.setSiding c ul (some { x with groups := gs })

-- Claims (R183 to R186)

/-- Replace a claim. -/
def State.setClaim (s : State) (x : Claim) : State :=
  { s with ofdm := { s.ofdm with claims := (s.ofdm.claims.filter fun y => !(y.carrier == x.carrier && y.ul == x.ul && y.slot == x.slot && y.grp == x.grp)) ++ [x] } }

/-- The claim of a group in a slot. -/
def State.claim? (s : State) (c : Fin 8) (ul : Bool) (slot : Tick) (grp : Nat) : Option Claim :=
  s.ofdm.claims.find? fun x => x.carrier == c && x.ul == ul && x.slot == slot && x.grp == grp

/-- A set is published as the confirmed set of its group and slot: it serves the claim, and is the group's newest. -/
def State.publish (s : State) (x : Claim) (w : WSet) : State :=
  let w := { w with slot := x.slot }
  let key := (x.carrier, x.ul, x.grp)
  let s := s.setClaim { x with how := .served w }
  { s with ofdm := { s.ofdm with
      confirmed := (s.ofdm.confirmed.filter fun (y : WSet) => !(y.carrier == w.carrier && y.ul == w.ul && y.grp == w.grp && y.slot == w.slot)) ++ [w]
      lastMap := (s.ofdm.lastMap.filter fun y => y.1 != key) ++ [(key, x.map)] } }

/-- The fallback of a group (R186): the previous confirmed set, or the codebook run. -/
def State.fallbackClaim (s : State) (x : Claim) : State :=
  let fb : Bool := match s.ofdm.carriers[x.carrier].cfg with | some k => k.fbPrev | none => false
  let old := match s.newest x.carrier x.ul x.grp (some x.slot) with
    | some w => if fb && w.map == x.map && w.kernel == s.kernelOf x.carrier && decide (x.slot - w.slot ≤ 2 * s.carrierSlot x.carrier) then some w else none
    | none => none
  match old with
  | some w => (s.modWcount x.carrier fun n => { n with fbPrev := satInc n.fbPrev }).setClaim { x with how := .served w }
  | none => (s.modWcount x.carrier fun n => { n with fbBeam := satInc n.fbBeam }).setClaim { x with how := .beam }

/-- The newest confirmed set may serve again (R183, R493). -/
def State.reusable (s : State) (x : Claim) : Option WSet :=
  match s.newest x.carrier x.ul x.grp none with
  | none => none
  | some w =>
    let k := s.ofdm.carriers[x.carrier].wcfg
    let same : Bool := x.map.all fun (m : Nat × Nat) =>
      match s.usable x.carrier m.2 x.grp x.slot with
      | some e => w.seqs.contains (m.2, e.seq)
      | none => false
    if w.map == x.map && w.sigE == k.sigE && w.sigM == k.sigM && w.derot == s.derotOf x.carrier && w.kernel == s.kernelOf x.carrier && same then some w else none

/-- Resolve a claimed group without its siding (R183): reuse, else the claim is left for on-demand work (true), else the fallback. -/
def State.resolveClaim (s : State) (x : Claim) : State × Bool :=
  match s.reusable x with
  | some w => ((s.modWcount x.carrier fun n => { n with reused := satInc n.reused }).publish x w, false)
  | none =>
    let can := s.mapUsable x.carrier x.map x.grp x.slot
    if s.ofdm.carriers[x.carrier].wcfg.onDemand && can then (s, true)
    else
      let s := if can then s else s.modWcount x.carrier fun n => { n with noEstimate := satInc n.noEstimate }
      (s.fallbackClaim x, false)

/-- Confirmed work of one group: a block is allocated, reclaimed from sidings where none is free; without one the group runs
on the codebook fallback (R150). On demand it counts once it is published (R185). -/
def State.confirmGroup (s : State) (x : Claim) (demand : Bool) (deadline : Tick) : State :=
  let s := s.reclaim x.ul 1 16
  if !s.blockFree x.ul then
    (s.modCarrier x.carrier fun y => { y with count := { y.count with allocFail := satInc y.count.allocFail } }).setClaim { x with how := .beam }
  else
    let b := s.newBlk
    (b.2.setClaim { x with how := .waiting demand deadline b.1 none }).compute x.carrier x.ul x.slot x.grp x.map true b.1 deadline

/-- The siding that holds a claimed group, and the group in it. -/
def State.sidingOf (s : State) (x : Claim) : Option (Siding × SidingGroup) :=
  match s.siding x.carrier x.ul with
  | some y => if y.target = x.slot then (y.groups.find? fun (g : SidingGroup) => g.grp == x.grp).map fun (g : SidingGroup) => (y, g) else none
  | none => none

/-- A siding group whose map is not the claim's is scrapped with cause MISMATCH (R181). -/
def State.sidingMismatch (s : State) (x : Claim) (g : SidingGroup) : State :=
  ((s.sidingTake x.carrier x.ul x.grp).dropWork g.blk).modWcount x.carrier fun n => { n with scrapped := satInc n.scrapped }

/-- A member of an array claims a group: it computes, and what serves comes with COMMIT (R333); the pending WEIGHT_HINT commands of a siding that
held the group wait for it too (R180, R332). -/
def State.claimMember (s : State) (x : Claim) (deadline : Tick) : State :=
  match s.sidingOf x with
  | none => s.confirmGroup x false deadline
  | some (y, g) =>
    if g.map ≠ x.map then (s.sidingMismatch x g).confirmGroup x false deadline
    else ((s.setSiding x.carrier x.ul (some { y with cmds := [] })).sidingTake x.carrier x.ul x.grp).setClaim { x with how := .waiting false deadline g.blk none, cmds := y.cmds }

/-- A group is claimed by the first on-device section that touches it (R181, R183); true leaves it for on-demand work. -/
def State.claimGroup (s : State) (x : Claim) (deadline : Tick) : State × Bool :=
  if s.isMember then (s.claimMember x deadline, false)
  else match s.sidingOf x with
    | none => s.resolveClaim x
    | some (y, g) =>
      if g.map ≠ x.map then (s.sidingMismatch x g).resolveClaim x
      else match g.set with
        | some w =>
          let s := y.cmds.foldl (fun (s : State) r => s.complete r .ok) s
          let s := (s.setSiding x.carrier x.ul (some { y with cmds := [] })).sidingTake x.carrier x.ul x.grp
          ((s.modWcount x.carrier fun n => { n with promoted := satInc n.promoted }).publish x w, false)
        | none => (((s.sidingTake x.carrier x.ul x.grp).confirmJob g.blk deadline).setClaim { x with how := .waiting false deadline g.blk none }, false)

/-- The WEIGHT_HINT commands of a member's claim: OK with its promotion, else back to the siding, or SCRAPPED where it has ended (R180). -/
def State.claimCmds (s : State) (x : Claim) (served : Bool) : State :=
  if served then x.cmds.foldl (fun (s : State) r => s.complete r .ok) s
  else match s.siding x.carrier x.ul with
    | some y => s.setSiding x.carrier x.ul (some { y with cmds := y.cmds ++ x.cmds })
    | none => x.cmds.foldl (fun (s : State) r => s.complete r .scrapped) s

/-- A section is accepted (R143, R183): every group that it touches is claimed, or meets an earlier claim; then its on-demand groups
are admitted, or take their fallback and count in LATE_WEIGHTS (R185). -/
def State.claimSection (s : State) (x : Section) : State :=
  match s.ofdm.carriers[x.carrier].cfg, x.source with
  | some k, .onDevice _ =>
    if x.fallback then s
    else
      let due := x.slot + symStart k.scs30 x.symFirst
      let deadline := if x.ul then due + symLen k.scs30 x.symFirst else due - Kind.dlSymbol.latency
      let gs := k.touched x.prbFirst x.prbNum
      let clash := gs.any fun g => match s.claim? x.carrier x.ul x.slot g with | some y => y.map != x.map | none => false
      let s := if clash then s.modWcount x.carrier fun n => { n with mapConflict := satInc n.mapConflict } else s
      let mk (g : Nat) : Claim := { carrier := x.carrier, ul := x.ul, slot := x.slot, grp := g, map := x.map, how := .beam, cmds := [] }
      let r := gs.foldl (fun (a : State × List Nat) g =>
        match a.1.claim? x.carrier x.ul x.slot g with
        | none => let r := a.1.claimGroup (mk g) deadline; (r.1, if r.2 then a.2 ++ [g] else a.2)
        | some y => match y.how with
          | .waiting o d b w => (if y.map == x.map && decide (deadline < d) then a.1.setClaim { y with how := .waiting o deadline b w } else a.1, a.2)
          | _ => a) (s, [])
      if r.1.admits x.carrier r.2.length x.map.length deadline then r.2.foldl (fun (s : State) g => s.confirmGroup (mk g) true deadline) r.1
      else r.2.foldl (fun (s : State) g => (s.modWcount x.carrier fun n => { n with lateWeights := satInc n.lateWeights }).fallbackClaim (mk g)) r.1
  | _, _ => s

/-- The words that a set holds: the element of a layer and antenna (R148). -/
def WSet.elem (w : WSet) (layer a : Nat) : BitVec 32 :=
  match w.words.find? fun x => x.1 == 64 * layer + a with | some x => x.2 | none => 0

/-- The claim that waits for the set of an allocation. -/
def State.waiter (s : State) (blk : Nat) : Option Claim :=
  s.ofdm.claims.find? fun (x : Claim) => match x.how with | .waiting _ _ b none => b == blk | _ => false

/-- The siding that holds an allocation, and its group. -/
def State.sidingWith (s : State) (blk : Nat) : Option (Fin 8 × Bool × Siding × SidingGroup) :=
  (List.finRange 8).findSome? fun c => [false, true].findSome? fun ul =>
    (s.siding c ul).bind fun y => (y.groups.find? fun (g : SidingGroup) => g.blk == blk).map fun g => (c, ul, y, g)

/-- An allocation gets no set: a claim that waits for it takes its fallback, a siding loses the group. -/
def State.noSet (s : State) (blk : Nat) : State :=
  match s.waiter blk, s.sidingWith blk with
  | some x, _ => s.fallbackClaim x
  | none, some (c, ul, _, g) => s.sidingTake c ul g.grp
  | none, none => s

/-- A computed group: its set goes to the claim that waits for it or to its siding; with no weights SOLVE_FAIL counts (R177, R487). -/
def State.weightDone (s : State) (c : Fin 8) (blk : Nat) (w : Option WSet) : State :=
  match w with
  | none => (s.modWcount c fun n => { n with solveFail := satInc n.solveFail }).noSet blk
  | some w =>
    match s.waiter blk, s.sidingWith blk with
    | some x, _ => (match x.how with | .waiting o d b _ => s.setClaim { x with how := .waiting o d b (some w) } | _ => s)
    | none, some (c, ul, y, _) =>
      let f (g : SidingGroup) : SidingGroup := if g.blk = blk then { g with set := some w } else g
      s.setSiding c ul (some { y with groups := y.groups.map f })
    | none, none => s

/-- Work unfinished at its deadline is abandoned (R185, R187). -/
def State.abandonClaim (s : State) (x : Claim) : State :=
  let s := match x.how with | .waiting _ _ b _ => s.dropWork b | _ => s
  (s.modWcount x.carrier fun n => { n with lateWeights := satInc n.lateWeights }).fallbackClaim x

/-- A first-use period ends with the first slot in which a group is served by weights computed from an entry published after it
began (R188); it is judged when the slot ends, over all its groups. A previous confirmed set is not counted (DEDUCED, log 26). -/
def State.firstUseEnds (s : State) (c : Fin 8) (ul : Bool) (slot : Tick) : State :=
  let start := if ul then s.ofdm.carriers[c].firstUseUl else s.ofdm.carriers[c].firstUseDl
  match start with
  | none => s
  | some t =>
    let sv := s.ofdm.claims.filterMap fun (x : Claim) =>
      if x.carrier = c ∧ x.ul = ul ∧ x.slot = slot then (match x.how with | .served w => if w.slot = slot then some w else none | _ => none) else none
    if sv.any fun w => decide (t ≤ w.fresh) then
      let w := airWord slot
      let s := s.modCarrier c fun x => if ul then { x with firstUseUl := none } else { x with firstUseDl := none }
      s.postRec 0x04 8 [.v 3 c.val, .v 1 (b2n ul), .u 4, .v 8 ((w.extractLsb' 0 24).toNat / (s.carrierSlot c).toNat), .v 16 sv.length, .v 32 (w.extractLsb' 32 32).toNat]
    else s

/-- Slots that end are judged for first use. -/
def State.firstUseSweep (s : State) : State :=
  let ended := (s.ofdm.claims.filter fun (x : Claim) => decide (s.slotEnd x.carrier x.slot ≤ s.ym.now)).map fun (x : Claim) => (x.carrier, x.ul, x.slot)
  ended.eraseDups.foldl (fun (s : State) k => s.firstUseEnds k.1 k.2.1 k.2.2) s

/-- What is past is forgotten: claims and hints whose slot has ended, occasions whose slot has, sets beyond their two slots, sections long gone. -/
def State.weightPrune (s : State) : State :=
  let o := { s.ofdm with
      claims := s.ofdm.claims.filter fun (x : Claim) => decide (s.ym.now < s.slotEnd x.carrier x.slot + 983040)
      confirmed := s.ofdm.confirmed.filter fun (w : WSet) => decide (s.ym.now < w.slot + 3 * s.carrierSlot w.carrier)
      hints := s.ofdm.hints.filter fun (h : Hint) => decide (s.ym.now < h.target)
      occasions := s.ofdm.occasions.filter fun (x : Occasion) => !x.done || decide (s.ym.now < s.slotEnd x.carrier x.slot)
      sections := s.ofdm.sections.filter fun (x : Section) => decide (s.ym.now < s.slotEnd x.carrier x.slot + 983040) }
  let h := { s.hit with
      groups := s.hit.groups.filter fun (g : ChainGroup) => decide (s.ym.now < s.slotEnd g.carrier g.slot)
      committed := s.hit.committed.filter fun (g : Fin 8 × Bool × Tick × Nat) => decide (s.ym.now < s.slotEnd g.1 g.2.2.1)
      psums := s.hit.psums.filter fun (p : PSum) => decide (s.ym.now < p.sym + 983040) }
  { s with ofdm := o, hit := h }

end Sys2Proof.Machine
end

