-- ==== Sys2Proof/Machine/Wire.lean ====
section
/-! DEFINITION. Wire forms: big-endian fields, Ethernet frames, the sending of frames (R285, R308). -/

namespace Sys2Proof.Machine

/-- `n` bytes at an offset, big-endian (R285). -/
def beAt (b : Bytes) (off n : Nat) : Nat := ofBe ((b.drop off).take n)

/-- One byte of a string. -/
def byteAt (b : Bytes) (off : Nat) : Nat := ((b.drop off).headD 0).toNat

/-- Round up to a multiple of 4. -/
def pad4 (n : Nat) : Nat := (n + 3) / 4 * 4

/-- One bit of the CRC-32 of IEEE 802.3, reflected. -/
def crc32Step (r : BitVec 32) : BitVec 32 := if r.getLsbD 0 then (r >>> 1) ^^^ 0xEDB88320 else r >>> 1

/-- One byte of the CRC-32. -/
def crc32Byte (r : BitVec 32) (b : Byte) : BitVec 32 := (List.range 8).foldl (fun r _ => crc32Step r) (r ^^^ b.setWidth 32)

/-- The CRC-32 of IEEE 802.3 over bytes. -/
def crc32 (b : Bytes) : BitVec 32 := ~~~ (b.foldl crc32Byte 0xFFFFFFFF)

/-- Change a port's counters. -/
def State.cnt (s : State) (p : Fin 8) (f : PortCount → PortCount) : State := s.modPort p fun x => { x with count := f x.count }

/-- An Ethernet frame (R308): addresses, the tag of a port with VLAN_EN, EtherType, payload padded to 64 bytes, FCS. -/
def PortCfg.frame (k : PortCfg) (dst : BitVec 48) (tagged : Bool) (etherType : Nat) (b : Bytes) : Bytes :=
  let tag := if tagged && k.vlanEn then beBytes 2 0x8100 ++ beBytes 2 (k.pcp.toNat * 8192 + b2n k.dei * 4096 + k.vid.toNat) else []
  let f := beBytes 6 dst.toNat ++ beBytes 6 k.ownMac.toNat ++ tag ++ beBytes 2 etherType ++ b
  let f := f ++ List.replicate (60 - f.length) 0
  f ++ leBytes 4 (crc32 f).toNat

/-- Send a frame on a port and count it. -/
def State.sendFrame (s : State) (p : Fin 8) (name : String) (f : Bytes) : State :=
  (s.cnt p fun c => { c with txBytes := c.txBytes + BitVec.ofNat 64 f.length, txFrames := satInc c.txFrames }).emit (.fhSend p.val name f)

end Sys2Proof.Machine
end

