-- ==== Sys2Proof/Machine/FamWeights.lean ====
section
/-! DEFINITION. Meanings of sounding, the channel book and on-device weights (chapter 06). -/

namespace Sys2Proof.Machine

-- Hitch messages (R319)

/-- A hitch frame (R319): untagged, to the peer MAC of its port. -/
def State.hitFrame (s : State) (port : Nat) (name : String) (b : Bytes) : State :=
  match toFin 8 port with
  | some p => s.sendFrame p name (s.fh.ports[p].cfg.frame s.fh.ports[p].cfg.peerMac false 0xAEFE b)
  | none => s

/-- Send a hitch message on a port: the header of Table 11-2, then the body. `slot` is the slot, or symbol index, of the message. -/
def State.hitSend (s : State) (port kind : Nat) (name : String) (dir car slot frame : Nat) (body : Bytes) : State :=
  let key := (kind, port)
  let seq : BitVec 16 := match s.hit.txSeq.find? fun x => x.1 == key with | some x => x.2 | none => 0
  let dev := match s.hit.cfg with | some h => h.dev | none => 0
  let b := [BitVec.ofNat 8 (0x10 + kind), BitVec.ofNat 8 (dev * 32 + dir * 8 + car)] ++ beBytes 2 seq.toNat ++ beBytes 4 (slot * 2 ^ 23 + frame % 2 ^ 23) ++ body
  { s with hit := { s.hit with txSeq := (s.hit.txSeq.filter fun (x : (Nat × Nat) × BitVec 16) => x.1 != key) ++ [(key, seq + 1)] } }.hitFrame port name b

/-- Send a message that names a slot of a carrier. -/
def State.hitSlot (s : State) (port kind : Nat) (name : String) (ul : Bool) (c : Fin 8) (slot : Tick) (body : Bytes) : State :=
  let w := airWord slot
  s.hitSend port kind name (b2n ul) c.val ((w.extractLsb' 0 24).toNat / (s.carrierSlot c).toNat) (w.extractLsb' 32 32).toNat body

/-- The port toward D0, and the port away from it while a device of the membership lies there. -/
def State.upPort (s : State) : Option Nat := s.hit.cfg.bind fun h => if h.dev = 0 then none else some h.upPort.toNat
def State.downPort (s : State) : Option Nat :=
  s.hit.cfg.bind fun h => if h.dev + 1 < h.ndev ∧ s.hit.members.getLsbD (h.dev + 1) then some h.downPort.toNat else none

-- Commands

/-- WEIGHT_SET (R174). -/
def execWeightSet (c : Cmd) (s : State) : R :=
  .next (s.hostCmd c 0x30 anyOp fun x =>
    let n : Fin 8 := (pf x.payload 0 0 3).toFin
    let w : WeightCfg :=
      { aheadDir := pf x.payload 1 6 2, onDemand := pb x.payload 1 5, kAhead := pf x.payload 1 0 3, smooth := pf x.payload 2 0 2
        maxAge := pf x.payload 3 0 8, sigE := pf x.payload 6 0 8, sigM := pf x.payload 4 0 16 }
    if x.atBad || w.kAhead.toNat > 4 || w.maxAge == 0 || (w.aheadDir != 0 && w.kAhead == 0) then s.complete c.ref .badArg
    else if s.ofdm.carriers[n].cfg.isNone then s.complete c.ref .notReady
    else s.carrierEvent c.ref x n (.weight n w))

/-- The map of a WEIGHT_HINT (Table 6-6). -/
def hintMap (p : BitVec 320) : List (Nat × Nat) := (bitsOf 32 (pf p 4 0 32).toNat).map fun l => (l, (pf p (8 + l) 0 8).toNat)

/-- A list names nothing twice. -/
def distinct (l : List Nat) : Bool := l.eraseDups.length == l.length

/-- WEIGHT_HINT (R179 to R181): in NO_TIME no slot can be named. -/
def execWeightHint (c : Cmd) (s : State) : R :=
  .next (s.hostCmd c 0x31 anyOp fun x =>
    let n : Fin 8 := (pf x.payload 0 0 3).toFin
    let ul := pb x.payload 0 3
    let m := hintMap x.payload
    let t := s.ofAirWord x.at_
    let layers : Nat := match s.ofdm.carriers[n].cfg with | some k => if ul then k.ulLayers.toNat else k.dlLayers.toNat | none => 0
    if !s.counting then s.complete c.ref .notReady
    else if x.atBad || t % s.carrierSlot n != 0 || m.isEmpty || m.any (fun (y : Nat × Nat) => Nat.ble layers y.1) || !distinct (m.map fun (y : Nat × Nat) => y.2) then s.complete c.ref .badArg
    else if t ≤ s.ym.now then s.complete c.ref .late
    else (s.setStage c.ref .running).hintAccept { carrier := n, ul := ul, target := t, ranges := [(0, 512, m)] } [c.ref])

/-- A channel-book header (Table 6-3). -/
def State.bookHeader (s : State) (e : BookEntry) : Bytes × State :=
  let w := airWord e.at_
  s.record 16 [.v 3 e.carrier.val, .u 4, .v 1 1, .v 8 e.port.toNat, .v 16 e.seq.toNat, .v 32 (w.extractLsb' 32 32).toNat, .v 24 (w.extractLsb' 0 24).toNat, .u 8,
    .v 9 e.firstG.toNat, .u 2, .v 5 e.exp.toNat, .v 9 e.samples.length, .u 7]

/-- The samples of an entry in group order (R169). -/
def BookEntry.bytes (e : BookEntry) : Bytes := e.samples.flatMap fun g => g.flatMap fun w => leBytes 4 w.toNat

/-- BOOK_READ (R169, R425): the held entries of the named carriers and port range, in port order. -/
def execBookRead (c : Cmd) (s : State) : R :=
  .next (s.statusCmd c 0x32 8 fun x =>
    let a := (pf x.payload 20 0 8).toNat
    let b := (pf x.payload 21 0 8).toNat
    let es := (sortKey ((s.ofdm.book.filter fun e => x.select.getLsbD e.carrier.val && decide (a ≤ e.port.toNat ∧ e.port.toNat ≤ b)).map fun e => (e.port.toNat, e))).map fun y => y.2
    let r := es.foldl (fun (a : Bytes × State) e =>
      let h := a.2.bookHeader e
      (a.1 ++ h.1 ++ (if pb x.entry 4 2 then e.bytes else []), h.2)) ([], s)
    r.2.respond c x r.1)

/-- A weight status record (Table 6-9). -/
def State.weightRecord (s : State) (c : Fin 8) : Bytes × State :=
  let x := s.ofdm.carriers[c]
  let n := x.wcount
  s.record 64 ([n.soundings, n.sndRefused, n.bookEvict, n.bookFull, n.sidings, n.promoted, n.scrapped, n.reused, n.onDemand, n.lateWeights, n.fbPrev, n.fbBeam,
      n.noEstimate].map (fun v => .v 32 v.toNat) ++ [n.solveFail, n.mapConflict, n.estSat, n.noSiding].map (fun v => .v 16 v.toNat) ++
    [.v 9 (s.ofdm.book.filter fun e => e.carrier == c).length, .u 7, .u 5, .v 1 (b2n x.recipInvalid), .v 1 (b2n x.firstUseUl.isSome), .v 1 (b2n x.firstUseDl.isSome), .u 8])

/-- WEIGHT_STATUS (R189). -/
def execWeightStatus (c : Cmd) (s : State) : R :=
  .next (s.statusCmd c 0x33 8 fun x =>
    let ks := (List.finRange 8).filter fun k => x.select.getLsbD k.val
    let r := ks.foldl (fun (a : Bytes × State) k => let b := a.2.weightRecord k; (a.1 ++ b.1, b.2)) ([], s)
    r.2.respond c x r.1 fun s => ks.foldl (fun (s : State) k => s.modWcount k fun _ => WeightCount.zero) s)

-- Sounding (R161 to R164, R170, R330)

/-- Checks of a traffic event on its paths in ascending order: the LO over the interval (R101), and the state (R90 to R93, R97, R98). -/
def State.trafficCheck (s : State) (e : Event) (need : PState) (len : Nat) (ps : List (Fin 64)) : Option (Cause × Res) :=
  let due := s.dpOf e.due
  ps.findSome? fun p =>
    let r : Res := { cls := 1, idx := p.val }
    if s.radio.paths[p].retired then some (.pathState, r)
    else match s.loCause (paddockOf p) due (due + len) with
      | some c => some (c, r)
      | none =>
        if need == .tx && !s.interlock p then some (.pathState, r)
        else if s.pathFits p need due (due + len) e.kind.latency.toNat (s.dpOf e.release) then none
        else some (.pathState, r)

/-- The transitions that a released traffic event carries (R91), and in DORMANT the unmuting around it (R408). -/
def State.trafficBegin (s : State) (e : Event) (need : PState) (len : Nat) (ps : List (Fin 64)) : State :=
  let due := s.dpOf e.due
  ps.foldl (fun (s : State) p => (s.dormantNeed p (decide (need = .tx)) e.due (e.due + len)).trafficPath p need due (due + len) (s.dpOf e.release)) s

/-- The weight configuration in force at a tick to come. -/
def State.wcfgAt (s : State) (c : Fin 8) (t : Tick) : WeightCfg :=
  s.ym.timed.foldl (fun (w : WeightCfg) (x : Timed) => match x.act with | .cfg (.weight d k) _ => if d = c ∧ x.due ≤ s.dpOf t then k else w | _ => w) s.ofdm.carriers[c].wcfg

/-- Change an occasion. -/
def State.modOccasion (s : State) (id : Nat) (f : Occasion → Occasion) : State :=
  { s with ofdm := { s.ofdm with occasions := s.ofdm.occasions.map fun (x : Occasion) => if x.id = id then f x else x } }

/-- The entries of a slot are published on this device (R170): in an array its sounding is complete once SND_DONE has come from below; a member
sends it on (R330). -/
def State.soundingDone (s : State) (c : Fin 8) (slot : Tick) : State :=
  match s.chain with
  | none => (s.sidingOnSounding c false slot).sidingOnSounding c true slot
  | some _ =>
    if s.downPort.isSome && !(s.hit.sndDone.any fun x => x.1 == (c.val, slot)) then { s with hit := { s.hit with sndOwn := s.hit.sndOwn ++ [(c.val, slot)] } }
    else
      let below := s.hit.sndDone.find? fun x => x.1 == (c.val, slot)
      let s := { s with hit := { s.hit with sndOwn := s.hit.sndOwn.filter (· != (c.val, slot)), sndDone := s.hit.sndDone.filter fun x => x.1 != (c.val, slot) } }
      let own := (s.ofdm.book.filter fun e => e.carrier == c && e.slot == slot).map fun e => e.port
      let ports := match below with | some b => own.filter b.2.contains | none => own
      let s := match s.upPort with | some p => s.hitSlot p 9 "SND_DONE" false c slot ports | none => s
      (s.sidingOnSounding c false slot).sidingOnSounding c true slot

/-- When every occasion of a slot is published or abandoned, its sounding is over; it is complete in this tick if an entry was published
(R170). -/
def State.soundingSweep (s : State) (c : Fin 8) (slot : Tick) : State :=
  let mine (x : Occasion) : Bool := x.carrier == c && x.slot == slot && !x.done
  let xs := s.ofdm.occasions.filter mine
  if xs.isEmpty || xs.any fun x => !(x.published || x.abandoned) then s
  else
    { s with ofdm := { s.ofdm with
        occasions := s.ofdm.occasions.map fun (x : Occasion) => if mine x then { x with done := true } else x
        sndNow := if xs.any fun x => x.published && !x.abandoned then s.ofdm.sndNow ++ [(c, slot)] else s.ofdm.sndNow } }

/-- The order of a tick (R170): claims are evaluated as their sections come; then completed soundings, then hints. What happens at the end of a
slot follows. -/
def State.weightTick (s : State) : State :=
  let snd := s.ofdm.sndNow
  let hints := s.ofdm.hintNow
  let s := { s with ofdm := { s.ofdm with
      sndNow := []
      hintNow := [] } }
  let s := snd.foldl (fun (s : State) (x : Fin 8 × Tick) => s.soundingDone x.1 x.2) s
  (hints.foldl (fun (s : State) (x : Hint × List CmdRef) => s.sidingOnHint x.1 x.2) s).firstUseSweep

/-- The last symbol of an occasion is released: its smoothing is work for the background contexts of the cores (R178, R474). -/
def State.smoothingJob (s : State) (x : Occasion) : State :=
  let pending := s.ym.events.any fun e => match e.body with | .sounding o _ _ => o == x.id | _ => false
  if pending then s else s.addJob { kind := .smoothing x.id, deadline := x.lastEnd, budget := 0, kernel := 0 }

/-- SOUNDING_RELEASE (R64, R66, R91, R101, R163, R164): the antennas receive for the symbol; a dropped event abandons the occasion. -/
def execSoundingRelease (ev : Nat) (s : State) : R :=
  .next (
    let occ? (s : State) (e : Event) : Option (Occasion × Nat × Nat) :=
      match e.body with
      | .sounding occ sym len => (s.ofdm.occasions.find? fun x => x.id == occ).map fun x => (x, sym, len)
      | _ => none
    match s.releasable ev .sounding with
    | none => s
    | some e =>
      let s := s.release ev .sounding
        (fun s e => match occ? s e with | some (x, _, len) => s.trafficCheck e .rx len (s.antennas x.carrier) | none => none)
        (fun s e => match occ? s e with
          | some (x, sym, len) =>
            let s := s.trafficBegin e .rx len (s.antennas x.carrier)
            let s := if sym = x.sym0 then s.modOccasion x.id fun y => { y with smooth := (s.wcfgAt x.carrier e.due).smooth } else s
            s.smoothingJob x
          | none => s)
      match e.body with
      | .sounding occ _ _ => match s.ofdm.occasions.find? fun x => x.id == occ with | some x => s.soundingSweep x.carrier x.slot | none => s
      | _ => s)

-- Publication (R170, R172, R173)

/-- Free sample slots of the book (R169). -/
def State.bookFree (s : State) : Nat := 32768 - (s.ofdm.book.map fun e => e.samples.length).sum

/-- Admitted work, or with `all` any computation under way, reads a port's entry (R173, R185). -/
def State.bookRead (s : State) (all : Bool) (e : BookEntry) : Bool :=
  let hit (c : Fin 8) (m : List (Nat × Nat)) : Bool := c == e.carrier && m.any fun x => x.2 == e.port.toNat
  (s.ofdm.claims.any fun x => match x.how with | .waiting _ _ _ none => hit x.carrier x.map | _ => false)
  || (all && s.sol.cores.toList.any fun x => match x.fgJob with
      | some { kind := .weight c _ _ _ m _ _, .. } => hit c m
      | some { kind := .chain _ c _ _ _ m _, .. } => hit c m
      | _ => false)

/-- The entry to free next (R173): older than its carrier's MAX_AGE first, then any that no computation reads, the oldest occasion first. The
entry of the port that is to be published remains. -/
def State.evictNext (s : State) (port : BitVec 8) : Option BookEntry :=
  let oldest (l : List BookEntry) : Option BookEntry :=
    l.foldl (fun (b : Option BookEntry) (e : BookEntry) => match b with | none => some e | some x => if e.at_ < x.at_ then some e else b) none
  let stale (e : BookEntry) : Bool := decide ((s.ofdm.carriers[e.carrier].wcfg.maxAge.toNat : Int) < s.bookAge e s.ym.now)
  let others := s.ofdm.book.filter fun e => e.port != port
  match oldest (others.filter fun e => stale e && !s.bookRead false e) with
  | some e => some e
  | none => oldest (others.filter fun e => !s.bookRead true e)

/-- Free entries until `n` slots are free, each counted in BOOK_EVICT of its carrier. -/
def State.evict (s : State) (port : BitVec 8) (n : Nat) : Nat → State
  | 0 => s
  | f + 1 =>
    if n ≤ s.bookFree then s
    else match s.evictNext port with
      | none => s
      | some e =>
        let s := s.modWcount e.carrier fun w => { w with bookEvict := satInc w.bookEvict }
        State.evict { s with ofdm := { s.ofdm with book := s.ofdm.book.filter fun x => x.port != e.port } } port n f

/-- Put an entry into the book in place of the port's previous one (R170, R172). -/
def State.bookPut (s : State) (x : Occasion) (k : CarrierCfg) (exp first : Nat) (samples : List (List (BitVec 32))) : State :=
  let seq : BitVec 16 := (match s.ofdm.portSeq.find? fun y => y.1 == x.port.toNat with | some y => y.2 | none => 0) + 1
  let e : BookEntry :=
    { port := x.port, carrier := x.carrier, seq := seq, at_ := x.slot + symStart k.scs30 x.sym0, slot := x.slot, pubAt := s.ym.now
      exp := BitVec.ofNat 5 exp, firstG := BitVec.ofNat 9 first, samples := samples }
  let s := { s with ofdm := { s.ofdm with
      book := (s.ofdm.book.filter fun (y : BookEntry) => y.port != x.port) ++ [e]
      portSeq := (s.ofdm.portSeq.filter fun (y : Nat × BitVec 16) => y.1 != x.port.toNat) ++ [(x.port.toNat, seq)] } }
  s.modWcount x.carrier fun w => { w with soundings := satInc w.soundings }

/-- The least-squares samples of an occasion over the 64 antennas, element by element, and their saturations (R163, R165): what the FFTs give of
its symbols, with the ramp by the carrier's derotation state; an antenna that takes no part is 0. -/
def State.soundRows (s : State) (x : Occasion) (k : CarrierCfg) (raw : List AdcIn) : List EstRow × Nat :=
  let on := s.antennas x.carrier
  let rx (p : Fin 64) (sc i : Nat) : Int × Int :=
    (s.rxElement k p (x.sym0 + i) (x.slot + symStart k.scs30 (x.sym0 + i)) k.derot (adcSig raw p) sc).1
  let rows := x.carriersOf.zipIdx.map fun m => (List.finRange 64).map fun p =>
    if on.contains p then x.sample m.2 ((List.range x.nsym).map (rx p m.1)) else ((0, 0), 0)
  (rows.map fun r => r.map fun v => v.1, (rows.map fun r => (r.map fun v => v.2).sum).sum)

/-- What saturates in the reception of an occasion's symbols (R128, R157). -/
def State.soundSats (s : State) (x : Occasion) (k : CarrierCfg) (raw : List AdcIn) : State :=
  (List.range x.nsym).foldl (fun (s : State) i =>
    let l := x.sym0 + i
    let t := x.slot + symStart k.scs30 l
    (s.addSats x.carrier (s.symbolSats x.carrier k l t (fun _ => k.derot) raw)).counted x.carrier (t + symLen k.scs30 l)) s

/-- The entry of an occasion is complete: it enters the book, or finds no room (R165 to R173). -/
def State.bookEstimate (s : State) (x : Occasion) (k : CarrierCfg) (raw : List AdcIn) : State :=
  let ls := s.soundRows x k raw
  let r := x.estimate k.groupPrbs (s.ofdm.occasions.any fun y => y.id != x.id && y.shares x) ls.1
  let e := bookExp r.2.1
  let ws := r.2.1.map (bookWords e)
  let s := s.modWcount x.carrier fun w => { w with estSat := satAdd w.estSat (ls.2 + r.2.2 + (ws.map fun w => w.2).sum) }
  let s := s.modOccasion x.id fun y => { y with published := true }
  let s := s.evict x.port ws.length 256
  if ws.length ≤ s.bookFree then s.bookPut x k e r.1 (ws.map fun w => w.1)
  else (s.modWcount x.carrier fun w => { w with bookFull := satInc w.bookFull }).modOccasion x.id fun y => { y with abandoned := true }

/-- The core whose background context has an occasion's smoothing in hand (R178, R475). -/
def State.smoothingCore (s : State) (occ : Nat) : Option (Fin 9) :=
  (List.finRange 9).find? fun i => match s.sol.cores[i].bgJob with | some { kind := .smoothing o, .. } => o == occ | _ => false

/-- CHANNEL_BOOK_PUBLISH (R163 to R173, R178): the smoothing of an occasion, which a core has in hand, ends. `raw` holds what the ADCs gave of its
symbols. -/
def execChannelBookPublish (occ : Nat) (raw : List AdcIn) (s : State) : R :=
  .next (match s.ofdm.occasions.find? fun x => x.id == occ, s.smoothingCore occ with
    | some x, some i =>
      (match s.ofdm.carriers[x.carrier].cfg with
      | none => s
      | some k =>
        if x.abandoned || x.published || decide (s.ym.now < x.lastEnd) then s
        else
          let s := { s with sol := { s.sol with cores := vmod s.sol.cores i fun (m : SolCore) => { m with bgJob := none, bgOn := false, bgCyc := 0 } } }
          ((s.soundSats x k raw).bookEstimate x k raw).soundingSweep x.carrier x.slot)
    | _, _ => s)

-- Sidings and confirmed sets

/-- SIDING_READY (R181): the last group of a siding is computed. -/
def execSidingReady (car : Fin 8) (ul : Bool) (s : State) : R :=
  .next (match s.siding car ul with
    | some x => if !x.ready && x.groups.all fun g => g.set.isSome then s.setSiding car ul (some { x with ready := true }) else s
    | none => s)

/-- SIDING_SLOT_END (R181): at the end of the target slot the unclaimed groups are scrapped. -/
def execSidingSlotEnd (car : Fin 8) (ul : Bool) (s : State) : R :=
  .next (match s.siding car ul with
    | some x => if s.counting && decide (s.slotEnd car x.target ≤ s.ym.now) then s.scrapSiding car ul else s
    | none => s)

/-- ON_DEMAND_PUBLISH (R184, R185): confirmed work that is complete by its deadline is published; on demand it is counted. -/
def execOnDemandPublish (car : Fin 8) (ul : Bool) (slot : Tick) (grp : Nat) (s : State) : R :=
  .next (match s.claim? car ul slot grp with
    | some x => match x.how with
      | .waiting od d _ (some w) =>
        if s.chain.isSome || decide (d < s.ym.now) then s
        else (if od then s.modWcount car fun n => { n with onDemand := satInc n.onDemand } else s).publish x w
      | _ => s
    | none => s)

/-- WEIGHT_DEADLINE (R184, R185): work unfinished at the deadline is abandoned for the group's fallback. In an array COMMIT decides (R333). -/
def execWeightDeadline (car : Fin 8) (ul : Bool) (slot : Tick) (grp : Nat) (s : State) : R :=
  .next (match s.claim? car ul slot grp with
    | some x => match x.how with
      | .waiting _ d _ _ => if s.chain.isSome || decide (s.ym.now < d) then s else s.abandonClaim x
      | _ => s
    | none => s)

end Sys2Proof.Machine
end

