-- ==== Sys2Proof/Machine/FamBurst.lean ====
section
/-! DEFINITION. Meanings of calibration bursts and quality reports (chapter 07). -/

namespace Sys2Proof.Machine

-- Sending and receiving: checks shared by the commands and the directives of R299

/-- A burst's band leaves the window of the LO (R199): abs(BURST_OFF), in 100 Hz, above half the window less 12.1 MHz. CALIBRATE names no
window. -/
def State.burstOutside (s : State) (off : BitVec 32) : Bool :=
  s.mode.cur != .calibrate && decide (s.mode.cur.window * 5 - 121000 < off.toInt.natAbs)

/-- The path and mode conditions of R199. -/
def State.burstConflict (s : State) (ps : List (Fin 64)) : Bool :=
  ps.any (fun p => !s.inActive p) || s.mode.cur == .bringup || s.mode.cur == .calibrate

/-- Conditions under which BURST_TX is not carried out (R199); gates of R392 and R444 last. -/
def State.burstTxRefusal (s : State) (b : BurstTxPar) : Option Status :=
  if s.burstOutside b.off then some .badArg else if s.burstConflict [b.path] then some .modeConflict else s.trafficGate

/-- The frequency of the LO that serves a path. -/
def State.loFreq (s : State) (p : Fin 64) : BitVec 23 := s.radio.synths[s.active (paddockOf p)].freq

/-- Paths that different LOs serve (R202): those of two bands, or of paddocks tuned apart (R82). -/
def State.mixedLo (s : State) (ps : List (Fin 64)) : Bool :=
  (s.mode.cur == .split && ps.any (fun p => decide (p.val < 32)) && ps.any (fun p => decide (32 ≤ p.val)))
  || (match ps with | [] => false | p :: l => l.any fun q => s.loFreq q != s.loFreq p)

/-- Conditions under which BURST_RX is not carried out (R202). -/
def State.burstRxRefusal (s : State) (ps : BitVec 64) (window : Nat) (off : BitVec 32) : Option Status :=
  let l := setBits ps
  if l.isEmpty || window == 0 || s.mixedLo l || s.burstOutside off then some .badArg
  else if s.burstConflict l then some .modeConflict
  else s.trafficGate

/-- The event of a BURST_TX. -/
def burstTxEvent (b : BurstTxPar) (due : Tick) : NewEv := { kind := .burstTx, due := due, res := { cls := 1, idx := b.path.val }, body := .burstTx b }

/-- The event of a BURST_RX: its resource is the device's one burst receiver. -/
def burstRxEvent (ps : BitVec 64) (nsym window : Nat) (off : BitVec 32) (tag : BitVec 16) (due : Tick) : NewEv :=
  { kind := .burstRx, due := due, res := { cls := 9, idx := 0 }, body := .burstRx ps nsym window off tag }

/-- BURST_TX (R198, R199). -/
def execBurstTx (c : Cmd) (s : State) : R :=
  .next (s.hostCmd c 0x39 anyOp fun x =>
    let p := x.payload
    let b : BurstTxPar := { path := (pf p 0 0 6).toFin, nsym := (pf p 1 0 2).toNat + 1, att := pf p 2 0 8, pwr := pf p 3 0 8, off := pf p 4 0 32, user := pf p 8 0 16 }
    if x.atBad then s.complete c.ref .badArg
    else match s.burstTxRefusal b with
      | some st => s.complete c.ref st
      | none => let due := s.eventDue x .burstTx; s.presentCmd c.ref x.tag (some due) [burstTxEvent b due])

/-- BURST_RX (R202). -/
def execBurstRx (c : Cmd) (s : State) : R :=
  .next (s.hostCmd c 0x3A anyOp fun x =>
    let p := x.payload
    let ps : BitVec 64 := pf p 0 0 64
    let w := (pf p 10 0 16).toNat
    let off : BitVec 32 := pf p 12 0 32
    if x.atBad then s.complete c.ref .badArg
    else match s.burstRxRefusal ps w off with
      | some st => s.complete c.ref st
      | none => let due := s.eventDue x .burstRx; s.presentCmd c.ref x.tag (some due) [burstRxEvent ps ((pf p 8 0 2).toNat + 1) w off x.tag due])

/-- BURST_CFG (R201). -/
def execBurstCfg (c : Cmd) (s : State) : R :=
  .next (s.hostCmd c 0x38 anyOp fun x =>
    let p := x.payload
    let k : BurstCfg :=
      { syncWord := pf p 0 0 32, unitId := pf p 4 0 24, syncTol := pf p 8 0 3, capture := pf p 9 0 8, detThr := pf p 10 0 8, iterMax := pf p 11 4 4, nfAvg := pf p 11 0 4 }
    if k.syncWord == 0 || k.syncWord == 0xFFFFFFFF || k.syncTol == 7 || k.iterMax == 0 || k.iterMax.toNat > 12 || k.nfAvg.toNat > 10 || k.capture.toNat > 30 then
      s.complete c.ref .badArg
    else if s.ym.events.any (fun e => e.kind == .burstTx || e.kind == .burstRx) || s.burst.lanes.toList.any (fun l => l.st != .search) then s.complete c.ref .modeConflict
    else { s with burst := { s.burst with cfg := k } }.complete c.ref .ok)

-- Release (R198, R200, R202)

/-- Two intervals meet. -/
def TxOn.meets (x : TxOn) (p : Fin 64) (a b : Nat) : Bool := x.paths.getLsbD p.val && decide (x.start < b ∧ a < x.fin)

/-- A DL symbol accepted before an event overlaps an interval on a path (R200). -/
def State.dlBefore (s : State) (id : Nat) (p : Fin 64) (a b : Nat) : Bool :=
  (s.burst.dl.any fun x => decide (x.id < id) && x.meets p a b)
  || s.ym.events.any fun e => decide (e.id < id) && e.kind == .dlSymbol && (match s.needs e p with | some n => decide (s.dpOf e.due < b ∧ a < s.dpOf e.due + n.2) | none => false)

/-- A burst accepted before an event overlaps an interval on a path (R200). -/
def State.burstBefore (s : State) (id : Nat) (p : Fin 64) (a b : Nat) : Bool :=
  (s.burst.bursts.any fun x => decide (x.id < id) && x.meets p a b)
  || s.ym.events.any fun e => decide (e.id < id) && e.kind == .burstTx && (match s.needs e p with | some n => decide (s.dpOf e.due < b ∧ a < s.dpOf e.due + n.2) | none => false)

/-- The check of a BURST_TX event: R200 and the path. -/
def State.burstTxCheck (s : State) (e : Event) : Option (Cause × Res) :=
  match e.body with
  | .burstTx b =>
    let a := s.dpOf e.due
    if s.dlBefore e.id b.path a (a + b.len) then some (.resourceBusy, e.res) else s.trafficCheck e .tx b.len [b.path]
  | _ => none

/-- The information block of a burst (R196, R198): F and T name the due time plus the path's skew. -/
def State.burstBlock (s : State) (b : BurstTxPar) (due : Tick) : BitVec 160 :=
  let w := airWord (due + b.path.val % 8)
  let dev : BitVec 3 := if s.mode.cur = .array then BitVec.ofNat 3 (match s.hit.cfg with | some h => h.dev | none => 0) else 0
  let band : BitVec 1 := if s.mode.cur = .split ∧ b.path.val ≥ 32 then 1 else 0
  let path : BitVec 6 := BitVec.ofNat 6 b.path.val
  let a : BitVec 136 := (1#4 ++ s.burst.cfg.unitId ++ dev ++ path ++ band ++ w.extractLsb' 32 32 ++ w.extractLsb' 0 24 ++ b.pwr ++ s.burst.seq ++ b.user ++ 0#2 : BitVec 136)
  a ++ crc24a a

/-- The samples of a burst (R190 to R198), at the input of the half-band stages of its path. -/
def State.burstSamplesOf (s : State) (b : BurstTxPar) (due : Tick) : List (Int × Int) :=
  burstWords s.burst.cfg.syncWord (codedBits (s.burstBlock b due) b.nsym) b.nsym b.att.toNat

/-- BURST_TX_RELEASE (R64, R66, R91, R101, R124, R195, R198, R200): the path's transition, and the burst on its way to its ball, k ticks after the
due time. -/
def execBurstTxRelease (ev : Nat) (s : State) : R :=
  .next (s.release ev .burstTx State.burstTxCheck fun s e =>
    match e.body with
    | .burstTx b =>
      let a := s.dpOf e.due
      let s := s.trafficBegin e .tx b.len [b.path]
      let o := Out.burst b.path.val (txBall b.path e.due) b.nsym b.att b.off (s.burstBlock b e.due)
      let on : TxOn := { id := e.id, paths := 1#64 <<< b.path.val, start := a, fin := a + b.len }
      let w : TxWave := { path := b.path, off := b.off, due := e.due, vals := s.burstSamplesOf b e.due }
      { s with burst := { s.burst with
          seq := s.burst.seq + 1
          bursts := on :: s.burst.bursts.filter fun x => decide (s.dp < x.fin)
          waves := s.burst.waves ++ [w] } }.emit o
    | _ => s)

/-- The check of a BURST_RX event: the receiver, then the paths (R202). -/
def State.burstRxCheck (s : State) (e : Event) : Option (Cause × Res) :=
  match e.body with
  | .burstRx ps n w _ _ => if s.dpOf e.due < s.burst.busy then some (.resourceBusy, e.res) else s.trafficCheck e .rx (burstSpan n w) (setBits ps)
  | _ => none

/-- BURST_RX_RELEASE (R202): the paths receive and the window opens at the due time; its first sample is the first of the 30.72 MS/s grid from
then on. -/
def execBurstRxRelease (ev : Nat) (s : State) : R :=
  .next (s.release ev .burstRx State.burstRxCheck fun s e =>
    match e.body with
    | .burstRx ps n w off tag =>
      let a := s.dpOf e.due
      let first := ceilTo 32 e.due
      let s := s.trafficBegin e .rx (burstSpan n w) (setBits ps)
      { s with burst := { s.burst with
          window := some { paths := ps, nsym := n, first := first, openAt := s.dpOf first, close := a + 32 * w, off := off, tag := tag }
          busy := a + burstSpan n w } }
    | _ => s)

-- The receiver (R203 to R209)

/-- Change a lane. -/
def State.modLane (s : State) (l : Fin 2) (f : Lane → Lane) : State := { s with burst := { s.burst with lanes := vmod s.burst.lanes l f } }

/-- Change the burst counters. -/
def State.modBurst (s : State) (f : BurstCount → BurstCount) : State := { s with burst := { s.burst with count := f s.burst.count } }

/-- The cycle of a sample of a lane's candidate. -/
def Lane.at_ (x : Lane) (sample : Nat) : Nat := x.base + 32 * (x.tc + sample)

/-- The lane is receiving a burst (R206). -/
def Lane.receiving (x : Lane) : Bool := x.st == .sync || x.st == .train || x.st == .decode

/-- A detection at a cycle is the burst of a candidate in HOLD (R204): a multiple of 64 samples away, within two samples. -/
def Lane.same (x : Lane) (t : Nat) : Bool :=
  x.st == .hold && (let r := (((t : Int) - x.at_ 0) / 32) % 64; decide (r ≤ 2 ∨ 62 ≤ r))

/-- Post a burst report (R209, Table 7-9): outcome code, iterations, refinement, EVM, MEAS_ID, block; the last two are undefined without a
set and without OUTCOME OK. -/
def State.burstReport (s : State) (l : Fin 2) (outcome iters : Nat) (refine : Int) (evm : BitVec 16) (meas : Option (BitVec 16)) (block : Option (BitVec 136)) : Bytes × State :=
  let x : Lane := s.burst.lanes[l]
  let units : Int := s.airOf (x.at_ (1 + 64 * x.hyp)) * 1024 - 32768 * 1024 + refine
  let w := airWord (units / 1024)
  s.record 40 ([.v 3 x.syncErr.toNat, .v 1 l.val, .v 4 outcome, .u 4, .v 4 iters, .v 16 x.tag.toNat, .v 32 (w.extractLsb' 32 32).toNat, .v 24 (w.extractLsb' 0 24).toNat, .u 8,
      .v 10 (units % 1024).toNat, .u 6, .v 16 (BitVec.ofInt 16 x.level).toNat, .v 16 evm.toNat] ++ (match meas with | some m => [.v 16 m.toNat] | none => [.u 16]) ++
    (match block with | some b => [.v 136 (ofLe (leBytes 17 b.toNat).reverse)] | none => [.u 136]) ++ [.u 24])

/-- A receiving lane is captured (R206): report CAPTURED, and the lane searches again. -/
def State.captureLane (s : State) (l : Fin 2) : State :=
  let r := s.burstReport l 2 0 0 0x8000 none none
  ((r.2.post 0x05 r.1).modBurst fun n => { n with captured := satInc n.captured }).modLane l fun _ => Lane.idle

/-- A candidate is given to a lane. -/
def State.holdLane (s : State) (l : Fin 2) (w : BurstWindow) (tc : Nat) (level freq : Int) : State :=
  (s.modLane l fun _ => { Lane.idle with
      st := .hold, tc := tc, level := level, nsym := w.nsym, tag := w.tag, base := w.openAt, first := w.first, off := w.off, freq := freq, paths := w.paths }).modBurst
    fun n => { n with detections := satInc n.detections }

/-- Where a new candidate goes (R204, R206). -/
def State.placeCandidate (s : State) (w : BurstWindow) (tc : Nat) (level freq : Int) : State :=
  let free := (List.finRange 2).find? fun l => s.burst.lanes[l].st == .search
  let rx := (List.finRange 2).filter fun l => s.burst.lanes[l].receiving
  let low := rx.foldl (fun (b : Option (Fin 2)) l => match b with | none => some l | some k => if s.burst.lanes[l].level < s.burst.lanes[k].level then some l else b) none
  match low with
  | some k =>
    if s.burst.lanes[k].level + 2 * s.burst.cfg.capture.toNat ≤ level then (s.captureLane k).holdLane (free.getD k) w tc level freq
    else s.modBurst fun n => { n with ignored := satInc n.ignored }
  | none => match free with
    | some l => s.holdLane l w tc level freq
    | none => s.modBurst fun n => { n with lostBusy := satInc n.lostBusy }

/-- BURST_DETECTION (R203, R204, R206): the detector reaches its threshold at a sample of the window and has heard the 64 that follow. `raw` holds
what the ADCs gave since the window opened. -/
def execBurstDetection (sample : Nat) (raw : List AdcIn) (s : State) : R :=
  .next (match s.burst.window with
    | none => s
    | some w =>
      let rs := s.burstStreams w.paths w.off w.first raw
      if s.dp < w.openAt + 32 * (sample + 64) || w.close ≤ w.openAt + 32 * sample || !s.detectsAt rs sample then s
      else
        let tc := burstTiming rs sample
        if s.burst.lanes.toList.any fun x => x.same (w.openAt + 32 * tc) then s
        else s.placeCandidate w tc (candidateLevel rs tc) (candidateOffset rs tc))

/-- The streams of a lane's candidate, without its frequency offset (R203). -/
def State.laneStreams (s : State) (x : Lane) (raw : List AdcIn) : List Sig := (s.burstStreams x.paths x.off x.first raw).map (unshifted x.freq x.tc)

/-- SYNC_HYPOTHESIS_FAIL (R205): hypothesis 12 has been tested and none was accepted. -/
def execSyncHypothesisFail (lane : Fin 2) (raw : List AdcIn) (s : State) : R :=
  .next (
    let x := s.burst.lanes[lane]
    if x.st == .hold && decide (x.at_ 1281 ≤ s.dp) && (s.syncHypothesis (s.laneStreams x raw) x.tc).isNone then
      (s.modLane lane fun _ => Lane.idle).modBurst fun n => { n with falseDet := satInc n.falseDet }
    else s)

/-- SYNC_ACCEPTED (R205): the first hypothesis with at most SYNC_TOL bit errors. -/
def execSyncAccepted (lane : Fin 2) (raw : List AdcIn) (s : State) : R :=
  .next (
    let x := s.burst.lanes[lane]
    let rs := s.laneStreams x raw
    match s.syncHypothesis rs x.tc with
    | some h =>
      if x.st == .hold && decide (x.at_ (513 + 64 * h) ≤ s.dp) then
        s.modLane lane fun x => { x with st := .sync, hyp := h, syncErr := BitVec.ofNat 3 (s.syncErrors rs x.tc h) }
      else s
    | none => s)

/-- SYNC_FIELD_END (R207). -/
def execSyncFieldEnd (lane : Fin 2) (s : State) : R :=
  .next (
    let x := s.burst.lanes[lane]
    if x.st == .sync && decide (x.at_ (513 + 64 * x.hyp) ≤ s.dp) then s.modLane lane fun x => { x with st := .train } else s)

/-- LONG_TRAINING_END (R207): the taps are estimated. -/
def execLongTrainingEnd (lane : Fin 2) (s : State) : R :=
  .next (
    let x := s.burst.lanes[lane]
    if x.st == .train && decide (x.at_ (1089 + 64 * x.hyp) ≤ s.dp) then s.modLane lane fun x => { x with trained := true } else s)

/-- PAYLOAD_END (R207): after the last payload symbol the lane decodes. -/
def execPayloadEnd (lane : Fin 2) (s : State) : R :=
  .next (
    let x := s.burst.lanes[lane]
    if x.st == .train && x.trained && decide (x.at_ (1089 + 64 * x.hyp + 288 * x.nsym) ≤ s.dp) then s.modLane lane fun x => { x with st := .decode } else s)

/-- Bytes of one path's measurement (Table 7-10). -/
def State.measRecord (s : State) (p : Fin 64) (r : Option MeasRec) : Bytes × State :=
  match r with
  | some r => s.record 8 [.v 16 r.phase.toNat, .v 16 r.delay.toNat, .v 16 r.gain.toNat, .v 8 r.snr.toNat, .u 6, .v 2 (p.val / 16)]
  | none => s.record 8 [.u 16, .u 16, .u 16, .u 8, .u 6, .v 2 (p.val / 16)]

/-- Keep a measurement set, the sixteen most recent (R210); D0 of an array forwards a member's (R324). -/
def State.keepMeas (s : State) (m : MeasSet) (report : Bytes) : State :=
  let s := { s with burst := { s.burst with sets := (m :: s.burst.sets).take 16, nextMeas := s.burst.nextMeas + 1 } }
  match s.chain, s.downPort with
  | some (0, _), some p =>
    if m.dev = 0 then s
    else
      let r := m.recs.foldl (fun (a : Bytes × State) x => let b := a.2.measRecord x.path (some x); (a.1 ++ b.1, b.2)) (report, s)
      r.2.hitSend p 10 "MEAS" 2 0 0 (airWord m.arrived |>.extractLsb' 32 32).toNat r.1
  | _, _ => s

/-- Bits of the block: `n` bits from a_i on (Table 7-2). -/
def blk (b : BitVec 136) (i n : Nat) : BitVec n := b.extractLsb' (136 - i - n) n

/-- DECODER_STOP (R207 to R212): the outcome, the report, and the measurement set, from what the ADCs gave of the burst. -/
def execDecoderStop (lane : Fin 2) (raw : List AdcIn) (s : State) : R :=
  .next (
    let x := s.burst.lanes[lane]
    if x.st != .decode then s
    else
      let r := s.burstResult x raw
      let block : BitVec 136 := r.dec.block.extractLsb' 24 136
      let outcome : Nat := if !r.dec.crcOk then 1 else if blk block 0 4 == 1 then 0 else 3
      let id := s.burst.nextMeas
      let rep := s.burstReport lane outcome r.dec.iters r.refine (BitVec.ofInt 16 r.evm) (some id) (if outcome = 0 then some block else none)
      let m : MeasSet :=
        { id := id, ok := outcome == 0, unitId := blk block 4 24, dev := blk block 28 3, txPath := blk block 31 6
          arrived := s.airOf (x.at_ (1 + 64 * x.hyp)) - 32768 + r.refine / 1024, recs := r.recs }
      let s := (rep.2.post 0x05 rep.1).modBurst fun n => if outcome = 0 then { n with decoded := satInc n.decoded } else { n with crcFail := satInc n.crcFail }
      (s.modLane lane fun _ => Lane.idle).keepMeas m rep.1)

/-- BURST_WINDOW_CLOSE (R204): detection stops; candidates already held run to their end. -/
def execBurstWindowClose (s : State) : R :=
  .next (match s.burst.window with
    | some w => if w.close ≤ s.dp then { s with burst := { s.burst with window := none } } else s
    | none => s)

-- Status and quality (R210, R211, R213, R215)

/-- BURST_MEAS (R210): a path without a measurement in the set has none to return, and its record is undefined but for PATH_HI. -/
def execBurstMeas (c : Cmd) (s : State) : R :=
  .next (s.statusCmd c 0x3B 64 fun x =>
    match s.burst.sets.find? fun m => m.id == pf x.payload 20 0 16 with
    | none => s.complete c.ref .notReady
    | some m =>
      let r := (setBits x.select).foldl (fun (a : Bytes × State) p => let b := a.2.measRecord p (m.recs.find? fun y => y.path == p); (a.1 ++ b.1, b.2)) ([], s)
      r.2.respond c x r.1)

/-- BURST_STATUS (R211). -/
def execBurstStatus (c : Cmd) (s : State) : R :=
  .next (s.hostCmd c 0x3C anyOp fun x =>
    if x.select ≠ 0 then s.complete c.ref .badArg
    else
      let n := s.burst.count
      let held (l : Fin 2) : Nat := b2n (s.burst.lanes[l].st != .search)
      let r := s.record 32 ([n.detections, n.falseDet, n.decoded, n.crcFail, n.captured, n.ignored, n.lostBusy].map (fun v => .v 32 v.toNat) ++
        [.v 16 s.burst.seq.toNat, .v 1 (held 0), .v 1 (held 1), .u 6, .u 8])
      r.2.respond c x r.1 fun s => s.modBurst fun _ => BurstCount.zero)

/-- A path quality record (Table 7-12). -/
def State.qualityRecord (s : State) (p : Fin 64) : Bytes × State :=
  let q := s.quality[p]
  let w : BitVec 64 := if q.txEvm = 0x8000 then 0 else airWord q.capAt
  s.record 32 (q.nf.toList.map (fun v => .v 16 v.toNat) ++ [.v 16 q.txEvm.toNat, .u 16, .v 32 (w.extractLsb' 32 32).toNat, .v 24 (w.extractLsb' 0 24).toNat, .u 8, .v 32 q.blocks.toNat])

/-- QUALITY_STATUS (R215). -/
def execQualityStatus (c : Cmd) (s : State) : R :=
  .next (s.statusCmd c 0x3D 64 fun x =>
    let r := (setBits x.select).foldl (fun (a : Bytes × State) p => let b := a.2.qualityRecord p; (a.1 ++ b.1, b.2)) ([], s)
    r.2.respond c x r.1)

-- Noise floor (R213)

/-- A symbol of a carrier's grid is free of its uplink: no UL section claims a group in it, and no SOUNDING event falls in it. -/
def State.quietSymbol (s : State) (c : Fin 8) (k : CarrierCfg) (sym : Tick) : Bool :=
  let sec := s.ofdm.sections.any fun (x : Section) => x.carrier == c && x.ul && (List.range x.symNum).any fun i => x.slot + symStart k.scs30 (x.symFirst + i) == sym
  let snd := s.ofdm.occasions.any fun (x : Occasion) => x.carrier == c && !x.abandoned && (List.range x.nsym).any fun i => x.slot + symStart k.scs30 (x.sym0 + i) == sym
  !sec && !snd

/-- The symbol of a carrier's grid that holds a tick: its index in the slot and its start. -/
def CarrierCfg.symbolAt (k : CarrierCfg) (t : Tick) : Nat × Tick :=
  let slot := t / slotOf k.scs30 * slotOf k.scs30
  (List.range 14).foldl (fun (b : Nat × Tick) (l : Nat) => if slot + symStart k.scs30 l ≤ t then (l, slot + symStart k.scs30 l) else b) (0, slot)

/-- A path's idle symbols that end in a tick join their blocks, and the time since which it has been in RX and unmuted follows. -/
def State.idleTick (s : State) (p : Fin 64) : Quality :=
  let q := s.quality[p]
  let on : Bool := s.radio.paths[p].st == .rx && !s.rxBlanked p
  let from_ : Option Tick := if on then some (q.rxFrom.getD s.ym.now) else none
  let add (c : Fin 8) : List Tick :=
    match s.ofdm.carriers[c].cfg, from_ with
    | some k, some a =>
      let x := k.symbolAt (s.ym.now - 1)
      if x.2 + symLen k.scs30 x.1 = s.ym.now ∧ a ≤ x.2 ∧ s.live c = true ∧ p ∈ s.antennas c ∧ s.quietSymbol c k x.2 = true then q.idle[c] ++ [x.2] else q.idle[c]
    | _, _ => q.idle[c]
  { q with
    rxFrom := from_
    idle := Vector.ofFn add }

/-- Idle symbols of every path in a tick. -/
def State.noiseTick (s : State) : State := if s.counting then { s with quality := Vector.ofFn s.idleTick } else s

/-- Σ |Y(k)|² over the occupied subcarriers of a symbol at a path's FFT output (R138, R139). -/
def State.noisePower (s : State) (k : CarrierCfg) (p : Fin 64) (x : Sig) (sym : Tick) : Int :=
  ((List.range (12 * k.nRb)).map fun i => power2 (s.rxElement k p (k.symbolAt sym).1 sym false x i).1).sum

/-- NOISE_FLOOR_BLOCK (R213): a block of 2^NF_AVG idle symbols completes; `raw` holds for each of them what the path's ADC gave. -/
def execNoiseFloorBlock (p : Fin 64) (car : Fin 8) (raw : List AdcIn) (s : State) : R :=
  .next (
    let n := 2 ^ s.burst.cfg.nfAvg.toNat
    let block := s.quality[p].idle[car].take n
    match s.ofdm.carriers[car].cfg with
    | some k =>
      if block.length < n || raw.length ≠ n then s
      else
        let sum := (List.zipWith (fun (t : Tick) (r : AdcIn) => s.noisePower k p (sigOf r.first r.vals) t) block raw).sum
        let v := dbRatio 4 (Q.ofInt sum) (Q.ofInt ((n * (12 * k.nRb) : Nat) * 2 ^ 30))
        { s with quality := vmod s.quality p fun q => { q with
            nf := vset q.nf car (BitVec.ofInt 16 v)
            blocks := satInc q.blocks
            idle := vset q.idle car (q.idle[car].drop n) } }
    | none => s)

end Sys2Proof.Machine
end

