-- ==== Sys2Proof/Machine/Clocks.lean ====
section
/-! DEFINITION. The reference PLL, source selection and the switches of running domains (R367 to R378). -/

namespace Sys2Proof.Machine

/-- Change the clock system. -/
def State.modClk (s : State) (f : Clk → Clk) : State := { s with clk := f s.clk }

/-- The clock event (Table 13-7). -/
def State.postClk (s : State) (code index : Nat) (restart : Bool := false) : State :=
  s.postRec 0x0B 8 [.v 8 code, .v 8 index, .u 6, .v 2 (b2n restart), .u 8, .v 32 s.frameNow]

/-- Set a monitor. -/
def State.setMon (s : State) (i : Fin 11) (m : Mon) (n : Nat := 0) : State := s.modClk fun c => { c with mon := vset c.mon i (m, n) }

/-- The state of a monitor. -/
def State.monAt (s : State) (i : Nat) : Mon := match toFin 11 i with | some i => s.clk.mon[i].1 | none => .unqualified

/-- A source of the reference PLL: the XO, or a lane. -/
inductive RefSrc where
  | xo | lane (l : BitVec 5) | none
  deriving DecidableEq, Repr

/-- PRIMARY and SECONDARY of a configuration. -/
def RefCfg.pri (k : RefCfg) : RefSrc := if k.priXo then .xo else .lane k.priLane
def RefCfg.sec (k : RefCfg) : RefSrc := if !k.secEn then .none else if k.secXo then .xo else .lane k.secLane

/-- The source that monitor 2 or 3 watches. -/
def State.refSrc (s : State) (i : Nat) : RefSrc := if i = 2 then s.clk.cfg.pri else s.clk.cfg.sec

/-- A source can be monitored: the XO always, a lane while its port is UP (R367). -/
def State.watched (s : State) (x : RefSrc) : Bool :=
  match x with
  | .xo => true
  | .lane l => s.fh.ports.toList.any fun p => p.st == .up && p.hasLane l
  | .none => false

/-- The clock index of the active source; 0 where there is none. -/
def State.activeRef (s : State) : Nat := if s.clk.active = 0 then 0 else s.clk.active.toNat + 1

/-- The PLL leaves its source (R368, Table 13-2): HOLDOVER, or FREERUN with the XO DEAD; the phase epoch is invalid, and an exit
from LOCKED raises a fault. -/
def State.pllHold (s : State) : State :=
  match s.clk.pll with
  | .locked | .acquire =>
    let free : Bool := s.monAt 1 == .dead
    let was := s.clk.pll
    let s := (s.modClk fun c => { c with pll := if free then .freerun else .holdover }).epochInvalid.postClk (if free then 0xA else 2) s.activeRef
    if was = .locked then s.raiseFault .refPllExit { cls := 9, idx := 0x3F4 } else s
  | _ => s

/-- The PLL follows a source (ACQUIRE): out of HOLDOVER, FREERUN and LOCKED the epoch is invalid (R84); an exit from LOCKED raises a fault (R368). -/
def State.pllAcquire (s : State) : State :=
  let was := s.clk.pll
  let s := s.modClk fun c => { c with pll := .acquire, noFallback := false }
  match was with
  | .holdover | .freerun => s.epochInvalid
  | .locked => s.epochInvalid.raiseFault .refPllExit { cls := 9, idx := 0x3F4 }
  | _ => s

/-- A switch of a domain begins, with the method of R375. -/
def State.beginSwitch (s : State) (d : ClkDomain) (src dst : Nat) (restart : Bool) : State :=
  s.modClk fun c => { c with sw := c.sw ++ [{ domain := d, src := src, dst := dst, restart := restart }] }

/-- A switch of a domain is under way. -/
def State.switching (s : State) (d : ClkDomain) : Bool := s.clk.sw.any fun x => x.domain == d

/-- REF_IN moves to PRIMARY (2) or SECONDARY (3): a source restored, the first source, or a switch (R377). -/
def State.refTo (s : State) (i : Nat) : State :=
  if s.switching .refIn then s
  else if s.activeRef = 0 then (s.modClk fun c => { c with active := BitVec.ofNat 2 (i - 1) }).pllAcquire
  else if s.activeRef = i then s.pllAcquire
  else s.beginSwitch .refIn s.activeRef i (s.monAt s.activeRef == .dead)

/-- With no source to follow, a QUALIFIED source is taken, PRIMARY first (R377). At power-up the PLL starts once AON runs on the XO
and the rails are ready (R385, Table 14-9). -/
def State.refSelect (s : State) : State :=
  let free : Bool := match s.clk.pll with | .holdover | .freerun => true | .off => s.clk.aonXo && s.pwr.bootStage == 1 && s.pwr.rails == 0x1FF | _ => false
  if !free then s
  else if s.monAt 2 = .qualified then s.refTo 2
  else if s.clk.cfg.secEn && s.monAt 3 == .qualified then s.refTo 3
  else s

/-- REF_SOURCE_TRIP (R377): the active source is FAULT or DEAD. -/
def State.refTrip (s : State) : State :=
  let o := if s.activeRef = 2 then 3 else 2
  let s := (s.modClk fun c => { c with revertAt := none }).pllHold
  if s.switching .refIn || s.clk.noFallback then s
  else if (o = 2 ∨ s.clk.cfg.secEn = true) ∧ s.monAt o = .qualified then s.refTo o
  else ((s.modClk fun c => { c with noFallback := true }).postClk 4 s.activeRef).raiseFault .noFallback { cls := 9, idx := 0x3F4 }

/-- What follows when a monitor leaves QUALIFIED, or is declared DEAD (R373, R377). -/
def State.monTrip (s : State) (i : Fin 11) (dead : Bool) : State :=
  let n := i.val
  if n = 2 ∨ n = 3 then
    let s := if n = 2 then s.modClk fun c => { c with revertAt := none } else s
    if s.activeRef = n then s.refTrip else s
  else if 4 ≤ n ∧ n ≤ 9 then (s.postClk (if dead then 6 else 5) n).raiseFault .monFault { cls := 9, idx := 0x3E0 + n }
  else s

/-- What follows when a monitor becomes QUALIFIED (R372, R377). -/
def State.monGood (s : State) (i : Fin 11) : State :=
  let s := s.postClk 7 i.val
  match i.val with
  | 1 =>
    if s.pwr.vin && s.pwr.bootStage == 0 && !s.clk.aonXo && !s.switching .aon then s.beginSwitch .aon 0 1 false
    else if s.clk.pll = .freerun then (s.modClk fun c => { c with pll := .holdover }).epochInvalid.postClk 2 s.activeRef else s
  | 2 =>
    if s.clk.cfg.revert && s.activeRef == 3 && (s.clk.pll == .locked || s.clk.pll == .acquire) then s.modClk fun c => { c with revertAt := some s.dp }
    else s.refSelect
  | 3 => s.refSelect
  | _ => s

/-- A port leaves UP: a lane of it that is PRIMARY or SECONDARY declares FAULT (R367). -/
def State.lanesDown (s : State) (p : Fin 8) : State :=
  if s.fh.ports[p].st ≠ .up then s
  else ([2, 3] : List (Fin 11)).foldl (fun (s : State) (i : Fin 11) =>
    match s.refSrc i.val with
    | .lane l =>
      if s.fh.ports[p].hasLane l && s.monAt i.val != .dead then
        let was := s.monAt i.val
        let s := s.setMon i .fault
        if was = .qualified then s.monTrip i false else s
      else s
    | _ => s) s

end Sys2Proof.Machine
end

