-- ==== Sys2Proof/Machine/Front.lean ====
section
/-! DEFINITION. Shared operations of the fronthaul (chapter 10): Ethernet frames, eCPRI and Sarfaip messages and their receive checks,
C-plane sections, U-plane data, the wire forms of egress. -/

namespace Sys2Proof.Machine

/-- Counters of Table 10-17 that the receive checks use. -/
inductive RxCount where
  | uncl | len | gap | seqDrop | resource | outage | early | late | orphan | buf
  deriving DecidableEq, Repr

/-- Count one unit in a receive counter. -/
def State.rx (s : State) (p : Fin 8) (k : RxCount) : State :=
  s.cnt p fun c => match k with
    | .uncl => { c with rxUncl := satInc c.rxUncl }
    | .len => { c with rxLen := satInc c.rxLen }
    | .gap => { c with rxGap := satInc c.rxGap }
    | .seqDrop => { c with rxSeqDrop := satInc c.rxSeqDrop }
    | .resource => { c with rxResource := satInc c.rxResource }
    | .outage => { c with rxOutage := satInc c.rxOutage }
    | .early => { c with rxEarly := satInc c.rxEarly }
    | .late => { c with rxLate := satInc c.rxLate }
    | .orphan => { c with rxOrphan := satInc c.rxOrphan }
    | .buf => { c with rxBufDrop := satInc c.rxBufDrop }

/-- A port receives frames: UP, or FAILED with its PCS locked (Table 10-3). -/
def State.receiving (s : State) (p : Fin 8) : Bool := s.fh.ports[p].st == .up || s.fh.ports[p].st == .failed

-- The Sarfaip header (R285 to R289)

/-- A type-0 or type-2 message as parsed. `flow` leaves out the reserved bits of FLOW_ID; `raw` is the message as received. -/
structure Sar where
  typ   : Nat
  flow  : Nat
  car   : Fin 8
  ul    : Bool
  layer : Nat
  eSub  : Nat
  seq   : BitVec 8
  tag   : BitVec 16
  msg   : Nat
  frame : Nat
  slot  : Nat
  sym   : Nat
  count : Nat
  body  : Bytes
  raw   : Bytes
  deriving DecidableEq, Repr

/-- CLASS of a FLOW_ID. -/
def sarClass (b : Bytes) : Nat := beAt b 4 2 / 1024 % 4

/-- MSG suits TYPE and CLASS (Table 10-7). -/
def sarSuits (msg typ cls : Nat) : Bool :=
  match msg with
  | 1 | 6 => typ == 2 && cls == 1
  | 2 => typ == 0 && cls == 0
  | 3 | 4 | 5 | 7 | 8 => typ == 2 && cls == 2
  | _ => false

/-- The classification of R284, R286 and R288 over the bytes of one message. -/
def sarClassified (b : Bytes) : Bool := byteAt b 8 / 16 == 1 && sarSuits (byteAt b 8 % 16) (byteAt b 1) (sarClass b)

/-- Read the headers of a message whose bytes are complete. -/
def sarOf (b : Bytes) : Sar :=
  let f := beAt b 4 2
  { typ := byteAt b 1, flow := f / 32 * 32, car := ⟨f / 8192 % 8, by omega⟩, ul := decide (f / 4096 % 2 = 1), layer := f / 32 % 32, eSub := byteAt b 7
    seq := BitVec.ofNat 8 (byteAt b 6), tag := BitVec.ofNat 16 (beAt b 6 2), msg := byteAt b 8 % 16, frame := byteAt b 9, slot := byteAt b 10 / 8, sym := byteAt b 11 / 16
    count := byteAt b 12, body := b.drop 16, raw := b }

/-- The full frame of a message (R289). -/
def State.fullFrame (s : State) (low : Nat) : Int :=
  let now := s.ym.now / frameTicks
  now + (BitVec.ofInt 8 ((low : Int) - now)).toInt

-- Lengths (R290 to R300, R303 check 1)

/-- Length of a weight block (Table 10-9). -/
def blkLen (b : Bytes) : Option Nat := if b.length < 4 then none else some (4 + 256 * (byteAt b 2 % 64))

/-- Bytes that `n` blocks take. -/
def blksLen : Nat → Bytes → Option Nat
  | 0, _ => some 0
  | n + 1, b => match blkLen b with
    | none => none
    | some k => (blksLen n (b.drop k)).map fun m => k + m

/-- Set bits of a layer mask. -/
def maskLayers (m : Nat) : List Nat := bitsOf 32 m

/-- Length of a section's header and padded list; SRC 0 has none. -/
def secHead (b : Bytes) : Option Nat :=
  let n := (maskLayers (beAt b 8 4)).length
  if b.length < 12 then none
  else match byteAt b 6 / 4 % 4 with
    | 1 => some 12
    | 2 => some (12 + pad4 (2 * n))
    | 3 => some (12 + pad4 n)
    | _ => none

/-- Length of a C-plane section with its blocks (Table 10-8). -/
def secLen (b : Bytes) : Option Nat :=
  match secHead b with
  | none => none
  | some h => (blksLen (byteAt b 7) (b.drop h)).map fun m => h + m

/-- Length of a U-plane section (R293). -/
def usecLen (b : Bytes) : Option Nat :=
  let w := byteAt b 3 / 8 % 16
  if b.length < 4 || w < 6 then none else some (4 + ((beAt b 2 2 / 128) * (4 + 24 * (w + 1)) + 7) / 8)

/-- Length of a hint's range (Table 10-11). -/
def hintLen (b : Bytes) : Option Nat := if b.length < 8 then none else some (8 + pad4 (maskLayers (beAt b 4 4)).length)

/-- Length of an item of a message. -/
def itemLen (msg : Nat) (b : Bytes) : Option Nat :=
  match msg with
  | 1 => secLen b
  | 2 => usecLen b
  | 3 => hintLen b
  | 4 => some 8
  | 5 => some 32
  | 6 => if b.length < 4 then none else (blkLen (b.drop 4)).map fun k => 4 + k
  | 7 => some 260
  | _ => none

/-- The items of a body, which must fill it exactly. -/
def sarItems (msg : Nat) : Nat → Bytes → Option (List Bytes)
  | 0, b => if b.isEmpty then some [] else none
  | n + 1, b => match itemLen msg b with
    | none => none
    | some k => if b.length < k then none else (sarItems msg n (b.drop k)).map fun l => b.take k :: l

-- Checks 2, 3 and 5 (R287, R303, R304)

/-- The sequence check (R287): whether the message is accepted. -/
def State.seqCheck (s : State) (p : Fin 8) (m : Sar) : Bool × State :=
  let key := (m.typ, m.flow)
  let put (s : State) : State := { s with fh := { s.fh with rxSeq := (s.fh.rxSeq.filter fun (x : (Nat × Nat) × BitVec 8) => x.1 != key) ++ [(key, m.seq + 1)] } }
  if m.eSub != 0x80 then (false, s.rx p .seqDrop)
  else match s.fh.rxSeq.find? fun x => x.1 == key with
    | none => (true, put s)
    | some x =>
      if (m.seq - x.2).toNat ≥ 128 then (false, s.rx p .seqDrop)
      else (true, if m.seq = x.2 then put s else (put s).rx p .gap)

/-- The outage check for a tick (R44, R303, R391, R405): the carrier is suspended or removed, or the tick lies in an outage, that of a
transition that is still to start and would not be refused now among them. -/
def State.outageAt (s : State) (c : Fin 8) (d : Tick) : Bool :=
  let x := s.ofdm.carriers[c]
  (x.seen && x.cfg.isNone) || (x.cfg.isSome && (x.suspended || decide (d < x.serveFrom)
    || (match s.mode.trans with
      | some t => !t.started && decide (t.start ≤ d) && (s.startRefusal t).isNone
          && (t.target == .calibrate || decide (d < t.resume) || (s.unfit t).contains c)
      | none => false)
    || (s.pwr.step == .beforeQ && decide (s.pwr.qAt ≤ d))))

/-- Where a message stands against a window whose reference point is a tick (R304). -/
def State.window (s : State) (i : Fin 6) (ref : Tick) : Option RxCount :=
  let w := s.fh.windows[i]
  if s.ym.now < ref - cdiv (w.1.toNat * 98304) 100 then some .early
  else if ref - cdiv (w.2.toNat * 98304) 100 < s.ym.now then some .late
  else none

/-- How far receive checks go: from the wire, or (forwarded by D0, R325) without sequence and window checks. -/
abbrev Wire := Bool

-- C-plane sections (R143 to R145, R290 to R292, R326)

/-- The first PRB and the PRBs of a range in the form of Table 10-8. -/
def prbRange (b : Bytes) : Nat × Nat := (beAt b 0 2 / 128, beAt b 2 2 / 128)

/-- Air tick of a slot of a carrier (R55, R289). -/
def State.slotTick (s : State) (m : Sar) (k : CarrierCfg) : Tick := s.fullFrame m.frame * frameTicks + m.slot * slotOf k.scs30

/-- Slots in a frame of a carrier. -/
def CarrierCfg.slots (k : CarrierCfg) : Nat := if k.scs30 then 20 else 10

/-- The section that bytes carry. -/
def State.sectionOf (s : State) (p : Fin 8) (m : Sar) (k : CarrierCfg) (b : Bytes) : Section :=
  let layers := maskLayers (beAt b 8 4)
  let r := prbRange (b.drop 2)
  let src : Nat := byteAt b 6 / 4 % 4
  { id := s.ofdm.nextId, carrier := m.car, ul := m.ul, slot := s.slotTick m k, symFirst := byteAt b 6 / 16, symNum := beAt b 4 2 / 8 % 16, prbFirst := r.1, prbNum := r.2, layers := layers
    source := if src = 2 then .codebook (layers.zipIdx.map fun x => BitVec.ofNat 12 (beAt b (12 + 2 * x.2) 2))
      else if src = 3 then .onDevice (layers.zipIdx.map fun x => BitVec.ofNat 8 (byteAt b (12 + x.2)))
      else .baseband []
    fallback := !k.srcMask.getLsbD (src - 1), fbGroups := [], secId := beAt b 0 2, port := p.val, group := 0, released := [] }

/-- Words of a weight block: I and then Q, big-endian (R291). -/
def wireWord (b : Bytes) (off : Nat) : BitVec 32 := BitVec.ofNat 16 (beAt b (off + 2) 2) ++ BitVec.ofNat 16 (beAt b off 2)

/-- The weight block that bytes carry. -/
def wblockOf (b : Bytes) : WBlock :=
  let h := beAt b 0 2
  { grp := h / 128, layer0 := h / 4 % 32, layers := (List.range (byteAt b 2 % 64)).map fun i => (List.range 64).map fun a => wireWord b (4 + 4 * (64 * i + a)) }

/-- The blocks that follow a section. -/
def blocksOf : Nat → Bytes → List WBlock
  | 0, _ => []
  | n + 1, b => match blkLen b with
    | none => []
    | some k => wblockOf (b.take k) :: blocksOf n (b.drop k)

/-- A block delivers an element. -/
def WBlock.covers (w : WBlock) (g l : Nat) : Bool := w.grp == g && decide (w.layer0 ≤ l ∧ l < w.layer0 + w.layers.length)

/-- Sections that claim a common group and symbol (R144). -/
def Section.meets (a b : Section) (k : CarrierCfg) : Bool :=
  a.carrier == b.carrier && a.ul == b.ul && a.slot == b.slot && decide (a.symFirst < b.symFirst + b.symNum ∧ b.symFirst < a.symFirst + a.symNum)
  && (k.touched a.prbFirst a.prbNum).any fun g => (k.touched b.prbFirst b.prbNum).contains g

/-- The resource check of a section: its layers, symbols and PRBs lie within the carrier, and no accepted section claims its groups. -/
def State.sectionFits (s : State) (x : Section) (k : CarrierCfg) : Bool :=
  let top := if x.ul then k.ulLayers.toNat else k.dlLayers.toNat
  x.layers.all (fun l => decide (l < top)) && decide (0 < x.prbNum ∧ x.prbFirst + x.prbNum ≤ k.nRb ∧ 0 < x.symNum ∧ x.symFirst + x.symNum ≤ 14)
  && !(s.ofdm.sections.any fun y => y.meets x k)

/-- Devices whose blocks a baseband section awaits (R292, R326), and this device's place among them. -/
def State.blockDevs (s : State) : Nat × Nat :=
  match s.chain with
  | some (d, _) => ((bitsOf 8 s.hit.members.toNat).length, (bitsOf d s.hit.members.toNat).length)
  | none => (1, 0)

/-- How often an element has been delivered. -/
def OpenSection.has (o : OpenSection) (g l : Nat) : Nat := (o.blocks.filter fun w => w.covers g l).length

/-- A block passes the resource check of R292 and R326. -/
def OpenSection.accepts (o : OpenSection) (k : CarrierCfg) (n : Nat) (w : WBlock) : Bool :=
  (k.touched o.sec.prbFirst o.sec.prbNum).contains w.grp
  && (List.range w.layers.length).all fun i => o.sec.layers.contains (w.layer0 + i) && decide (o.has w.grp (w.layer0 + i) < n)

/-- Every element has been delivered for every device. -/
def OpenSection.complete (o : OpenSection) (k : CarrierCfg) (n : Nat) : Bool :=
  (k.touched o.sec.prbFirst o.sec.prbNum).all fun g => o.sec.layers.all fun l => o.has g l == n

/-- The weights of one device: per group and mapped layer the 64 words. -/
def OpenSection.weights (o : OpenSection) (k : CarrierCfg) (rank : Nat) : List (Nat × List (List (BitVec 32))) :=
  (k.touched o.sec.prbFirst o.sec.prbNum).map fun g => (g, o.sec.layers.map fun l =>
    match (o.blocks.filter fun w => w.covers g l)[rank]? with
    | some w => (w.layers[l - w.layer0]?).getD []
    | none => [])

/-- The symbol events of a section (R66). -/
def Section.events (x : Section) (k : CarrierCfg) : List NewEv :=
  (List.range x.symNum).map fun i =>
    let l := x.symFirst + i
    { kind := if x.ul then .ulSymbol else .dlSymbol, due := x.slot + symStart k.scs30 l, res := { cls := 4, idx := x.carrier.val }, body := .symbol x.id l (symLen k.scs30 l) }

/-- Allocate the sets of a baseband section: groups that find no block run on the fallback and count in ALLOC_FAIL (R149, R150). -/
def State.allocSection (s : State) (x : Section) : Section × State :=
  match x.source with
  | .baseband b =>
    if x.fallback then (x, s)
    else
      let r := b.foldl (fun (a : (List Nat × Nat) × State) g =>
        let s := a.2.reclaim x.ul (a.1.2 + 1) 16
        if s.blockFree x.ul (a.1.2 + 1) then ((a.1.1, a.1.2 + 1), s)
        else ((a.1.1 ++ [g.1], a.1.2), s.modCarrier x.carrier fun y => { y with count := { y.count with allocFail := satInc y.count.allocFail } })) (([], 0), s)
      ({ x with fbGroups := r.1.1 }, r.2)
  | _ => (x, s)

/-- A verdict's counter (Table 10-14 checks 4 and 6, R56, R65); a full table counts in YM_FULL_COUNT alone (R58). -/
def Verdict.rx : Verdict → Option RxCount
  | .ok | .full => none
  | .late | .noTime | .notReleased => some .late
  | .tooFar | .dup => some .resource

/-- Count a verdict. -/
def State.rxVerdict (s : State) (p : Fin 8) (v : Verdict) : State := match v.rx with | some k => s.rx p k | none => s

/-- A complete section is presented to the Yardmaster; accepted, it takes its weights' memory and claims its groups (R62, R66, R144, R149,
R183). -/
def State.takeSection (s : State) (p : Fin 8) (x : Section) (k : CarrierCfg) (tag : BitVec 16) : State :=
  if !s.sectionFits x k then s.rx p .resource
  else
    let g := s.ym.nextId
    let r := s.present (.sarfaip p.val tag) none (x.events k)
    if r.1 = .ok then
      let a := r.2.allocSection { x with group := g }
      let s := { a.2 with ofdm := { a.2.ofdm with sections := a.2.ofdm.sections ++ [a.1] } }
      let s := if x.fallback then s.modCarrier x.carrier fun y => { y with count := { y.count with srcDenied := satInc y.count.srcDenied } } else s
      s.claimSection a.1
    else r.2.rxVerdict p r.1

/-- A block meets its open section; the last one presents the section (R292). -/
def State.blockIn (s : State) (p : Fin 8) (o : OpenSection) (k : CarrierCfg) (w : WBlock) : OpenSection × State :=
  if o.accepts k s.blockDevs.1 w then ({ o with blocks := o.blocks ++ [w] }, s) else (o, s.rx p .resource)

/-- Present an open section that is complete, or keep it (R292). -/
def State.openDone (s : State) (o : OpenSection) (k : CarrierCfg) : State :=
  let rest := s.fh.openSecs.filter fun (y : OpenSection) => y.sec.id != o.sec.id
  let n := s.blockDevs
  if o.complete k n.1 then
    match toFin 8 o.sec.port with
    | some p => { s with fh := { s.fh with openSecs := rest } }.takeSection p { o.sec with source := .baseband (o.weights k n.2) } k o.seqId
    | none => s
  else { s with fh := { s.fh with openSecs := rest ++ [o] } }

/-- Held blocks of a section that has arrived (R292). -/
def HeldBlock.of (h : HeldBlock) (x : Section) : Bool := h.carrier == x.carrier && h.ul == x.ul && h.slot == x.slot && h.secId == x.secId

/-- A section that passed checks 1 to 5: a baseband section waits for its blocks, any other is presented at once. -/
def State.sectionIn (s : State) (p : Fin 8) (x : Section) (k : CarrierCfg) (tag : BitVec 16) (ws : List WBlock) : State :=
  let s := { s with ofdm := { s.ofdm with nextId := s.ofdm.nextId + 1 } }
  match x.source with
  | .baseband _ =>
    if x.fallback then s.takeSection p x k tag
    else
      let held := s.fh.held.filter fun h => h.of x
      let s := { s with fh := { s.fh with held := s.fh.held.filter fun h => !h.of x } }
      let o : OpenSection := { sec := x, blocks := [], seqId := tag }
      let r := ws.foldl (fun (a : OpenSection × State) w => a.2.blockIn p a.1 k w) (o, s)
      let r := held.foldl (fun (a : OpenSection × State) h => match toFin 8 h.port with | some q => a.2.blockIn q a.1 k h.block | none => a) r
      r.2.openDone r.1 k
  | _ => s.takeSection p x k tag

/-- One section of a C-plane message: checks 4 to 6 (Table 10-14); whether it passed checks 1 to 5. -/
def State.cSection (s : State) (p : Fin 8) (m : Sar) (k : CarrierCfg) (wire : Wire) (b : Bytes) : Bool × State :=
  let x := s.sectionOf p m k b
  let ref := x.slot + symStart k.scs30 (min x.symFirst 13)
  let ws := match secHead b with | some h => blocksOf (byteAt b 7) (b.drop h) | none => []
  if !s.sectionFits x k then (false, s.rx p .resource)
  else if s.ym.air = .running then (false, s.rx p .late)
  else match if wire then s.window (if m.ul then 2 else 1) ref else none with
    | some c => (false, s.rx p c)
    | none => (true, s.sectionIn p x k m.tag ws)

/-- Bytes of the C-plane and control share that held blocks take (R306): each with its SECTION_ID. -/
def State.heldBytes (s : State) : Nat := (s.fh.held.map fun (h : HeldBlock) => 8 + 256 * h.block.layers.length).sum

/-- A message that passed the earlier checks finds no space in the C-plane and control share (R306): it is dropped whole, and of its items only
what the earlier checks counted stays. -/
def State.ctlShare (s : State) (p : Fin 8) (m : Sar) (r : Bool × State) : Bool × State :=
  if r.1 ∧ 1048576 < s.heldBytes + m.raw.length then (true, { s with fh := { s.fh with ports := r.2.fh.ports } }.rx p .buf) else r

/-- A block that travels apart (MSG 0x6): its section is open, or it is held until the window of the last possible symbol closes (R292). -/
def State.cBlock (s : State) (p : Fin 8) (m : Sar) (k : CarrierCfg) (wire : Wire) (b : Bytes) : Bool × State :=
  let slot := s.slotTick m k
  let id := beAt b 0 2
  let w := wblockOf (b.drop 4)
  let top := if m.ul then k.ulLayers.toNat else k.dlLayers.toNat
  let i : Fin 6 := if m.ul then 2 else 1
  if k.groups ≤ w.grp ∨ top < w.layer0 + w.layers.length then (false, s.rx p .resource)
  else if s.ym.air = .running then (false, s.rx p .late)
  else match s.fh.openSecs.find? fun o => o.sec.carrier == m.car && o.sec.ul == m.ul && o.sec.slot == slot && o.sec.secId == id with
    | some o =>
      match if wire then s.window i (slot + symStart k.scs30 o.sec.symFirst) else none with
      | some c => (false, s.rx p c)
      | none =>
        let ok := o.accepts k s.blockDevs.1 w
        let r := s.blockIn p o k w
        (ok, r.2.openDone r.1 k)
    | none =>
      if s.ofdm.sections.any fun x => x.carrier == m.car && x.ul == m.ul && x.slot == slot && x.secId == id then (false, s.rx p .resource)
      else
        let early : Bool := s.window i slot == some .early
        let late : Bool := s.window i (slot + symStart k.scs30 13) == some .late
        if wire && early then (false, s.rx p .early)
        else if wire && late then (false, s.rx p .late)
        else if 1048576 < s.heldBytes + b.length then (false, s.rx p .buf)
        else (true, { s with fh := { s.fh with held := s.fh.held ++ [{ carrier := m.car, ul := m.ul, slot := slot, secId := id, port := p.val, block := w }] } })

-- U-plane data (R293 to R295)

/-- Bits of bytes as one number, most significant first, and how many. -/
def bitsNum (b : Bytes) : Nat × Nat := (ofBe b, 8 * b.length)

/-- `w` bits of a bit string at a position from its start. -/
def bitsAt (x : Nat × Nat) (pos w : Nat) : Nat := x.1 / 2 ^ (x.2 - pos - w) % 2 ^ w

/-- A decompressed component m × 2^e, and whether it saturated (R294). -/
def bfpVal (w e m : Nat) : Int × Bool :=
  let v : Int := (if m < 2 ^ (w - 1) then (m : Int) else (m : Int) - 2 ^ w) * 2 ^ e
  let c := clampI (-32768) 32767 v
  (c, c != v)

/-- One compressed PRB: twelve complex values and the resource elements that saturated. -/
def bfpPrb (x : Nat × Nat) (pos w : Nat) : List (Int × Int) × Nat :=
  let e := bitsAt x pos 4
  (List.range 12).foldl (fun (a : List (Int × Int) × Nat) j =>
    let i := bfpVal w e (bitsAt x (pos + 4 + 2 * j * w) w)
    let q := bfpVal w e (bitsAt x (pos + 4 + (2 * j + 1) * w) w)
    (a.1 ++ [(i.1, q.1)], a.2 + b2n (i.2 || q.2))) ([], 0)

/-- A U-plane section: first PRB, values per PRB, saturated elements. -/
def usecOf (b : Bytes) : Nat × List (List (Int × Int)) × Nat :=
  let w := byteAt b 3 / 8 % 16 + 1
  let x := bitsNum (b.drop 4)
  let r := (List.range (beAt b 2 2 / 128)).foldl (fun (a : List (List (Int × Int)) × Nat) i =>
    let v := bfpPrb x (i * (4 + 24 * w)) w
    (a.1 ++ [v.1], a.2 + v.2)) ([], 0)
  (beAt b 0 2 / 128, r.1, r.2)

/-- PRBs of a layer and symbol that have been delivered, their data still held or not (R295). -/
def State.delivered (s : State) (c : Fin 8) (layer : Nat) (sym : Tick) : List Nat :=
  (s.fh.dlData.flatMap fun (d : DlData) => if d.carrier = c ∧ d.layer = layer ∧ d.sym = sym then (List.range d.vals.length).map fun i => d.prb + i else [])
    ++ s.fh.dlGone.flatMap fun (d : Fin 8 × Nat × Tick × Nat × Nat) => if d.1 = c ∧ d.2.1 = layer ∧ d.2.2.1 = sym then (List.range d.2.2.2.2).map fun i => d.2.2.2.1 + i else []

/-- The DL U-plane share in bytes (R306). -/
def State.dlShare (s : State) : Nat := if s.mode.cur = .array then 3145728 else 4718592

/-- A U-plane message: checks 4 to 7; whether it passed checks 1 to 5. -/
def State.uData (s : State) (p : Fin 8) (m : Sar) (k : CarrierCfg) (wire : Wire) (items : List Bytes) : Bool × State :=
  let sym := s.slotTick m k + symStart k.scs30 (min m.sym 13)
  let us := items.map usecOf
  let prbs := us.flatMap fun u => (List.range u.2.1.length).map fun i => u.1 + i
  let old := s.delivered m.car m.layer sym
  if m.ul || decide (k.dlLayers.toNat ≤ m.layer) || decide (13 < m.sym) || us.any (fun u => u.2.1.isEmpty || decide (k.nRb < u.1 + u.2.1.length)) || !distinct prbs || prbs.any old.contains then
    (false, s.rx p .resource)
  else match if wire then s.window 0 sym else none with
    | some c => (false, s.rx p c)
    | none =>
      if s.dlShare < (s.fh.dlData.map fun (d : DlData) => d.size).sum + m.raw.length then (true, s.rx p .buf)
      else
        let cv (v : Int × Int) : BitVec 16 × BitVec 16 := (BitVec.ofInt 16 v.1, BitVec.ofInt 16 v.2)
        let ds := us.zipIdx.map fun (u : (Nat × List (List (Int × Int)) × Nat) × Nat) =>
          { carrier := m.car, layer := m.layer, sym := sym, prb := u.1.1, vals := u.1.2.1.map fun r => r.map cv, size := if u.2 = 0 then m.raw.length else 0, port := p.val : DlData }
        let sat := (us.map fun u => u.2.2).sum
        let s := s.modCarrier m.car fun x => { x with count := { x.count with decompSat := satAdd x.count.decompSat sat } }
        (true, { s with fh := { s.fh with dlData := s.fh.dlData ++ ds } })

-- Control messages (R296 to R301)

/-- A hint's range: PRBs and map. -/
def hintRange (b : Bytes) : Nat × Nat × List (Nat × Nat) :=
  let r := prbRange b
  (r.1, r.2, (maskLayers (beAt b 4 4)).zipIdx.map fun x => (x.1, byteAt b (8 + x.2)))

/-- A schedule hint (R296, R297): the whole message passes or fails. -/
def State.hintIn (s : State) (p : Fin 8) (m : Sar) (k : CarrierCfg) (wire : Wire) (items : List Bytes) : Bool × State :=
  let t := s.slotTick m k
  let rs := items.map hintRange
  let top := if m.ul then k.ulLayers.toNat else k.dlLayers.toNat
  let bad (r : Nat × Nat × List (Nat × Nat)) : Bool :=
    r.2.2.any (fun y => decide (top ≤ y.1)) || !distinct (r.2.2.map fun y => y.2) || r.2.1 == 0 || decide (k.nRb < r.1 + r.2.1)
  if decide (t ≤ s.ym.now) || rs.any bad then (false, s.rx p .resource)
  else match if wire then s.window 3 t else none with
    | some c => (false, s.rx p c)
    | none => (true, s.hintAccept { carrier := m.car, ul := m.ul, target := t, ranges := rs } [])

/-- The occasion of a directive's item (Table 10-12). -/
def State.occasionOf (s : State) (m : Sar) (k : CarrierCfg) (b : Bytes) : Occasion :=
  let nsym := 2 ^ (byteAt b 1 / 4 % 4)
  let sym0 := byteAt b 1 / 16
  let slot := s.slotTick m k
  let r := prbRange (b.drop 4)
  let last := min (sym0 + nsym - 1) 13
  { id := s.ofdm.nextId, port := BitVec.ofNat 8 (byteAt b 0), carrier := m.car, slot := slot, sym0 := sym0, nsym := nsym, ktc := 2 ^ (byteAt b 1 % 4 + 1), combOff := byteAt b 2 / 32
    ncs := byteAt b 2 / 2 % 16, u := byteAt b 3 / 8, v := byteAt b 2 % 2, prbStart := r.1, prbNum := r.2, group := 0, abandoned := false, smooth := 0, published := false, done := false
    lastEnd := slot + symStart k.scs30 last + symLen k.scs30 last }

/-- Parameters within Table 6-1. -/
def Occasion.valid (x : Occasion) (k : CarrierCfg) : Bool :=
  k.srcMask.getLsbD 2 && decide (x.nsym ≤ 4 ∧ x.sym0 + x.nsym ≤ 14 ∧ x.ktc ≤ 8 ∧ x.combOff < x.ktc ∧ x.ncs < combShifts x.ktc ∧ x.u ≤ 29 ∧ 4 ≤ x.prbNum ∧ x.prbNum % 4 = 0 ∧ x.prbStart + x.prbNum ≤ k.nRb)

/-- A subcarrier lies in an occasion's comb. -/
def Occasion.sounds (x : Occasion) (k : Nat) : Bool :=
  decide (12 * x.prbStart + x.combOff ≤ k ∧ k < 12 * (x.prbStart + x.prbNum) ∧ (k - 12 * x.prbStart - x.combOff) % x.ktc = 0)

/-- Two occasions of a slot meet on a subcarrier in a symbol without forming a shared set, or are of one port (R162). -/
def Occasion.clashes (a b : Occasion) : Bool :=
  a.carrier == b.carrier && a.slot == b.slot &&
  (a.port == b.port ||
    (decide (a.sym0 < b.sym0 + b.nsym ∧ b.sym0 < a.sym0 + a.nsym) && a.carriersOf.any b.sounds
      && (!(a.shares b) || a.nsym != b.nsym || a.ncs == b.ncs)))

/-- One item of a sounding directive (R161, R162, R298): whether it passed checks 1 to 5. -/
def State.soundingItem (s : State) (p : Fin 8) (m : Sar) (k : CarrierCfg) (wire : Wire) (b : Bytes) : Bool × State :=
  let x := s.occasionOf m k b
  let refuse (s : State) : State := s.modWcount m.car fun w => { w with sndRefused := satInc w.sndRefused }
  if !x.valid k || s.ofdm.occasions.any (fun y => y.clashes x) then (false, refuse s)
  else match if wire then s.window 4 (x.slot + symStart k.scs30 x.sym0) else none with
    | some c => (false, s.rx p c)
    | none =>
      let evs := (List.range x.nsym).map fun i =>
        let l := x.sym0 + i
        { kind := .sounding, due := x.slot + symStart k.scs30 l, res := { cls := 4, idx := m.car.val }, body := .sounding x.id l (symLen k.scs30 l) : NewEv }
      let g := s.ym.nextId
      let s' := { s with ofdm := { s.ofdm with occasions := s.ofdm.occasions ++ [{ x with group := g }], nextId := s.ofdm.nextId + 1 } }
      let r := s'.present (.sarfaip p.val m.tag) none evs
      if r.1 = .ok then (true, r.2)
      else (true, { r.2 with ofdm := { r.2.ofdm with occasions := r.2.ofdm.occasions.filter fun y => y.id != x.id } }.rxVerdict p r.1)

/-- One item of a burst directive (R299): BAD_ARG and MODE_CONFLICT of the equivalent command fail the resource check; a device that is not
ACTIVE is in an outage (R391). -/
def State.burstItem (s : State) (p : Fin 8) (m : Sar) (b : Bytes) : State :=
  let t := beAt b 2 3
  let due : Tick := s.fullFrame m.frame * frameTicks + t
  let off : BitVec 32 := BitVec.ofNat 32 (beAt b 8 4)
  let nsym := byteAt b 0 % 4 + 1
  let rx : Bool := decide (128 ≤ byteAt b 0)
  let ps : BitVec 64 := BitVec.ofNat 64 (beAt b 16 8)
  let w := beAt b 12 2
  let tx : BurstTxPar := { path := ⟨byteAt b 5 % 64, by omega⟩, nsym := nsym, att := BitVec.ofNat 8 (byteAt b 6), pwr := BitVec.ofNat 8 (byteAt b 7), off := off, user := BitVec.ofNat 16 w }
  let st := if rx then s.burstRxRefusal ps w off else s.burstTxRefusal tx
  if st = some .notReady then s.rx p .outage
  else if decide (frameTicks ≤ (t : Int)) || st.isSome then s.rx p .resource
  else match s.window 5 due with
    | some c => s.rx p c
    | none =>
      let r := s.present (.sarfaip p.val m.tag) none [if rx then burstRxEvent ps nsym w off m.tag due else burstTxEvent tx due]
      r.2.rxVerdict p r.1

/-- One beam of an upload (R300). -/
def State.beamItem (s : State) (b : Bytes) : State :=
  let st : BeamStage := { boundary := s.beamBoundary, first := beAt b 0 2 % 4096, entries := [(List.range 64).map fun a => wireWord b (4 + 4 * a)], cmd := none }
  { s with ofdm := { s.ofdm with stages := s.ofdm.stages ++ [st] } }

end Sys2Proof.Machine
end

