-- ==== Sys2Proof/Machine/FamFh.lean ====
section
/-! DEFINITION. Meanings of the fronthaul's commands and Sarfaip messages (chapter 10), and the release of symbols. -/

namespace Sys2Proof.Machine

-- Commands

/-- Lanes of a speed (Table 10-1); none for a reserved code. -/
def speedLanes (speed : Nat) : Option Nat :=
  match speed with | 0 => some 0 | 1 | 2 => some 1 | 3 | 5 => some 4 | 4 => some 2 | 6 => some 8 | _ => none

/-- SPEED and FEC form a pair of Table 10-1; a disabled port has no FEC of its own, and takes any defined code. -/
def speedFec (speed fec : Nat) : Bool :=
  match speed with | 0 => fec < 3 | 1 | 3 => fec < 2 | 2 | 4 | 5 | 6 => fec == 2 | _ => false

/-- The configuration of an FH_PORT_SET (Table 10-2); bytes beyond the speed's lanes are ignored. A MAC address's first octet on the wire is its
highest byte here. -/
def portCfgOf (p : BitVec 320) : PortCfg :=
  let mac (b : Nat) : BitVec 48 := pf p b 0 8 ++ pf p (b + 1) 0 8 ++ pf p (b + 2) 0 8 ++ pf p (b + 3) 0 8 ++ pf p (b + 4) 0 8 ++ pf p (b + 5) 0 8
  { speed := pf p 1 0 4, role := pf p 2 6 2, fec := pf p 2 4 2, vlanEn := pb p 2 3, backupEn := pb p 2 2, revert := pb p 2 1, backup := pf p 3 0 3, ownMac := mac 4, peerMac := mac 10
    pcp := pf p 17 5 3, dei := pb p 17 4, vid := pf p 16 0 12, maxFrame := pf p 18 0 16, failUcw := pf p 20 0 8, holdoff := pf p 21 0 8, lanes := (List.range 8).map fun l => if l < (speedLanes (pf p 1 0 4 : BitVec 4).toNat).getD 0 then pf p (22 + l) 0 8 else 0 }

/-- Physical lanes of a configuration. -/
def PortCfg.laneList (k : PortCfg) : List Nat := (k.lanes.take ((speedLanes k.speed.toNat).getD 0)).map fun b => (b.extractLsb' 0 5).toNat

/-- BAD_ARG of R280 and R539. -/
def State.portBad (s : State) (n : Fin 8) (k : PortCfg) : Bool :=
  let ls := k.laneList
  let taken : Bool := (List.finRange 8).any fun m => m != n && s.fh.ports[m].st != .disabled && s.fh.ports[m].cfg.laneList.any ls.contains
  !speedFec k.speed.toNat k.fec.toNat || k.role == 3 || k.maxFrame.toNat < 1518 || 9618 < k.maxFrame.toNat || k.failUcw == 0 || k.holdoff == 0 || 100 < k.holdoff.toNat || k.ownMac.getLsbD 40
  || !distinct ls || taken || ls.any (fun l => s.fh.lanesRetired.getLsbD l)
  || (k.backupEn && (k.role != 0 || k.backup.toNat == n.val || s.fh.ports[k.backup.toFin].cfg.role == 1))

/-- The fields that a port carrying a carrier's uplink keeps. -/
def PortCfg.fixed (k : PortCfg) : PortCfg := { k with backupEn := false, backup := 0, revert := false, failUcw := 0, holdoff := 0 }

/-- A port is the UL_PORT of a configured or suspended carrier. -/
def State.isUlPort (s : State) (n : Fin 8) : Bool := (List.finRange 8).any fun c => s.ofdm.carriers[c].cfg.isSome && s.ofdm.carriers[c].flow.port == BitVec.ofFin n

/-- Flows of a port move to its backup, or return, where an FH_PORT_SET changes BACKUP_EN or BACKUP (R310, R311). -/
def State.reBackup (s : State) (n : Fin 8) (old new : PortCfg) : State :=
  if old.backupEn = new.backupEn ∧ old.backup = new.backup then s
  else
    let dest : Option (BitVec 3) := if s.fh.ports[n].st == .failed && new.backupEn && s.fh.ports[new.backup.toFin].st == .up then some new.backup else none
    let s := (List.finRange 8).foldl (fun (s : State) c =>
      if s.ofdm.carriers[c].flow.port = BitVec.ofFin n then s.modCarrier c fun x => { x with flow := { x.flow with moved := dest, home := 0 } } else s) s
    let was := s.fh.ports[n].onBackup
    let s := s.modPort n fun p => { p with onBackup := dest.isSome }
    match dest with
    | some b => s.postLink n 7 b.toNat
    | none => if was then s.postLink n 8 old.backup.toNat else s

/-- FH_PORT_SET (R279, R280, R281, R314, R539). -/
def execFhPortSet (c : Cmd) (s : State) : R :=
  .next (s.hostCmd c 0x50 anyOp fun x =>
    let n : Fin 8 := (pf x.payload 0 0 3).toFin
    let k := portCfgOf x.payload
    let old := s.fh.ports[n].cfg
    let others := (List.finRange 8).any fun m => m != n && s.fh.ports[m].st != .disabled
    if s.portBad n k then s.complete c.ref .badArg
    else if s.isUlPort n && k.fixed != old.fixed then s.complete c.ref .modeConflict
    else if s.mode.cur == .bringup && k.speed != 0 && (k.speed != 1 || k.role != 0 || others) then s.complete c.ref .modeConflict
    else
      let restart : Bool := k.speed != old.speed || k.fec != old.fec || k.laneList != old.laneList
      let s := if restart then s.lanesDown n else s
      let s := (s.modPort n fun p => { p with cfg := k }).reBackup n old k
      let s := if restart then
          let st : PortState := if k.speed = 0 then .disabled else .training
          let s' := s.modPort n fun p => { p with st := st }
          if s.fh.ports[n].st = st then s' else s'.postLink n 1 0
        else s
      s.complete c.ref .ok)

/-- FH_WINDOW_SET (R305, R325). -/
def execFhWindowSet (c : Cmd) (s : State) : R :=
  .next (s.hostCmd c 0x51 anyOp fun x =>
    let o : BitVec 16 := pf x.payload 2 0 16
    let cl : BitVec 16 := pf x.payload 4 0 16
    match toFin 6 (pf x.payload 0 0 3).toNat with
    | none => s.complete c.ref .badArg
    | some i =>
      if o == 0 || 10000 < o.toNat || cl.toNat < closeMin i.val s.hops || o.toNat ≤ cl.toNat then s.complete c.ref .badArg
      else { s with fh := { s.fh with windows := vset s.fh.windows i (o, cl) } }.complete c.ref .ok)

/-- FH_FLOW_SET (R307). -/
def execFhFlowSet (c : Cmd) (s : State) : R :=
  .next (s.hostCmd c 0x52 anyOp fun x =>
    let n : Fin 8 := (pf x.payload 0 0 3).toFin
    let port : BitVec 3 := pf x.payload 1 0 3
    let m : BitVec 4 := pf x.payload 2 0 4
    if x.atBad || m.toNat < 6 || s.fh.ports[port.toFin].cfg.role != 0 then s.complete c.ref .badArg
    else if s.ofdm.carriers[n].cfg.isNone then s.complete c.ref .notReady
    else s.carrierEvent c.ref x n (.flow n port (pb x.payload 2 7) m))

/-- A port status record (Table 10-17). -/
def State.portRecord (s : State) (n : Fin 8) : Bytes × State :=
  let p := s.fh.ports[n]
  let k := p.count
  let w (l : List (BitVec 32)) : List Fld := l.map fun v => Fld.v 32 v.toNat
  s.record 96 ([.v 64 k.rxBytes.toNat] ++ w [k.rxFrames, k.rxFcs, k.rxUncl, k.rxLen, k.rxGap, k.rxSeqDrop, k.rxResource, k.rxOutage, k.rxEarly, k.rxLate, k.rxOrphan, k.rxBufDrop] ++
    [.v 64 k.txBytes.toNat] ++ w [k.txFrames, k.txDrop, k.compSat, k.fecCorr, k.fecUncorr] ++
    [.v 16 k.failures.toNat, .v 16 k.dlyResp.toNat, .v 4 p.cfg.speed.toNat, .v 2 p.cfg.role.toNat, .v 2 p.st.code.toNat, .v 3 p.cfg.backup.toNat, .u 4, .v 1 (b2n p.onBackup), .u 48])

/-- FH_STATUS (R312, R425). -/
def execFhStatus (c : Cmd) (s : State) : R :=
  .next (s.statusCmd c 0x53 8 fun x =>
    let ks := (List.finRange 8).filter fun k => x.select.getLsbD k.val
    let r := ks.foldl (fun (a : Bytes × State) k => let b := a.2.portRecord k; (a.1 ++ b.1, b.2)) ([], s)
    r.2.respond c x r.1 fun s => ks.foldl (fun (s : State) k => s.cnt k fun _ => PortCount.zero) s)

/-- FH_LANE_EQ_WRITE (R576): a REG_WRITE of one of the 32 lane registers. -/
def execFhLaneEqWrite (c : Cmd) (s : State) : R :=
  .next (s.hostCmd c 0x03 (fun p => decide (0x1C04 ≤ regAddr p ∧ regAddr p ≤ 0x1C80)) fun x =>
    s.cmdRegWrite c.ref (regAddr x.payload) (pf x.payload 4 0 32) (pf x.payload 8 0 32))

-- Received messages (R284 to R303)

/-- Forward a message to the members of an array (R325): one message in each FWD. -/
def State.fwd (s : State) (m : Sar) : State :=
  match s.chain, s.downPort with
  | some (0, _), some d => s.hitSend d 3 "FWD" 2 0 0 0 m.raw
  | _, _ => s

/-- The items of one message that names a carrier and slot, after checks 1 and 2; whether any passed checks 1 to 5. -/
def State.sarCarrier (s : State) (p : Fin 8) (m : Sar) (k : CarrierCfg) (wire : Wire) (items : List Bytes) : Bool × State :=
  let each (f : State → Bytes → Bool × State) : Bool × State :=
    items.foldl (fun (a : Bool × State) b => let r := f a.2 b; (a.1 || r.1, r.2)) (false, s)
  match m.msg with
  | 1 => s.ctlShare p m (each fun s b => s.cSection p m k wire b)
  | 2 => s.uData p m k wire items
  | 3 => s.ctlShare p m (s.hintIn p m k wire items)
  | 4 => s.ctlShare p m (each fun s b => s.soundingItem p m k wire b)
  | 6 => s.ctlShare p m (each fun s b => s.cBlock p m k wire b)
  | _ => (false, s)

/-- A message after checks 1 and 2 (R56, Table 10-14). With no air time it is outside its window; a wake message alone has no part in that. -/
def State.sarBody (s : State) (p : Fin 8) (m : Sar) (wire : Wire) (items : List Bytes) : Bool × State :=
  if m.msg = 8 then (true, s.wake 6 p.val)
  else if !s.counting then (false, s.rx p .late)
  else if m.msg = 7 then
    (if wire && s.fh.ports[p].cfg.role != 0 then (false, s.rx p .uncl) else (true, items.foldl (fun (s : State) b => s.beamItem b) s))
  else if m.msg = 5 then (false, items.foldl (fun (s : State) b => s.burstItem p m b) s)
  else match s.ofdm.carriers[m.car].cfg with
    | none => (false, s.rx p (if s.ofdm.carriers[m.car].seen then .outage else .resource))
    | some k =>
      if s.outageAt m.car (s.slotTick m k) then (false, s.rx p .outage)
      else if k.slots ≤ m.slot then (false, s.rx p .resource)
      else s.sarCarrier p m k wire items

/-- One type-0 or type-2 message, `short` where PAYLOAD_SIZE exceeds the bytes that are there (R284 to R303): false where it fails the length check
and ends its frame. A message that is not classified passes no check, its length among them. -/
def State.sarMessage (s : State) (p : Fin 8) (wire short : Bool) (b : Bytes) : Bool × State :=
  if b.length < 16 then (false, s.rx p .len)
  else if !sarClassified b then (!short, s.rx p .uncl)
  else
    let m := sarOf b
    match (if short then none else sarItems m.msg m.count m.body) with
    | none => (false, s.rx p .len)
    | some items =>
      let q := if wire then s.seqCheck p m else (true, s)
      if !q.1 then (true, q.2)
      else
        let r := q.2.sarBody p m wire items
        (true, if r.1 && (m.msg != 2 || !m.ul) then r.2.fwd m else r.2)

/-- A port takes Sarfaip messages (R283, Table 10-3). -/
def State.takesSar (s : State) (p : Fin 8) : Bool := s.receiving p && s.fh.ports[p].cfg.role != 1

/-- A message of one kind delivered on a port: its bytes from the common header on. PAYLOAD_SIZE beyond them fails the length check; bytes
beyond it are not its own. -/
def State.sarRow (s : State) (p : Fin 8) (kind : Nat) (msg : Bytes) : State :=
  if s.takesSar p && byteAt msg 8 % 16 == kind && byteAt msg 0 / 16 == 1 && (byteAt msg 1 == 0 || byteAt msg 1 == 2) then
    (s.sarMessage p true (decide (msg.length < 4 + beAt msg 2 2)) (msg.take (4 + beAt msg 2 2))).2
  else s

/-- C_PLANE_SECTIONS (R144, R290, R292, R303). -/
def execCPlaneSections (port : Fin 8) (msg : Bytes) (s : State) : R := .next (s.sarRow port 1 msg)

/-- U_PLANE_DATA (R293 to R295, R303, R306). -/
def execUPlaneData (port : Fin 8) (msg : Bytes) (s : State) : R := .next (s.sarRow port 2 msg)

/-- SCHEDULE_HINT (R179, R181, R296, R297). -/
def execScheduleHint (port : Fin 8) (msg : Bytes) (s : State) : R := .next (s.sarRow port 3 msg)

/-- SOUNDING_DIRECTIVE (R161, R162, R298). -/
def execSoundingDirective (port : Fin 8) (msg : Bytes) (s : State) : R := .next (s.sarRow port 4 msg)

/-- BURST_DIRECTIVE (R299). -/
def execBurstDirective (port : Fin 8) (msg : Bytes) (s : State) : R := .next (s.sarRow port 5 msg)

/-- WEIGHT_BLOCKS (R291, R292, R326). -/
def execWeightBlocks (port : Fin 8) (msg : Bytes) (s : State) : R := .next (s.sarRow port 6 msg)

/-- BEAM_UPLOAD (R154, R300). -/
def execBeamUpload (port : Fin 8) (msg : Bytes) (s : State) : R := .next (s.sarRow port 7 msg)

/-- WAKE_MESSAGE (R301, R403). -/
def execWakeMessage (port : Fin 8) (msg : Bytes) (s : State) : R := .next (s.sarRow port 8 msg)

/-- ORPHAN_BLOCK_TIMEOUT (R292): a held block whose section was not accepted before its window closed. -/
def execOrphanBlockTimeout (idx : Nat) (s : State) : R :=
  .next (match s.fh.held[idx]? with
    | none => s
    | some h =>
      match s.ofdm.carriers[h.carrier].cfg, toFin 8 h.port with
      | some k, some p =>
        if s.counting && s.window (if h.ul then 2 else 1) (h.slot + symStart k.scs30 13) == some .late then { s with fh := { s.fh with held := s.fh.held.eraseIdx idx } }.rx p .orphan else s
      | none, some p => { s with fh := { s.fh with held := s.fh.held.eraseIdx idx } }.rx p .orphan
      | _, none => s)

/-- Sections that are incomplete at their earliest release tick are late (R292): the first event is recorded, the others depend on it. -/
def State.openSweep (s : State) : State :=
  let lateNow (o : OpenSection) : Bool :=
    match s.ofdm.carriers[o.sec.carrier].cfg with
    | none => true
    | some k => (o.sec.events k).any fun e => decide (e.release < s.ym.now)
  let out := s.fh.openSecs.filter lateNow
  let s := { s with fh := { s.fh with openSecs := s.fh.openSecs.filter fun o => !lateNow o } }
  out.foldl (fun (s : State) (o : OpenSection) =>
    match toFin 8 o.sec.port, s.ofdm.carriers[o.sec.carrier].cfg with
    | some p, some k =>
      let s := s.rx p .late
      (o.sec.events k).zipIdx.foldl (fun (s : State) (e : NewEv × Nat) =>
        s.lateRec (.sarfaip o.sec.port o.seqId) e.1.kind e.1.due e.1.res (if e.2 = 0 then .arrival else .dependency) (if e.2 = 0 then missOf (s.ym.now - e.1.release) else 0)) s
    | some p, none => s.rx p .outage
    | _, _ => s) s

-- One-way delay measurement (R302)

/-- The compensation value of a port (Table 12-1): its RX correction in ns × 10, with the deskew depth of multi-lane modes. -/
def Port.rxCorr (p : Port) : Nat :=
  match p.cfg.speed.toNat, p.cfg.fec.toNat with
  | 1, 0 => 276 | 1, 1 => 1324 | 2, _ => 1187
  | 3, 0 => 342 + p.deskew | 3, _ => 1048 + p.deskew | 4, _ => 973 + p.deskew | 5, _ => 886 + p.deskew | 6, _ => 791 + p.deskew
  | _, _ => 0

/-- A time base's count as seconds and ns of a stamp. -/
def stampOf (count : Int) : Nat × Nat :=
  let ns := count / (3 * 2 ^ 40)
  ((ns / 1000000000).toNat, (ns % 1000000000).toNat)

/-- The count of the time base that feeds TB3. -/
def State.tbCount (s : State) : Int := s.time.tb[s.tbS].count

/-- Send a type-5 response: the request's measurement ID, its arrival stamp, the compensation value in ns × 2^16. -/
def State.delayResponse (s : State) (p : Fin 8) (src : BitVec 48) (id : BitVec 8) (stamp : Int) : State :=
  let t := stampOf stamp
  let b : Bytes := [0x10, 5] ++ beBytes 2 20 ++ [id, 2] ++ beBytes 6 t.1 ++ beBytes 4 t.2 ++ beBytes 8 (s.fh.ports[p].rxCorr * 65536 / 10)
  (s.cnt p fun c => { c with dlyResp := satInc c.dlyResp }).sendFrame p "DELAY_RESPONSE" (s.fh.ports[p].cfg.frame src true 0xAEFE b)

/-- A type-5 message: its payload of 20 bytes, then the action; false where it fails the length check. -/
def State.delayMessage (s : State) (p : Fin 8) (src : BitVec 48) (b : Bytes) : Bool × State :=
  let id : BitVec 8 := BitVec.ofNat 8 (byteAt b 4)
  let rest := s.fh.delays.filter fun (d : DelayReq) => !(d.port == p.val && d.id == id)
  if b.length < 24 then (false, s.rx p .len)
  else match byteAt b 5 with
    | 0 => (true, s.delayResponse p src id s.tbCount)
    | 1 => (true, { s with fh := { s.fh with delays := rest ++ [{ port := p.val, id := id, stamp := s.tbCount, fin := s.dp + 9830400 }] } })
    | 5 => match s.fh.delays.find? fun d => d.port == p.val && d.id == id && decide (s.dp ≤ d.fin) with
      | some d => (true, { s with fh := { s.fh with delays := rest } }.delayResponse p src id d.stamp)
      | none => (true, s.rx p .uncl)
    | _ => (true, s.rx p .uncl)

/-- A type-5 message whose action is one of those named. -/
def State.delayRow (s : State) (p : Fin 8) (src : BitVec 48) (msg : Bytes) (acts : List Nat) : State :=
  if s.takesSar p && byteAt msg 0 / 16 == 1 && byteAt msg 1 == 5 && acts.contains (byteAt msg 5) then
    (if msg.length < 4 + beAt msg 2 2 then s.rx p .len else (s.delayMessage p src (msg.take (4 + beAt msg 2 2))).2)
  else s

/-- DELAY_REQUEST (R302). -/
def execDelayRequest (port : Fin 8) (src : BitVec 48) (msg : Bytes) (s : State) : R := .next (s.delayRow port src msg [0, 1])

/-- DELAY_FOLLOW_UP (R302). -/
def execDelayFollowUp (port : Fin 8) (src : BitVec 48) (msg : Bytes) (s : State) : R := .next (s.delayRow port src msg [5])

/-- FOLLOW_UP_TIMEOUT (R302): exchanges whose Follow_Up has not come within 10 ms end. -/
def execFollowUpTimeout (port : Fin 8) (s : State) : R :=
  .next { s with fh := { s.fh with delays := s.fh.delays.filter fun (d : DelayReq) => !(d.port == port.val && decide (d.fin ≤ s.dp)) } }

-- Symbols (R64, R66, R143, R155, R200, R295)

/-- The section of a symbol event. -/
def State.symbolOf (s : State) (e : Event) : Option (Section × Nat × Nat) :=
  match e.body with
  | .symbol sec sym len => (s.ofdm.sections.find? fun x => x.id == sec).map fun x => (x, sym, len)
  | _ => none

/-- A DL symbol's check: bursts accepted before it (R200), and its paths but for those whose interlock is open, which drop out alone (R93, R508). -/
def State.dlCheck (s : State) (e : Event) : Option (Cause × Res) :=
  match s.symbolOf e with
  | none => none
  | some (x, _, len) =>
    let a := s.dpOf e.due
    let ps := s.antennas x.carrier
    if ps.any fun p => s.burstBefore e.id p a (a + len) then some (.resourceBusy, e.res)
    else s.trafficCheck e .tx len (ps.filter s.interlock)

/-- A UL symbol's check. -/
def State.ulCheck (s : State) (e : Event) : Option (Cause × Res) :=
  match s.symbolOf e with
  | none => none
  | some (x, _, len) => s.trafficCheck e .rx len (s.antennas x.carrier)

/-- No COMMIT came for a member's group: the codebook fallback serves it for the slot (R333). -/
def State.missCommit (s : State) (x : Claim) : State :=
  ({ s with hit := { s.hit with commitMiss := satInc s.hit.commitMiss } }.setClaim { x with
      how := .beam
      cmds := [] }).claimCmds x false

/-- A claim that still waits when its group is used: computed work is published, unfinished work is abandoned (R184, R185); in an array a member
without COMMIT serves the codebook fallback (R333). -/
def State.settleClaim (s : State) (x : Claim) : State :=
  match x.how with
  | .waiting od d _ w =>
    if s.isMember then s.missCommit x
    else match w with
      | some w =>
        if s.chain.isNone && decide (s.ym.now ≤ d) then (if od then s.modWcount x.carrier fun n => { n with onDemand := satInc n.onDemand } else s).publish x w else s.abandonClaim x
      | none => s.abandonClaim x
  | _ => s

/-- Settle the claims of a section's groups. -/
def State.settleSection (s : State) (x : Section) (k : CarrierCfg) : State :=
  match x.source with
  | .onDevice _ => (k.touched x.prbFirst x.prbNum).foldl (fun (s : State) g => match s.claim? x.carrier x.ul x.slot g with | some y => s.settleClaim y | none => s) s
  | _ => s

/-- A weight component in BRINGUP (R146): rounded to 12 bits. -/
def bringupRound (v : Int) : Int := 16 * clampI (-2048) 2047 (rdiv v 16)

/-- The integers of a weight element (R146). -/
def State.weightVal (s : State) (w : BitVec 32) : Int × Int :=
  let i := (w.extractLsb' 0 16).toInt
  let q := (w.extractLsb' 16 16).toInt
  if s.mode.cur = .bringup then (bringupRound i, bringupRound q) else (i, q)

/-- The element that serves a group, layer and antenna under a section (R143, R144, R147, R150, R155, R156, R183): its integers, and whether a
codebook beam serves. `j` is the layer's place in the section's list. -/
def State.weightFor (s : State) (x : Section) (k : CarrierCfg) (g j l a : Nat) : (Int × Int) × Bool :=
  let beam (b : BitVec 12) : (Int × Int) × Bool := (s.weightVal (s.beamElem b x.slot (slotOf k.scs30) a), true)
  let fb := beam (k.fbBeam + BitVec.ofNat 12 l)
  if x.fallback ∨ g ∈ x.fbGroups then fb
  else match x.source with
    | .codebook bs => match bs[j]? with | some b => beam b | none => fb
    | .baseband ws => match ws.find? fun w => w.1 == g with
      | some w => (s.weightVal (((w.2[j]?).getD [])[a]?.getD 0), false)
      | none => fb
    | .onDevice _ => match s.claim? x.carrier x.ul x.slot g with
      | some y => match y.how with
        | .served w => if y.map = x.map then (s.weightVal (w.elem l a), false) else fb
        | _ => fb
      | none => fb

/-- Whether the skew ramp applies to a group of a section (R159): always for baseband and codebook weights, the fallback among them; for on-device
weights by the carrier's derotation state. -/
def State.rampFor (s : State) (x : Section) (k : CarrierCfg) (g : Nat) : Bool :=
  match x.source, s.claim? x.carrier x.ul x.slot g with
  | .onDevice _, some { how := .served _, map := m, .. } => x.fallback || m != x.map || k.derot
  | _, _ => true

/-- The decompressed value of a layer at a PRB and subcarrier; 0 where no data was accepted (R295). -/
def State.layerVal (s : State) (c : Fin 8) (sym : Tick) (l prb sc : Nat) : Int × Int :=
  match s.fh.dlData.find? fun (d : DlData) => d.carrier == c && d.layer == l && d.sym == sym && decide (d.prb ≤ prb ∧ prb < d.prb + d.vals.length) with
  | some d => match ((d.vals[prb - d.prb]?).getD [])[sc]? with | some v => (v.1.toInt, v.2.toInt) | none => (0, 0)
  | none => (0, 0)

/-- PRBs of a group. -/
def CarrierCfg.prbsOf (k : CarrierCfg) (g : Nat) : List Nat := (List.range k.groupPrbs).filterMap fun i => if g * k.groupPrbs + i < k.nRb then some (g * k.groupPrbs + i) else none

/-- The precoder over a section's groups (R155): per antenna and PRB twelve values, and how many resource elements saturated. -/
def State.precode (s : State) (x : Section) (k : CarrierCfg) (sym : Tick) : List (Nat × Nat × List (Int × Int)) × Nat :=
  let ants := s.antennas x.carrier
  let one (g a prb sc : Nat) : (Int × Int) × Bool :=
    cround (csum (x.layers.zipIdx.map fun l => cmul (s.weightFor x k g l.2 l.1 a).1 (s.layerVal x.carrier sym l.1 prb sc))) (15 + k.preShift.toNat)
  let res := (k.touched x.prbFirst x.prbNum).flatMap fun g => (k.prbsOf g).map fun prb =>
    (prb, ants.map fun a => (a.val, (List.range 12).map fun sc => one g a.val prb sc))
  let sat := (res.map fun r => ((List.range 12).filter fun sc => r.2.any fun a => match a.2[sc]? with | some v => v.2 | none => false).length).sum
  (res.flatMap fun r => r.2.map fun a => (a.1, r.1, a.2.map fun v => v.1), sat)

/-- The precoded values of a symbol after the skew ramp (R125, R159): per antenna and PRB, and the saturations of the ramp by antenna. -/
def State.rampedOut (s : State) (x : Section) (k : CarrierCfg) (v : List (Nat × Nat × List (Int × Int))) : List (Nat × Nat × List (Int × Int)) × List SatCount :=
  let r := v.filterMap fun y => (toFin 64 y.1).map fun p =>
    let ramp := s.rampFor x k (y.2.1 / k.groupPrbs)
    (p, y.2.1, y.2.2.zipIdx.map fun z => s.derotate k p ramp false (k.scIndex (12 * y.2.1 + z.2)) z.1)
  (r.map fun y => (y.1.val, y.2.1, y.2.2.map fun z => z.1), r.map fun y => satOf y.1 .derot (y.2.2.filter fun z => z.2).length)

/-- DL_SYMBOL_RELEASE (R64, R66 to R69, R91, R93, R101, R124, R125, R143, R155, R159, R200, R295): the antennas transmit the precoded symbol, each k
ticks later at its ball. The transforms, and what follows them, run with the datapath clock. -/
def execDlSymbolRelease (ev : Nat) (s : State) : R :=
  .next (s.release ev .dlSymbol State.dlCheck fun s e =>
    match s.symbolOf e with
    | none => s
    | some (x, sym, len) =>
      match s.ofdm.carriers[x.carrier].cfg with
      | none => s
      | some k =>
        let all := s.antennas x.carrier
        let on := all.filter s.interlock
        let s := (all.filter fun p => !s.interlock p).foldl (fun (s : State) p => s.lateRec e.src .dlSymbol e.due { cls := 1, idx := p.val } .pathState 0) s
        let s := (s.settleSection x k).trafficBegin e .tx len on
        let r := s.precode x k e.due
        let g := s.rampedOut x k (r.1.filter fun y => on.any fun p => p.val == y.1)
        let a := s.dpOf e.due
        let tx : TxOn := { id := e.id, paths := BitVec.ofNat 64 (on.foldl (fun m p => m + 2 ^ p.val) 0), start := a, fin := a + len }
        let s := { s with burst := { s.burst with dl := tx :: s.burst.dl.filter fun y => decide (s.dp < y.fin) } }
        let s := (s.modCarrier x.carrier fun y => { y with count := { y.count with preSat := satAdd y.count.preSat r.2 } }).addSats x.carrier g.2
        (s.txJoin { carrier := x.carrier, cfg := k, sym := sym, due := e.due, len := len, grid := g.1, wave := none }).emit
          (.dl x.carrier.val e.due (on.map fun p => (p.val, txBall p e.due)) g.1))

/-- UL_SYMBOL_RELEASE (R64, R66, R91, R101): the antennas receive for the symbol. -/
def execUlSymbolRelease (ev : Nat) (s : State) : R :=
  .next (s.release ev .ulSymbol State.ulCheck fun s e =>
    match s.symbolOf e with
    | none => s
    | some (x, sym, len) =>
      let s := s.trafficBegin e .rx len (s.antennas x.carrier)
      { s with ofdm := { s.ofdm with sections := s.ofdm.sections.map fun (y : Section) => if y.id = x.id then { y with released := y.released ++ [sym] } else y } })

/-- Data of symbols whose release has passed leaves the share; units with no section that maps their layer count in NO_SECTION (R145, R295, R306). -/
def State.dataSweep (s : State) : State :=
  let past (d : DlData) : Bool := decide (d.sym - 32768 ≤ s.ym.now) && !(s.ym.events.any fun e => e.kind == .dlSymbol && e.due == d.sym && e.res.idx == d.carrier.val)
  let out := s.fh.dlData.filter past
  if out.isEmpty then s
  else
    let unitsOf (d : DlData) : List (Fin 8 × Nat × Tick × Nat) :=
      match s.ofdm.carriers[d.carrier].cfg with
      | none => []
      | some k => (k.touched d.prb d.vals.length).filterMap fun g =>
          if s.ofdm.sections.any fun x => x.carrier == d.carrier && !x.ul && x.layers.contains d.layer && (k.touched x.prbFirst x.prbNum).contains g
              && (List.range x.symNum).any fun i => x.slot + symStart k.scs30 (x.symFirst + i) == d.sym
          then none else some (d.carrier, d.layer, d.sym, g)
    let units := (out.flatMap unitsOf).eraseDups
    let gone : List (Fin 8 × Nat × Tick × Nat × Nat) := out.map fun (d : DlData) => (d.carrier, d.layer, d.sym, d.prb, d.vals.length)
    let young : List (Fin 8 × Nat × Tick × Nat × Nat) := s.fh.dlGone.filter fun d => decide (s.ym.now < d.2.2.1 + 129 * frameTicks)
    let s := { s with fh := { s.fh with
      dlData := s.fh.dlData.filter fun d => !past d
      dlGone := young ++ gone } }
    units.foldl (fun (s : State) u => s.modCarrier u.1 fun y => { y with count := { y.count with noSection := satInc y.count.noSection } }) s

-- Uplink egress (R156, R287, R294, R307 to R309)

/-- The exact sum of R156 over the antennas of a carrier; a codebook beam enters conjugated. -/
def State.combineSum (s : State) (x : Section) (k : CarrierCfg) (r : RxGrid) (g j l prb sc : Nat) : Int × Int :=
  csum ((s.antennas x.carrier).map fun a =>
    let w := s.weightFor x k g j l a.val
    cmul (if w.2 then (w.1.1, -w.1.2) else w.1) (rxVal r a.val prb sc))

/-- Sections of a UL symbol that has been released and not sent yet, with the symbol. -/
def State.ulSections (s : State) (c : Fin 8) (k : CarrierCfg) (sym : Tick) : List (Section × Nat) :=
  s.ofdm.sections.filterMap fun (x : Section) =>
    if x.carrier = c ∧ x.ul then (x.released.find? fun l => x.slot + symStart k.scs30 l == sym).map fun l => (x, l) else none

/-- The PRBs of a layer that sections claim, in ascending order: PRB, section, group, place of the layer. -/
def layerPrbs (xs : List Section) (k : CarrierCfg) (l : Nat) : List (Nat × Section × Nat × Nat) :=
  (sortKey (xs.flatMap fun x => match x.layers.idxOf? l with
    | some j => (k.touched x.prbFirst x.prbNum).flatMap fun g => (k.prbsOf g).map fun prb => (prb, (x, g, j))
    | none => [])).map fun y => (y.1, y.2.1, y.2.2.1, y.2.2.2)

/-- Cut a list with ascending PRBs into contiguous runs of at most `n`. -/
def prbRuns {α : Type} (n : Nat) : List (Nat × α) → List (Nat × List α)
  | [] => []
  | (p, v) :: rest =>
    match prbRuns n rest with
    | (q, vs) :: rs => if q = p + 1 ∧ vs.length < n then (p, v :: vs) :: rs else (p, [v]) :: (q, vs) :: rs
    | [] => [(p, [v])]

/-- Block floating point of one PRB at width W with exponents to `emax` (R294): exponent, mantissas, whether one saturated. -/
def bfpOf (w emax : Nat) (v : List (Int × Int)) : Nat × List Int × Bool :=
  let xs := v.flatMap fun c => [c.1, c.2]
  let fits (e : Nat) : Bool := xs.all fun x => let m := rdiv x (2 ^ e); decide (-(2 ^ (w - 1) : Int) ≤ m ∧ m < (2 ^ (w - 1) : Int))
  let e := ((List.range (emax + 1)).find? fits).getD emax
  (e, xs.map fun x => clampI (-(2 ^ (w - 1))) (2 ^ (w - 1) - 1) (rdiv x (2 ^ e)), !fits e)

/-- Pack PRBs, most significant bit first, zero bits to a byte boundary (R293, R294). -/
def packPrbs (w : Nat) (l : List (Nat × List Int × Bool)) : Bytes :=
  let n := l.foldl (fun (a : Nat) y => y.2.1.foldl (fun (a : Nat) m => a * 2 ^ w + (BitVec.ofInt w m).toNat) (a * 16 + y.1)) 0
  let bits := l.length * (4 + 24 * w)
  let len := (bits + 7) / 8
  beBytes len (n * 2 ^ (8 * len - bits))

/-- The port that carries the uplink flow of a carrier's layer now, and whether it can send (Table 10-16). -/
def State.egressPort (s : State) (c : Fin 8) (layer : Nat) : Fin 8 × Bool :=
  let f := s.ofdm.carriers[c].flow
  let own : Fin 8 := f.port.toFin
  match f.moved with
  | none => (own, s.fh.ports[own].st == .up)
  | some b =>
    if f.home.getLsbD layer then (own, s.fh.ports[own].st == .up)
    else if s.fh.ports[b.toFin].st = .up then (b.toFin, true) else if s.fh.ports[own].st = .up then (own, true) else (b.toFin, false)

/-- One uplink U-plane message (Tables 10-4, 10-6, 10-10). -/
def ulMessage (c : Fin 8) (layer : Nat) (seq : BitVec 8) (sym : Tick) (scs30 : Bool) (l prb w : Nat) (prbs : List (Nat × List Int × Bool)) : Bytes :=
  let a := airWord sym
  let slot := ((a.extractLsb' 0 24).toNat : Int) / slotOf scs30
  let sec := beBytes 2 (prb * 128) ++ beBytes 2 (prbs.length * 128 + (w - 1) * 8) ++ packPrbs w prbs
  [0x10, 0x00] ++ beBytes 2 (12 + sec.length) ++ beBytes 2 (c.val * 8192 + 4096 + layer * 32) ++ [seq, 0x80] ++
    [0x12, (a.extractLsb' 32 32).setWidth 8, BitVec.ofNat 8 (slot.toNat * 8), BitVec.ofNat 8 (l * 16), 1, 0, 0, 0] ++ sec

/-- Most PRBs that a message on a port may carry. -/
def PortCfg.maxPrbs (k : PortCfg) (w : Nat) : Nat :=
  let head := 18 + (if k.vlanEn then 4 else 0) + 20
  max 1 ((k.maxFrame.toNat - head) * 8 / (4 + 24 * w))

/-- Form the messages of one layer of a UL symbol and queue them for egress, or drop them where no port can send (R308, R310). -/
def State.egressLayer (s : State) (c : Fin 8) (k : CarrierCfg) (layer : Nat) (sym : Tick) (l : Nat) (vals : List (Nat × List (Int × Int))) : State :=
  let pt := s.egressPort c layer
  let cfg := s.fh.ports[pt.1].cfg
  let w := s.ofdm.carriers[c].flow.mantM1.toNat + 1
  let flow := c.val * 8192 + 4096 + layer * 32
  (prbRuns (cfg.maxPrbs w) vals).foldl (fun (s : State) r =>
    let ps := r.2.map fun v => bfpOf w (16 - w) v
    let seq : BitVec 8 := match s.fh.txSeq.find? fun x => x.1 == (0, flow) with | some x => x.2 | none => 0
    let f := cfg.frame cfg.peerMac true 0xAEFE (ulMessage c layer seq sym k.scs30 l r.1 w ps)
    let s := { s with fh := { s.fh with txSeq := (s.fh.txSeq.filter fun (x : (Nat × Nat) × BitVec 8) => x.1 != (0, flow)) ++ [((0, flow), seq + 1)] } }
    let s := s.cnt pt.1 fun n => { n with compSat := satAdd n.compSat (ps.filter fun y => y.2.2).length }
    if pt.2 then { s with fh := { s.fh with egress := s.fh.egress ++ [{ port := pt.1.val, carrier := c.val, layer := layer, bytes := f, sending := false }] } }
    else s.cnt pt.1 fun n => { n with txDrop := satInc n.txDrop }) s

/-- A UL symbol's data leaves once: its sections no longer hold it. -/
def State.ulTaken (s : State) (xs : List (Section × Nat)) : State :=
  let cut (y : Section) : Section :=
    match xs.find? fun (x : Section × Nat) => x.1.id == y.id with
    | some x => { y with released := y.released.filter (· != x.2) }
    | none => y
  { s with ofdm := { s.ofdm with sections := s.ofdm.sections.map cut } }

/-- Layers of sections, ascending. -/
def layersOf (xs : List Section) : List Nat := (List.range 32).filter fun l => xs.any fun x => x.layers.contains l

/-- The groups of a symbol's sections to which the skew ramp applies, by PRB; outside them by the carrier's derotation state (R159). -/
def State.ulRamp (s : State) (xs : List Section) (k : CarrierCfg) (prb : Nat) : Bool :=
  match xs.find? fun x => (k.touched x.prbFirst x.prbNum).contains (prb / k.groupPrbs) with
  | some x => s.rampFor x k (prb / k.groupPrbs)
  | none => k.derot

/-- Resource elements of which some layer saturated (R157): values by layer, PRB and subcarrier. -/
def elementSats (res : List (Nat × List (Nat × List ((Int × Int) × Bool)))) : Nat :=
  let hit := res.flatMap fun r => r.2.flatMap fun y => y.2.zipIdx.filterMap fun v => if v.1.2 then some (y.1, v.2) else none
  hit.eraseDups.length

/-- A UL symbol that was released is received (R138, R139, R159): what saturates on the way is counted, and its resource elements are there. -/
def State.ulReceive (s : State) (car : Fin 8) (k : CarrierCfg) (xs : List Section) (l : Nat) (sym : Tick) (raw : List AdcIn) : RxGrid × State :=
  let ramp := s.ulRamp xs k
  (s.rxGrid car k l sym ramp raw, (s.addSats car (s.symbolSats car k l sym ramp raw)).counted car (sym + symLen k.scs30 l))

/-- UL_EGRESS (R145, R156, R287, R294, R308, R309): after a UL symbol that was released, one message for each layer and PRB run. `raw` holds what
the ADCs gave of the symbol. In ARRAY the data takes the way of R327. -/
def execUlEgress (car : Fin 8) (sym : Tick) (raw : List AdcIn) (s : State) : R :=
  .next (match s.ofdm.carriers[car].cfg with
    | none => s
    | some k =>
      let xs := s.ulSections car k sym
      match xs.head? with
      | none => s
      | some (_, l) =>
        if s.chain.isSome ∨ s.ym.now < sym + symLen k.scs30 l then s
        else
          let secs := xs.map fun x => x.1
          let s := secs.foldl (fun (s : State) x => s.settleSection x k) s
          let r := s.ulReceive car k secs l sym raw
          let s := r.2
          let res := (layersOf secs).map fun ly => (ly, (layerPrbs secs k ly).map fun y =>
            (y.1, (List.range 12).map fun sc => cround (s.combineSum y.2.1 k r.1 y.2.2.1 y.2.2.2 ly y.1 sc) (15 + k.combShift.toNat)))
          let s := (s.modCarrier car fun y => { y with count := { y.count with combSat := satAdd y.count.combSat (elementSats res) } }).ulTaken xs
          res.foldl (fun (s : State) r => s.egressLayer car k r.1 sym l (r.2.map fun y => (y.1, y.2.map fun v => v.1))) s)

/-- One cycle of egress: on each port that is UP a message under way is complete, or the next one begins (DESIGN CHOICE: the manual bounds the time
of a message and gives no rate). -/
def State.egressTick (s : State) : State :=
  (List.finRange 8).foldl (fun (s : State) n =>
    if s.fh.ports[n].st ≠ .up then s
    else match s.fh.egress.find? fun (m : EgressMsg) => m.port == n.val with
      | none => s
      | some m =>
        if m.sending then { s with fh := { s.fh with egress := s.fh.egress.erase m } }.sendFrame n "UL_DATA" m.bytes
        else { s with fh := { s.fh with egress := s.fh.egress.replace m { m with sending := true } } }) s

-- Ports (R281, R311, R314)

/-- PORT_UP (R281, R314, R575): the PCS is locked and aligned without fault for 1 ms; the deskew depth is measured at the lock. -/
def execPortUp (port : Fin 8) (deskew : Nat) (s : State) : R :=
  let idle : Bool := s.pwr.st == .deep || (s.pwr.st == .nap && !s.pwr.wakeCfg.getLsbD (16 + port.val))
  .next (match s.fh.ports[port].st with
    | .training | .failed => if idle then s else if s.fh.ports[port].cfg.laneList.any (fun l => s.fh.lanesRetired.getLsbD l) then s
        else (s.modPort port fun p => { p with st := .up, upSince := s.dp, deskew := deskew }).postLink port 2 0
    | _ => s)

/-- Flows of a carrier that its backup still carries (R311). -/
def Carrier.away (x : Carrier) (port : Fin 8) : List Nat :=
  if x.flow.port == BitVec.ofFin port && x.flow.moved.isSome then (List.range (match x.cfg with | some k => k.ulLayers.toNat | none => 0)).filter fun l => !x.flow.home.getLsbD l else []

/-- Flows that can return now (R311): the carrier is at a symbol boundary, and the backup holds no unsent message of the flow. -/
def State.returning (s : State) (port : Fin 8) (c : Fin 8) : List Nat :=
  let x := s.ofdm.carriers[c]
  let at_ : Bool := match x.cfg with | some k => !s.counting || symbolCeil k.scs30 s.ym.now == s.ym.now | none => true
  if at_ then (x.away port).filter fun l => !(s.fh.egress.any fun (m : EgressMsg) => m.carrier == c.val && m.layer == l) else []

/-- Flows of a carrier return to their own port; with none left on the backup, the carrier is no longer moved. -/
def Carrier.takeHome (x : Carrier) (port : Fin 8) (ls : List Nat) : Carrier :=
  let y := { x with flow := { x.flow with home := ls.foldl (fun (m : BitVec 32) l => m ||| BitVec.ofNat 32 (2 ^ l)) x.flow.home } }
  if (y.away port).isEmpty && x.flow.port == BitVec.ofFin port then { y with flow := { y.flow with moved := none, home := 0 } } else y

/-- PORT_REVERT (R311): a port UP for its own HOLDOFF takes its flows back, each at a symbol boundary at which its backup holds no unsent message
of it. -/
def execPortRevert (port : Fin 8) (s : State) : R :=
  .next (
    let p := s.fh.ports[port]
    let due : Bool := p.st == .up && p.cfg.revert && p.onBackup && decide (p.upSince + p.cfg.holdoff.toNat * 98304000 ≤ s.dp)
    let left (s : State) : Bool := (List.finRange 8).any fun c => !(s.ofdm.carriers[c].away port).isEmpty
    if due && (!left s || (List.finRange 8).any fun c => !(s.returning port c).isEmpty) then
      let s' := (List.finRange 8).foldl (fun (t : State) c => t.modCarrier c fun x => x.takeHome port (s.returning port c)) s
      (s'.modPort port fun p => { p with onBackup := left s' }).postLink port 8 p.cfg.backup.toNat
    else s)

end Sys2Proof.Machine
end

