-- ==== Sys2Proof/Machine/FamTime.lean ====
section
/-! DEFINITION. Meanings of network time (chapter 12). A time base counts 2^-40/3 ns; offsets and rates are exact rationals in ns
and ns/s. -/

namespace Sys2Proof.Machine

/-- Ticks of one second. -/
def tickHz : Nat := 983040000

/-- Counts of one ns. -/
def nsCount : Int := 3 * 2 ^ 40

/-- A count in ns. -/
def countNs (c : Int) : Q := Q.make c (3 * 2 ^ 40)

/-- The nearest count of a time in ns. -/
def nsToCount (x : Q) : Int := (x.mul (Q.ofInt nsCount)).round

/-- The other time base. -/
def otherTb (d : Fin 2) : Fin 2 := if d = 0 then 1 else 0

/-- Change a time base. -/
def State.modTb (s : State) (d : Fin 2) (f : Tb → Tb) : State := { s with time := { s.time with tb := vmod s.time.tb d f } }

/-- The device is a member of an array other than D0, in ARRAY: its TB0 takes the hitch time (R351). -/
def State.hitchMember (s : State) : Bool := s.mode.cur == .array && (match s.hit.cfg with | some h => h.dev != 0 | none => false)

/-- A time event (Table 12-7). -/
def State.postTime (s : State) (code : Nat) (d : Fin 2) : State := s.postRec 0x0A 8 [.v 8 code, .v 1 d.val, .u 7, .u 16, .v 32 s.frameNow]

-- Rates (R339, R346)

/-- Largest frequency word: 100 ppm (R339). -/
def freqMax : Int := 111848107

/-- Frequency units of one ns/s (R339). -/
def freqUnit : Q := Q.make 1118481 1000

/-- The frequency word of a rate (R346). -/
def freqWord (y : Q) : Int := clampI (-freqMax) freqMax (freqUnit.mul y).round

/-- The range of I: that of FREQ (R346). -/
def clampRate (x : Q) : Q :=
  let m := (Q.ofInt freqMax).div freqUnit
  if m.le x then m else if x.le m.neg then m.neg else x

/-- Natural frequency of the loop in rad/s. -/
def loopOmega (bw : BitVec 8) : Q := Q.make (18856 * (bw.toNat : Int)) 100000

/-- Seconds of a number of ticks. -/
def secondsOf (n : Nat) : Q := Q.make n tickHz

/-- Ki × θ × τ and Kp × θ (R346). -/
def kiTerm (bw : BitVec 8) (th tau : Q) : Q := (((loopOmega bw).mul (loopOmega bw)).mul th).mul tau
def kpTerm (bw : BitVec 8) (th : Q) : Q := ((Q.make 14142 10000).mul (loopOmega bw)).mul th

/-- The least-squares slope of offsets, in ns/s (Table 12-2). -/
def slopeOf (l : List (Nat × Q)) : Q :=
  let n := Q.ofInt l.length
  let t0 := (l.head?.map fun (x : Nat × Q) => x.1).getD 0
  let xs := l.map fun (x : Nat × Q) => secondsOf (x.1 - t0)
  let mx := (Q.sum xs).div n
  let my := (Q.sum (l.map fun (x : Nat × Q) => x.2)).div n
  let num := Q.sum (List.zipWith (fun (x : Q) (p : Nat × Q) => (x.sub mx).mul (p.2.sub my)) xs l)
  let den := Q.sum (xs.map fun (x : Q) => (x.sub mx).mul (x.sub mx))
  num.div den

-- Switching and stepping (R348, R352 to R355)

/-- The bleed goes on from the present B (R354, R355). -/
def State.bleedFrom (s : State) (b : Int) : State :=
  { s with time := { s.time with b := b, bleed := if b = 0 then none else some (b, s.dp) } }

/-- B at the present cycle: toward 0 at SLEW ns/s (R354). -/
def State.bleedNow (s : State) : Int :=
  match s.time.bleed with
  | none => s.time.b
  | some (b0, t0) =>
    let d : Int := ((s.time.dev.slew.toNat * 3125 * 2 ^ 30 * (s.dp - t0)) / 1000000000 : Nat)
    if b0.natAbs ≤ d then 0 else if b0 < 0 then b0 + d else b0 - d

/-- Air time starts at the first tick at which TB_S reaches TRACK (R352). -/
def State.startAir (s : State) : State :=
  let st := s.time.tb[s.tbS].st
  if s.ym.air = .noTime ∧ (st = .track ∨ st = .locked) then
    { s with ym := { s.ym with air := .running, now := s.airFromTb }, time := { s.time with anchorSec := (secNs s.tau3).1 } }.restage s
  else s

/-- B after a switch to the other domain (R353). -/
def State.switchB (s : State) : Int := s.time.b + (s.time.tb[otherTb s.tbS].count - s.time.tb[s.tbS].count)

/-- B stays within SWITCH_MAX, and a member in ARRAY stays on TB0 (R351, R353). -/
def State.switchFits (s : State) (max : BitVec 32) : Bool :=
  decide (s.switchB.natAbs ≤ max.toNat * 3 * 2 ^ 40) && !(s.hitchMember && otherTb s.tbS == 1)

/-- Switch TB3 to the other domain (R353). -/
def State.switchTb (s : State) : State :=
  let b := s.switchB
  let s := ({ s with time := { s.time with sel := !s.time.sel, armed := false } }).bleedFrom b
  (s.postTime 6 s.tbS).startAir

/-- R355: evaluated when TB_S enters HOLDOVER or EXPIRED (`entry`) and at state changes of the other domain. -/
def State.autoSwitch (s : State) (entry : Bool) : State :=
  if !(entry || s.time.armed) then s
  else if s.time.tb[otherTb s.tbS].st ≠ Servo.locked then (if entry then { s with time := { s.time with armed := true } } else s)
  else if s.time.dev.autoSwitch && s.switchFits s.time.dev.switchMax then s.switchTb
  else s

/-- A servo enters a state (R347, R352, R355, R363). -/
def State.enterServo (s : State) (d : Fin 2) (st : Servo) : State :=
  let old := s.time.tb[d].st
  let s := s.modTb d fun b => { b with st := st, inLock := 0, outLock := 0 }
  let s := match st with
    | .locked => s.postTime 2 d
    | .track => if old = Servo.locked then s.postTime 3 d else s
    | .holdover => (s.modTb d fun b => { b with holdAt := s.dp }).postTime 4 d
    | .expired => (s.postTime 5 d).raiseFault .expired { cls := 9, idx := 0x3F2 + d.val }
    | _ => s
  if d = s.tbS then
    let s := s.startAir
    match st with
    | .locked => { s with time := { s.time with armed := false } }
    | .holdover | .expired => s.autoSwitch true
    | _ => s
  else s.autoSwitch false

/-- A phase step is allowed on a domain (R348). -/
def State.stepAllowed (s : State) (d : Fin 2) : Bool := d != s.tbS || s.ym.air != .released

/-- A phase step by −θ (R348): a step of TB_S makes B 0, and re-bases air time where it counts (R57). -/
def State.phaseStep (s : State) (d : Fin 2) (th : Q) : State :=
  let s := s.modTb d fun b => { b with count := b.count - nsToCount th, steps := satInc b.steps, lastAcc := Q.zero }
  let s := if d = s.tbS then
      let s := { s with time := { s.time with b := 0, bleed := none } }
      let s := if s.ym.air = .running then s.rebase else s
      if s.counting then { s with time := { s.time with anchorSec := (secNs s.tau3).1 } } else s
    else s
  s.postTime 7 d

-- The servo (R346 to R349)

/-- The PI loop takes an offset (R346). -/
def State.piLoop (s : State) (d : Fin 2) (th tau : Q) : State :=
  s.modTb d fun b =>
    let i := clampRate (b.i.sub (kiTerm b.cfg.bw th tau))
    let y := i.sub (kpTerm b.cfg.bw th)
    { b with i := i, y := y, freq := freqWord y, lastAcc := th
             hist := (s.dp, i) :: b.hist.filter fun (x : Nat × Q) => decide (s.dp ≤ x.1 + 16 * tickHz) }

/-- Counts of offsets in and out of the lock threshold, and the changes they make (Table 12-2); a member's TB0 is LOCKED as R322 says (R351). -/
def State.lockCount (s : State) (d : Fin 2) (th : Q) : State :=
  let b := s.time.tb[d]
  if s.hitchMember && d == 0 then s
  else match b.st with
  | .track =>
    let n := if th.abs.le (Q.ofInt b.cfg.lockTh.toNat) then b.inLock + 1 else 0
    if n ≥ 16 then s.enterServo d .locked else s.modTb d fun b => { b with inLock := n }
  | .locked =>
    let n := if th.abs.le (Q.ofInt (2 * b.cfg.lockTh.toNat)) then 0 else b.outLock + 1
    if n ≥ 4 then s.enterServo d .track else s.modTb d fun b => { b with outLock := n }
  | _ => s

/-- R349: whether an offset is discarded as an outlier, with the run and the acceptance it leaves. -/
def Tb.judge (b : Tb) (th tau : Q) : Bool × Nat × Bool :=
  match b.st with
  | .track | .locked | .holdover =>
    if ((th.sub (b.lastAcc.add (b.y.mul tau))).abs).le (Q.ofInt b.cfg.outlier.toNat) then (false, 0, false)
    else if b.accepting || b.outRun + 1 ≥ 8 then (false, 0, true)
    else (true, b.outRun + 1, false)
  | _ => (false, 0, false)

/-- SERVO_OFFSET: one offset θ of a domain (R346 to R349). -/
def State.servoOffset (s : State) (d : Fin 2) (th : Q) : State :=
  if s.asleep then s
  else
  let s := s.modTb d fun b => { b with lastTheta := th }
  let b := s.time.tb[d]
  match b.st with
  | .idle =>
    let s := (s.enterServo d .freqAcq).modTb d fun b => { b with acq := [], lastAt := s.dp, hist := [] }
    if s.stepAllowed d then s.phaseStep d th else s
  | .freqAcq =>
    let l := b.acq ++ [(s.dp, th)]
    if l.length < 8 then s.modTb d fun b => { b with acq := l, lastAt := s.dp }
    else
      let i := clampRate (slopeOf l).neg
      (s.modTb d fun b => { b with acq := [], i := i, y := i, freq := freqWord i, lastAcc := th, lastAt := s.dp, outRun := 0, accepting := false, hist := [(s.dp, i)] }).enterServo d .track
  | _ =>
    let tau := secondsOf (s.dp - b.lastAt)
    let j := b.judge th tau
    if j.1 then s.modTb d fun b => { b with outRun := j.2.1, outliers := satInc b.outliers }
    else
      let s := s.modTb d fun b => { b with outRun := j.2.1, accepting := j.2.2, lastAt := s.dp }
      let s := if b.st = .holdover ∨ b.st = .expired then s.enterServo d .track else s
      let s := if !(th.abs.le (Q.ofInt b.cfg.stepTh.toNat)) && s.stepAllowed d then s.phaseStep d th else s.piLoop d th tau
      s.lockCount d th

/-- HOLDOVER (R347): no accepted offset for 2 s in TRACK or LOCKED; the rate becomes the mean of I. HOLD_MAX counts from the end of the 2 s. -/
def State.servoHold (s : State) (tb : Fin 2) : State :=
    let b := s.time.tb[tb]
    if (b.st = .track ∨ b.st = .locked) ∧ b.lastAt + 2 * tickHz ≤ s.dp ∧ ¬ (s.hitchMember = true ∧ tb = 0 ∧ b.st = .locked) then
      let l := (b.hist.filter fun (x : Nat × Q) => decide (b.lastAt ≤ x.1 + 16 * tickHz)).map fun (x : Nat × Q) => x.2
      let m := if l.isEmpty then b.i else (Q.sum l).div (Q.ofInt l.length)
      ((s.modTb tb fun b => { b with i := m, y := m, freq := freqWord m }).enterServo tb .holdover).modTb tb fun x => { x with holdAt := b.lastAt + 2 * tickHz }
    else s

/-- EXPIRED (R347): HOLD_MAX has elapsed in HOLDOVER. -/
def State.servoExpire (s : State) (tb : Fin 2) : State :=
  let b := s.time.tb[tb]
  if b.st = .holdover ∧ b.holdAt + b.cfg.holdMax.toNat * tickHz ≤ s.dp then s.enterServo tb .expired else s

/-- SERVO_HOLDOVER (R347); in NAP and DEEP the servos' states are not evaluated (R395). -/
def execServoHoldover (tb : Fin 2) (s : State) : R := .next (if s.asleep then s else s.servoHold tb)

/-- SERVO_EXPIRED (R347, R395). -/
def execServoExpired (tb : Fin 2) (s : State) : R := .next (if s.asleep then s else s.servoExpire tb)

/-- Each servo's state is evaluated at the wake (R395). -/
def State.servosWake (s : State) : State := ([0, 1] : List (Fin 2)).foldl (fun (s : State) d => (s.servoHold d).servoExpire d) s

/-- BLEED_DONE (R354). -/
def execBleedDone (s : State) : R :=
  .next (if s.time.bleed.isSome ∧ s.bleedNow = 0 then (s.bleedFrom 0).postTime 8 s.tbS else s)

/-- TIME_ANCHOR (R358): each whole second of τ3 while air time counts, of TB2 while it does not. -/
def execTimeAnchor (s : State) : R :=
  let sec : Int := if s.counting then (secNs s.tau3).1 else (s.tb2Ns / 1000000000 : Nat)
  .next (if s.time.anchorSec < sec ∧ s.asleep = false then
      let b := s.anchorBody
      { b.2 with time := { b.2.time with anchorSec := sec } }.post 0x0A b.1
    else s)

-- PTP (R342 to R345). The layouts of IEEE 1588-2019 and the comparison of ITU-T G.8275.1 are PRESUMED: the manual names them.

/-- A PTP message is discarded and counted (R342). -/
def State.ptpIgnore (s : State) : State := { s with time := { s.time with ptpIgnored := satInc s.time.ptpIgnored } }

/-- The TX correction of Table 12-1 in ns × 10. -/
def Port.txCorr (p : Port) : Nat :=
  match p.cfg.speed.toNat, p.cfg.fec.toNat with
  | 1, 0 => 213 | 1, _ => 248 | 2, _ => 196 | 3, 0 => 209 | 3, _ => 235 | 4, _ => 189 | 5, _ => 174 | 6, _ => 162
  | _, _ => 0

/-- Header fields of a PTP message: messageType, versionPTP, domainNumber, twoStepFlag, correctionField (ns), sourcePortIdentity, sequenceId. -/
def ptpType (b : Bytes) : Nat := byteAt b 0 % 16
def ptpVersion (b : Bytes) : Nat := byteAt b 1 % 16
def ptpDomain (b : Bytes) : BitVec 8 := BitVec.ofNat 8 (byteAt b 4)
def ptpTwoStep (b : Bytes) : Bool := (byteAt b 6).testBit 1
def ptpCorr (b : Bytes) : Q := Q.make (BitVec.ofNat 64 (beAt b 8 8)).toInt 65536
def ptpSource (b : Bytes) : Bytes := (b.drop 20).take 10
def ptpSeq (b : Bytes) : BitVec 16 := BitVec.ofNat 16 (beAt b 30 2)
def ptpLogInterval (b : Bytes) : Int := (BitVec.ofNat 8 (byteAt b 33)).toInt

/-- The timestamp at byte 34 in ns. -/
def ptpStamp (b : Bytes) : Q := Q.ofInt (beAt b 34 6 * 1000000000 + beAt b 40 4 : Nat)

/-- The domain that takes a message of a port: its source is PTP, its PTP_DOMAIN and PORTS name it (R343). -/
def State.ptpTb (s : State) (p : Fin 8) (b : Bytes) : Option (Fin 2) :=
  [0, 1].find? fun (d : Fin 2) =>
    let k := s.time.tb[d].cfg
    k.source == 1 && k.ptpDomain == ptpDomain b && k.ports.getLsbD p.val && !(s.hitchMember && d == 0)

/-- A PTP message of a kind, received on a port, for the domain it belongs to; on a HITCH port it is counted (R342). -/
def State.ptpTake (s : State) (p : Fin 8) (typ len : Nat) (b : Bytes) (f : Fin 2 → State) : State :=
  if !s.receiving p || ptpType b != typ || b.length < len || ptpVersion b != 2 then s
  else if s.fh.ports[p].cfg.role = 1 then s.ptpIgnore
  else match s.ptpTb p b with
    | some d => f d
    | none => s

/-- Order of masters under the alternate BMCA: clock class, accuracy, variance, priority 2, then with class 127 or less the path before
the grandmaster. -/
def Master.key (m : Master) : List Nat :=
  let b := m.data
  let cls := byteAt b 48
  let path := [beAt b 61 2, beAt b 20 10, m.port]
  [cls, byteAt b 49, beAt b 50 2, byteAt b 52] ++ (if cls ≤ 127 then path ++ [beAt b 53 8] else beAt b 53 8 :: path)

/-- Lexicographic order. -/
def lexLt : List Nat → List Nat → Bool
  | a :: as, b :: bs => a < b || (a == b && lexLt as bs)
  | [], _ :: _ => true
  | _, [] => false

/-- The best master of a domain (R343). -/
def Tb.best (b : Tb) : Option Master :=
  b.masters.foldl (fun (a : Option Master) (m : Master) => match a with | none => some m | some x => if lexLt m.key x.key then some m else some x) none

/-- A new selection (R343): a change of the parent port posts PARENT_CHANGED and begins with no exchange of its own. -/
def State.selectParent (s : State) (d : Fin 2) : State :=
  let b := s.time.tb[d]
  let new : Option (BitVec 3) := b.best.map fun (m : Master) => BitVec.ofNat 3 m.port
  if new = b.parent then s
  else
    let s := s.modTb d fun b => { b with parent := new, sync := none, syncDst := none, delayReq := none, exchange := none, reqAt := none }
    if b.parent.isSome && new.isSome then s.postTime 9 d else s

/-- PTP_ANNOUNCE (R343). -/
def execPtpAnnounce (port : Fin 8) (msg : Bytes) (s : State) : R :=
  .next (s.ptpTake port 11 64 msg fun d =>
    let m : Master := { port := port.val, data := msg, heard := s.dp }
    (s.modTb d fun b => { b with masters := (b.masters.filter fun (x : Master) => !(x.port == port.val && ptpSource x.data == ptpSource msg)) ++ [m] }).selectParent d)

/-- Ticks of a message interval of 2^l s. -/
def ptpInterval (l : Int) : Nat := if l < 0 then tickHz / 2 ^ l.natAbs else tickHz * 2 ^ l.natAbs

/-- ANNOUNCE_TIMEOUT (R343): masters unheard for three of their intervals are forgotten, and one on the parent port causes a new
selection. -/
def execAnnounceTimeout (tb : Fin 2) (s : State) : R :=
  let b := s.time.tb[tb]
  let gone (m : Master) : Bool := decide (m.heard + 3 * ptpInterval (ptpLogInterval m.data) ≤ s.dp)
  .next (if b.masters.any fun (m : Master) => gone m && b.parent == some (BitVec.ofNat 3 m.port) then
      (s.modTb tb fun b => { b with masters := b.masters.filter fun (m : Master) => !gone m }).selectParent tb
    else s)

/-- The message comes from the parent on its port. -/
def Tb.fromParent (b : Tb) (p : Fin 8) (msg : Bytes) : Bool :=
  b.parent == some (BitVec.ofNat 3 p.val) && (match b.best with | some m => ptpSource m.data == ptpSource msg | none => false)

/-- DELAY_REQ_SEND (R343, R344): 16 per second on the parent port; `at_` is where the stamp point lies from this tick, in counts of
2^-40/3 ns. -/
def execDelayReqSend (tb : Fin 2) (at_ : Int) (s : State) : R :=
  let b := s.time.tb[tb]
  .next (match b.parent, b.syncDst with
    | some p, some dst =>
      let n : Fin 8 := p.toFin
      let port := s.fh.ports[n]
      let early : Bool := match b.reqAt with | some t => decide (s.dp < t + 61440000) | none => false
      if early || !s.receiving n then s
      else
        let mac := port.cfg.ownMac.toNat
        let msg : Bytes := [1, 0x12] ++ beBytes 2 44 ++ beBytes 1 b.cfg.ptpDomain.toNat ++ beBytes 15 0 ++ beBytes 3 (mac / 2 ^ 24) ++ [0xFF, 0xFE] ++ beBytes 3 mac
          ++ beBytes 2 (n.val + 1) ++ beBytes 2 b.reqSeq.toNat ++ [1, 0x7F] ++ beBytes 10 0
        let t3 := (countNs (b.count + at_)).add (Q.make port.txCorr 10)
        (s.modTb tb fun b => { b with reqSeq := b.reqSeq + 1, reqAt := some s.dp, delayReq := some (b.reqSeq, t3) }).sendFrame n "DELAY_REQ" (port.cfg.frame dst false 0x88F7 msg)
    | _, _ => s)

/-- An offset of a domain from a Sync: arrival, origin and correction in ns (R345). -/
def State.ptpOffset (s : State) (d : Fin 2) (p : Fin 8) (t2 t1 corr : Q) : State :=
  match s.time.tb[d].exchange with
  | none => s
  | some sq =>
    let asym := Q.make (sgn s.time.dev.asym[p]) 10
    let m := (t2.sub t1).sub corr
    let half := Q.make 1 2
    let mpd := ((m.add sq).sub asym).mul half
    (s.modTb d fun b => { b with mpd := mpd }).servoOffset d (((m.sub sq).sub asym).mul half)

/-- PTP_SYNC (R343 to R345): `dst` its destination address, `at_` where its stamp point lies from this tick, in counts of
2^-40/3 ns. -/
def execPtpSync (port : Fin 8) (dst : BitVec 48) (msg : Bytes) (at_ : Int) (s : State) : R :=
  .next (s.ptpTake port 0 44 msg fun d =>
    let b := s.time.tb[d]
    if !b.fromParent port msg then s
    else
      let t2 := (countNs (b.count + at_)).sub (Q.make s.fh.ports[port].rxCorr 10)
      let s := s.modTb d fun b => { b with lost := if b.sync.isSome then satInc b.lost else b.lost, sync := none, syncDst := some dst }
      if ptpTwoStep msg then s.modTb d fun b => { b with sync := some (ptpSeq msg, t2, ptpCorr msg) }
      else s.ptpOffset d port t2 (ptpStamp msg) (ptpCorr msg))

/-- PTP_FOLLOW_UP (R345). -/
def execPtpFollowUp (port : Fin 8) (msg : Bytes) (s : State) : R :=
  .next (s.ptpTake port 8 44 msg fun d =>
    let b := s.time.tb[d]
    match b.sync with
    | some (seq, t2, c) =>
      if b.fromParent port msg && seq == ptpSeq msg then (s.modTb d fun b => { b with sync := none }).ptpOffset d port t2 (ptpStamp msg) (c.add (ptpCorr msg))
      else s
    | none => s)

/-- PTP_DELAY_RESP (R345): answers the Delay_Req of this port and sequence. -/
def execPtpDelayResp (port : Fin 8) (msg : Bytes) (s : State) : R :=
  .next (s.ptpTake port 9 54 msg fun d =>
    let b := s.time.tb[d]
    let mac := s.fh.ports[port].cfg.ownMac.toNat
    let own : Bytes := beBytes 3 (mac / 2 ^ 24) ++ [0xFF, 0xFE] ++ beBytes 3 mac ++ beBytes 2 (port.val + 1)
    match b.delayReq with
    | some (seq, t3) =>
      if b.fromParent port msg && seq == ptpSeq msg && (msg.drop 44).take 10 == own then
        s.modTb d fun b => { b with delayReq := none, exchange := some (((ptpStamp msg).sub t3).sub (ptpCorr msg)) }
      else s
    | none => s)

-- PPS (R350, R356)

/-- PPS_IN_EDGE (R350): an edge at `at_` 1/32 ticks from this tick, stamped on TB0. -/
def execPpsInEdge (at_ : Int) (s : State) : R :=
  let b := s.time.tb[(0 : Fin 2)]
  .next (
    if b.cfg.source ≠ 2 ∨ s.hitchMember = true then s
    else
      let t : Int := 32 * (s.dp : Int) + at_
      let gap : Int := match s.time.ppsLast with | some l => t - l | none => 32 * tickHz
      let tod := s.time.tod
      let s := { s with time := { s.time with ppsLast := some t, tod := none } }
      if gap * 10000 < 32 * tickHz * 9999 ∨ 32 * tickHz * 10001 < gap * 10000 then s.modTb 0 fun b => { b with outliers := satInc b.outliers }
      else
        let stamp := countNs (b.count + at_ * (3125 * 2 ^ 25))
        let sec : Int := match tod with | some v => v.toNat | none => (stamp.div (Q.ofInt 1000000000)).round
        s.servoOffset 0 ((stamp.add (Q.ofInt (sgn b.cfg.ppsDelay))).sub (Q.ofInt (sec * 1000000000))))

/-- Air tick in which τ3 reaches a whole second: the edge lies within it, placed by the delay line (R356). -/
def State.ppsTick (s : State) (sec : Int) : Tick := (sec * 1000000000 - s.ym.offset.toInt) * 3072 / 3125

/-- The next whole second of τ3 gets its PIN_EDGE event (R57, R356). -/
def State.ppsPlan (s : State) : State :=
  if !s.time.dev.ppsOutEn || !s.counting || s.asleep || s.ym.events.any (fun e => e.kind == .pinEdge) then s
  else
    let ns := (s.ym.now + 1024) * 3125 / 3072 + s.ym.offset.toInt
    let sec := ns / 1000000000 + 1
    let due := s.ppsTick sec
    if s.time.ppsDone.any (fun (r : Int × Int) => decide (r.1 ≤ sec) && decide (sec ≤ r.2)) || due < s.ym.now + 1024 then s
    else (s.present (.internal .time) none [{ kind := .pinEdge, due := due, res := { cls := 9, idx := 0 }, body := .pinEdge sec }]).2

/-- A second has given its edge. -/
def ppsMark (sec : Int) : List (Int × Int) → List (Int × Int)
  | [] => [(sec, sec)]
  | (a, b) :: l => if b + 1 = sec then (a, sec) :: l else (sec, sec) :: (a, b) :: l

/-- PIN_EDGE_RELEASE (R356). -/
def execPinEdgeRelease (ev : Nat) (s : State) : R :=
  .next (s.release ev .pinEdge (fun _ _ => none) fun s e =>
    match e.body with
    | .pinEdge sec => ({ s with time := { s.time with ppsDone := ppsMark sec s.time.ppsDone } }).at_ (s.dpOf e.due) .pps
    | _ => s)

/-- The rising edge of PPS_OUT: only while it is enabled and air time counts. -/
def State.ppsNow (s : State) : State :=
  if s.time.dev.ppsOutEn && s.counting then
    { s with time := { s.time with ppsOut := true, ppsFall := some (s.dp + (s.time.dev.ppsWidth.toNat * 98304 + 9) / 10) } }.emit (.pin "PPS_OUT" true)
  else s

/-- PPS_OUT_PULSE_END (R356). -/
def execPpsOutPulseEnd (s : State) : R :=
  .next (match s.time.ppsFall with
    | some t => if t ≤ s.dp then { s with time := { s.time with ppsOut := false, ppsFall := none } }.emit (.pin "PPS_OUT" false) else s
    | none => s)

-- Commands

/-- TIME_TOD_SET (R350). -/
def execTimeTodSet (c : Cmd) (s : State) : R :=
  .next (s.hostCmd c 0x62 anyOp fun x =>
    if s.time.tb[(0 : Fin 2)].cfg.source ≠ 2 ∨ s.hitchMember = true then s.complete c.ref .modeConflict
    else { s with time := { s.time with tod := some (pf x.payload 0 0 48) } }.complete c.ref .ok)

/-- TIME_CFG fields (Table 12-4, part 1). -/
def timeCfgOf (p : BitVec 320) : TimeCfg :=
  { source := pf p 0 1 2, ptpDomain := pf p 1 0 8, ports := pf p 2 0 8, bw := pf p 3 0 8, lockTh := pf p 4 0 16, stepTh := pf p 6 0 16
    outlier := pf p 8 0 16, holdMax := pf p 10 0 16, ppsDelay := pf p 12 0 16 }

/-- BAD_ARG of R359. -/
def State.timeCfgBad (s : State) (d : Fin 2) (k : TimeCfg) : Bool :=
  let o := s.time.tb[otherTb d].cfg
  k.source == 3 || (k.source == 2 && d == 1)
  || k.bw == 0 || 100 < k.bw.toNat || k.lockTh.toNat < 10 || 1000 < k.lockTh.toNat || k.stepTh.toNat < 100 || k.outlier.toNat < 50 || k.holdMax == 0 || 3600 < k.holdMax.toNat
  || (k.source == 1 && (k.ports == 0 || k.ptpDomain.toNat < 24 || 43 < k.ptpDomain.toNat
      || (setBits k.ports).any (fun (p : Fin 8) => s.fh.ports[p].cfg.role != 0 && s.fh.ports[p].cfg.role != 2)
      || (o.source == 1 && o.ptpDomain == k.ptpDomain && o.ports &&& k.ports != 0)))

/-- TIME_CFG (R359). -/
def execTimeCfg (c : Cmd) (s : State) : R :=
  .next (s.hostCmd c 0x60 anyOp fun x =>
    let d : Fin 2 := if pb x.payload 0 0 then 1 else 0
    let k := timeCfgOf x.payload
    if s.timeCfgBad d k then s.complete c.ref .badArg
    else if (d = s.tbS ∧ s.ym.air = .released) ∨ (s.hitchMember = true ∧ d = 0) then s.complete c.ref .modeConflict
    else
      let s := s.modTb d fun b => { Tb.reset 0 with count := b.count, cfg := k, lastTheta := b.lastTheta, mpd := b.mpd, outliers := b.outliers, lost := b.lost, steps := b.steps, reqSeq := b.reqSeq }
      let s := if d = 0 then { s with time := { s.time with ppsLast := none, tod := none } } else s
      s.complete c.ref .ok)

/-- TIME_DEV_SET (R360): the fields apply together; a change of DOMAIN is a switch (R353). -/
def execTimeDevSet (c : Cmd) (s : State) : R :=
  .next (s.hostCmd c 0x61 anyOp fun x =>
    let p := x.payload
    let k : TimeDev := { autoSwitch := pb p 0 2, ppsOutEn := pb p 0 1, slew := pf p 1 0 8, ppsWidth := pf p 2 0 16, switchMax := pf p 4 0 32, asym := Vector.ofFn fun (i : Fin 8) => pf p (8 + 2 * i.val) 0 16 }
    let sw : Bool := pb p 0 0 != s.time.sel
    if k.slew = 0 ∨ 100 < k.slew.toNat ∨ k.ppsWidth = 0 ∨ 50000 < k.ppsWidth.toNat ∨ k.switchMax = 0 ∨ 1000000 < k.switchMax.toNat then s.complete c.ref .badArg
    else if sw ∧ s.switchFits k.switchMax = false then s.complete c.ref .modeConflict
    else if sw ∧ s.ym.air = .released ∧ s.time.tb[otherTb s.tbS].st ≠ Servo.locked then s.complete c.ref .notReady
    else
      let b := s.bleedNow
      let s := ({ s with time := { s.time with dev := k } }).bleedFrom b
      (if sw then s.switchTb else s).complete c.ref .ok)

/-- The record of a domain (Table 12-5); an offset or delay that its field cannot hold is free. -/
def State.timeRecord (s : State) (i : Nat) : Bytes × State :=
  let d : Fin 2 := if i = 1 then 1 else 0
  let b := s.time.tb[d]
  let hold : Nat := if b.st = .holdover ∨ b.st = .expired then (s.dp - b.holdAt) / tickHz else 0
  let ptp : Bool := b.cfg.source == 1 && b.parent.isSome && !(s.hitchMember && d == 0)
  let ns64 (x : Q) : Fld :=
    let v := (x.mul (Q.ofInt 64)).round
    if -2 ^ 31 ≤ v ∧ v < 2 ^ 31 then .v 32 (BitVec.ofInt 32 v).toNat else .u 32
  s.record 32 [.u 1, .v 1 (b2n (s.tbUsable d)), .v 1 (b2n (d == s.tbS)), .v 2 (if s.hitchMember && d == 0 then 3 else b.cfg.source.toNat), .v 3 b.st.code.toNat
    , .u 4, .v 1 (b2n ptp), .v 3 (if ptp then (b.parent.getD 0).toNat else 0), .v 16 s.time.ptpIgnored.toNat, ns64 b.lastTheta, .v 32 (BitVec.ofInt 32 b.freq).toNat
    , ns64 b.mpd, .v 32 b.outliers.toNat, .v 32 b.lost.toNat, .v 32 b.steps.toNat, .v 32 hold]

/-- TIME_STATUS (R361): CLEAR clears the counters of the domains named, and PTP_IGNORED (R342). -/
def execTimeStatus (c : Cmd) (s : State) : R :=
  .next (s.hostCmd c 0x63 anyOp fun x =>
    let sel := x.select
    if sel = 0 ∨ sel.toNat ≥ 4 then s.complete c.ref .badArg
    else
      let ids := bitsOf 2 sel.toNat
      let r := s.records ids State.timeRecord
      r.2.respond c x r.1 fun s =>
        let s := { s with time := { s.time with ptpIgnored := 0 } }
        ids.foldl (fun (s : State) i => s.modTb (if i = 1 then 1 else 0) fun b => { b with outliers := 0, lost := 0, steps := 0 }) s)

end Sys2Proof.Machine
end

