-- ==== Sys2Proof/Machine/FamClk.lean ====
section
/-! DEFINITION. Meanings of the clocks (chapter 13). -/

namespace Sys2Proof.Machine

-- Monitors

/-- Whether windows of a clock count: RC30 only once the XO is QUALIFIED (R371), a source only while it is watched (R367). -/
def State.windowCounts (s : State) (i : Fin 11) : Bool :=
  match i.val with
  | 0 => s.monAt 1 == .qualified
  | 2 | 3 => s.watched (s.refSrc i.val)
  | _ => true

/-- CLOCK_MONITOR_WINDOW_END (R371, R372): a window of a clock ends, clean or not. -/
def execClockMonitorWindowEnd (clk : Fin 11) (clean : Bool) (s : State) : R :=
  .next (
    if !s.windowCounts clk then s
    else match s.clk.mon[clk] with
      | (.unqualified, n) =>
        if !clean then s.setMon clk .unqualified
        else if n + 1 < 4096 then s.setMon clk .unqualified (n + 1)
        else (s.setMon clk .qualified).monGood clk
      | (.qualified, _) => if clean then s else (s.setMon clk .fault).monTrip clk false
      | (.fault, _) | (.dead, _) => if clean then s.setMon clk .unqualified 1 else s)

/-- The meter stops at a DEAD clock (R381). -/
def State.meterDead (s : State) (i : Nat) : State :=
  if s.clk.busy && (s.clk.gateSel.toNat == i || s.clk.testSel.toNat == i) then
    let r := s.takeFree 48
    r.2.modClk fun c => { c with busy := false, done := true, err := true, result := r.1 }
  else s

/-- Switches that wait for an edge of a clock, or go to it, when it is declared DEAD (R376). -/
def State.switchDead (s : State) (i : Nat) : State :=
  s.clk.sw.foldl (fun (s : State) (x : ClkSwitch) =>
    if x.dst = i then
      let s := s.modClk fun c => { c with sw := c.sw.erase x }
      match x.domain with
      | .refIn => s.pllHold.refSelect
      | .aon => if s.monAt x.src = .qualified then s.beginSwitch .aon x.dst x.src true else s
      | _ => s
    else if x.src = i ∧ x.restart = false then
      ((s.modClk fun c => { c with sw := c.sw.map fun (y : ClkSwitch) => if y = x then { y with restart := true } else y
                                   ttHung := satInc c.ttHung }).postClk 9 i).raiseFault .ttHung { cls := 9, idx := 0x3E0 + i }
    else s) s

/-- AON leaves a DEAD oscillator for the other, where that one is QUALIFIED (R373, R378). -/
def State.aonDead (s : State) (i : Nat) : State :=
  if s.switching .aon then s
  else if i = 0 ∧ s.clk.aonXo = false ∧ s.monAt 1 = .qualified then s.beginSwitch .aon 0 1 true
  else if i = 1 ∧ s.clk.aonXo = true ∧ s.monAt 0 = .qualified then s.beginSwitch .aon 1 0 true
  else s

/-- CLOCK_DEAD (R372, R373, R376, R378, R381): no edge of a clock for 4 AON cycles. -/
def execClockDead (clk : Fin 11) (s : State) : R :=
  .next (
    if s.monAt clk.val = .dead ∨ ((clk = 2 ∨ clk = 3) ∧ s.watched (s.refSrc clk.val) = false) then s
    else
      let was := s.monAt clk.val
      let s := ((s.setMon clk .dead).meterDead clk.val).switchDead clk.val
      let s := if was = .fault ∧ (clk = 2 ∨ clk = 3) then s else s.monTrip clk true
      let s := s.aonDead clk.val
      if clk = 1 ∧ s.clk.pll = .holdover then (s.modClk fun c => { c with pll := .freerun }).epochInvalid.postClk 0xA s.activeRef else s)

/-- TURNTABLE_SWITCH_END (R374, R375): the oldest switch under way releases its domain on the new clock. -/
def execTurntableSwitchEnd (s : State) : R :=
  .next (match s.clk.sw with
    | [] => s
    | x :: rest =>
      let s := s.modClk fun c => { c with sw := rest }
      match x.domain with
      | .aon =>
        let s := s.modClk fun c => { c with aonXo := x.dst == 1, switches := satInc c.switches }
        let s := if x.dst = 1 ∧ s.pwr.bootStage = 0 then { s with pwr := { s.pwr with bootStage := 1 } } else s
        if s.clk.pll = .off then s.refSelect else s
      | .refIn =>
        let s := (s.modClk fun c => { c with active := BitVec.ofNat 2 (x.dst - 1), switches := satInc c.switches }).epochInvalid.postClk 1 x.dst x.restart
        let s := s.pllAcquire
        if s.monAt x.dst = .qualified then s else s.refTrip
      | .cb =>
        let s := s.modClk fun c => { c with cbPll := x.dst == 5 }
        if s.pwr.bootStage = 1 then { s with pwr := { s.pwr with bootStage := 2 } } else s
      | .dp => s)

/-- PLL_LOCKED (R368): 256 consecutive windows within ±2 ns in ACQUIRE. At power-up CB then moves to the PLL by
stop-switch-restart (R385). -/
def execPllLocked (s : State) : R :=
  .next (
    if s.clk.pll ≠ .acquire then s
    else
      let s := (s.modClk fun c => { c with pll := .locked }).postClk 3 s.activeRef
      if s.clk.cbPll || s.switching .cb then s else s.beginSwitch .cb 0 5 true)

/-- REVERT_HOLD_EXPIRY (R377): PRIMARY has been QUALIFIED for REVERT_HOLD without a break. -/
def execRevertHoldExpiry (s : State) : R :=
  .next (match s.clk.revertAt with
    | some t =>
      if t + s.clk.cfg.hold.toNat * 983040000 ≤ s.dp ∧ s.monAt 2 = .qualified ∧ s.activeRef = 3 ∧ s.switching .refIn = false then
        (s.modClk fun c => { c with revertAt := none }).beginSwitch .refIn 3 2 (s.monAt 3 == .dead)
      else s
    | none => s)

-- Gating (R379)

/-- GATE_REQUEST (R379): a gate asks its block for bus quiet, which then refuses new accesses; asked again, the block has
acknowledged and the gate closes. -/
def execGateRequest (block : Nat) (s : State) : R :=
  .next (
    if s.clk.gated.contains block then s
    else if s.clk.gateReq.contains block then s.modClk fun c => { c with gateReq := c.gateReq.filter (· != block), gated := c.gated ++ [block] }
    else s.modClk fun c => { c with gateReq := c.gateReq ++ [block] })

/-- GATE_TIMEOUT (R379): no acknowledgement within 256 control-bus cycles. -/
def execGateTimeout (block : Nat) (s : State) : R :=
  .next (
    if !s.clk.gateReq.contains block then s
    else
      let s := s.modClk fun c => { c with gateReq := c.gateReq.filter (· != block), gated := c.gated ++ [block], gateTo := satInc c.gateTo }
      (s.postClk 8 block).raiseFault .gateTo { cls := 9, idx := 0 })

-- Registers

/-- CLK_STATUS_READ, CLK_GATE_TO_READ (R15, R383). -/
def execClkStatusRead (c : Cmd) (s : State) : R := .next (s.readNamed c 0x0800)
def execClkGateToRead (c : Cmd) (s : State) : R := .next (s.readNamed c 0x081C)

/-- CLK_METER_START (R381): a write of 1 to START. -/
def execClkMeterStart (c : Cmd) (s : State) : R := .next (s.writeNamed c 0x080C fun v m => (v &&& m).getLsbD 31)

/-- CLK_METER_CLEAR (R15): a write of 1 to DONE or ERR without START. -/
def execClkMeterClear (c : Cmd) (s : State) : R :=
  .next (s.writeNamed c 0x080C fun v m => !(v &&& m).getLsbD 31 && ((v &&& m).getLsbD 29 || (v &&& m).getLsbD 28))

/-- CLK_METER_END (R381): the N-th gate edge loads the count; reserved clock selections count nothing that is defined. -/
def execClkMeterEnd (count : BitVec 48) (s : State) : R :=
  .next (
    if !s.clk.busy then s
    else
      let ok : Bool := s.clk.gateSel.toNat ≤ 10 && s.clk.testSel.toNat ≤ 10
      let r := if ok then (count, s) else s.takeFree 48
      r.2.modClk fun c => { c with busy := false, done := true, result := r.1 })

/-- DP_BYP (R375, R380): a write of CLK_OVR that names DP_BYP. -/
def execDpByp (c : Cmd) (s : State) : R := .next (s.writeNamed c 0x0808 fun _ m => m.getLsbD 2)

/-- CB_DIV (R383): a write of CLK_OVR that names CB_DIV alone. -/
def execCbDiv (c : Cmd) (s : State) : R := .next (s.writeNamed c 0x0808 fun _ m => !m.getLsbD 2 && m.extractLsb' 0 2 != 0)

-- REF_CFG (R382)

/-- REF_CFG fields (Table 13-5). -/
def refCfgOf (p : BitVec 320) : RefCfg :=
  { bw := pf p 0 2 2, revert := pb p 0 1, priXo := pb p 1 7, priLane := pf p 1 0 5, secEn := pb p 2 7, secXo := pb p 2 6, secLane := pf p 2 0 5
    fineTh := pf p 3 0 8, hold := pf p 4 0 16 }

/-- A lane named lies in an enabled port. -/
def State.refKnown (s : State) (x : RefSrc) : Bool :=
  match x with | .lane l => s.fh.ports.toList.any fun p => p.hasLane l | _ => true

/-- The monitor that a source has under the present configuration: its role's, or the XO's own. -/
def State.refMon (s : State) (x : RefSrc) : Mon × Nat :=
  if x = s.clk.cfg.pri then s.clk.mon[(2 : Fin 11)]
  else if x = s.clk.cfg.sec ∧ x ≠ .none then s.clk.mon[(3 : Fin 11)]
  else if x = .xo ∧ s.clk.mon[(1 : Fin 11)].1 = .qualified then (.qualified, 0)
  else (.unqualified, 0)

/-- REF_CFG (R382): the active source follows its role; a source new to the standby role starts its qualification anew. -/
def execRefCfg (c : Cmd) (s : State) : R :=
  .next (s.hostCmd c 0x68 anyOp fun x =>
    let k := refCfgOf x.payload
    let old := s.clk.cfg
    let a := s.activeRef
    let role : Nat := if a = 3 ∧ k.secEn = false then 2 else a
    let src (k : RefCfg) (i : Nat) : RefSrc := if i = 2 then k.pri else k.sec
    let moves : Bool := a != 0 && src old a != src k role
    if !s.refKnown k.pri || !s.refKnown k.sec || k.pri == k.sec || k.fineTh == 0 || k.hold == 0 || 3600 < k.hold.toNat then s.complete c.ref .badArg
    else if s.switching .refIn || s.clk.revertAt.isSome || (moves && (s.refMon (src k role)).1 != .qualified) then s.complete c.ref .notReady
    else
      let mon (i : Nat) (before after : RefSrc) : Mon × Nat :=
        if before = after then (if i = 2 then s.clk.mon[(2 : Fin 11)] else s.clk.mon[(3 : Fin 11)])
        else if moves then s.refMon after
        else (.unqualified, 0)
      let m2 := mon 2 old.pri k.pri
      let m3 := mon 3 old.sec k.sec
      let dead : Bool := s.monAt a == .dead
      let s := s.modClk fun c => { c with cfg := k, mon := vset (vset c.mon 2 m2) 3 m3 }
      (if moves then s.beginSwitch .refIn a role dead else s).complete c.ref .ok)

end Sys2Proof.Machine
end

