-- ==== Sys2Proof/Machine/FamHit.lean ====
section
/-! DEFINITION. Meanings of the hitch chain (chapter 11). The manual gives the bodies of GRAM, SOLVE, READY and COMMIT no layout: the
byte forms here are the model's (DESIGN CHOICE, log 36). -/

namespace Sys2Proof.Machine

-- Messages

/-- Change the hitch state. -/
def State.modHit (s : State) (f : Hitch → Hitch) : State := { s with hit := f s.hit }

/-- The array event (Table 11-5). -/
def State.postArray (s : State) (code dev : Nat) : State := s.postRec 0x09 8 [.v 8 code, .v 3 dev, .u 5, .u 16, .v 32 s.frameNow]

/-- This device's index. -/
def State.dev (s : State) : Nat := match s.hit.cfg with | some h => h.dev | none => 0

/-- A hitch message as parsed (Table 11-2). -/
structure HitMsg where
  src   : Nat
  ul    : Bool
  car   : Fin 8
  slot  : Nat
  frame : Nat
  body  : Bytes
  deriving DecidableEq, Repr

/-- The fields of the header. -/
def hitMsgOf (b : Bytes) : HitMsg :=
  let w := beAt b 4 4
  { src := byteAt b 1 / 32, ul := byteAt b 1 / 8 % 4 == 1, car := ⟨byteAt b 1 % 8, by omega⟩, slot := w / 2 ^ 23, frame := w % 2 ^ 23, body := b.drop 8 }

/-- The full frame of F_LOW, resolved as in R289. -/
def State.hitFrameNo (s : State) (low : Nat) : Int :=
  let now := s.ym.now / frameTicks
  now + (BitVec.ofInt 23 ((low : Int) - now)).toInt

/-- The slot of a message. -/
def State.hitSlotOf (s : State) (m : HitMsg) : Tick := s.hitFrameNo m.frame * frameTicks + m.slot * s.carrierSlot m.car

/-- A port is the one toward D0, or the one away from it. -/
def State.isUp (s : State) (p : Fin 8) : Bool := s.upPort == some p.val
def State.isDown (s : State) (p : Fin 8) : Bool := match s.hit.cfg with | some h => h.downEn && h.downPort == BitVec.ofFin p | none => false

/-- A hitch message of a kind with a body of at least `len` bytes, received on a hitch port of the chain (R319). -/
def State.hitTake (s : State) (p : Fin 8) (kind len : Nat) (b : Bytes) (f : HitMsg → State) : State :=
  if s.receiving p && s.fh.ports[p].cfg.role == 1 && byteAt b 0 == 0x10 + kind && decide (8 + len ≤ b.length) && (s.isUp p || s.isDown p) then f (hitMsgOf b) else s

-- Configuration and status (R316, R317, R336)

/-- HIT_SET (R316, R317): ports that are not used are not compared. -/
def execHitSet (c : Cmd) (s : State) : R :=
  .next (s.hostCmd c 0x58 anyOp fun x =>
    let p := x.payload
    let k : HitCfg := { dev := (pf p 0 0 3).toNat, ndev := (pf p 1 0 4).toNat, upEn := pb p 2 7, upPort := pf p 2 0 3, downEn := pb p 3 7, downPort := pf p 3 0 3 }
    let good (en : Bool) (n : BitVec 3) : Bool := !en || (s.fh.ports[n.toFin].cfg.role == 1 && s.fh.ports[n.toFin].cfg.speed == 6)
    if k.ndev < 2 || 8 < k.ndev || k.ndev ≤ k.dev || k.upEn != (k.dev != 0) || k.downEn != (k.dev + 1 != k.ndev) || (k.upEn && k.downEn && k.upPort == k.downPort)
      || !good k.upEn k.upPort || !good k.downEn k.downPort then s.complete c.ref .badArg
    else if s.mode.cur = .array ∨ s.inTransition = true then s.complete c.ref .modeConflict
    else (s.modHit fun h => { h with cfg := some k }).complete c.ref .ok)

/-- HIT_STATUS (R336). -/
def execHitStatus (c : Cmd) (s : State) : R :=
  .next (s.hostCmd c 0x59 anyOp fun x =>
    if x.select ≠ 0 then s.complete c.ref .badArg
    else
      let h := s.hit
      let lock : Bool := h.timeLock || (h.cfg.isSome && s.dev == 0)
      let r := s.record 32 [.v 8 h.members.toNat, .v 3 s.dev, .u 2, .v 1 (b2n h.aligned), .v 1 (b2n h.cutOff), .v 1 (b2n lock), .v 16 h.timeOfs.toNat, .v 32 h.psumMiss.toNat
        , .v 32 h.commitMiss.toNat, .v 32 h.hopLate.toNat, .v 32 h.badFrame.toNat, .v 32 h.chainFb.toNat, .u 64]
      r.2.respond c x r.1 fun s => s.modHit fun h => { h with psumMiss := 0, commitMiss := 0, hopLate := 0, badFrame := 0, chainFb := 0 })

-- Time (R321, R322)

/-- The air-time word of a stamp point that lies `at_` counts of 2^-40/3 ns from this tick. -/
def State.stampAir (s : State) (at_ : Int) : Tick := s.ym.now + at_ / (3125 * 2 ^ 30)

/-- HITCH_TIME_SEND (R321): every 1 ms in ARRAY, to the device below. -/
def execHitchTimeSend (s : State) : R :=
  let early : Bool := match s.hit.timeOut with | some t => decide (s.dp < t + 983040) | none => false
  .next (match s.downPort with
    | some p =>
      if s.mode.cur ≠ .array ∨ s.counting = false ∨ early then s
      else
        let w := airWord s.ym.now
        (s.modHit fun h => { h with timeOut := some s.dp }).hitSend p 1 "TIME" 2 0 0 (w.extractLsb' 32 32).toNat (beBytes 8 w.toNat ++ beBytes 4 s.ym.offset.toNat)
    | none => s)

/-- HITCH_TIME (R321): a member answers with TIME_ECHO and copies the air offset. -/
def execHitchTime (port : Fin 8) (msg : Bytes) (at_ : Int) (s : State) : R :=
  .next (s.hitTake port 1 12 msg fun m =>
    if !s.hitchMember || !s.isUp port then s
    else
      let off : BitVec 32 := BitVec.ofNat 32 (beAt m.body 8 4)
      let s := if off = s.ym.offset then s else (s.writeOffset off 0xFFFFFFFF).2
      let w := airWord (s.stampAir at_)
      s.hitSend port.val 2 "TIME_ECHO" 2 0 0 m.frame (m.body.take 12 ++ beBytes 8 w.toNat ++ beBytes 8 (airWord s.ym.now).toNat))

/-- A measured offset of a member in ns: its TB0 servo takes it; 16 in a row within 5 ns lock the hitch time (R321, R322, R351). -/
def State.hitchOffset (s : State) (th : Q) : State :=
  let ofs := clampI (-32768) 32767 (th.mul (Q.ofInt 64)).round
  let n := if th.abs.le (Q.ofInt 5) then s.hit.good + 1 else 0
  let locks : Bool := !s.hit.timeLock && decide (16 ≤ n)
  let s := (s.modHit fun h => { h with timeOfs := BitVec.ofInt 16 ofs, good := n, timeAt := s.dp, timeLock := h.timeLock || locks }).servoOffset 0 th
  let s := if locks then s.postArray 1 s.dev else s
  let st := s.time.tb[(0 : Fin 2)].st
  if s.hit.timeLock && st != .locked then s.enterServo 0 .locked else s

/-- HITCH_TIME_ECHO (R321): the exchange of a member with the device above it is complete: its own stamps t1 and t4, the other's t2 and t3; the
delay is half the round trip less the turnaround. An echo from below concerns the device below. -/
def execHitchTimeEcho (port : Fin 8) (msg : Bytes) (at_ : Int) (s : State) : R :=
  .next (s.hitTake port 2 28 msg fun m =>
    if !s.hitchMember || !s.isUp port then s
    else
      let w (i : Nat) : Tick := s.ofAirWord (BitVec.ofNat 64 (beAt m.body i 8))
      let t4 := s.stampAir at_
      s.hitchOffset (Q.make ((w 0 - w 12 + (t4 - w 20)) * 3125) 6144))

/-- HITCH_TIME_LOSS (R322): ten consecutive exchanges are lost. -/
def execHitchTimeLoss (port : Fin 8) (s : State) : R :=
  .next (
    if s.isUp port && s.hit.timeLock && decide (s.hit.timeAt + 10 * 983040 ≤ s.dp) then
      let s := (s.modHit fun h => { h with timeLock := false, good := 0 }).postArray 2 s.dev
      if s.hitchMember && s.time.tb[(0 : Fin 2)].st == .locked then s.enterServo 0 .track else s
    else s)

-- Alignment (R324)

/-- R324: two sets within 1 s, this device's own of D0's burst and D0's of this device's, complete the alignment; the manual states no formula
for κ_dev and δ_dev, whose values are free. -/
def State.alignTry (s : State) : State :=
  let r := s.refPath
  let own := s.burst.sets.filter fun m => m.ok && m.dev == 0 && m.recs.any fun x => x.path == r
  let used := s.hit.measD0.filter fun (x : BitVec 6 × Tick) => x.1.toNat == r.val && own.any fun m => decide ((m.arrived - x.2).natAbs ≤ 983040000)
  if !s.hitchMember || used.isEmpty then s
  else
    let g := s.takeFree 32
    let p := g.2.takeFree 32
    let d := p.2.takeFree 32
    let next : (Int × Int) × Int := ((g.1.toInt, p.1.toInt), d.1.toInt)
    let still : Bool := (s.hit.kappaDev, s.hit.deltaDev) == s.hit.devTo
    let take (h : Hitch) : Hitch := if still then { h with devTo := next } else { h with devWait := some next }
    (d.2.modHit fun h => { take h with aligned := true, measD0 := [] }).postArray 3 s.dev

/-- κ_dev and δ_dev move toward their result as 0x0B and 0x08 of Table 9-4 do, at each slot boundary; then the newest that waits is next (R264, R324). -/
def State.devStep (s : State) : State :=
  let slot : Int := if (List.finRange 8).any fun c => s.live c && (match s.ofdm.carriers[c].cfg with | some k => k.scs30 | none => false) then halfSubframe else subframe
  let h := s.hit
  if (h.kappaDev, h.deltaDev) == h.devTo then
    (match h.devWait with | some x => s.modHit fun h => { h with devTo := x, devWait := none } | none => s)
  else if !s.counting || s.ym.now % slot != 0 then s
  else s.modHit fun h => { h with kappaDev := (stepTo 100 h.kappaDev.1 h.devTo.1.1, stepPhase 1000 h.kappaDev.2 h.devTo.1.2), deltaDev := stepTo 16 h.deltaDev h.devTo.2 }

/-- MEAS (R324): D0's measurement of a burst; a set for a device beyond goes on down the chain. -/
def execMeas (port : Fin 8) (msg : Bytes) (s : State) : R :=
  .next (s.hitTake port 10 40 msg fun m =>
    if !s.hitchMember || !s.isUp port then s
    else
      let block : BitVec 136 := BitVec.ofNat 136 (beAt m.body 20 17)
      let arrived := s.ofAirWord (BitVec.ofNat 32 (ofLe ((m.body.drop 4).take 4)) ++ BitVec.ofNat 32 (ofLe ((m.body.drop 8).take 3)))
      if byteAt m.body 0 / 16 ≠ 0 then s
      else if (blk block 28 3).toNat = s.dev then (s.modHit fun h => { h with measD0 := (blk block 31 6, arrived) :: h.measD0.take 15 }).alignTry
      else match s.downPort with
        | some p => s.hitSend p 10 "MEAS" 2 0 0 m.frame m.body
        | none => s)

-- Forwarding (R325)

/-- Walk the messages of an FWD. -/
def State.fwdWalk (s : State) (p : Fin 8) : Nat → Bytes → State
  | 0, _ => s
  | n + 1, b =>
    let len := 4 + beAt b 2 2
    if b.length < 16 || byteAt b 0 / 16 != 1 || b.length < len then s
    else State.fwdWalk (s.sarMessage p false false (b.take len)).2 p n (b.drop (pad4 len))

/-- HITCH_FWD (R325): a member sends the message on down the chain and takes the messages in it without further window checks. -/
def execHitchFwd (port : Fin 8) (msg : Bytes) (s : State) : R :=
  .next (s.hitTake port 3 4 msg fun m =>
    if !s.hitchMember || !s.isUp port then s
    else
      let s := match s.downPort with | some d => s.hitSend d 3 "FWD" 2 0 0 m.frame m.body | none => s
      s.fwdWalk port 64 m.body)

-- Uplink partial sums (R327 to R329)

/-- Read bits from the most significant end: `n` bits at offset `off` of a string of `len` bytes with value `v`. -/
def psumBits (v len off n : Nat) : Nat := v / 2 ^ (8 * len - off - n) % 2 ^ n

/-- The PRBs of a UL_PSUM body: none where an exponent is reserved. -/
def psumPrbs (b : Bytes) (num : Nat) : Option (List (List (Int × Int))) :=
  let len := (num * 340 + 7) / 8
  let v := ofBe (b.take len)
  (List.range num).foldl (fun (a : Option (List (List (Int × Int)))) i =>
    let e := psumBits v len (340 * i) 4
    let m (j : Nat) : Int := (BitVec.ofNat 14 (psumBits v len (340 * i + 4 + 14 * j) 14)).toInt * 2 ^ e
    match a with
    | none => none
    | some l => if 10 < e then none else some (l ++ [(List.range 12).map fun k => (m (2 * k), m (2 * k + 1))])) (some [])

/-- The time at which device d sends its partial: the symbol's end plus 12,288 and a hop for each device beyond it (R328). -/
def State.psumTime (s : State) (d : Nat) (fin : Tick) : Tick := fin + 12288 + ((s.members : Int) - 1 - d) * 1180

/-- End of the symbol of a UL_PSUM: its index within the frame is slot × 14 + symbol. -/
def State.psumSym (s : State) (m : HitMsg) (k : CarrierCfg) : Tick × Tick :=
  let t := s.hitFrameNo m.frame * frameTicks + (m.slot / 14 : Nat) * s.carrierSlot m.car + symStart k.scs30 (m.slot % 14)
  (t, t + symLen k.scs30 (m.slot % 14))

/-- UL_PSUM (R327 to R329): a partial from below is held until this device sends; one that comes later counts in HOP_LATE. -/
def execUlPsum (port : Fin 8) (msg : Bytes) (s : State) : R :=
  .next (s.hitTake port 4 8 msg fun m =>
    match s.ofdm.carriers[m.car].cfg with
    | none => s
    | some k =>
      let num := beAt m.body 4 2 / 128
      let t := s.psumSym m k
      if s.mode.cur ≠ .array ∨ s.isDown port = false then s
      else if m.body.length < 8 + (num * 340 + 7) / 8 then s.modHit fun h => { h with badFrame := satInc h.badFrame }
      else match psumPrbs (m.body.drop 8) num with
        | none => s.modHit fun h => { h with badFrame := satInc h.badFrame }
        | some l =>
          if s.psumTime s.dev t.2 < s.ym.now then s.modHit fun h => { h with hopLate := satInc h.hopLate }
          else
            let p : PSum := { carrier := m.car, layer := byteAt m.body 0 / 8, sym := t.1, prb := beAt m.body 2 2 / 128, vals := l, miss := (byteAt m.body 0).testBit 2 }
            s.modHit fun h => { h with psums := h.psums ++ [p] })

/-- A component of 24 bits. -/
def sat24 (v : Int) : Int := clampI (-(2 ^ 23)) (2 ^ 23 - 1) v

/-- The partial from below at a PRB. -/
def psumAt (l : List PSum) (prb : Nat) : Option (List (Int × Int)) :=
  l.findSome? fun p => if p.prb ≤ prb then p.vals[prb - p.prb]? else none

/-- Send the sums of one layer up, run by run (R329). -/
def State.psumSend (s : State) (p : Nat) (c : Fin 8) (sym : Tick) (l : Nat) (layer : Nat) (miss : Bool) (vals : List (Nat × List (Int × Int))) : State :=
  let a := airWord sym
  let idx := ((a.extractLsb' 0 24).toNat / (s.carrierSlot c).toNat) * 14 + l
  let room := match toFin 8 p with | some n => max 1 ((s.fh.ports[n].cfg.maxFrame.toNat - 34) * 8 / 340) | none => 1
  (prbRuns room vals).foldl (fun (s : State) r =>
    let prbs := r.2.map fun v => bfpOf 14 10 v
    s.hitSend p 4 "UL_PSUM" 1 c.val idx (a.extractLsb' 32 32).toNat ([BitVec.ofNat 8 (layer * 8 + 4 * b2n miss), 0] ++ beBytes 2 (r.1 * 128) ++ beBytes 2 (r.2.length * 128) ++ [0, 0] ++ packPrbs 14 prbs)) s

/-- The sums of one layer at a device (R327, R328): its own partial with that from below, or with zero, by PRB; whether a partial is missing here, and
whether one is missing here or below. -/
def State.psumLayer (s : State) (k : CarrierCfg) (secs : List Section) (r : RxGrid) (mine : List PSum) (ly : Nat) : List (Nat × List (Int × Int)) × Bool × Bool :=
  let below := mine.filter fun (p : PSum) => p.layer == ly
  let prbs := layerPrbs secs k ly
  let lost : Bool := s.downPort.isSome && prbs.any fun y => (psumAt below y.1).isNone
  let sums := prbs.map fun y =>
    let b := (psumAt below y.1).getD []
    (y.1, (List.range 12).map fun sc =>
      let v := s.combineSum y.2.1 k r y.2.2.1 y.2.2.2 ly y.1 sc
      let w := (b[sc]?).getD (0, 0)
      (sat24 (rdiv v.1 (2 ^ 15)) + w.1, sat24 (rdiv v.2 (2 ^ 15)) + w.2))
  (sums, lost, lost || below.any fun (p : PSum) => p.miss)

/-- D0 shifts and saturates the complete sums, counts the resource elements that saturated, and egresses them (R156, R157, R327). -/
def State.psumEgress (s : State) (car : Fin 8) (k : CarrierCfg) (sym : Tick) (l : Nat) (sums : List (Nat × List (Nat × List (Int × Int)))) : State :=
  let res := sums.map fun r => (r.1, r.2.map fun (y : Nat × List (Int × Int)) => (y.1, y.2.map fun (v : Int × Int) => cround v k.combShift.toNat))
  let s := s.modCarrier car fun y => { y with count := { y.count with combSat := satAdd y.count.combSat (elementSats res) } }
  res.foldl (fun (s : State) r => s.egressLayer car k r.1 sym l (r.2.map fun y => (y.1, y.2.map fun v => v.1))) s

/-- UL_PSUM_SEND (R327, R328, R333): at its time after a released UL symbol a device adds its partial to the one received, or to zero, and sends the sum
up; D0 egresses the complete sum. `raw` as in UL_EGRESS. -/
def execUlPsumSend (car : Fin 8) (sym : Tick) (raw : List AdcIn) (s : State) : R :=
  .next (match s.ofdm.carriers[car].cfg with
    | none => s
    | some k =>
      let xs := s.ulSections car k sym
      match xs.head? with
      | none => s
      | some (_, l) =>
        if s.chain.isNone ∨ s.ym.now < s.psumTime s.dev (sym + symLen k.scs30 l) then s
        else
          let secs := xs.map fun x => x.1
          let s := secs.foldl (fun (s : State) x => s.settleSection x k) s
          let r := s.ulReceive car k secs l sym raw
          let s := r.2.ulTaken xs
          let mine := s.hit.psums.filter fun (p : PSum) => p.carrier == car && p.sym == sym
          let s := s.modHit fun h => { h with psums := h.psums.filter fun (p : PSum) => !(p.carrier == car && p.sym == sym) }
          let sums := (layersOf secs).map fun ly => (ly, s.psumLayer k secs r.1 mine ly)
          let s := sums.foldl (fun (s : State) y =>
            if if s.dev = 0 then y.2.2.2 else y.2.2.1 then s.modHit fun h => { h with psumMiss := satInc h.psumMiss } else s) s
          match s.upPort with
          | some p => sums.foldl (fun (s : State) y =>
              s.psumSend p car sym l y.1 y.2.2.2 (y.2.1.map fun (z : Nat × List (Int × Int)) => (z.1, z.2.map fun (v : Int × Int) => (sat24 v.1, sat24 v.2)))) s
          | none => s.psumEgress car k sym l (sums.map fun y => (y.1, y.2.1)))

-- Distributed weights (R330 to R333)

/-- SND_DONE (R330). -/
def execSndDone (port : Fin 8) (msg : Bytes) (s : State) : R :=
  .next (s.hitTake port 9 0 msg fun m =>
    if s.mode.cur ≠ .array ∨ s.isDown port = false then s
    else
      let key := (m.car.val, s.hitSlotOf m)
      let s := s.modHit fun h => { h with sndDone := (h.sndDone.filter fun x => x.1 != key) ++ [(key, m.body)] }
      if s.hit.sndOwn.contains key then { s with ofdm := { s.ofdm with sndNow := s.ofdm.sndNow ++ [(m.car, key.2)] } } else s)

/-- Change a chain group. -/
def State.modGroup (s : State) (g : ChainGroup) (f : ChainGroup → ChainGroup) : State :=
  s.modHit fun h => { h with groups := h.groups.map fun (x : ChainGroup) => if x.carrier = g.carrier ∧ x.ul = g.ul ∧ x.slot = g.slot ∧ x.grp = g.grp then f x else x }

/-- A chain group by its name. -/
def State.chainGroup? (s : State) (c : Fin 8) (ul : Bool) (slot : Tick) (grp : Nat) : Option ChainGroup :=
  s.hit.groups.find? fun x => x.carrier == c && x.ul == ul && x.slot == slot && x.grp == grp

/-- A matrix in 24-bit components with the least exponent, at or above one, at which they fit (R331; DEDUCED, log 76). -/
def gramFit (usable : Bool) (e : Nat) (vals : List (Int × Int)) : Gram :=
  let sh := fitShift 24 [vals]
  { usable := usable, exp := e + sh, vals := vals.map fun v => (rshift v.1 sh, rshift v.2 sh) }

/-- The sum of two partials with one exponent (R331). -/
def Gram.add (a b : Gram) : Gram :=
  let e := min a.exp b.exp
  gramFit (a.usable && b.usable) e (List.zipWith (fun (x y : Int × Int) =>
    (x.1 * pow2 (a.exp - e) + y.1 * pow2 (b.exp - e), x.2 * pow2 (a.exp - e) + y.2 * pow2 (b.exp - e))) a.vals b.vals)

/-- The partial of one device and those below it, once all are there. -/
def ChainGroup.sum (g : ChainGroup) (last : Bool) : Option Gram :=
  match g.own, g.below with
  | some a, some b => some (a.add b)
  | some a, none => if last then some a else none
  | none, _ => none

/-- The body of GRAM: group, layers, usable and exponent, elements of 24 + 24 bits. -/
def Gram.body (g : Gram) (grp l : Nat) : Bytes :=
  beBytes 2 grp ++ [BitVec.ofNat 8 l, BitVec.ofNat 8 (128 * b2n (!g.usable) + g.exp)] ++ g.vals.flatMap fun v => beBytes 3 (BitVec.ofInt 24 v.1).toNat ++ beBytes 3 (BitVec.ofInt 24 v.2).toNat

/-- The partial that a GRAM body carries. -/
def gramOf (b : Bytes) : Gram :=
  let l := byteAt b 2
  { usable := byteAt b 3 < 128, exp := byteAt b 3 % 128
    vals := (List.range (l * l)).map fun i => ((BitVec.ofNat 24 (beAt b (4 + 6 * i) 3)).toInt, (BitVec.ofNat 24 (beAt b (7 + 6 * i) 3)).toInt) }

/-- The deadline of a chain group's work: its claim's, else its slot. -/
def State.chainDeadline (s : State) (g : ChainGroup) : Tick :=
  match s.claim? g.carrier g.ul g.slot g.grp with
  | some { how := .waiting _ d _ _, .. } => d
  | _ => g.slot

/-- A stage of a group goes to the dispatcher (R331). -/
def State.chainJob (s : State) (g : ChainGroup) (stage : Nat) : State :=
  let l := g.map.length
  let cost := match stage with | 0 => 40 + l * l | 1 => 110 + 3 * l * l | _ => 20 + 2 * l * l
  s.addJob { kind := .chain stage g.carrier g.ul g.slot g.grp g.map g.blk, deadline := s.chainDeadline g, budget := cost, kernel := 0 }

/-- The bitmap of a slot's groups that this device and every device below hold. -/
def State.readyMap (s : State) (c : Fin 8) (ul : Bool) (slot : Tick) : Nat :=
  s.hit.groups.foldl (fun (a : Nat) (g : ChainGroup) => if g.carrier = c ∧ g.ul = ul ∧ g.slot = slot ∧ g.readyOut then a ||| 2 ^ g.grp else a) 0

/-- A group for which a device has no usable value of a port: D0 treats it as NO_ESTIMATE (R331). -/
def State.chainNoEstimate (s : State) (g : ChainGroup) : State :=
  (if (s.waiter g.blk).isSome then s.modWcount g.carrier fun n => { n with noEstimate := satInc n.noEstimate } else s).noSet g.blk

/-- What a group's progress on this device leads to (R331): the partial sum goes up, or D0 solves; READY goes up, or D0 holds the set. -/
def State.chainStep (s : State) (c : Fin 8) (ul : Bool) (slot : Tick) (grp : Nat) : State :=
  match s.chainGroup? c ul slot grp with
  | none => s
  | some g =>
    let last : Bool := s.downPort.isNone
    let s := match g.sum last with
      | some p =>
        if g.gramOut then s
        else
          let s := s.modGroup g fun x => { x with gramOut := true }
          match s.upPort with
          | some u => s.hitSlot u 5 "GRAM" ul c slot (p.body grp g.map.length)
          | none => if p.usable then s.chainJob g 1 else s.chainNoEstimate g
      | none => s
    if g.set.isSome && (last || g.readyBelow) && !g.readyOut then
      let s := s.modGroup g fun x => { x with readyOut := true }
      match s.upPort with
      | some u => s.hitSlot u 7 "READY" ul c slot (beBytes 35 (s.readyMap c ul slot))
      | none => s.weightDone c g.blk g.set
    else s

/-- The partial P_d of a device from what was staged (R331). -/
def WeightIn.partialGram (w : WeightIn) (usable : Bool) : Gram := gramFit usable (2 * w.unit + 100).toNat (gramExact w.rows).flatten

/-- A Gram matrix of L layers in the units of squared book values. -/
def Gram.matrix (g : Gram) (l : Nat) : List (List CQ) :=
  scaled ((g.exp : Int) - 100) ((List.range l).map fun i => (g.vals.drop (i * l)).take l)

/-- M of a group, row by row, with the exponent of its units (R331): Γ = P + σ²I, n_i² = [Γ⁻¹ P Γ⁻¹]_ii, M = Γ⁻¹ diag(1/n_i) in 16-bit components; none
where a pivot is not positive. -/
def solveChain (p : List (List CQ)) (sigma : Q) : Option (Int × List (BitVec 32)) :=
  (inverse (ridge sigma p)).map fun x =>
    let cols := x.map fun c => (c, (inner c (p.map fun r => CQ.sum (List.zipWith CQ.mul r c))).1)
    let at_ (e : Int) : List (List (Int × Int)) := cols.map fun c => c.1.map (overNorm e c.2)
    let fits (e : Int) : Bool := (at_ e).all fun c => c.all fun v => (sat16 v.1).2 == false && (sat16 v.2).2 == false
    let e : Int := ((((List.range 256).find? fun (i : Nat) => fits ((i : Int) - 128)).getD 255 : Nat) : Int) - 128
    (e, (List.range p.length).flatMap fun r => (at_ e).map fun col => let v := (col[r]?).getD (0, 0); BitVec.ofInt 16 v.2 ++ BitVec.ofInt 16 v.1)

/-- The elements of W_d = H_dᴴ M in the format of R146 (R331): layer i of the map, packed antenna j. -/
def WeightIn.apply (w : WeightIn) (m : Int × List (BitVec 32)) (i j : Nat) : BitVec 32 :=
  let l := w.h.length
  let v := csum (w.rows.zipIdx.map fun r =>
    let x := (r.1[j]?).getD (0, 0)
    let y := (m.2[r.2 * l + i]?).getD 0
    cmul (x.1, -x.2) ((y.extractLsb' 0 16).toInt, (y.extractLsb' 16 16).toInt))
  let c (n : Int) : BitVec 16 := BitVec.ofInt 16 (sat16 (((twoTo (w.unit + m.1 + 15)).mul (Q.ofInt n)).round)).1
  c v.2 ++ c v.1

/-- A stage of a group has been computed on this device from what was staged (R177, R331). -/
def State.chainDone (s : State) (stage : Nat) (c : Fin 8) (ul : Bool) (slot : Tick) (grp blk : Nat) (w : WeightIn) (prep : WSet) : State :=
  match s.chainGroup? c ul slot grp with
  | none => s
  | some g =>
    let l := g.map.length
    if g.blk ≠ blk then s
    else match stage with
    | 0 => (s.modGroup g fun x => { x with own := some (w.partialGram (prep.seqs.length == l)) }).chainStep c ul slot grp
    | 1 =>
      (match (g.sum s.downPort.isNone).bind fun p => solveChain (p.matrix l) w.sigma with
      | none => (s.weightDone c blk none).dropWork blk
      | some m =>
        let s := s.modGroup g fun x => { x with solved := some m }
        let s := match s.downPort with
          | some d => s.hitSlot d 6 "SOLVE" ul c slot (beBytes 2 grp ++ [BitVec.ofNat 8 l, BitVec.ofNat 8 (m.1 + 128).toNat] ++ m.2.flatMap fun (v : BitVec 32) => beBytes 4 v.toNat)
          | none => s
        s.chainJob g 2)
    | _ =>
      match g.solved with
      | none => s
      | some m =>
        let words := g.map.zipIdx.flatMap fun x => (s.antennas c).zipIdx.map fun a => (64 * x.1.1 + a.1.val, w.apply m x.2 a.2)
        (s.modGroup g fun x => { x with set := some { prep with words := words } }).chainStep c ul slot grp

/-- GRAM (R331): the partial from below. -/
def execGram (port : Fin 8) (msg : Bytes) (s : State) : R :=
  .next (s.hitTake port 5 4 msg fun m =>
    let slot := s.hitSlotOf m
    let grp := beAt m.body 0 2
    let l := byteAt m.body 2
    match s.chainGroup? m.car m.ul slot grp with
    | some g =>
      if s.mode.cur ≠ .array ∨ s.isDown port = false ∨ g.map.length ≠ l ∨ m.body.length < 4 + 6 * l * l then s
      else (s.modGroup g fun x => { x with below := some (gramOf m.body) }).chainStep m.car m.ul slot grp
    | none => s)

/-- SOLVE (R331): matrix M goes on down the chain, and the apply stage begins. -/
def execSolve (port : Fin 8) (msg : Bytes) (s : State) : R :=
  .next (s.hitTake port 6 4 msg fun m =>
    let slot := s.hitSlotOf m
    let grp := beAt m.body 0 2
    let l := byteAt m.body 2
    if !s.hitchMember || !s.isUp port || m.body.length < 4 + 4 * l * l then s
    else
      let s := match s.downPort with | some d => s.hitSlot d 6 "SOLVE" m.ul m.car slot m.body | none => s
      match s.chainGroup? m.car m.ul slot grp with
      | some g =>
        if g.map.length ≠ l ∨ g.solved.isSome then s
        else
          let words := (List.range (l * l)).map fun i => BitVec.ofNat 32 (beAt m.body (4 + 4 * i) 4)
          (s.modGroup g fun x => { x with solved := some ((byteAt m.body 3 : Int) - 128, words) }).chainJob g 2
      | none => s)

/-- READY (R331, R333): the groups that every device below holds. -/
def execReady (port : Fin 8) (msg : Bytes) (s : State) : R :=
  .next (s.hitTake port 7 35 msg fun m =>
    if s.mode.cur ≠ .array ∨ s.isDown port = false then s
    else
      let slot := s.hitSlotOf m
      let bits := ofBe (m.body.take 35)
      let mine := s.hit.groups.filter fun (g : ChainGroup) => g.carrier == m.car && g.ul == m.ul && g.slot == slot && bits.testBit g.grp
      mine.foldl (fun (s : State) (g : ChainGroup) => (s.modGroup g fun x => { x with readyBelow := true }).chainStep g.carrier g.ul g.slot g.grp) s)

/-- D0 sends a group's COMMIT down: 0 on-device, 1 previous confirmed, 2 codebook fallback (Table 11-3). -/
def State.sendCommit (s : State) (x : Claim) (code : Nat) : State :=
  let s := s.modHit fun h => { h with committed := h.committed ++ [(x.carrier, x.ul, x.slot, x.grp)] }
  match s.downPort with
  | some d => s.hitSlot d 8 "COMMIT" x.ul x.carrier x.slot (beBytes 2 x.grp ++ [BitVec.ofNat 8 code, 0])
  | none => s

/-- The code of a claim that is resolved: a promoted set or one computed for the slot, an older one, or a beam. -/
def Claim.code (x : Claim) (fresh : Bool) : Nat :=
  match x.how with
  | .served _ => if fresh then 0 else 1
  | _ => 2

/-- COMMIT_SEND (R333): D0 resolves a group no later than its deadline less the hops: on-device weights if the whole chain shows it READY, else its
fallback. -/
def execCommitSend (car : Fin 8) (ul : Bool) (slot : Tick) (grp : Nat) (s : State) : R :=
  .next (match s.chain, s.claim? car ul slot grp with
    | some (0, _), some x =>
      if s.hit.committed.contains (car, ul, slot, grp) then s
      else match x.how with
        | .waiting od d _ (some w) =>
          if d - ((s.members : Int) - 1) * 1180 < s.ym.now then
            let s := (s.abandonClaim x).modHit fun h => { h with chainFb := satInc h.chainFb }
            s.sendCommit x (((s.claim? car ul slot grp).getD x).code false)
          else ((if od then s.modWcount car fun n => { n with onDemand := satInc n.onDemand } else s).publish x w).sendCommit x 0
        | .waiting _ d _ none =>
          if s.ym.now < d - ((s.members : Int) - 1) * 1180 then s
          else
            let s := (s.abandonClaim x).modHit fun h => { h with chainFb := satInc h.chainFb }
            s.sendCommit x (((s.claim? car ul slot grp).getD x).code false)
        | .served w =>
          let fresh : Bool := (s.chainGroup? car ul slot grp).any fun g => g.readyOut && decide (w.words = (g.set.map fun v => v.words).getD [])
          s.sendCommit x (x.code fresh)
        | .beam => (s.modHit fun h => { h with chainFb := satInc h.chainFb }).sendCommit x 2
    | _, _ => s)

/-- COMMIT (R333): a member serves the group as D0 says. -/
def execCommit (port : Fin 8) (msg : Bytes) (s : State) : R :=
  .next (s.hitTake port 8 4 msg fun m =>
    if !s.hitchMember || !s.isUp port then s
    else
      let slot := s.hitSlotOf m
      let grp := beAt m.body 0 2
      let s := match s.downPort with | some d => s.hitSlot d 8 "COMMIT" m.ul m.car slot m.body | none => s
      match s.claim? m.car m.ul slot grp with
      | some x => match x.how with
        | .waiting _ _ _ _ =>
          match byteAt m.body 2, (s.chainGroup? m.car m.ul slot grp).bind (fun g => g.set), s.newest m.car m.ul grp none with
          | 0, some w, _ => (s.publish { x with cmds := [] } w).claimCmds x true
          | 1, _, some w => (s.setClaim { x with how := .served w, cmds := [] }).claimCmds x false
          | _, _, _ => (s.setClaim { x with how := .beam, cmds := [] }).claimCmds x false
        | _ => s
      | none => s)

/-- COMMIT_MISS (R333): no COMMIT by the deadline. -/
def execCommitMiss (car : Fin 8) (ul : Bool) (slot : Tick) (grp : Nat) (s : State) : R :=
  .next (match s.claim? car ul slot grp with
    | some x => match x.how with
      | .waiting _ d _ _ =>
        if s.isMember && decide (d ≤ s.ym.now) then s.missCommit x else s
      | _ => s
    | none => s)

-- Membership (R319, R334, R335)

/-- The membership as this device sees it: devices lost but not yet taken out are excluded. -/
def State.seenMembers (s : State) : BitVec 8 := match s.hit.leaving with | some l => s.hit.members &&& ~~~l.1 | none => s.hit.members

/-- KEEPALIVE_SEND (R319): on every hitch port every 100 µs. -/
def execKeepaliveSend (port : Fin 8) (s : State) : R :=
  .next (
    let early : Bool := match s.hit.aliveOut[port] with | some t => decide (s.dp < t + 98304) | none => false
    if s.fh.ports[port].st != .up || s.fh.ports[port].cfg.role != 1 || early then s
    else (s.modHit fun h => { h with aliveOut := vset h.aliveOut port (some s.dp) }).hitSend port.val 11 "KEEPALIVE" 2 0 0 s.frameNow [s.seenMembers])

/-- KEEPALIVE (R319, R334): a member takes the membership from above. -/
def execKeepalive (port : Fin 8) (msg : Bytes) (s : State) : R :=
  .next (s.hitTake port 11 1 msg fun m =>
    let map : BitVec 8 := BitVec.ofNat 8 (byteAt m.body 0)
    let s := s.modHit fun h => { h with lastAlive := vset h.lastAlive port s.dp }
    if s.isUp port then s.modHit fun h => { h with upMap := some map, members := if s.hitchMember && map.getLsbD s.dev then map else h.members }
    else s.modHit fun h => { h with belowMap := some map })

/-- A hitch port is declared FAILED, or no KEEPALIVE has come on it for 500 µs (R334). -/
def State.hitchDead (s : State) (p : Nat) : Bool :=
  match toFin 8 p with
  | some n => s.fh.ports[n].st == .failed || decide (s.hit.lastAlive[n] + 491520 ≤ s.dp)
  | none => false

/-- The device is cut off from D0 (R335). -/
def State.isCutOff (s : State) : Bool :=
  match s.upPort with
  | some p => s.hitchDead p || (match s.hit.upMap with | some m => !m.getLsbD s.dev | none => false)
  | none => false

/-- A device further down is lost: the next one by its port, its KEEPALIVE or its own word; one beyond by the word of the next. -/
def State.isLost (s : State) (d : Nat) : Bool :=
  match s.downPort with
  | some p => (d == s.dev + 1 && s.hitchDead p) || (match s.hit.belowMap with | some m => !m.getLsbD d | none => false)
  | none => false

/-- MEMBER_LOST (R334, R335): a device that is cut off mutes; D0 takes the lost device and those beyond it out at the next slot boundary. -/
def execMemberLost (d : Fin 8) (s : State) : R :=
  .next (
    if s.mode.cur ≠ .array then s
    else if d.val = s.dev then
      (if s.hit.cutOff || !s.isCutOff then s else (s.modHit fun h => { h with cutOff := true }).postArray 5 s.dev)
    else if d.val < s.dev || !s.seenMembers.getLsbD d.val || !s.isLost d.val then s
    else
      let gone := (List.range 8).filter fun i => decide (d.val ≤ i) && s.seenMembers.getLsbD i
      let mask : BitVec 8 := BitVec.ofNat 8 (gone.foldl (fun a i => a + 2 ^ i) 0)
      let old : BitVec 8 := match s.hit.leaving with | some l => l.1 | none => 0
      let s := s.modHit fun h => { h with leaving := some (old ||| mask, ceilTo 983040 (s.ym.now + 1)) }
      if s.dev = 0 then (gone.foldl (fun (s : State) i => s.postArray 4 i) s).raiseFault .memberLost { cls := 9, idx := 0x700 + d.val } else s)

/-- MEMBERSHIP_CHANGE (R334). -/
def execMembershipChange (s : State) : R :=
  .next (match s.hit.leaving with
    | some (mask, t) =>
      if s.ym.now < t then s
      else
        let s := s.modHit fun h => { h with members := h.members &&& ~~~mask, leaving := none, belowMap := none }
        let s := (List.finRange 8).foldl (fun (s : State) c =>
          let s := s.scrapCarrier c
          match s.ofdm.carriers[c].cfg with
          | some k => if k.srcMask.getLsbD 2 then s.firstUse c else s
          | none => s) s
        s.hit.groups.foldl (fun (s : State) (g : ChainGroup) => s.chainStep g.carrier g.ul g.slot g.grp) s
    | none => s)

end Sys2Proof.Machine
end

