-- ==== Sys2Proof/Machine/FamHk.lean ====
section
/-! DEFINITION. Meanings of housekeeping conversion and PA protection (R498 to R508, R519, R521). -/

namespace Sys2Proof.Machine

-- Channels and formats (R498, R500)

/-- The converter of a channel (Table 18-1). -/
def hkConvOf (ch : Nat) : Fin 2 :=
  if ch < 32 then 0 else if ch < 64 then 1 else if ch < 72 then 0 else if ch < 80 then 1 else if ch < 84 then 0 else if ch < 88 then 1
  else if ch < 96 then 0 else if ch < 104 then 1 else if ch < 108 then 0 else if ch < 112 then 1 else if ch < 144 then 0
  else if ch < 176 then 1 else if ch < 180 then 0 else 1

/-- A channel with a format that suits it, on a converter. -/
def hkSuits (i : Fin 2) (ch : Nat) (fmt : BitVec 2) : Bool :=
  decide (ch < 184) && hkConvOf ch == i && (if hkSigned ch then fmt == 2 else fmt == 0 || fmt == 1)

/-- Change a converter. -/
def State.modConv (s : State) (i : Fin 2) (f : HkConv → HkConv) : State := { s with sup := { s.sup with conv := vmod s.sup.conv i f } }

/-- The corrected code of a raw code (R499). -/
def HkConv.correct (c : HkConv) (ch : Nat) (raw : Int) : Int :=
  let n : Int := (16 * raw - c.ofs.toInt) * c.gain.toNat
  let v := rdiv n (2 ^ 18)
  if hkSigned ch then clampI (-2048) 2047 v else clampI 0 4095 v

/-- The result word of a code (R500). -/
def hkWord (fmt : BitVec 2) (code : Int) : BitVec 16 := if fmt = 1 then BitVec.ofInt 16 (16 * code) else BitVec.ofInt 16 code

-- The course of conversions (R499, R501 to R505)

/-- Sampling cycles of the timed triggers accepted for a converter and still to come. -/
def State.hkTimes (s : State) (i : Fin 2) : List Nat :=
  (s.sup.conv[i].timed.map fun (t : HkTimed) => t.samp) ++
  s.ym.events.filterMap fun e => match e.body with
    | .hkSweep j => if j = i then some (s.dpOf e.due) else none
    | .hkSpot j _ _ => if j = i then some (s.dpOf e.due) else none
    | _ => none

/-- A waiting self-calibration may start, its converter's conversion having ended (R505). -/
def State.hkCalReady (s : State) (i : Fin 2) : Bool :=
  let c := s.sup.conv[i]
  !c.calWait.isEmpty && c.cal.isNone && c.queue.isEmpty && 2 ≤ s.pwr.bootStage.toNat
  && (s.hkTimes i).all fun t => decide (s.dp + 1179648 < t)

/-- A sweep trigger takes effect (R501, R502): entry 0 samples at `at_`. False where it does not start a sweep: no list, or an overrun,
which is counted. -/
def State.hkTrigger (s : State) (i : Fin 2) (at_ : Nat) : Bool × State :=
  let c := s.sup.conv[i]
  if c.list.isEmpty then (false, s)
  else if c.run || c.cal.isSome then (false, s.modConv i fun c => { c with ovr := satInc c.ovr })
  else (true, s.modConv i fun c => { c with run := true, pos := 0, nextAt := at_, powered := true, upAt := if c.powered then c.upAt else at_ })

/-- Begin a conversion. -/
def State.hkBegin (s : State) (i : Fin 2) (ch : Nat) (fmt : BitVec 2) (samp : Nat) (sweep : Bool) (cmd : Option CmdRef) : State :=
  s.modConv i fun c => { c with op := some { ch := ch, fmt := fmt, samp := samp, fin := samp + 123, sweep := sweep, cmd := cmd }, powered := true }

/-- A timed sweep trigger whose due time has come takes effect (R502): where it starts no sweep, the command completes with NOT_READY. -/
def State.hkTimedSweep (s : State) (i : Fin 2) : State :=
  match s.sup.conv[i].timed.find? fun t => decide (t.samp ≤ s.dp) && t.spot.isNone with
  | some t =>
    let g := (s.modConv i fun c => { c with timed := c.timed.erase t }).hkTrigger i t.samp
    g.2.complete t.cmd (if g.1 then .ok else .notReady)
  | none => s

/-- Start what may start now: a timed spot trigger at its instant, else a queued spot conversion, else the next entry of the sweep; none
that would still run at the instant of a timed conversion (R503, R504): a timed sweep trigger has one where no sweep is running. A
power-down costs a start-up of 394 ticks (R499). -/
def State.hkGo (s : State) (i : Fin 2) : State :=
  let s := s.hkTimedSweep i
  let c := s.sup.conv[i]
  if c.op.isSome || c.cal.isSome then s
  else
    let r : State := match c.timed.find? fun t => decide (t.samp ≤ s.dp) with
      | some t => (match t.spot with
        | some (ch, fmt) => (s.modConv i fun c => { c with timed := c.timed.erase t }).hkBegin i ch fmt t.samp false (some t.cmd)
        | none => s)
      | none => s
    let c := r.sup.conv[i]
    let clear (a : Nat) : Bool := c.timed.all fun t => (t.spot.isNone && c.run) || decide (a + 123 ≤ t.samp)
    if c.op.isSome then r
    else match c.queue with
      | q :: rest =>
        let a := if c.powered then max r.dp c.upAt else r.dp + 394
        if clear a then (r.modConv i fun c => { c with queue := rest }).hkBegin i q.ch q.fmt a false q.cmd else r
      | [] =>
        if c.run && c.stop.isEmpty && decide (c.nextAt ≤ r.dp ∧ c.upAt ≤ r.dp) && clear r.dp && !r.hkCalReady i then
          match c.list[c.pos]? with
          | some e => r.hkBegin i e.1 e.2 r.dp true none
          | none => r
        else r

/-- The record of a conversion (R500). -/
def State.hkRecord (s : State) (ch : Fin 184) (fmt : BitVec 2) (code : Int) (samp : Nat) : State :=
  let at_ : BitVec 64 := if s.counting then airWord (s.airOf samp) else 0
  { s with sup := { s.sup with chan := vmod s.sup.chan ch fun h =>
      { h with value := hkWord fmt code, code := BitVec.ofInt 16 code, valid := true, at_ := at_, tick := samp } } }

/-- HK_CONVERSION_END (R499 to R503, R507): the result is recorded and compared; `raw` is the converter's raw code. -/
def execHkConversionEnd (conv : Fin 2) (raw : Int) (s : State) : R :=
  .next (match s.sup.conv[conv].op with
    | none => s
    | some o =>
      if s.dp < o.fin then s
      else match toFin 184 o.ch with
        | none => s
        | some ch =>
          let code := s.sup.conv[conv].correct o.ch raw
          let s := (s.hkRecord ch o.fmt code o.samp).hkCompare ch
          let s := match o.cmd with | some r => s.complete r .ok ((hkWord o.fmt code).setWidth 32) | none => s
          let s := s.modConv conv fun c => { c with op := none, idleAt := o.fin, pos := if o.sweep then c.pos + 1 else c.pos, nextAt := if o.sweep then s.dp else c.nextAt }
          let stops := s.sup.conv[conv].stop
          let s := if stops.isEmpty then s
            else stops.foldl (fun (s : State) r => s.complete r .ok) (s.modConv conv fun c => { c with run := false, pos := 0, stop := [] })
          s.hkGo conv)

/-- HK_SWEEP_END (R501): a list in ONCE stops, a list in LOOP begins again. -/
def execHkSweepEnd (conv : Fin 2) (s : State) : R :=
  .next (
    let c := s.sup.conv[conv]
    if c.run && c.op.isNone && c.cal.isNone && decide (c.list.length ≤ c.pos) then
      (s.modConv conv fun c => if c.loop then { c with pos := 0 } else { c with run := false, pos := 0 }).hkGo conv
    else s)

/-- HK_TRIG_PIN (R502): the synchronised edge of a trigger pin at the converters that have it enabled; entry 0 samples at most 394 ticks
later, and after the start-up where the converter is powered down. -/
def execHkTrigPin (pin : Bool) (s : State) : R :=
  .next ([(0 : Fin 2), 1].foldl (fun (s : State) i =>
    let c := s.sup.conv[i]
    if (if pin then c.pin1 else c.pin0) then
      let f : BitVec 16 × State := if c.powered then s.takeFree 16 else (0, s)
      (f.2.hkTrigger i (s.dp + (if c.powered then f.1.toNat % 395 else 394))).2
    else s) s)

/-- HK_POWER_DOWN (R499): idle for more than 394 ticks. -/
def execHkPowerDown (conv : Fin 2) (s : State) : R :=
  .next (
    let c := s.sup.conv[conv]
    if c.powered && c.op.isNone && !c.run && c.queue.isEmpty && c.cal.isNone && decide (c.idleAt + 394 < s.dp) then
      s.modConv conv fun c => { c with powered := false }
    else s)

/-- HK_CAL_START (R505): the first waiting calibration of a converter. -/
def execHkCalStart (conv : Fin 2) (s : State) : R :=
  .next (
    let c := s.sup.conv[conv]
    match c.calWait with
    | w :: rest =>
      if c.op.isNone && s.hkCalReady conv then
        s.modConv conv fun c => { c with cal := some (w, s.dp + 1179648), calWait := rest, powered := true, pos := if c.loop then 0 else c.pos }
      else s
    | [] => s)

/-- HK_CAL_END (R499, R505): GAIN and OFS; the command completes with its last converter. -/
def execHkCalEnd (conv : Fin 2) (gain ofs : BitVec 16) (s : State) : R :=
  .next (match s.sup.conv[conv].cal with
    | none => s
    | some (w, fin) =>
      if s.dp < fin then s
      else
        let s := s.modConv conv fun c => { c with cal := none, gain := gain, ofs := ofs, idleAt := s.dp, nextAt := s.dp }
        let s := match w with
          | some r =>
            let left := s.sup.conv.toList.any fun c => c.calWait.contains (some r) || (match c.cal with | some x => x.1 == some r | none => false)
            if left then s else s.complete r .ok
          | none => s
        s.hkGo conv)

-- Commands (R517)

/-- A scan-list entry of 4 bytes. -/
def seqEntry (b : Bytes) (i : Nat) : Nat := ofLe ((b.drop (4 * i)).take 4)

/-- HK_SEQ_SET (R501, R517). -/
def execHkSeqSet (c : Cmd) (s : State) : R :=
  .next (s.hostCmd c 0x80 anyOp fun x =>
    let i : Fin 2 := (pf x.payload 0 0 1).toFin
    let w := s.within 1 64 (pf x.payload 1 0 7).toNat
    let n := w.1
    let s := w.2
    if (pf x.payload 8 0 64).extractLsb' 0 6 != 0 then s.complete c.ref .badArg
    else if s.sup.conv[i].run then s.complete c.ref .modeConflict
    else match c.data with
      | none => s.complete c.ref .busErr
      | some b =>
        let es := (List.range n).map fun j => seqEntry b j
        if es.any fun e => decide (1024 ≤ e) || !hkSuits i (e % 256) (BitVec.ofNat 2 (e / 256)) then s.complete c.ref .badArg
        else (s.modConv i fun k => { k with
            list := es.map fun e => (e % 256, BitVec.ofNat 2 (e / 256)), pos := 0
            loop := pb x.payload 2 0, pin0 := pb x.payload 2 1, pin1 := pb x.payload 2 2 }).finish c.ref .ok)

/-- HK_CMP_SET (R507, R517). -/
def execHkCmpSet (c : Cmd) (s : State) : R :=
  .next (s.hostCmd c 0x81 anyOp fun x =>
    let n := (pf x.payload 0 0 8).toNat
    let en := pb x.payload 1 7
    let mute := pb x.payload 1 6
    let p := pf x.payload 1 0 4
    let lo := pf x.payload 2 0 16
    let hi := pf x.payload 4 0 16
    let own : Bool := n < 64 || (112 ≤ n && n < 176)
    let above : Bool := if hkSigned n then hi.toInt < lo.toInt else hi.toNat < lo.toNat
    match toFin 184 n with
    | none => s.complete c.ref .badArg
    | some ch =>
      if above || (en && p == 0) || (mute && !own && pf x.payload 6 0 8 == 0) then s.complete c.ref .badArg
      else if s.sup.chan[ch].tripped then s.complete c.ref .modeConflict
      else
        { s with sup := { s.sup with chan := vmod s.sup.chan ch fun h =>
            { h with en := en, mute := mute, event := pb x.payload 1 5, persist := p, lo := lo, hi := hi, paddocks := pf x.payload 6 0 8, count := 0 } } }.finish c.ref .ok)

/-- The resource of a converter (Table 2-5). -/
def hkRes (i : Fin 2) : Res := { cls := 6, idx := i.val }

/-- HK_TRIGGER_SWEEP (R501, R502): an untimed one takes effect at acceptance and completes; a timed one is accepted whatever the state
of the list. -/
def execHkTriggerSweep (c : Cmd) (s : State) : R :=
  .next (s.hostCmd c 0x82 (opIs 0 2 2 1) fun x =>
    let i : Fin 2 := (pf x.payload 0 0 1).toFin
    if x.atBad then s.complete c.ref .badArg
    else if x.timed then
      s.presentCmd c.ref x.tag none [{ kind := .hkTrigger, due := s.eventDue x .hkTrigger, res := hkRes i, body := .hkSweep i }]
    else
      let g := s.hkTrigger i (s.dp + (if s.sup.conv[i].powered then 123 else 394))
      if g.1 then g.2.finish c.ref .ok else g.2.complete c.ref .notReady)

/-- An unreserved place of a converter's spot queue is free (R503): seven of the eight are open to commands. -/
def HkConv.hasPlace (k : HkConv) : Bool := decide ((k.queue.filter fun (q : SpotReq) => q.cmd.isSome).length < 7 ∧ k.queue.length < 8)

/-- HK_TRIGGER_SPOT (R503). -/
def execHkTriggerSpot (c : Cmd) (s : State) : R :=
  .next (s.hostCmd c 0x82 (opIs 0 2 2 2) fun x =>
    let i : Fin 2 := (pf x.payload 0 0 1).toFin
    let ch := (pf x.payload 1 0 8).toNat
    let fmt := pf x.payload 2 0 2
    if x.atBad || !hkSuits i ch fmt then s.complete c.ref .badArg
    else if x.timed then
      s.presentCmd c.ref x.tag none [{ kind := .hkTrigger, due := s.eventDue x .hkTrigger, res := hkRes i, body := .hkSpot i ch fmt }]
    else if !s.sup.conv[i].hasPlace then s.complete c.ref .notReady
    else ((s.modConv i fun k => { k with queue := k.queue ++ [{ ch := ch, fmt := fmt, cmd := some c.ref }] }).setStage c.ref .running).hkGo i)

/-- HK_TRIGGER_STOP (R501, R517): after the conversion in progress. -/
def execHkTriggerStop (c : Cmd) (s : State) : R :=
  .next (s.hostCmd c 0x82 (opIs 0 2 2 3) fun x =>
    let i : Fin 2 := (pf x.payload 0 0 1).toFin
    let k := s.sup.conv[i]
    if k.run && k.op.isSome then (s.modConv i fun k => { k with stop := k.stop ++ [c.ref] }).setStage c.ref .running
    else (s.modConv i fun k => { k with run := false, pos := 0 }).finish c.ref .ok)

/-- A timed trigger is dropped where its conversion overlaps that of one accepted earlier, or lies inside a calibration (R504, R505). -/
def State.hkCheck (s : State) (e : Event) : Option (Cause × Res) :=
  let i? : Option (Fin 2) := match e.body with | .hkSweep i => some i | .hkSpot i _ _ => some i | _ => none
  match i? with
  | none => none
  | some i =>
    let a := s.dpOf e.due
    let near (b : Nat) : Bool := decide (a < b + 123 ∧ b < a + 123)
    let busy : Bool := (s.sup.conv[i].timed.any fun t => near t.samp)
      || (s.ym.events.any fun x => decide (x.id < e.id) && near (s.dpOf x.due) &&
          (match x.body with | .hkSweep j => j == i | .hkSpot j _ _ => j == i | _ => false))
      || (match s.sup.conv[i].cal with | some x => decide (a < x.2) | none => false)
    if busy then some (.resourceBusy, e.res) else none

/-- HK_TRIGGER_RELEASE (R502, R504). -/
def execHkTriggerRelease (ev : Nat) (s : State) : R :=
  .next (s.release ev .hkTrigger State.hkCheck fun s e =>
    match e.src with
    | .cmd r _ => (match e.body with
      | .hkSweep i => s.modConv i fun k => { k with timed := k.timed ++ [{ samp := s.dpOf e.due, spot := none, cmd := r }] }
      | .hkSpot i ch fmt => s.modConv i fun k => { k with timed := k.timed ++ [{ samp := s.dpOf e.due, spot := some (ch, fmt), cmd := r }] }
      | _ => s)
    | _ => s)

/-- HK_CAL (R505, R506). -/
def execHkCal (c : Cmd) (s : State) : R :=
  .next (s.hostCmd c 0x83 anyOp fun x =>
    let is := (setBits (pf x.payload 0 0 2))
    let watched : Bool := (List.finRange 184).any fun ch => is.contains (hkConvOf ch.val) && s.sup.chan[ch].en && s.sup.chan[ch].mute
    if is.isEmpty then s.complete c.ref .badArg
    else if s.pwr.st = .active ∧ s.mode.cur ≠ .calibrate ∧ watched = true then s.complete c.ref .modeConflict
    else (is.foldl (fun (s : State) i => s.modConv i fun k => { k with calWait := k.calWait ++ [some c.ref] }) s).setStage c.ref .running)

/-- An HK_READ record (R519); the result of a channel never converted is undefined. -/
def State.hkReadRecord (s : State) (ch : Fin 184) : Bytes × State :=
  let h := s.sup.chan[ch]
  s.record 16 ((if h.valid then [.v 16 h.value.toNat, .v 16 h.code.toNat] else [.u 32]) ++
    [.v 4 h.count.toNat, .u 1, .v 1 (b2n h.en), .v 1 (b2n h.tripped), .v 1 (b2n h.valid), .u 24] ++ (if h.valid then airFlds h.at_ else [.u 64]))

/-- HK_READ (R519). -/
def execHkRead (c : Cmd) (s : State) : R :=
  .next (s.hostCmd c 0x84 anyOp fun x =>
    let first := (pf x.payload 20 0 8).toNat
    let w := s.within 1 184 (pf x.payload 21 0 8).toNat
    let n := w.1
    let s := w.2
    if x.select != 0 || decide (184 < first + n) then s.complete c.ref .badArg
    else
      let chs := (List.finRange 184).filter fun ch => decide (first ≤ ch.val ∧ ch.val < first + n)
      let r := chs.foldl (fun (a : Bytes × State) ch => let b := a.2.hkReadRecord ch; (a.1 ++ b.1, b.2)) ([], s)
      r.2.respond c x r.1)

/-- HK_OVERRUN_READ (R521). -/
def execHkOverrunRead (c : Cmd) (s : State) : R := .next (s.readNamed c 0x2404)

/-- SUP_CLEAR_TRIPS (R512, R517): each named trip is judged on its own; one stays where the latest result lies outside the window. -/
def execSupClearTrips (c : Cmd) (s : State) : R :=
  .next (s.hostCmd c 0x86 (opIs 0 0 8 1) fun x =>
    let m := pf x.payload 8 0 184
    let named := (setBits m).filter fun ch => s.sup.chan[ch].tripped
    if m = 0 then s.complete c.ref .badArg
    else
      let s' := named.foldl (fun (s : State) ch =>
        if s.sup.chan[ch].inside ch.val then
          { s with sup := { s.sup with chan := vmod s.sup.chan ch fun h => { h with tripped := false } } }.postSup 3 ch.val 0
        else s) s
      if named.any fun ch => s'.sup.chan[ch].tripped then s'.complete c.ref .notReady else s'.finish c.ref .ok)

end Sys2Proof.Machine
end

