-- ==== Sys2Proof/Machine/Sec.lean ====
section
/-! DEFINITION. Images and their verification (R547 to R555). -/

namespace Sys2Proof.Machine

/-- A little-endian header field of `n` bytes (Table 20-1). -/
def hdr (b : Bytes) (off n : Nat) : Nat := ofLe ((b.drop off).take n)

/-- ASCII bytes of the context strings of R549 and R560. -/
def ctxImg : Bytes := [0x59, 0x5A, 0x2D, 0x49, 0x4D, 0x47]
def ctxAtt : Bytes := [0x59, 0x5A, 0x2D, 0x41, 0x54, 0x54]

/-- The measurement of an image (R549). -/
def measure (b : Bytes) : Bytes := Config.sha3 (b.take 2080)

/-- Largest PAYLOAD_LEN of a TYPE (Table 20-1). -/
def payloadMax (t : Nat) : Nat := match t with | 1 => 1043136 | 2 => 518848 | _ => 16384

/-- All bytes of a range are 0. -/
def zeros (b : Bytes) (off n : Nat) : Bool := ((b.drop off).take n).all fun x => x == 0

/-- Check 1 of Table 20-2: `len` bytes were supplied for an image of TYPE `t`. -/
def formatBad (b : Bytes) (t len : Nat) : Bool :=
  let n := hdr b 12 4
  hdr b 0 4 != 0x594E5031 || hdr b 4 1 != 1 || hdr b 5 1 != t || hdr b 6 1 / 4 != 0 || hdr b 7 1 != 0 || hdr b 17 1 != 0
  || !zeros b 80 48 || !zeros b 5389 51 || n % 4 != 0 || n > payloadMax t || len != 5440 + n || (t == 3 && hdr b 24 2 == 0)

/-- Verification in the order of Table 20-2: the cause of the first check that fails; `store` is check 8's condition. -/
def State.verify (s : State) (b : Bytes) (t len : Nat) (store : Bool) : Option Nat :=
  let key := hdr b 6 1 % 4
  let pub := (b.drop 128).take 1952
  if formatBad b t len then some 1
  else if hdr b 18 2 != 0x6464 || !(hdr b 16 1 == 0xA1 || hdr b 16 1 == 0) then some 2
  else if Config.sha3 pub != Config.romDigest key then some 3
  else if key < s.tack.svn[(3 : Fin 4)].toNat then some 4
  else if Config.sha3 (b.drop 5440) != (b.drop 32).take 48 then some 5
  else if !Config.mldsaVerify pub (measure b) ctxImg ((b.drop 2080).take 3309) then some 6
  else if hdr b 8 4 < (match t with | 1 => s.tack.svn[(0 : Fin 4)] | 2 => s.tack.svn[(1 : Fin 4)] | _ => s.tack.svn[(2 : Fin 4)]).toNat then some 7
  else if store then some 8
  else none

/-- A failed verification is kept in SEC_BOOT_STATUS (Table 20-6). -/
def State.verifyFail (s : State) (t cause : Nat) : State :=
  { s with sec := { s.sec with lastType := BitVec.ofNat 4 t, lastCause := BitVec.ofNat 4 cause, fails := satInc s.sec.fails } }

/-- Verify a stored slot (Table 20-3); a slot that holds no image fails check 1. -/
def State.verifySlot (s : State) (slot : Fin 6) (t : Nat) : Option Nat :=
  match s.tack.images[slot] with
  | none => some 1
  | some i => s.verify i.bytes t i.bytes.length (s.sec.slotBad.getLsbD slot.val)

/-- Verify one pair: PREFERRED first; if it fails, FALLBACK_SLOT is posted and the other is tried (R553): the slot that passed. -/
def State.bootPair (s : State) (t : Nat) (a b : Fin 6) (prefB : Bool) : Option (Fin 6) × State :=
  let x := if prefB then b else a
  let y := if prefB then a else b
  match s.verifySlot x t with
  | none => (some x, s)
  | some c =>
    let s := (s.verifyFail t c).postSec 2 t 0 y.val
    match s.verifySlot y t with
    | none => (some y, s)
    | some c => (none, s.verifyFail t c)

/-- The measurement of a slot's image. -/
def State.slotMeasure (s : State) (i : Fin 6) : Bytes := match s.tack.images[i] with | some x => measure x.bytes | none => List.replicate 48 0

/-- Put a kernel into user slot 1 or 2 of all cores (R490, R492). -/
def State.setKernel (s : State) (two : Bool) (k : Kernel) (m : Bytes) : State :=
  if two then { s with sol := { s.sol with k2 := k }, sec := { s.sec with mK2 := m } }
  else { s with sol := { s.sol with k1 := k }, sec := { s.sec with mK1 := m } }

/-- The kernel of an image (Table 20-1). -/
def imageKernel (b : Bytes) : Kernel :=
  let c (i : Nat) : BitVec 16 := BitVec.ofNat 16 (hdr b (24 + 2 * i) 2)
  { loaded := true, withdrawn := false, entry := BitVec.ofNat 12 (hdr b 20 4)
    code := (List.range (hdr b 12 4 / 4)).map fun i => BitVec.ofNat 32 (hdr b (5440 + 4 * i) 4), c0 := c 0, c1 := c 1, c2 := c 2, c3 := c 3 }

/-- Reload and verify one stored kernel (R553 order 3, R555): one that fails leaves its slot empty. -/
def State.bootKernel (s : State) (two : Bool) : State :=
  let i : Fin 6 := if two then 5 else 4
  let empty (s : State) : State := s.setKernel two Kernel.empty (List.replicate 48 0)
  match s.tack.images[i] with
  | none => empty s
  | some x =>
    match s.verifySlot i 3 with
    | none => s.setKernel two (imageKernel x.bytes) (measure x.bytes)
    | some c => ((empty s).verifyFail 3 c).postSec 1 3 c i.val

/-- Carriers that select an empty slot take slot 0 (R555). -/
def State.kernelFallback (s : State) : State :=
  (List.finRange 8).foldl (fun (s : State) c => s.modCarrier c fun x =>
    if (x.kernel = 1 ∧ ¬ s.sol.k1.loaded) ∨ (x.kernel = 2 ∧ ¬ s.sol.k2.loaded) then { x with kernel := 0 } else x) s

/-- A command of these opcodes other than `c` is under way. -/
def State.busyOps (s : State) (c : CmdRef) (ops : List (BitVec 8)) : Bool :=
  (List.finRange 16).any fun n => s.host.rings[n].slots.any fun x =>
    ops.contains x.opcode && (match x.stage with | .running | .finishing _ _ => true | _ => false) && !(n == c.ring && x.seq == c.seq)

/-- Sectors of an image slot: the first, counted in logical sectors (Tables 9-8, 20-3). -/
def imageSector (slot : Nat) : Nat := 521 + (match slot with | 0 => 0 | 1 => 256 | 2 => 512 | 3 => 640 | 4 => 768 | _ => 896)

/-- Write an image into its slot, sector by sector; its content takes force with the last write. -/
def State.putImage (s : State) (slot : Nat) (b : Bytes) (cmd : Option CmdRef := none) : State :=
  let n := (b.length + 4095) / 4096
  let s := (List.range (n - 1)).foldl (fun (s : State) k => s.tackPut (imageSector slot + k) .directory) s
  s.tackPut (imageSector slot + (n - 1)) (.image slot b) cmd

/-- The bytes of a ledger record (Table 19-6). -/
def LedgerRec.bytes (r : LedgerRec) : Bytes :=
  leBytes 1 r.kind.toNat ++ leBytes 1 r.cause.toNat ++ leBytes 2 (r.res.cls * 4096 + r.res.idx) ++ leBytes 8 r.detail.toNat ++ leBytes 4 r.boots.toNat

end Sys2Proof.Machine
end

