-- ==== Sys2Proof/Machine/FamSec.lean ====
section
/-! DEFINITION. Meanings of secure boot, identity and attestation (chapter 20). -/

namespace Sys2Proof.Machine

/-- BOOT_IMAGE_VERIFY (R553, R554, R569): at BOOT_STAGE 3, and again in RECOVERY after an image has been loaded. -/
def execBootImageVerify (s : State) : R :=
  let stored : Bool := !(s.tack.queue.any fun w => match w.rec_ with | .image _ _ | .preferred _ _ => true | _ => false)
  let due : Bool := s.pwr.bootStage == 3 || (s.sec.recovery && s.sec.rerun && stored)
  .next (
    if s.pkg.testMode || !due then s
    else
      let s := { s with sec := { s.sec with rerun := false } }
      let f := s.bootPair 1 0 1 s.tack.fwPrefB
      match f.1 with
      | none => { f.2 with sec := { f.2.sec with recovery := true }, pwr := { f.2.pwr with bootStage := 4 } }
      | some i =>
        let s := { f.2 with sec := { f.2.sec with fwB := i == 1, mFw := f.2.slotMeasure i } }
        let g := s.bootPair 2 2 3 s.tack.farPrefB
        match g.1 with
        | none => { g.2 with sec := { g.2.sec with recovery := true }, pwr := { g.2.pwr with bootStage := 4 } }
        | some j =>
          let s := { g.2 with sec := { g.2.sec with farB := j == 3, mFar := g.2.slotMeasure j, recovery := false } }
          let s := (s.bootKernel false).bootKernel true
          { s with pwr := { s.pwr with bootStage := 5 } })

/-- The slot of its pair that an image load writes: the one not booted from; in RECOVERY, where a pair has none, the one that is
not PREFERRED. -/
def State.loadSlot (s : State) (t : Nat) : Nat :=
  let none_ (m : Bytes) : Bool := s.sec.recovery && m == List.replicate 48 0
  if t = 1 then (if (if none_ s.sec.mFw then s.tack.fwPrefB else s.sec.fwB) then 0 else 1)
  else (if (if none_ s.sec.mFar then s.tack.farPrefB else s.sec.farB) then 2 else 3)

/-- SEC_IMAGE_LOAD (R550 to R552, R554). -/
def execSecImageLoad (c : Cmd) (s : State) : R :=
  .next (s.hostCmd c 0x98 anyOp fun x =>
    let t := (pf x.payload 0 0 2).toNat
    if !(t == 1 || t == 2) || (pf x.payload 8 0 64).extractLsb' 0 6 != 0 then s.complete c.ref .badArg
    else if s.busyOps c.ref [0x98, 0x99] then s.complete c.ref .modeConflict
    else match c.data with
      | none => s.complete c.ref .busErr
      | some b =>
        match s.verify b t (pf x.payload 16 0 32).toNat s.tack.readOnly with
        | some cause => (s.verifyFail t cause).complete c.ref .authFail
        | none =>
          let slot := s.loadSlot t
          let pref : TackRec := .preferred (t == 1) (slot % 2 == 1)
          let s := (((s.putImage slot b).tackPut 3 pref).tackPut 4 pref (some c.ref)).finish c.ref .ok
          { s with sec := { s.sec with rerun := s.sec.recovery, slotBad := s.sec.slotBad &&& ~~~((1 : BitVec 6) <<< slot) } })

/-- SVN and KEY_ID of a stored image. -/
def Image.svn (i : Image) : Nat := hdr i.bytes 8 4
def Image.key (i : Image) : Nat := hdr i.bytes 6 1 % 4

/-- SEC_ROLLBACK_COMMIT (R556, R557). -/
def execSecRollbackCommit (c : Cmd) (s : State) : R :=
  .next (s.hostCmd c 0x99 anyOp fun x =>
    let i : Fin 4 := (pf x.payload 0 0 2).toFin
    let v := pf x.payload 4 0 32
    let slots : List (Fin 6) := match i.val with | 0 => [0, 1] | 1 => [2, 3] | 2 => [4, 5] | _ => [0, 1, 2, 3, 4, 5]
    let low : Bool := slots.any fun k => match s.tack.images[k] with
      | some y => (if i = 3 then y.key else y.svn) < v.toNat
      | none => false
    if v < s.tack.svn[i] ∨ (i = 3 ∧ 3 < v.toNat) then s.complete c.ref .badArg
    else if low || s.busyOps c.ref [0x98, 0x78] then s.complete c.ref .modeConflict
    else if v = s.tack.svn[i] then s.finish c.ref .ok
    else ((s.tackPut 3 (.rollback i.val v)).tackPut 4 (.rollback i.val v) (some c.ref)).finish c.ref .ok)

/-- Write data to host memory for a command that carries RESP_ADDR, and finish it with the number of bytes (R425). -/
def State.deliver (s : State) (c : Cmd) (addr : BitVec 64) (b : Bytes) : State :=
  if c.respErr then (s.emit (.hostUndefined addr b.length)).finish c.ref .busErr
  else (s.emit (.hostWrite addr b)).finish c.ref .ok (BitVec.ofNat 32 b.length)

/-- Take a free byte string. -/
def State.takeBytes (s : State) (n : Nat) : Bytes × State := (Config.freeBytes n s.free, { s with free := s.free + 1 })

/-- SEC_PROVISION (R558): `healthy` is the outcome of the entropy source's health tests. -/
def execSecProvision (c : Cmd) (healthy : Bool) (s : State) : R :=
  .next (s.hostCmd c 0x9C anyOp fun x =>
    let addr := pf x.payload 8 0 64
    if addr.extractLsb' 0 3 ≠ 0 then s.complete c.ref .badArg
    else if s.tack.pub.isSome || (s.tack.queue.any fun w => match w.rec_ with | .identity _ _ => true | _ => false)
        || !(s.mode.cur == .bringup || s.mode.cur == .calibrate) then s.complete c.ref .modeConflict
    else if !healthy then s.complete c.ref .hwFault
    else
      let seed := s.takeBytes 32
      let k := Config.keyGen seed.1
      (seed.2.tackPut 5 (.identity k.1 k.2) (some c.ref)).deliver c addr k.1)

/-- SEC_CERT_STORE (R559). -/
def execSecCertStore (c : Cmd) (s : State) : R :=
  .next (s.hostCmd c 0x9D anyOp fun x =>
    let n := (pf x.payload 16 0 32).toNat
    if n = 0 ∨ 8192 < n then s.complete c.ref .badArg
    else if s.tack.pub.isNone || s.tack.cert.isSome || (s.tack.queue.any fun w => match w.rec_ with | .cert _ => true | _ => false) then
      s.complete c.ref .modeConflict
    else match c.data with
      | none => s.complete c.ref .busErr
      | some b => (s.tackPut 7 (.cert b) (some c.ref)).finish c.ref .ok)

/-- SEC_ID_READ (R559): the public key, LEN and the certificate. -/
def execSecIdRead (c : Cmd) (s : State) : R :=
  .next (s.hostCmd c 0x9B anyOp fun x =>
    match s.tack.pub with
    | none => s.complete c.ref .notReady
    | some k => let cert := s.tack.cert.getD []; s.deliver c (pf x.payload 8 0 64) (k.1 ++ leBytes 4 cert.length ++ cert))

/-- Bytes of a string as record fields. -/
def byteFlds (b : Bytes) : List Fld := b.map fun x => Fld.v 8 x.toNat

/-- Bytes 0 to 415 of the attestation report (Table 20-5). -/
def State.report (s : State) (nonce pub : Bytes) : Bytes × State :=
  s.record 416 ([.v 8 1, .v 1 (b2n s.sec.fwB), .v 1 (b2n s.sec.farB), .u 6, .v 16 0x6464, .v 8 0xA1, .u 24, .v 32 s.tack.boots.toNat,
      .v 32 s.sec.cfgCount.toNat] ++ airFlds s.atNow ++ byteFlds (nonce ++ s.sec.mFw ++ s.sec.mFar ++ s.sec.mK1 ++ s.sec.mK2 ++ s.sec.cfgDigest ++
      Config.sha3 (s.tack.ledger.flatMap LedgerRec.bytes)) ++ [.v 16 s.tack.ledger.length, .u 16] ++
      (s.tack.svn.toList.map fun v => Fld.v 32 v.toNat) ++ byteFlds (Config.sha3 pub) ++ [.u 32])

/-- SEC_ATTEST (R547, R560): the report with its signature. RESP_ADDR must be aligned, which no check covers: what an address that is not
does is undefined (R2), BAD_ARG or a report at it. -/
def execSecAttest (c : Cmd) (s : State) : R :=
  .next (s.hostCmd c 0x9A anyOp fun x =>
    let addr := pf x.payload 32 0 64
    let f : BitVec 1 × State := if addr.extractLsb' 0 3 = 0 then (0, s) else s.takeFree 1
    let s := f.2
    if f.1 = 1 then s.complete c.ref .badArg
    else match s.tack.pub with
      | none => s.complete c.ref .notReady
      | some k =>
        let r := s.report (leBytes 32 (pf x.payload 0 0 256).toNat) k.1
        let rnd := r.2.takeBytes 32
        rnd.2.deliver c addr (r.1 ++ Config.mldsaSign k.2 (Config.sha3 r.1) ctxAtt rnd.1))

/-- SEC_BOOT_STATUS_READ (R15, R562). -/
def execSecBootStatusRead (c : Cmd) (s : State) : R := .next (s.readNamed c 0x3400)

end Sys2Proof.Machine
end

