-- ==== Sys2Proof/Machine/Solver.lean ====
section
/-! DEFINITION. Solver cores (chapter 17): registers, data memory, addressing, saturation, faults, and how an instruction runs. -/

namespace Sys2Proof.Machine

-- Registers and data memory (R476, R477)

/-- Change a core. -/
def State.modCore (s : State) (c : Fin 9) (f : SolCore → SolCore) : State := { s with sol := { s.sol with cores := vmod s.sol.cores c f } }

/-- The bank of a context. -/
def SolCore.bank (m : SolCore) (bg : Bool) : Bank := if bg then m.bg else m.fg

/-- Replace the bank of a context. -/
def SolCore.setBank (m : SolCore) (bg : Bool) (b : Bank) : SolCore := if bg then { m with bg := b } else { m with fg := b }

/-- A scalar register; S0 reads 0. -/
def Bank.rs (b : Bank) (i : Fin 16) : BitVec 32 := if i = 0 then 0 else b.s[i]

/-- Write a scalar register; S0 ignores writes. -/
def Bank.ws (b : Bank) (i : Fin 16) (v : BitVec 32) : Bank := if i = 0 then b else { b with s := vset b.s i v }

/-- Write an address register. -/
def Bank.wx (b : Bank) (i : Fin 16) (v : BitVec 18) : Bank := { b with x := vset b.x i v }

/-- A word of data memory. -/
def State.solWord (s : State) (c : Fin 9) (i : Nat) : BitVec 32 :=
  let m := s.sol.cores[c]
  match cellGet i m.data with
  | some v => v
  | none =>
    if m.zeroAt i then 0
    else if i < 32768 then Config.solRam c.val false m.genF i else Config.solRam c.val true m.genB i

/-- Write a word of data memory. -/
def State.solPut (s : State) (c : Fin 9) (i : Nat) (v : BitVec 32) : State := s.modCore c fun m => m.put i v

/-- The 32 bits at a byte address, little-endian. -/
def State.solLoad (s : State) (c : Fin 9) (a : Nat) : BitVec 32 :=
  let k := a % 4
  if k = 0 then s.solWord c (a / 4)
  else (s.solWord c (a / 4) >>> (8 * k)) ||| (s.solWord c (a / 4 + 1) <<< (32 - 8 * k))

/-- Write 32 bits at a byte address. -/
def State.solStore (s : State) (c : Fin 9) (a : Nat) (v : BitVec 32) : State :=
  let k := a % 4
  if k = 0 then s.solPut c (a / 4) v
  else
    let lo := s.solWord c (a / 4)
    let hi := s.solWord c (a / 4 + 1)
    let m : BitVec 32 := BitVec.allOnes 32 <<< (8 * k)
    (s.solPut c (a / 4) ((lo &&& ~~~m) ||| (v <<< (8 * k)))).solPut c (a / 4 + 1) ((hi &&& m) ||| (v >>> (32 - 8 * k)))

/-- Whether `n` bytes at an address lie in the region of a context (R477). -/
def inRegion (bg : Bool) (a n : Nat) : Bool := if bg then 0x20000 ≤ a && a + n ≤ 0x40000 else a + n ≤ 0x20000

/-- A vector at a byte address. -/
def State.solVec (s : State) (c : Fin 9) (a : Nat) : Vector (BitVec 32) 32 := Vector.ofFn fun j => s.solLoad c (a + 4 * j.val)

/-- Store the lanes of a vector that a mask enables. -/
def State.solVecPut (s : State) (c : Fin 9) (a : Nat) (v : Vector (BitVec 32) 32) (mask : BitVec 32) : State :=
  (List.finRange 32).foldl (fun (s : State) j => if mask.getLsbD j.val then s.solStore c (a + 4 * j.val) v[j] else s) s

/-- Write a vector register. -/
def State.wv (s : State) (c : Fin 9) (i : Fin 32) (v : Vector (BitVec 32) 32) : State := s.modCore c fun m => { m with v := vset m.v i v }

-- Addressing (R479)

/-- The smallest exponent whose power of two reaches `n`: ceil(log2 n). -/
def log2Up (n : Nat) : Nat := ((List.range 18).find? fun k => n ≤ 2 ^ k).getD 18

/-- The reversal of the lowest `k` bits. -/
def revBits (k n : Nat) : Nat := (List.range k).foldl (fun a i => if n.testBit i then a + 2 ^ (k - 1 - i) else a) 0

/-- The updated Xn (Table 17-2); none where the result is undefined. -/
def xNext (x : BitVec 18) (cfg : BitVec 32) (d : Int) : Option (BitVec 18) :=
  match (cfg.extractLsb' 30 2).toNat with
  | 0 => some (BitVec.ofInt 18 (x.toNat + d))
  | 1 =>
    let len := (cfg.extractLsb' 0 17).toNat
    let base := x.toNat / 2 ^ log2Up len * 2 ^ log2Up len
    if len = 0 ∨ len % 4 ≠ 0 ∨ 65536 < len ∨ len ≤ d.natAbs ∨ len ≤ x.toNat - base then none
    else some (BitVec.ofInt 18 (base + ((x.toNat : Int) - base + d) % len))
  | 2 =>
    let k := (cfg.extractLsb' 17 4).toNat
    if k = 0 then none
    else
      let f := x.toNat / 4 % 2 ^ k
      let f' := revBits k ((revBits k f + revBits k (d / 4 % (2 ^ k : Nat)).toNat) % 2 ^ k)
      some (BitVec.ofNat 18 (x.toNat - 4 * f + 4 * f'))
  | _ => none

/-- Update Xn by `d` bytes under its mode; an undefined result is free. -/
def State.xStep (s : State) (b : Bank) (n : Fin 16) (d : Int) : State × Bank :=
  match xNext b.x[n] b.xcfg[n] d with
  | some v => (s, b.wx n v)
  | none => let f := s.takeFree 18; (f.2, b.wx n f.1)

-- Arithmetic (R481)

/-- Components of a lane. -/
def reOf (v : BitVec 32) : Int := (v.extractLsb' 0 16).toInt
def imOf (v : BitVec 32) : Int := (v.extractLsb' 16 16).toInt

/-- A lane from its components. -/
def lane (i q : Int) : BitVec 32 := BitVec.ofInt 16 q ++ BitVec.ofInt 16 i

/-- Whether a value lies outside a range, as a count. -/
def outside (lo hi x : Int) : Nat := if x < lo ∨ hi < x then 1 else 0

/-- sat16 and sat32 with what they count. -/
def satC16 (x : Int) : Int := clampI (-32768) 32767 x
def overC16 (x : Int) : Nat := outside (-32768) 32767 x
def satC32 (x : Int) : Int := clampI (-2147483648) 2147483647 x
def overC32 (x : Int) : Nat := outside (-2147483648) 2147483647 x

/-- An accumulator component saturates at ±(2^47 − 1). -/
def satAcc (x : Int) : BitVec 48 := BitVec.ofInt 48 (clampI (-(2 ^ 47 - 1)) (2 ^ 47 - 1) x)
def overAcc (x : Int) : Nat := outside (-(2 ^ 47 - 1)) (2 ^ 47 - 1) x

/-- Count saturations. -/
def State.satCount (s : State) (c : Fin 9) (n : Nat) : State := s.modCore c fun m => { m with satcnt := satAdd m.satcnt n }

/-- Sum over the lanes. -/
def laneSum (f : Fin 32 → Nat) : Nat := ((List.finRange 32).map f).sum

/-- A vector of pairs of exact components, saturated to 16 bits and counted. -/
def State.vecSat (s : State) (c : Fin 9) (d : Fin 32) (f : Fin 32 → Int × Int) : State :=
  (s.wv c d (Vector.ofFn fun j => lane (satC16 (f j).1) (satC16 (f j).2))).satCount c (laneSum fun j => overC16 (f j).1 + overC16 (f j).2)

/-- An accumulator of exact components, saturated and counted. -/
def State.accSat (s : State) (c : Fin 9) (b : Bank) (a : Fin 4) (f : Fin 32 → Int × Int) : State × Bank :=
  (s.satCount c (laneSum fun j => overAcc (f j).1 + overAcc (f j).2),
    { b with acc := vset b.acc a (Vector.ofFn fun j => (satAcc (f j).1, satAcc (f j).2)) })

/-- Components of an accumulator lane. -/
def accOf (b : Bank) (a : Fin 4) (j : Fin 32) : Int × Int := (b.acc[a][j].1.toInt, b.acc[a][j].2.toInt)

-- Faults (R485)

/-- Words of OUT (Table 17-6). -/
def State.solOut (s : State) (c : Fin 9) : List (BitVec 32) := (List.range 2048).map fun i => s.solWord c (0x2400 / 4 + i)

/-- The response of a SOLVER_TEST (R494): OUT and 8 bytes. -/
def State.testEnd (s : State) (ref : CmdRef) (out : BitVec 64) (err : Bool) (data : List (BitVec 32)) (tail : Bytes) : State :=
  let b := (data.flatMap fun w => leBytes 4 w.toNat) ++ tail
  if err then (s.emit (.hostUndefined out b.length)).complete ref .busErr
  else (s.emit (.hostWrite out b)).complete ref .ok 8200

/-- A user kernel is withdrawn (R485): carriers that select it take slot 0 from their next slot boundary. -/
def State.withdrawKernel (s : State) (k : BitVec 2) : State :=
  let s := if k = 1 then { s with sol := { s.sol with k1 := { s.sol.k1 with withdrawn := true } } }
    else { s with sol := { s.sol with k2 := { s.sol.k2 with withdrawn := true } } }
  (List.finRange 8).foldl (fun (s : State) c =>
    if s.ofdm.carriers[c].kernel = k then s.at_ (s.dpOf (ceilTo (s.carrierSlot c) (s.ym.now + 1))) (.cfg (.kernel c 0) s.ym.nextId) else s) s

/-- A background job is given up (R485): an adaptation is discarded (R235), a block of smoothing is restarted. -/
def State.bgLost (s : State) (j : Option Job) : State :=
  match j with
  | some { kind := .adapt p fin, .. } => s.adaptDrop p fin
  | some { kind := .smoothing o, deadline := d, budget := b, kernel := k } => s.addJob { kind := .smoothing o, deadline := d, budget := b, kernel := k }
  | _ => s

/-- A core faults (R485): both contexts stop, the jobs in hand are given up, the arbiter is told. -/
def State.coreFault (s : State) (c : Fin 9) (cause : Nat) : State :=
  let m := s.sol.cores[c]
  let out := s.solOut c
  let s := s.modCore c fun m => { m with
      lastCause := BitVec.ofNat 4 cause, faults := satInc m.faults, watchdog := if cause = 5 then satInc m.watchdog else m.watchdog
      fgJob := none, bgJob := none, prep := none, bgOn := false, ended := none, resetEnd := some (s.dp + 19661)
      st := if m.st = .testing then .spare else m.st }
  let s := match m.fgJob with
    | some { kind := .test ref o err, .. } =>
      let t := s.record 8 [.v 8 cause, .u 16, .v 8 0xFF, .u 32]
      t.2.testEnd ref o err out t.1
    | some j => (match j.blk?.bind s.sidingWith with | some (car, ul, _, _) => s.scrapSiding car ul | none => s)
    | none => s
  let s := s.bgLost m.bgJob
  let s := match m.fgJob with | some j => if j.kernel = 0 then s else s.withdrawKernel j.kernel | none => s
  s.raiseFault .solver { cls := 9, idx := 0x100 + c.val }

-- Running an instruction (R480, R482, R485)

/-- A context of a core is issuing. -/
def SolCore.issues (m : SolCore) (bg : Bool) : Bool :=
  m.resetEnd.isNone && (if bg then m.bgJob.isSome && m.bgOn && m.fgJob.isNone else m.fgJob.isSome && m.ended.isNone)

/-- The kernel of a context's job; background jobs use vendor kernels (R475). -/
def SolCore.kernel (m : SolCore) (bg : Bool) : BitVec 2 := if bg then 0 else match m.fgJob with | some j => j.kernel | none => 0

/-- First word of a user slot (R478). -/
def slotBase (k : BitVec 2) : Nat := if k = 1 then 0x2000 else 0x3000

/-- A program index lies in a user slot. -/
def inSlot (k : BitVec 2) (pc : Nat) : Bool := k != 0 && slotBase k ≤ pc && pc < slotBase k + 0x1000

/-- A program index that a kernel may be at, and a target that its branches take (Table 17-5, RANGE): its own slot, or the vendor area for a vendor
kernel. A CALL to the library runs the routine whole (Table 17-7). -/
def pcOk (k : BitVec 2) (pc : Nat) : Bool := if k = 0 then pc < 0x2000 else inSlot k pc

/-- The word that program memory is known to hold: the code of a loaded user kernel. -/
def State.codeAt (s : State) (k : BitVec 2) (pc : Nat) : Option (BitVec 32) :=
  if inSlot k pc then (if k = 1 then s.sol.k1 else s.sol.k2).code[pc - slotBase k]? else none

/-- Fields of the formats (Table 17-3). -/
def fD (w : BitVec 32) : Fin 32 := (w.extractLsb' 19 5).toFin
def fA (w : BitVec 32) : Fin 32 := (w.extractLsb' 14 5).toFin
def fB (w : BitVec 32) : Fin 32 := (w.extractLsb' 9 5).toFin
def sD (w : BitVec 32) : Fin 16 := (w.extractLsb' 19 4).toFin
def sA (w : BitVec 32) : Fin 16 := (w.extractLsb' 14 4).toFin
def sB (w : BitVec 32) : Fin 16 := (w.extractLsb' 9 4).toFin
def aD (w : BitVec 32) : Fin 4 := (w.extractLsb' 19 2).toFin
def aA (w : BitVec 32) : Fin 4 := (w.extractLsb' 14 2).toFin
def fX (w : BitVec 32) : Fin 16 := (w.extractLsb' 15 4).toFin
def fInc (w : BitVec 32) : Int := (w.extractLsb' 7 8).toInt
def fF (w : BitVec 32) (lo n : Nat) : Nat := (w.extractLsb' lo n).toNat

/-- What an encoding gives an instruction: CLASS, OP, bits that must be 0, V fields by position, whether it may follow REPT, the
accumulator it writes (a D field), the accumulator whose recent writing delays it (an A field). -/
structure IsaOp where
  cls  : Nat
  op   : Nat
  zero : BitVec 32
  vs   : List Nat := []
  rep  : Bool := false
  accW : Bool := false
  accR : Bool := false
  cost : Nat := 1
  deriving DecidableEq, Repr

/-- A V register of the other context (Table 17-1). -/
def vBad (bg : Bool) (w : BitVec 32) (lo : Nat) : Bool := w.getLsbD (lo + 4) != bg

/-- The outcome of an instruction: a fault, or the state, the bank and further cycles. -/
abbrev IsaRes := Nat ⊕ (State × Bank × Nat)

/-- Execute one instruction word in a context (R480 to R482, R485). It is the word at the context's PC: a word of another instruction, or
one that the loaded kernel does not hold there, changes nothing; nor does one in the foreground of a vendor kernel, whose effect SOLVER_JOB_EXIT
gives whole (R489). `jump`: the instruction sets PC itself. -/
def State.isa (s : State) (c : Fin 9) (bg : Bool) (w : BitVec 32) (o : IsaOp) (f : State → Bank → IsaRes) (jump : Bool := false) : State :=
  let m := s.sol.cores[c]
  let b := m.bank bg
  let k := m.kernel bg
  let pc := b.pc.toNat
  let here : Bool := match s.codeAt k pc with | some x => x == w | none => bg || k != 0
  if !m.issues bg || fF w 28 4 != o.cls || (o.cls != 10 && fF w 24 4 != o.op) || !here then s
  else if !pcOk k pc then s.coreFault c 2
  else if (decide (0 < b.rept) && !o.rep) || w &&& o.zero != 0 || o.vs.any (vBad bg w) || (o.cls == 10 && inSlot k pc) then s.coreFault c 1
  else match f s b with
    | .inl n => s.coreFault c n
    | .inr (s, b', more) =>
      let slow : Bool := o.accR && (b.wr1 == some (BitVec.ofFin (aA w)) || b.wr2 == some (BitVec.ofFin (aA w)))
      let h : BitVec 8 × State := if slow then s.takeFree 8 else (0, s)
      let cyc := o.cost + more + h.1.toNat % 3
      let b' := { b' with wr2 := b.wr1, wr1 := if o.accW then some (BitVec.ofFin (aD w)) else none }
      let b' := if jump then b'
        else if 1 < b.rept then { b' with rept := b.rept - 1 }
        else { b' with rept := 0, pc := b.pc + 1 }
      h.2.modCore c fun m => if bg then { m.setBank bg b' with bgCyc := m.bgCyc + cyc, ahead := m.ahead + cyc }
        else { m.setBank bg b' with fgCyc := m.fgCyc + cyc, fgCycles := satAdd m.fgCycles cyc, ahead := m.ahead + cyc }

/-- An instruction that only computes a bank. -/
def pureBank (f : Bank → Bank) : State → Bank → IsaRes := fun s b => .inr (s, f b, 0)

end Sys2Proof.Machine
end

