-- ==== Sys2Proof/Machine/SolLib.lean ====
section
/-! DEFINITION. The vendor library of the solver cores (R488, R489, Table 17-7). -/

namespace Sys2Proof.Machine

-- The job in data memory (Tables 17-6 and 17-6a)

/-- The components of a word. -/
def wordPair (v : BitVec 32) : Int × Int := (reOf v, imOf v)

/-- Layers and antennas of the descriptor at an address. -/
def State.libSize (s : State) (c : Fin 9) (x0 : Nat) : Nat × Nat :=
  let byte (i : Nat) : Nat := (s.solLoad c (x0 + i)).toNat % 256
  (byte 1, byte 2)

/-- Layers and antennas lie in the ranges of Table 17-6a; beyond them what the library gives is free. -/
def sizeOk (n : Nat × Nat) : Bool := decide (1 ≤ n.1 ∧ n.1 ≤ 32 ∧ 1 ≤ n.2 ∧ n.2 ≤ 64)

/-- What a weight computation reads of the foreground region, with its descriptor at an address. -/
def State.libIn (s : State) (c : Fin 9) (x0 : Nat) : WeightIn :=
  let byte (i : Nat) : Nat := (s.solLoad c (x0 + i)).toNat % 256
  let n := s.libSize c x0
  { ul := byte 0 % 2 == 1, exp := byte 6 % 32, sigM := byte 16 + 256 * byte 17, sigE := byte 18
    kappa := (List.range n.2).map fun j => wordPair (s.solWord c (16 + j))
    h := (List.range n.1).map fun i => (List.range n.2).map fun j => wordPair (s.solWord c (256 + 64 * i + j)) }

/-- Word index of the library scratch and of OUT. -/
def scratchWord : Nat := 0x4400 / 4
def outWord : Nat := 0x2400 / 4

/-- Write successive words of data memory. -/
def State.solPuts (s : State) (c : Fin 9) (i : Nat) (l : List (BitVec 32)) : State := s.modCore c fun m => l.zipIdx.foldl (fun (m : SolCore) x => m.put (i + x.2) x.1) m

/-- Successive words of data memory become undefined. -/
def State.solFree (s : State) (c : Fin 9) (i n : Nat) : State :=
  { s with free := s.free + n }.solPuts c i ((List.range n).map fun (k : Nat) => Config.freeBits 32 (s.free + k))

-- Routines

/-- The rows that LIB_GRAM leaves at the start of the scratch. -/
def State.gramRows (s : State) (c : Fin 9) (l : Nat) : List (List (Int × Int)) :=
  (List.range l).map fun i => (List.range l).map fun j => wordPair (s.solWord c (scratchWord + 32 * i + j))

/-- LIB_GRAM. What lies in a row beyond L elements is not stated. -/
def State.libGram (s : State) (c : Fin 9) (x0 : Nat) : State :=
  let n := s.libSize c x0
  let s' := s.solFree c scratchWord (32 * n.1)
  if !sizeOk n then s'.modCore c fun m => { m with factored := [], columns := [] }
  else
    let g := (s.libIn c x0).gram16
    let s' := g.2.zipIdx.foldl (fun (s : State) (r : List (Int × Int) × Nat) => s.solPuts c (scratchWord + 32 * r.2) (r.1.map fun v => lane v.1 v.2)) s'
    s'.modCore c fun m => { m with gramExp := g.1, factored := [], columns := [] }

/-- LIB_CHOL: S1 is 0, or 1 where a pivot is not positive. The factors overwrite the Gram matrix in a form that is not stated. -/
def State.libChol (s : State) (c : Fin 9) (x0 : Nat) : State × BitVec 32 :=
  let n := s.libSize c x0
  let s' := s.solFree c scratchWord (32 * n.1)
  if !sizeOk n then let f := s'.takeFree 32; (f.2.modCore c fun m => { m with factored := [], columns := [] }, f.1)
  else match (s.libIn c x0).factor (s.sol.cores[c].gramExp, s.gramRows c n.1) with
    | some x => (s'.modCore c fun m => { m with factored := x, columns := [] }, 0)
    | none => (s'.modCore c fun m => { m with factored := [], columns := [] }, 1)

/-- LIB_SOLVE: W in the scratch in the library's own format. -/
def State.libSolve (s : State) (c : Fin 9) (x0 : Nat) : State :=
  let n := s.libSize c x0
  let x := s.sol.cores[c].factored
  let w := if sizeOk n && x.length == n.1 then (s.libIn c x0).columns x else []
  (s.solFree c scratchWord 3072).modCore c fun m => { m with factored := [], columns := w }

/-- LIB_NORM_OUT: the rows of OUT; what lies in a row beyond A elements is not stated. -/
def State.libNormOut (s : State) (c : Fin 9) (x0 : Nat) : State :=
  let n := s.libSize c x0
  let w := s.sol.cores[c].columns
  let s := s.solFree c outWord (64 * min n.1 32)
  if !sizeOk n || w.length != n.1 then s
  else w.zipIdx.foldl (fun (s : State) (r : List CQ × Nat) => s.solPuts c (outWord + 64 * r.2) ((unitColumn r.1).map fun v => lane v.1 v.2)) s

/-- The most cycles of a routine (Table 17-7), the CALL and the RET included. -/
def libCycles (t l a : Nat) : Nat :=
  let up (fixed x : Nat) : Nat := fixed + (x + 127) / 128
  if t = 0x40 then up 20 (2 * a * l * l)
  else if t = 0x50 then up 30 (64 * l * l)
  else if t = 0x60 then up 15 (64 * l * l + 2 * a * (2 * l * l + 3 * l))
  else up 20 (4 * a * l)

/-- A program index is a library entry. -/
def libEntry (t : Nat) : Bool := t == 0x40 || t == 0x50 || t == 0x60 || t == 0x70

/-- Registers after a routine (R488): X0, X14, S8 to S14, X8 to X13 with their XCFG are as before; S15 holds the link; the others are undefined. -/
def Bank.afterLib (b : Bank) (n : Nat) : Bank :=
  let f (w i : Nat) : BitVec w := Config.freeBits w (n + i)
  { b with
    s := Vector.ofFn fun (i : Fin 16) => if 1 ≤ i.val ∧ i.val ≤ 7 then f 32 i.val else b.s[i]
    x := Vector.ofFn fun (i : Fin 16) => if (1 ≤ i.val ∧ i.val ≤ 7) ∨ i.val = 15 then f 18 (16 + i.val) else b.x[i]
    xcfg := Vector.ofFn fun (i : Fin 16) => if 8 ≤ i.val ∧ i.val ≤ 13 then b.xcfg[i] else f 32 (32 + i.val)
    acc := Vector.ofFn fun (a : Fin 4) => Vector.ofFn fun (j : Fin 32) => (f 48 (48 + 64 * a.val + 2 * j.val), f 48 (49 + 64 * a.val + 2 * j.val))
    vmask := f 32 304 }

/-- A CALL of the library from the foreground (R488, R489, Table 17-7): the routine's effect, its cycles and saturations free within what is
stated, at most 512 bytes of stack. The descriptor at X0 must lie in the region. -/
def State.libCall (s : State) (c : Fin 9) (b : Bank) (t : Nat) : IsaRes :=
  let x0 := b.x[0].toNat
  if !inRegion false x0 64 then .inl 2
  else
    let n := s.libSize c x0
    let pc := b.pc + 1
    let b := b.ws 15 (pc.setWidth 32)
    let r : State × Option (BitVec 32) :=
      if t = 0x40 then (s.libGram c x0, none)
      else if t = 0x50 then let r := s.libChol c x0; (r.1, some r.2)
      else if t = 0x60 then (s.libSolve c x0, none)
      else (s.libNormOut c x0, some 0)
    let x14 := b.x[14].toNat
    let s := if decide (512 ≤ x14) && inRegion false x14 0 then r.1.solFree c ((x14 - 512) / 4) ((x14 + 3) / 4 - (x14 - 512) / 4) else r.1
    let k := s.free
    let s := { s with free := k + 1024 }.modCore c fun m =>
      { m with v := Vector.ofFn fun (i : Fin 32) => if i.val < 8 then Vector.ofFn fun (j : Fin 32) => Config.freeBits 32 (k + 320 + 32 * i.val + j.val) else m.v[i] }
    let h := s.takeFree 16
    let y := h.2.takeFree 16
    let b := b.afterLib k
    let b := match r.2 with | some v => b.ws 1 v | none => b
    .inr (y.2.satCount c h.1.toNat, { b with pc := pc, wr1 := none, wr2 := none }, 3 + y.1.toNat % (libCycles t n.1 n.2 - 3))

end Sys2Proof.Machine
end

