-- ==== Sys2Proof/Machine/FamIsa.lean ====
section
/-! DEFINITION. Meanings of the solver instructions (R479 to R485, Tables 17-3 and 17-4). -/

namespace Sys2Proof.Machine

-- CTRL

/-- A condition of BR (R480); none for a reserved code. -/
def condOf (n : Nat) (x : BitVec 32) : Option Bool :=
  match n with
  | 0 => some true
  | 1 => some (x == 0)
  | 2 => some (x != 0)
  | 3 => some (x.toInt < 0)
  | 4 => some (0 ≤ x.toInt)
  | 5 => some (0 < x.toInt)
  | 6 => some (x.toInt ≤ 0)
  | _ => none

/-- NOP. -/
def execSolverNop (core : Fin 9) (bg : Bool) (w : BitVec 32) (s : State) : R :=
  .next (s.isa core bg w { cls := 0, op := 0, zero := 0x00FFFFFF } (pureBank id))

/-- BR: two cycles when taken. -/
def execSolBr (core : Fin 9) (bg : Bool) (w : BitVec 32) (s : State) : R :=
  .next (s.isa core bg w { cls := 0, op := 1, zero := 0 } (jump := true) fun s b =>
    match condOf (fF w 20 4) (b.rs (w.extractLsb' 16 4).toFin) with
    | none => .inl 1
    | some false => .inr (s, { b with pc := b.pc + 1 }, 0)
    | some true =>
      let t := b.pc + 1 + (w.extractLsb' 0 16).setWidth 14
      if pcOk (s.sol.cores[core].kernel bg) t.toNat then .inr (s, { b with pc := t }, 1) else .inl 2)

/-- CALL; one of the library from a user kernel runs the routine up to its return (Table 17-7). -/
def execSolCall (core : Fin 9) (bg : Bool) (w : BitVec 32) (s : State) : R :=
  .next (s.isa core bg w { cls := 0, op := 2, zero := 0x00FFC000 } (jump := true) fun s b =>
    let t := w.extractLsb' 0 14
    let k := s.sol.cores[core].kernel bg
    if k ≠ 0 ∧ libEntry t.toNat = true then s.libCall core b t.toNat
    else if pcOk k t.toNat then .inr (s, { b.ws 15 ((b.pc + 1).setWidth 32) with pc := t }, 1) else .inl 2)

/-- RET. -/
def execSolRet (core : Fin 9) (bg : Bool) (w : BitVec 32) (s : State) : R :=
  .next (s.isa core bg w { cls := 0, op := 3, zero := 0x00FFFFFF } (jump := true) fun s b =>
    let t := (b.rs 15).setWidth 14
    if pcOk (s.sol.cores[core].kernel bg) t.toNat then .inr (s, { b with pc := t }, 1) else .inl 2)

/-- REPT: the count comes from OFF16 or from S; the fields of the other form must be 0. -/
def execSolRept (core : Fin 9) (bg : Bool) (w : BitVec 32) (s : State) : R :=
  .next (s.isa core bg w { cls := 0, op := 4, zero := 0 } (jump := true) fun s b =>
    let n : Option Nat := match fF w 20 4 with
      | 0 => if fF w 12 8 = 0 then some (fF w 0 12 + 1) else none
      | 1 => if fF w 0 16 = 0 then some (b.rs (w.extractLsb' 16 4).toFin).toNat else none
      | _ => none
    match n with
    | none => .inl 1
    | some n => if n = 0 ∨ 4096 < n then .inl 1 else .inr (s, { b with rept := n, pc := b.pc + 1 }, 0))

/-- END: a foreground job ends with status S1, of which 2 or more is a fault; a background job ends. -/
def execSolEnd (core : Fin 9) (bg : Bool) (w : BitVec 32) (s : State) : R :=
  .next (s.isa core bg w { cls := 0, op := 5, zero := 0x00FFFFFF } fun s b =>
    if 2 ≤ (b.rs 1).toNat then .inl 7
    else if bg then .inr (s.modCore core fun m => { m with bgJob := none, bgOn := false }, b, 0)
    else .inr (s.modCore core fun m => { m with ended := some (b.rs 1) }, b, 0))

/-- TRAP. -/
def execSolTrap (core : Fin 9) (bg : Bool) (w : BitVec 32) (s : State) : R :=
  .next (s.isa core bg w { cls := 0, op := 6, zero := 0x00FFFF00 } fun _ _ => .inl 4)

-- SALU

/-- A scalar operation on two S registers; results wrap. -/
def State.salu (s : State) (core : Fin 9) (bg : Bool) (w : BitVec 32) (op : Nat) (f : BitVec 32 → BitVec 32 → BitVec 32) : State :=
  s.isa core bg w { cls := 1, op := op, zero := 0x008421FF } (pureBank fun b => b.ws (sD w) (f (b.rs (sA w)) (b.rs (sB w))))

/-- ADD. -/
def execSolAdd (core : Fin 9) (bg : Bool) (w : BitVec 32) (s : State) : R := .next (s.salu core bg w 0 fun x y => x + y)
/-- SUB. -/
def execSolSub (core : Fin 9) (bg : Bool) (w : BitVec 32) (s : State) : R := .next (s.salu core bg w 1 fun x y => x - y)
/-- AND. -/
def execSolAnd (core : Fin 9) (bg : Bool) (w : BitVec 32) (s : State) : R := .next (s.salu core bg w 2 fun x y => x &&& y)
/-- OR. -/
def execSolOr (core : Fin 9) (bg : Bool) (w : BitVec 32) (s : State) : R := .next (s.salu core bg w 3 fun x y => x ||| y)
/-- XOR. -/
def execSolXor (core : Fin 9) (bg : Bool) (w : BitVec 32) (s : State) : R := .next (s.salu core bg w 4 fun x y => x ^^^ y)
/-- SHL by B[4:0]. -/
def execSolShl (core : Fin 9) (bg : Bool) (w : BitVec 32) (s : State) : R := .next (s.salu core bg w 5 fun x y => x <<< (y.toNat % 32))
/-- SHR by B[4:0]. -/
def execSolShr (core : Fin 9) (bg : Bool) (w : BitVec 32) (s : State) : R := .next (s.salu core bg w 6 fun x y => x >>> (y.toNat % 32))
/-- SRA by B[4:0]. -/
def execSolSra (core : Fin 9) (bg : Bool) (w : BitVec 32) (s : State) : R := .next (s.salu core bg w 7 fun x y => x.sshiftRight (y.toNat % 32))
/-- MUL: the low 32 bits. -/
def execSolMul (core : Fin 9) (bg : Bool) (w : BitVec 32) (s : State) : R := .next (s.salu core bg w 8 fun x y => x * y)
/-- SLT, signed. -/
def execSolSlt (core : Fin 9) (bg : Bool) (w : BitVec 32) (s : State) : R := .next (s.salu core bg w 9 fun x y => if x.toInt < y.toInt then 1 else 0)
/-- SLTU. -/
def execSolSltu (core : Fin 9) (bg : Bool) (w : BitVec 32) (s : State) : R := .next (s.salu core bg w 10 fun x y => if x.toNat < y.toNat then 1 else 0)
/-- MIN, signed. -/
def execSolMin (core : Fin 9) (bg : Bool) (w : BitVec 32) (s : State) : R := .next (s.salu core bg w 11 fun x y => if y.toInt < x.toInt then y else x)
/-- MAX, signed. -/
def execSolMax (core : Fin 9) (bg : Bool) (w : BitVec 32) (s : State) : R := .next (s.salu core bg w 12 fun x y => if x.toInt < y.toInt then y else x)

-- SIMM

/-- A scalar operation on D and IMM16. -/
def State.simm (s : State) (core : Fin 9) (bg : Bool) (w : BitVec 32) (op : Nat) (f : BitVec 32 → BitVec 16 → BitVec 32) : State :=
  s.isa core bg w { cls := 2, op := op, zero := 0x00870000 } (pureBank fun b => b.ws (sD w) (f (b.rs (sD w)) (w.extractLsb' 0 16)))

/-- MOVI. -/
def execSolMovi (core : Fin 9) (bg : Bool) (w : BitVec 32) (s : State) : R := .next (s.simm core bg w 0 fun _ i => i.signExtend 32)
/-- MOVHI. -/
def execSolMovhi (core : Fin 9) (bg : Bool) (w : BitVec 32) (s : State) : R := .next (s.simm core bg w 1 fun d i => i ++ d.extractLsb' 0 16)
/-- ADDI. -/
def execSolAddi (core : Fin 9) (bg : Bool) (w : BitVec 32) (s : State) : R := .next (s.simm core bg w 2 fun d i => d + i.signExtend 32)
/-- ADDHI. -/
def execSolAddhi (core : Fin 9) (bg : Bool) (w : BitVec 32) (s : State) : R := .next (s.simm core bg w 3 fun d i => d + (i ++ (0 : BitVec 16)))

-- SMEM and VMEM: an access at Xn, then the update of Xn (R479)

/-- An access of `n` bytes at Xn, aligned to 4 where `al` says so. -/
def State.memOp (s : State) (core : Fin 9) (bg : Bool) (w : BitVec 32) (o : IsaOp) (n : Nat) (al : Bool)
    (f : State → Bank → Nat → State × Bank) : State :=
  s.isa core bg w o fun s b =>
    let a := b.x[fX w].toNat
    if !inRegion bg a n then .inl 2
    else if al && a % 4 != 0 then .inl 3
    else
      let r := f s b a
      let u := r.1.xStep r.2 (fX w) (4 * fInc w)
      .inr (u.1, u.2, 0)

/-- LDW. -/
def execSolLdw (core : Fin 9) (bg : Bool) (w : BitVec 32) (s : State) : R :=
  .next (s.memOp core bg w { cls := 3, op := 0, zero := 0x0080007F } 4 true fun s b a => (s, b.ws (sD w) (s.solLoad core a)))
/-- STW. -/
def execSolStw (core : Fin 9) (bg : Bool) (w : BitVec 32) (s : State) : R :=
  .next (s.memOp core bg w { cls := 3, op := 1, zero := 0x0080007F } 4 true fun s b a => (s.solStore core a (b.rs (sD w)), b))
/-- VLD. -/
def execSolVld (core : Fin 9) (bg : Bool) (w : BitVec 32) (s : State) : R :=
  .next (s.memOp core bg w { cls := 5, op := 0, zero := 0x7F, vs := [19], rep := true } 128 false fun s b a => (s.wv core (fD w) (s.solVec core a), b))
/-- VST. -/
def execSolVst (core : Fin 9) (bg : Bool) (w : BitVec 32) (s : State) : R :=
  .next (s.memOp core bg w { cls := 5, op := 1, zero := 0x7F, vs := [19], rep := true } 128 false fun s b a =>
    (s.solVecPut core a s.sol.cores[core].v[fD w] (BitVec.allOnes 32), b))
/-- VLDB. -/
def execSolVldb (core : Fin 9) (bg : Bool) (w : BitVec 32) (s : State) : R :=
  .next (s.memOp core bg w { cls := 5, op := 2, zero := 0x7F, vs := [19], rep := true } 4 true fun s b a =>
    (s.wv core (fD w) (Vector.replicate 32 (s.solLoad core a)), b))
/-- VSTM. -/
def execSolVstm (core : Fin 9) (bg : Bool) (w : BitVec 32) (s : State) : R :=
  .next (s.memOp core bg w { cls := 5, op := 3, zero := 0x7F, vs := [19], rep := true } 128 false fun s b a =>
    (s.solVecPut core a s.sol.cores[core].v[fD w] b.vmask, b))

-- XREG

/-- MOVSX. -/
def execSolMovsx (core : Fin 9) (bg : Bool) (w : BitVec 32) (s : State) : R :=
  .next (s.isa core bg w { cls := 4, op := 0, zero := 0x00843FFF } (pureBank fun b => b.wx (sD w) ((b.rs (sA w)).setWidth 18)))
/-- MOVXS. -/
def execSolMovxs (core : Fin 9) (bg : Bool) (w : BitVec 32) (s : State) : R :=
  .next (s.isa core bg w { cls := 4, op := 1, zero := 0x00843FFF } (pureBank fun b => b.ws (sD w) (b.x[sA w].setWidth 32)))
/-- SETCFG. -/
def execSolSetcfg (core : Fin 9) (bg : Bool) (w : BitVec 32) (s : State) : R :=
  .next (s.isa core bg w { cls := 4, op := 2, zero := 0x00843FFF } (pureBank fun b => { b with xcfg := vset b.xcfg (sD w) (b.rs (sA w)) }))
/-- GETCFG: the reserved bits of XCFG read undefined (Table 17-2). -/
def execSolGetcfg (core : Fin 9) (bg : Bool) (w : BitVec 32) (s : State) : R :=
  .next (s.isa core bg w { cls := 4, op := 3, zero := 0x00843FFF } fun s b =>
    let x := b.xcfg[sA w]
    let r := s.reg32 [.v 17 x.toNat, .v 4 (x.toNat / 2 ^ 17), .u 9, .v 2 (x.toNat / 2 ^ 30)]
    .inr (r.2, b.ws (sD w) r.1, 0))
/-- SETMASK. -/
def execSolSetmask (core : Fin 9) (bg : Bool) (w : BitVec 32) (s : State) : R :=
  .next (s.isa core bg w { cls := 4, op := 4, zero := 0x00FC3FFF } (pureBank fun b => { b with vmask := b.rs (sA w) }))
/-- GETSPR. -/
def execSolGetspr (core : Fin 9) (bg : Bool) (w : BitVec 32) (s : State) : R :=
  .next (s.isa core bg w { cls := 4, op := 5, zero := 0x00803FFF } fun s b =>
    let m := s.sol.cores[core]
    match (fA w).val with
    | 0 => .inr (s, b.ws (sD w) (BitVec.ofNat 32 core.val), 0)
    | 1 => .inr (s, b.ws (sD w) (BitVec.ofNat 32 (if bg then m.bgCyc else m.fgCyc)), 0)
    | 2 => .inr (s, b.ws (sD w) (m.satcnt.setWidth 32), 0)
    | 3 => .inr (s, b.ws (sD w) (if bg then 1 else 0), 0)
    | _ => .inl 1)
/-- ADDX. -/
def execSolAddx (core : Fin 9) (bg : Bool) (w : BitVec 32) (s : State) : R :=
  .next (s.isa core bg w { cls := 4, op := 6, zero := 0x00843FFF } fun s b =>
    let u := s.xStep b (sD w) (b.rs (sA w)).toInt
    .inr (u.1, u.2, 0))

-- VMAC

/-- The product of two lanes with the conjugations and the negation that F selects. -/
def macProd (w x y : BitVec 32) : Int × Int :=
  let aq := if w.getLsbD 8 then -(imOf x) else imOf x
  let bq := if w.getLsbD 7 then -(imOf y) else imOf y
  let i := reOf x * reOf y - aq * bq
  let q := reOf x * bq + aq * reOf y
  if w.getLsbD 6 then (-i, -q) else (i, q)

/-- Multiply V_A with a vector into ACC_D, adding to it or not. -/
def State.macOp (s : State) (core : Fin 9) (w : BitVec 32) (b : Bank) (add : Bool) (y : Fin 32 → BitVec 32) : State × Bank :=
  let x := s.sol.cores[core].v[fA w]
  s.accSat core b (aD w) fun j =>
    let p := macProd w x[j] (y j)
    if add then let o := accOf b (aD w) j; (o.1 + p.1, o.2 + p.2) else p

/-- VMUL and VMAC: B is a vector. -/
def State.macV (s : State) (core : Fin 9) (bg : Bool) (w : BitVec 32) (op : Nat) (add : Bool) : State :=
  s.isa core bg w { cls := 6, op := op, zero := 0x00E0003F, vs := [14, 9], rep := true, accW := true } fun s b =>
    let r := s.macOp core w b add fun j => s.sol.cores[core].v[fB w][j]
    .inr (r.1, r.2, 0)

/-- VMUL. -/
def execSolVmul (core : Fin 9) (bg : Bool) (w : BitVec 32) (s : State) : R := .next (s.macV core bg w 0 false)
/-- VMAC. -/
def execSolVmac (core : Fin 9) (bg : Bool) (w : BitVec 32) (s : State) : R := .next (s.macV core bg w 1 true)

/-- VMULB and VMACB: one lane of B in every lane. -/
def State.macB (s : State) (core : Fin 9) (bg : Bool) (w : BitVec 32) (op : Nat) (add : Bool) : State :=
  s.isa core bg w { cls := 6, op := op, zero := 0x00E00020, vs := [14, 9], rep := true, accW := true } fun s b =>
    let y := s.sol.cores[core].v[fB w][((w.extractLsb' 0 5).toFin : Fin 32)]
    let r := s.macOp core w b add fun _ => y
    .inr (r.1, r.2, 0)

/-- VMULB. -/
def execSolVmulb (core : Fin 9) (bg : Bool) (w : BitVec 32) (s : State) : R := .next (s.macB core bg w 2 false)
/-- VMACB. -/
def execSolVmacb (core : Fin 9) (bg : Bool) (w : BitVec 32) (s : State) : R := .next (s.macB core bg w 3 true)

/-- VMACS: B is a scalar register, one complex element. -/
def execSolVmacs (core : Fin 9) (bg : Bool) (w : BitVec 32) (s : State) : R :=
  .next (s.isa core bg w { cls := 6, op := 4, zero := 0x00E0203F, vs := [14], rep := true, accW := true } fun s b =>
    let y := b.rs (sB w)
    let r := s.macOp core w b true fun _ => y
    .inr (r.1, r.2, 0))

/-- VMACM: B is the 128 bytes at X, which then advances by 128 bytes. -/
def execSolVmacm (core : Fin 9) (bg : Bool) (w : BitVec 32) (s : State) : R :=
  .next (s.isa core bg w { cls := 6, op := 5, zero := 0x00E0203F, vs := [14], rep := true, accW := true } fun s b =>
    let a := b.x[sB w].toNat
    if !inRegion bg a 128 then .inl 2
    else
      let y := s.solVec core a
      let r := s.macOp core w b true fun j => y[j]
      let u := r.1.xStep r.2 (sB w) 128
      .inr (u.1, u.2, 0))

-- VEXT

/-- VRND and VRNDS: sat16 of the rounded accumulator. -/
def State.vrndTo (s : State) (core : Fin 9) (w : BitVec 32) (b : Bank) (k : Nat) : IsaRes :=
  .inr (s.vecSat core (fD w) fun j => let a := accOf b (aA w) j; (rshift a.1 k, rshift a.2 k), b, 0)

/-- VRND. -/
def execSolVrnd (core : Fin 9) (bg : Bool) (w : BitVec 32) (s : State) : R :=
  .next (s.isa core bg w { cls := 7, op := 0, zero := 0x00073FC0, vs := [19], rep := true, accR := true } fun s b => s.vrndTo core w b (fF w 0 6))
/-- VRNDS: the shift in S_B[5:0]. -/
def execSolVrnds (core : Fin 9) (bg : Bool) (w : BitVec 32) (s : State) : R :=
  .next (s.isa core bg w { cls := 7, op := 1, zero := 0x000721FF, vs := [19], rep := true, accR := true } fun s b =>
    s.vrndTo core w b ((b.rs (sB w)).toNat % 64))
/-- ACLR. -/
def execSolAclr (core : Fin 9) (bg : Bool) (w : BitVec 32) (s : State) : R :=
  .next (s.isa core bg w { cls := 7, op := 2, zero := 0x00E7FFFF, rep := true, accW := true } (pureBank fun b =>
    { b with acc := vset b.acc (aD w) (Vector.replicate 32 (0, 0)) }))
/-- ASUM: the sum of the lanes in lane 0. -/
def execSolAsum (core : Fin 9) (bg : Bool) (w : BitVec 32) (s : State) : R :=
  .next (s.isa core bg w { cls := 7, op := 3, zero := 0x00E73FFF, rep := true, accW := true, accR := true } fun s b =>
    let t := (List.finRange 32).foldl (fun (t : Int × Int) j => let a := accOf b (aA w) j; (t.1 + a.1, t.2 + a.2)) (0, 0)
    let r := s.accSat core b (aD w) fun j => if j = 0 then t else (0, 0)
    .inr (r.1, r.2, 0))
/-- ALOAD. -/
def execSolAload (core : Fin 9) (bg : Bool) (w : BitVec 32) (s : State) : R :=
  .next (s.isa core bg w { cls := 7, op := 4, zero := 0x00E03FC0, vs := [14], rep := true, accW := true } fun s b =>
    let x := s.sol.cores[core].v[fA w]
    let k : Int := (2 ^ fF w 0 6 : Nat)
    let r := s.accSat core b (aD w) fun j => (reOf x[j] * k, imOf x[j] * k)
    .inr (r.1, r.2, 0))
/-- SEXT: one rounded component of an accumulator lane, saturated to 32 bits. -/
def execSolSext (core : Fin 9) (bg : Bool) (w : BitVec 32) (s : State) : R :=
  .next (s.isa core bg w { cls := 7, op := 5, zero := 0x008721C0, accR := true } fun s b =>
    let a := accOf b (aA w) ((w.extractLsb' 0 5).toFin : Fin 32)
    let v := rshift (if w.getLsbD 5 then a.2 else a.1) ((b.rs (sB w)).toNat % 64)
    .inr (s.satCount core (overC32 v), b.ws (sD w) (BitVec.ofInt 32 (satC32 v)), 0))

-- VALU

/-- A lane-wise operation with saturation. -/
def State.valu2 (s : State) (core : Fin 9) (bg : Bool) (w : BitVec 32) (o : IsaOp) (f : BitVec 32 → BitVec 32 → Int × Int) : State :=
  s.isa core bg w o fun s b =>
    let x := s.sol.cores[core].v[fA w]
    let y := s.sol.cores[core].v[fB w]
    .inr (s.vecSat core (fD w) fun j => f x[j] y[j], b, 0)

/-- VADD. -/
def execSolVadd (core : Fin 9) (bg : Bool) (w : BitVec 32) (s : State) : R :=
  .next (s.valu2 core bg w { cls := 8, op := 0, zero := 0x1FF, vs := [19, 14, 9], rep := true } fun x y => (reOf x + reOf y, imOf x + imOf y))
/-- VSUB. -/
def execSolVsub (core : Fin 9) (bg : Bool) (w : BitVec 32) (s : State) : R :=
  .next (s.valu2 core bg w { cls := 8, op := 1, zero := 0x1FF, vs := [19, 14, 9], rep := true } fun x y => (reOf x - reOf y, imOf x - imOf y))
/-- VCONJ. -/
def execSolVconj (core : Fin 9) (bg : Bool) (w : BitVec 32) (s : State) : R :=
  .next (s.valu2 core bg w { cls := 8, op := 2, zero := 0x3FFF, vs := [19, 14], rep := true } fun x _ => (reOf x, -(imOf x)))
/-- VNEG. -/
def execSolVneg (core : Fin 9) (bg : Bool) (w : BitVec 32) (s : State) : R :=
  .next (s.valu2 core bg w { cls := 8, op := 3, zero := 0x3FFF, vs := [19, 14], rep := true } fun x _ => (-(reOf x), -(imOf x)))

/-- A lane-wise operation that moves data. -/
def State.vmov (s : State) (core : Fin 9) (bg : Bool) (w : BitVec 32) (o : IsaOp) (f : Vector (Vector (BitVec 32) 32) 32 → Bank → Fin 32 → BitVec 32) : State :=
  s.isa core bg w o fun s b => .inr (s.wv core (fD w) (Vector.ofFn (f s.sol.cores[core].v b)), b, 0)

/-- VSEL. -/
def execSolVsel (core : Fin 9) (bg : Bool) (w : BitVec 32) (s : State) : R :=
  .next (s.vmov core bg w { cls := 8, op := 4, zero := 0x1FF, vs := [19, 14, 9], rep := true } fun v b j => if b.vmask.getLsbD j.val then v[fA w][j] else v[fB w][j])
/-- VPERM. -/
def execSolVperm (core : Fin 9) (bg : Bool) (w : BitVec 32) (s : State) : R :=
  .next (s.vmov core bg w { cls := 8, op := 5, zero := 0x1FF, vs := [19, 14, 9], rep := true } fun v _ j => v[fA w][((v[fB w][j].extractLsb' 0 5).toFin : Fin 32)])
/-- VBCAST. -/
def execSolVbcast (core : Fin 9) (bg : Bool) (w : BitVec 32) (s : State) : R :=
  .next (s.vmov core bg w { cls := 8, op := 6, zero := 0x00043FFF, vs := [19], rep := true } fun _ b _ => b.rs (sA w))
/-- VINS. -/
def execSolVins (core : Fin 9) (bg : Bool) (w : BitVec 32) (s : State) : R :=
  .next (s.vmov core bg w { cls := 8, op := 7, zero := 0x00043FE0, vs := [19], rep := true } fun v b j => if j.val = fF w 0 5 then b.rs (sA w) else v[fD w][j])
/-- VEXTL. -/
def execSolVextl (core : Fin 9) (bg : Bool) (w : BitVec 32) (s : State) : R :=
  .next (s.isa core bg w { cls := 8, op := 8, zero := 0x00803FE0, vs := [14], rep := true } fun s b =>
    .inr (s, b.ws (sD w) s.sol.cores[core].v[fA w][((w.extractLsb' 0 5).toFin : Fin 32)], 0))
/-- VSHR. -/
def execSolVshr (core : Fin 9) (bg : Bool) (w : BitVec 32) (s : State) : R :=
  .next (s.vmov core bg w { cls := 8, op := 9, zero := 0x3FF0, vs := [19, 14], rep := true } fun v _ j =>
    lane (rshift (reOf v[fA w][j]) (fF w 0 4)) (rshift (imOf v[fA w][j]) (fF w 0 4)))

-- SFN

/-- A special function with its saturation. -/
def State.sfn (s : State) (core : Fin 9) (bg : Bool) (w : BitVec 32) (op cost : Nat) (f : Nat → Nat) : State :=
  s.isa core bg w { cls := 9, op := op, zero := 0x00843FFF, cost := cost } fun s b =>
    let v := f (b.rs (sA w)).toNat
    .inr (s.satCount core (if 0xFFFFFFFF < v then 1 else 0), b.ws (sD w) (BitVec.ofNat 32 (min v 0xFFFFFFFF)), 0)

/-- floor(√n) for n below 2^64. -/
def isqrt (n : Nat) : Nat := (List.range 32).foldl (fun x i => if (x + 2 ^ (31 - i)) * (x + 2 ^ (31 - i)) ≤ n then x + 2 ^ (31 - i) else x) 0

/-- round(2^31/√A); above 2^32 − 1 for A = 0. No value lies halfway between two integers. -/
def srsq (a : Nat) : Nat :=
  if a = 0 then 2 ^ 32
  else
    let x := isqrt (2 ^ 62 / a)
    if (2 * x + 1) * (2 * x + 1) * a < 2 ^ 64 then x + 1 else x

/-- round(2^31/A), half to even. -/
def srec (a : Nat) : Nat :=
  if a = 0 then 2 ^ 32
  else
    let q := 2 ^ 31 / a
    let r := 2 * (2 ^ 31 % a)
    if r < a then q else if a < r then q + 1 else q + q % 2

/-- Leading zeros of a 32-bit value. -/
def leadZeros (a : Nat) : Nat := ((List.range 32).find? fun i => a.testBit (31 - i)).getD 32

/-- SRSQ. -/
def execSolSrsq (core : Fin 9) (bg : Bool) (w : BitVec 32) (s : State) : R := .next (s.sfn core bg w 0 8 srsq)
/-- SREC. -/
def execSolSrec (core : Fin 9) (bg : Bool) (w : BitVec 32) (s : State) : R := .next (s.sfn core bg w 1 8 srec)
/-- SNORM. -/
def execSolSnorm (core : Fin 9) (bg : Bool) (w : BitVec 32) (s : State) : R := .next (s.sfn core bg w 2 1 leadZeros)

-- XFER

/-- XFER: a vendor background transfer; what it leaves in the context's data memory is undefined (Table 17-4 gives no layout). In a user
kernel it is illegal (Table 17-5). -/
def execSolXfer (core : Fin 9) (bg : Bool) (w : BitVec 32) (s : State) : R :=
  .next (s.isa core bg w { cls := 10, op := 0, zero := 0 } fun s b =>
    .inr (s.modCore core fun m => { m with
      data := m.data.filter fun x => decide (x.1 < 32768) == bg
      genF := if bg then m.genF else m.genF + 1, genB := if bg then m.genB + 1 else m.genB
      zeroF := if bg then m.zeroF else 0, zeroB := if bg then 0 else m.zeroB }, b, 0))

end Sys2Proof.Machine
end

