-- ==== Sys2Proof/Machine/FamLink.lean ====
section
/-! DEFINITION. Frames at the ports and the failure of a port (R283 to R285, R310, R319). -/

namespace Sys2Proof.Machine

/-- The state that a meaning leaves; the meanings used here always answer one. -/
def after (s : State) : R → State
  | .next t => t
  | _ => s

/-- A PTP frame (R342, R343): the kinds that the device takes, and Delay_Req, which it does not; every other is counted. -/
def State.ptpFrame (s : State) (p : Fin 8) (dst : BitVec 48) (b : Bytes) : State :=
  if s.fh.ports[p].cfg.role = 1 then s.ptpIgnore
  else match ptpType b with
    | 0 => after s (execPtpSync p dst b 0 s)
    | 1 => s
    | 8 => after s (execPtpFollowUp p b s)
    | 9 => after s (execPtpDelayResp p b s)
    | 11 => after s (execPtpAnnounce p b s)
    | _ => s.ptpIgnore

/-- A hitch frame is counted in BAD_FRAME (R319). -/
def State.hitBad (s : State) : State := s.modHit fun h => { h with badFrame := satInc h.badFrame }

/-- A hitch frame of a good FCS (R319, Table 11-3). -/
def State.hitchFrame (s : State) (p : Fin 8) (b : Bytes) : State :=
  if byteAt b 0 / 16 ≠ 1 then s.hitBad
  else match byteAt b 0 % 16 with
    | 1 => after s (execHitchTime p b 0 s)
    | 2 => after s (execHitchTimeEcho p b 0 s)
    | 3 => after s (execHitchFwd p b s)
    | 4 => after s (execUlPsum p b s)
    | 5 => after s (execGram p b s)
    | 6 => after s (execSolve p b s)
    | 7 => after s (execReady p b s)
    | 8 => after s (execCommit p b s)
    | 9 => after s (execSndDone p b s)
    | 10 => after s (execMeas p b s)
    | 11 => after s (execKeepalive p b s)
    | _ => s.hitBad

/-- The messages of one eCPRI frame from its first common header on (R284, R285); a length failure ends the frame. -/
def State.ecpri (p : Fin 8) (src : BitVec 48) : Nat → Bytes → State → State
  | 0, _, s => s
  | fuel + 1, b, s =>
    let n := 4 + beAt b 2 2
    if b.length < 4 then s.rx p .len
    else
      let m := b.take n
      let t := byteAt m 1
      let short : Bool := decide (b.length < n)
      let r : Bool × State :=
        if byteAt m 0 / 16 ≠ 1 then (!short, s.rx p .uncl)
        else if t = 5 then (if short then (false, s.rx p .len) else s.delayMessage p src m)
        else if t = 0 ∨ t = 2 then s.sarMessage p true short m
        else (!short, s.rx p .uncl)
      if r.1 && byteAt m 0 % 2 == 1 then State.ecpri p src fuel (b.drop (pad4 n)) r.2 else r.2

/-- Destination address and tag of a frame suit the port (R283), with the offset of its EtherType. -/
def PortCfg.accepts (k : PortCfg) (f : Bytes) : Option Nat :=
  let dst := beAt f 0 6
  let addr : Bool := dst == k.ownMac.toNat || dst == 0x011B19000000 || dst == 0x0180C200000E
  let tagged : Bool := beAt f 12 2 == 0x8100
  let vid := beAt f 14 2 % 4096
  if !addr || f.length < 18 then none
  else if !tagged then some 12
  else if vid == 0 || (k.vlanEn && vid == k.vid.toNat) then some 16 else none

/-- ETH_FRAME_RECEIVE (R283 to R285, R312, R319): a frame from destination address to FCS, and the FEC codewords corrected and not
correctable since the frame before it. -/
def execEthFrameReceive (port : Fin 8) (frame : Bytes) (corr uncorr : Nat) (s : State) : R :=
  .next (
    if !s.receiving port then s
    else
      let k := s.fh.ports[port].cfg
      let n := frame.length
      let body := frame.take (n - 4)
      let good : Bool := leBytes 4 (crc32 body).toNat == frame.drop (n - 4)
      let s := s.cnt port fun c => { c with fecCorr := satAdd c.fecCorr corr, fecUncorr := satAdd c.fecUncorr uncorr }
      if !good then (if k.role = 1 then s.hitBad else s).cnt port fun c => { c with rxFcs := satInc c.rxFcs }
      else
        let s := s.cnt port fun c => { c with rxBytes := c.rxBytes + BitVec.ofNat 64 n, rxFrames := satInc c.rxFrames }
        if k.maxFrame.toNat < n then s.rx port .len
        else match k.accepts frame with
          | none => s.rx port .uncl
          | some o =>
            let b := body.drop (o + 2)
            if beAt frame o 2 = 0x88F7 then s.ptpFrame port (BitVec.ofNat 48 (beAt frame 0 6)) b
            else if beAt frame o 2 = 0xAEFE then
              (if k.role = 1 then s.hitchFrame port b else State.ecpri port (BitVec.ofNat 48 (beAt frame 6 6)) n b s)
            else s.rx port .uncl)

/-- Egress at a failure (Table 10-16): messages that can move do; one partly sent, and every other, is lost and counted. -/
def State.failover (s : State) (p : Fin 8) : State :=
  let k := s.fh.ports[p].cfg
  let dest : Option (BitVec 3) := if k.backupEn && s.fh.ports[k.backup.toFin].st == .up then some k.backup else none
  let own (c l : Nat) : Bool := match toFin 8 c with
    | some c => s.ofdm.carriers[c].flow.port == BitVec.ofFin p && (s.ofdm.carriers[c].flow.moved.isNone || s.ofdm.carriers[c].flow.home.getLsbD l)
    | none => false
  let gone (m : EgressMsg) : Bool := m.port == p.val && (m.sending || dest.isNone || !own m.carrier m.layer)
  let lost := (s.fh.egress.filter gone).length
  let keep := (s.fh.egress.filter fun m => !gone m).map fun (m : EgressMsg) =>
    match dest with | some b => if m.port = p.val then { m with port := b.toNat } else m | none => m
  let s := { s with fh := { s.fh with egress := keep } }.cnt p fun c => { c with txDrop := satAdd c.txDrop lost }
  match dest with
  | none => s
  | some b =>
    let mine := (List.finRange 8).filter fun c => s.ofdm.carriers[c].flow.port == BitVec.ofFin p && s.ofdm.carriers[c].cfg.isSome
    if mine.isEmpty then s
    else
      let s := mine.foldl (fun (s : State) c => s.modCarrier c fun x => { x with flow := { x.flow with moved := some b, home := 0 } }) s
      (s.modPort p fun x => { x with onBackup := true }).postLink p 7 b.toNat

/-- PORT_FAILED (R310, R314, R539): an UP port is declared FAILED for loss of lock (0), fault ordered sets (1) or its FEC limit (2); `lane`
is the physical lane of the lowest logical lane that lost lock, and the other causes name logical lane 0's. -/
def execPortFailed (port : Fin 8) (cause : Fin 3) (lane : Fin 32) (s : State) : R :=
  .next (
    if s.fh.ports[port].st ≠ .up then s
    else
      let ls := s.fh.ports[port].cfg.laneList
      let l := if cause = 0 ∧ ls.contains lane.val then lane.val else ls.headD 0
      let s := (s.lanesDown port).modPort port fun p => { p with st := .failed, count := { p.count with failures := satInc p.count.failures } }
      ((s.postLink port (3 + cause.val) 0).raiseFault .portFailed { cls := 9, idx := 0x200 + l }).failover port)

end Sys2Proof.Machine
end

