-- ==== Sys2Proof/Machine/FamSol.lean ====
section
/-! DEFINITION. Meanings of the solver's commands and of its dispatcher (chapter 17). -/

namespace Sys2Proof.Machine

-- Commands (R490 to R496)

/-- A user slot by its number. -/
def State.kernel (s : State) (k : BitVec 2) : Kernel := if k = 1 then s.sol.k1 else s.sol.k2

/-- A slot may be used: the vendor kernel, or a user slot that is loaded and not withdrawn (R493). -/
def State.kernelReady (s : State) (k : BitVec 2) : Bool := k == 0 || ((s.kernel k).loaded && !(s.kernel k).withdrawn)

/-- A carrier selects a slot, or a SOLVER_SELECT or SOLVER_TEST naming it is pending or running (R492). -/
def State.kernelUsed (s : State) (k : BitVec 2) : Bool :=
  (List.finRange 8).any (fun c => s.ofdm.carriers[c].kernel == k)
  || (s.ym.events.any fun e => match e.body with | .config (.kernel _ j) => j == k | _ => false)
  || (s.ym.timed.any fun t => match t.act with | .cfg (.kernel _ j) _ => j == k | _ => false)
  || (s.sol.cores.toList.any fun m => match m.fgJob with | some { kind := .test _ _ _, kernel := j, .. } => j == k | _ => false)

/-- SOLVER_LOAD (R492, R550): a failed check leaves the slot empty. -/
def execSolverLoad (c : Cmd) (s : State) : R :=
  .next (s.hostCmd c 0x78 anyOp fun x =>
    let k := pf x.payload 0 0 2
    let two : Bool := k == 2
    if !(k == 1 || k == 2) || (pf x.payload 8 0 64).extractLsb' 0 6 != 0 then s.complete c.ref .badArg
    else if s.kernelUsed k then s.complete c.ref .modeConflict
    else match c.data with
      | none => s.complete c.ref .busErr
      | some b =>
        match s.verify b 3 (pf x.payload 16 0 32).toNat s.tack.readOnly with
        | some cause => ((s.setKernel two Kernel.empty (List.replicate 48 0)).verifyFail 3 cause).complete c.ref .authFail
        | none => ((s.setKernel two (imageKernel b) (measure b)).putImage (if two then 5 else 4) b (some c.ref)).finish c.ref .ok)

/-- SOLVER_SELECT (R493). -/
def execSolverSelect (c : Cmd) (s : State) : R :=
  .next (s.hostCmd c 0x79 anyOp fun x =>
    let n : Fin 8 := (pf x.payload 0 0 3).toFin
    let k := pf x.payload 1 0 2
    if x.atBad || k == 3 then s.complete c.ref .badArg
    else if !s.kernelReady k || s.ofdm.carriers[n].cfg.isNone then s.complete c.ref .notReady
    else if k ≠ 0 ∧ s.mode.cur = .array then s.complete c.ref .modeConflict
    else s.carrierEvent c.ref x n (.kernel n k))

/-- A status record (Table 17-9). -/
def State.coreRecord (s : State) (c : Fin 9) : Bytes × State :=
  let m := s.sol.cores[c]
  let ctx := if m.issues false then 1 else if m.issues true then 2 else 0
  s.record 16 [.v 4 m.standsFor.toNat, .v 2 ctx, .v 2 (if s.coreTested c then 3 else m.st.code.toNat), .u 2, .v 1 (b2n s.sol.k2.withdrawn), .v 1 (b2n s.sol.k1.withdrawn),
    .v 4 m.lastCause.toNat, .v 16 m.satcnt.toNat, .v 32 m.fgJobs.toNat, .v 32 m.fgCycles.toNat, .v 16 m.faults.toNat, .v 16 m.watchdog.toNat]

/-- SOLVER_STATUS (R496). -/
def execSolverStatus (c : Cmd) (s : State) : R :=
  .next (s.statusCmd c 0x7A 9 fun x =>
    let cs := setBits (pf x.payload 0 0 9)
    let r := cs.foldl (fun (a : Bytes × State) i => let b := a.2.coreRecord i; (a.1 ++ b.1, b.2)) ([], s)
    r.2.respond c x r.1 fun s => cs.foldl (fun (s : State) i =>
      s.modCore i fun m => { m with satcnt := 0, fgJobs := 0, fgCycles := 0, faults := 0, watchdog := 0 }) s)

-- Staging (R484, R486, R487)

/-- Undefined registers at job entry (R486): a bank and the vector registers of its context from free values. -/
def freeBank (n : Nat) : Bank :=
  { pc := Config.freeBits 14 n, s := Vector.ofFn fun i => Config.freeBits 32 (n + 1 + i.val), x := Vector.ofFn fun i => Config.freeBits 18 (n + 17 + i.val)
    xcfg := Vector.replicate 16 0
    acc := Vector.ofFn fun a => Vector.ofFn fun j => (Config.freeBits 48 (n + 33 + 64 * a.val + 2 * j.val), Config.freeBits 48 (n + 34 + 64 * a.val + 2 * j.val))
    vmask := Config.freeBits 32 (n + 289), rept := 0, wr1 := none, wr2 := none }

/-- Job entry on a context (R484, R486): registers undefined but for those that the convention sets; 32 cycles. -/
def State.jobEntry (s : State) (c : Fin 9) (bg : Bool) (kernel : BitVec 2) : State :=
  let n := s.free
  let b := freeBank n
  let b := if bg then { b with pc := b.pc &&& 0x1FFF }
    else { ((((b.wx 0 0).wx 1 0x400).wx 2 0x4400).wx 3 0x2400).wx 14 0x20000 with
      s := vset b.s 1 0
      pc := if kernel = 0 then b.pc &&& 0x1FFF else BitVec.ofNat 14 (slotBase kernel + (s.kernel kernel).entry.toNat) }
  { s with free := n + 2048 }.modCore c fun m =>
    let v := Vector.ofFn fun (i : Fin 32) => if decide (16 ≤ i.val) = bg then Vector.ofFn fun (j : Fin 32) => Config.freeBits 32 (n + 300 + 32 * i.val + j.val) else m.v[i]
    let m := { m.setBank bg b with v := v, ahead := m.ahead + 32 }
    if bg then { m with bgCyc := 32 } else { m with fgCyc := 32, fgCycles := satAdd m.fgCycles 32, ended := none }

/-- The reciprocity factor of a path in force (R175, R255, R324): magnitude in 0.001 dB and phase in 0.001°; none where no result counts. -/
def State.recip (s : State) (p : Fin 64) : Option (Int × Int) :=
  let dev : Int × Int := if s.mode.cur = .array then s.hit.kappaDev else (0, 0)
  let val (id : Nat) : Option (Int × Int) :=
    match s.calVal? { id := id, cls := 1, idx := p.val } with
    | some v => if v.valid then some ((v.now.headD 0) + dev.1, (v.now.drop 1).headD 0 + dev.2) else none
    | none => none
  let fresh : Bool := decide (s.dp ≤ (s.calRec { id := 11, cls := 1, idx := p.val }).doneAt + 589824000000)
  match (if fresh then val 11 else none) with
  | some v => some v
  | none => val 10

/-- A reciprocity factor as a word with 14 fractional bits (R255, Table 17-6). -/
def kappaWord (mag phase : Int) : BitVec 32 :=
  let a : Int := (pow10Round (2 ^ 40) 1 mag 20000 48 : Nat)
  let c := turnExp phase 360000
  let part (x : Int) : Int := fitWord 16 (rshift (a * x) 154)
  lane (part c.1) (part c.2)

/-- The element of an entry for a group and antenna, shifted to the common exponent (R169, R487). -/
def BookEntry.elem (e : BookEntry) (grp : Nat) (a : Fin 64) (exp : Nat) : BitVec 32 :=
  let v := (((e.samples[grp - e.firstG.toNat]?).getD [])[a.val]?).getD 0
  lane (rshift (reOf v) (exp - e.exp.toNat)) (rshift (imOf v) (exp - e.exp.toNat))

/-- The descriptor (Table 17-6a); reserved bits are free. -/
def State.descriptor (s : State) (c : Fin 8) (ul : Bool) (grp : Nat) (m : List (Nat × Nat)) (ants : List (Fin 64)) (exp budget : Nat) : Bytes × State :=
  let w := s.ofdm.carriers[c].wcfg
  let mask := ants.foldl (fun a p => a + 2 ^ p.val) 0
  s.record 64 ([.v 1 (b2n ul), .u 7, .v 8 m.length, .v 8 ants.length, .v 3 c.val, .u 5, .v 9 grp, .u 7, .v 5 exp, .u 3, .u 8, .v 64 mask,
    .v 16 w.sigM.toNat, .v 8 w.sigE.toNat, .u 8, .v 32 budget, .u 64] ++ (List.range 32).map fun i => Fld.v 8 (match m[i]? with | some x => x.2 | none => 0))

/-- Stage a weight job or an array stage (R175, R331, R487): descriptor, KAPPA and H, whose row i is for port p_i, all 0 where the port has no
usable value; a DL job without a factor for some path sets RECIP_INVALID. -/
def State.stageWeight (s : State) (core : Fin 9) (c : Fin 8) (ul : Bool) (slot : Tick) (grp : Nat) (m : List (Nat × Nat)) (budget : Nat) : State :=
  let ants := s.antennas c
  let es := m.filterMap fun x => s.usable c x.2 grp slot
  let exp := es.foldl (fun a e => max a e.exp.toNat) 0
  let ks := ants.map fun p => s.recip p
  let bad : Bool := !ul && (ks.any (fun k => k.isNone) || (s.mode.cur == .array && !s.hit.aligned && (match s.chain with | some (d, _) => d != 0 | none => false)))
  let s := if ul then s else s.modCarrier c fun x => { x with recipInvalid := bad }
  let d := s.descriptor c ul grp m ants exp budget
  let s := d.2.solPuts core 0 ((List.range 16).map fun i => BitVec.ofNat 32 (ofLe ((d.1.drop (4 * i)).take 4)))
  let s := if ul then s else s.solPuts core 16 (ks.map fun k => match k with | some v => kappaWord v.1 v.2 | none => 0x4000)
  let row (e : BookEntry) : List (BitVec 32) := let l := ants.map fun p => e.elem grp p exp; l ++ List.replicate (64 - l.length) 0
  m.zipIdx.foldl (fun (s : State) (x : (Nat × Nat) × Nat) =>
    s.solPuts core (256 + 64 * x.2) (match s.usable c x.1.2 grp slot with | some e => row e | none => List.replicate 64 0)) s

-- The dispatcher (R178, R474, R475)

/-- Cycles of admitted foreground work in the present window (R474). -/
def State.windowUsed (s : State) (c : Fin 9) : Nat := if s.sol.window = (s.ym.now / 65536).toNat then s.sol.used[c] else 0

/-- Count admitted cycles. -/
def State.windowTake (s : State) (c : Fin 9) (n : Nat) : State :=
  let w := (s.ym.now / 65536).toNat
  let used := if s.sol.window = w then s.sol.used else Vector.replicate 9 0
  { s with sol := { s.sol with window := w, used := vset used c (used[c] + n) } }

/-- Order of foreground work: confirmed work and array stages, earliest deadline first; then siding work in ascending group order. -/
def Job.fgKey (j : Job) : Option (Nat × Int) :=
  match j.kind with
  | .weight _ _ _ _ _ true _ | .chain _ _ _ _ _ _ _ => some (0, j.deadline)
  | .weight _ _ _ grp _ false _ => some (1, grp)
  | _ => none

/-- The next foreground job: the first of its order. -/
def State.nextFg (s : State) : Option Job :=
  (s.sol.ready.foldl (fun (b : Option (Job × (Nat × Int))) j =>
    match j.fgKey with
    | none => b
    | some k => match b with
      | none => some (j, k)
      | some x => if k.1 < x.2.1 ∨ (k.1 = x.2.1 ∧ k.2 < x.2.2) then some (j, k) else b) none).map fun x => x.1

/-- A job whose channel values are no longer all usable gives no weights: a claim takes its fallback with NO_ESTIMATE, a siding loses the group. -/
def State.unstageable (s : State) (c : Fin 8) (blk : Nat) : State :=
  (if (s.waiter blk).isSome then s.modWcount c fun n => { n with noEstimate := satInc n.noEstimate } else s).noSet blk

/-- A foreground job enters its core with what it computes from (R484, R486, R487). -/
def State.enterJob (s : State) (core : Fin 9) (j : Job) (c : Fin 8) (ul : Bool) (slot : Tick) (grp : Nat) (map : List (Nat × Nat)) (blk : Nat) : State :=
  let p := s.stageSet c ul grp slot map j.kernel blk
  let s := ((s.windowTake core j.budget).jobEntry core false j.kernel).stageWeight core c ul slot grp map j.budget
  s.modCore core fun m => { m with fgJob := some j, prep := some p }

/-- A background job may start: smoothing once the occasion's symbols have been received (R178). -/
def State.bgReady (s : State) (j : Job) : Bool :=
  match j.kind with
  | .smoothing _ => decide (j.deadline ≤ s.ym.now)
  | _ => j.fgKey.isNone

/-- SOLVER_JOB_DISPATCH (R474, R475, R484): the core's next job, foreground work within its share of the window first. -/
def execSolverJobDispatch (core : Fin 9) (s : State) : R :=
  .next (
    let m := s.sol.cores[core]
    if m.st ≠ .inService ∨ m.resetEnd.isSome ∨ m.fgJob.isSome ∨ s.coreTested core = true then s
    else
      let fg := match s.nextFg with
        | some j => if s.windowUsed core + j.budget ≤ 57344 then some j else none
        | none => none
      match fg with
      | some j =>
        if m.bgOn then s
        else
          let s := { s with sol := { s.sol with ready := s.sol.ready.erase j } }
          (match j.kind with
          | .weight c ul slot grp map _ blk => if !s.mapUsable c map grp slot then s.unstageable c blk else s.enterJob core j c ul slot grp map blk
          | .chain _ c ul slot grp map blk => s.enterJob core j c ul slot grp map blk
          | _ => s)
      | none =>
        if m.bgJob.isSome then s.modCore core fun m => { m with bgOn := true }
        else match s.sol.ready.find? s.bgReady with
          | none => s
          | some j => ({ s with sol := { s.sol with ready := s.sol.ready.erase j } }.jobEntry core true 0).modCore core fun m =>
              { m with bgJob := some j, bgOn := true })

/-- FOREGROUND_PREEMPT (R483): the background context stops at an instruction boundary, which a REPT delays. -/
def execForegroundPreempt (core : Fin 9) (s : State) : R :=
  .next (
    let m := s.sol.cores[core]
    if m.issues true && m.bg.rept == 0 && s.nextFg.isSome then s.modCore core fun m => { m with bgOn := false } else s)

-- Exit (R484, R487)

/-- The elements of a set from OUT: row i is layer l_i, packed antenna j is the j-th antenna taking part (R487). -/
def State.readOut (s : State) (core : Fin 9) (c : Fin 8) (m : List (Nat × Nat)) : List (Nat × BitVec 32) :=
  m.zipIdx.flatMap fun x => (s.antennas c).zipIdx.map fun a => (64 * x.1.1 + a.1.val, s.solWord core (0x2400 / 4 + 64 * x.2 + a.2))

/-- The elements of a set from the columns of the vendor kernel (R176, R489). -/
def State.vendorSet (s : State) (core : Fin 9) (c : Fin 8) (m : List (Nat × Nat)) : Option (List (Nat × BitVec 32)) :=
  (s.libIn core 0).weights.map fun w =>
    m.zipIdx.flatMap fun x => (s.antennas c).zipIdx.map fun a =>
      let v := ((w[x.2]?).bind fun r => r[a.2]?).getD (0, 0)
      (64 * x.1.1 + a.1.val, lane v.1 v.2)

/-- What a vendor weight job on SC8 leaves: OUT and S1 (R489, R494), with the library's saturations. What the library does not state is free. -/
def State.vendorTest (s : State) (core : Fin 9) : State × Nat :=
  let n := s.libSize core 0
  let h := s.takeFree 16
  let s := h.2.satCount core h.1.toNat
  match (if sizeOk n then (s.libIn core 0).weights else none) with
  | some w =>
    let s := s.solFree core outWord (64 * n.1)
    (w.zipIdx.foldl (fun (s : State) (r : List (Int × Int) × Nat) => s.solPuts core (outWord + 64 * r.2) (r.1.map fun v => lane v.1 v.2)) s, 0)
  | none =>
    let f := (s.solFree core outWord 2048).takeFree 1
    (f.2, if sizeOk n then 1 else f.1.toNat)

/-- SOLVER_JOB_EXIT (R177, R331, R484, R487, R489, R494): the core's foreground job ends. A user kernel's instructions have run to END and left its
weights in OUT; a vendor kernel ends after its cycle count, with what its library routines compute from what was staged. -/
def execSolverJobExit (core : Fin 9) (s : State) : R :=
  .next (
    let m := s.sol.cores[core]
    match m.fgJob with
    | none => s
    | some j =>
      let vendor : Bool := m.ended.isNone && j.kernel == 0 && decide (j.budget ≤ m.fgCyc + 32)
      if m.ended.isNone && !vendor then s
      else
        let more : Bool := s.sol.ready.any fun k => k.fgKey.isSome
        let leave (t : State) : State := t.modCore core fun m => { m with
          fgJob := none, prep := none, ended := none, fgJobs := satInc m.fgJobs, fgCycles := satAdd m.fgCycles 32, ahead := m.ahead + 32
          bgOn := m.bgJob.isSome && !more, st := if m.st = .testing then .spare else m.st }
        match j.kind with
        | .weight c _ _ _ map _ blk =>
          let w : Option (List (Nat × BitVec 32)) := if vendor then s.vendorSet core c map else if m.ended = some 0 then some (s.readOut core c map) else none
          let h := (leave s).takeFree 16
          let t := if vendor then h.2.satCount core h.1.toNat else leave s
          t.weightDone c blk (match m.prep, w with | some p, some w => some { p with words := w } | _, _ => none)
        | .chain stage c ul slot grp _ blk =>
          let h := (leave s).takeFree 16
          (match m.prep with
          | some p => (h.2.satCount core h.1.toNat).chainDone stage c ul slot grp blk (s.libIn core 0) p
          | none => leave s)
        | .test ref out err =>
          let r : State × Nat := match m.ended with | some x => (s, x.toNat) | none => s.vendorTest core
          (leave r.1).testEnd ref out err (r.1.solOut core) (leBytes 4 r.2 ++ leBytes 4 (m.fgCyc + 32))
        | _ => leave s)

/-- SOLVER_TEST (R494): one weight job on SC8. -/
def execSolverTest (c : Cmd) (s : State) : R :=
  .next (s.hostCmd c 0x7B anyOp fun x =>
    let k := pf x.payload 0 0 2
    let m := s.sol.cores[(8 : Fin 9)]
    if k == 3 then s.complete c.ref .badArg
    else if m.st ≠ .spare ∨ m.resetEnd.isSome ∨ s.coreTested 8 = true ∨ s.kernelReady k = false then s.complete c.ref .notReady
    else match c.data with
      | none => s.complete c.ref .busErr
      | some b =>
        let word (i : Nat) : BitVec 32 := BitVec.ofNat 32 (ofLe ((b.drop (4 * i)).take 4))
        let budget := s.groupCycles k (hdr b 1 1) (hdr b 2 1)
        let j : Job := { kind := .test c.ref (pf x.payload 16 0 64) c.respErr, deadline := 0, budget := budget, kernel := k }
        let s := ((s.jobEntry 8 false k).solPuts 8 0 ((List.range 2304).map word)).solPuts 8 2304 (List.replicate 2048 0)
        (s.modCore 8 fun m => { m with fgJob := some j, prep := none, st := .testing }).setStage c.ref .running)

-- Faults and recovery (R485)

/-- SOLVER_FAULT (R485): a cause of Table 17-5 other than those that the instructions above find themselves. -/
def execSolverFault (core : Fin 9) (cause : BitVec 4) (s : State) : R :=
  .next (
    let m := s.sol.cores[core]
    let busy : Bool := m.fgJob.isSome || m.bgJob.isSome
    if m.resetEnd.isNone && busy && decide (1 ≤ cause.toNat && cause.toNat ≤ 7) then s.coreFault core cause.toNat else s)

/-- SOLVER_WATCHDOG (R485): a foreground job has not ended by its budget plus 256 cycles. -/
def execSolverWatchdog (core : Fin 9) (s : State) : R :=
  .next (
    let m := s.sol.cores[core]
    match m.fgJob with
    | some j => if m.ended.isNone ∧ j.budget + 256 ≤ m.fgCyc then s.coreFault core 5 else s
    | none => s)

/-- SOLVER_CORE_RESET_END (R441, R485): 20 µs after its reset the core takes jobs again, once its recovery has begun. -/
def execSolverCoreResetEnd (core : Fin 9) (s : State) : R :=
  .next (
    let waits : Bool := s.host.arb.held.any fun f => f.code == .solver && f.res.idx == 0x100 + core.val && f.res.cls == 9 && !f.ever
    match s.sol.cores[core].resetEnd with
    | some t => if t ≤ s.dp ∧ waits = false then s.modCore core fun m => { m with resetEnd := none } else s
    | none => s)

end Sys2Proof.Machine
end

