-- ==== Sys2Proof/Machine/FamMem.lean ====
section
/-! DEFINITION. Meanings of the memories, their tests, and path retirement (chapter 19). -/

namespace Sys2Proof.Machine

-- Banks

/-- RES_CLASS 9 and the index of a bank (Table 19-2). -/
def bankRes (b : Nat) : Res := { cls := 9, idx := 0x400 + b }

/-- The memories are powered and in use: power-up has cleared them, and no low state has stopped them. -/
def State.memLive (s : State) : Bool := s.pwr.memReady && !(s.pwr.st == .nap || s.pwr.st == .deep || s.pwr.st == .off)

-- Repair (R531)

/-- Take a spare column for a bit position; none where none is free. -/
def State.repairCol (s : State) (b : Nat) (bit : BitVec 9) : Option State :=
  match (List.finRange 2).find? fun c => (s.bank b).cols[c].isNone with
  | none => none
  | some c =>
    let s := s.modBank b fun x => { x with cols := vset x.cols c (some bit) }
    some ((s.ledgerPut 1 0xF0 (bankRes b) (s.bank b).detail).postSpare 4 1 (bankRes b))

/-- Bit positions that fail in two or more rows of a bank. -/
def columnBits (fs : List MarchFail) : List (BitVec 9) :=
  ((fs.flatMap fun f => f.bits).eraseDups).filter fun i => decide (2 ≤ (fs.filter fun f => f.bits.contains i).length)

/-- What repairs have come to: the state, repairs made, and whether a failure stays. -/
abbrev Repairs := State × Nat × Bool

/-- One repair: made, or a failure that stays. -/
def Repairs.take (a : Repairs) (f : State → Option State) : Repairs :=
  match f a.1 with
  | some s => (s, a.2.1 + 1, a.2.2)
  | none => (a.1, a.2.1, true)

/-- R531: the failures of a bank take columns, then rows; the rows marked under R525 take rows too, and one that finds none stays marked. -/
def State.repairBank (s : State) (b : Nat) (fs : List MarchFail) : Repairs :=
  let cols := columnBits fs
  let rows := ((fs.filter fun f => f.bits.any fun i => !cols.contains i).map fun (f : MarchFail) => f.row).eraseDups
  let a := cols.foldl (fun (a : Repairs) i => a.take fun s => s.repairCol b i) (s, 0, false)
  let a := rows.foldl (fun (a : Repairs) r => a.take fun s => s.repairRow b r 0xF0) a
  ((a.1.bank b).marked).foldl (fun (a : Repairs) r =>
    match a.1.repairRow b (BitVec.ofNat 8 r) 0xF1 with
    | some s => (s, a.2.1 + 1, a.2.2)
    | none => a) a

/-- A failure that stays: MARCH_FAIL, and with REPAIR set MEM_UNCORR on the bank at level 1, or at level 3 where no row is free (R443). -/
def State.marchFail (s : State) (b : Nat) (row : BitVec 8) (repair : Bool) : State :=
  let s := (s.modBank b fun x => { x with bad := row }).postSpare 5 1 (bankRes b)
  if repair then s.raiseFault .memUncorr (bankRes b) (if (List.finRange 3).any fun k => (s.bank b).rows[k].isNone then 1 else 3) else s

/-- The end of the test of a bank: its failures are repaired or reported. -/
def State.bankTested (s : State) (b : Nat) (fs : List MarchFail) (repair : Bool) : Repairs :=
  let a : Repairs := if repair then s.repairBank b fs else (s, 0, !fs.isEmpty)
  if a.2.2 then (a.1.marchFail b ((fs.head?.map fun (f : MarchFail) => f.row).getD 0) repair, a.2.1, true) else a

-- March tests (R528 to R534)

/-- An operation of a march on a word: w0, w1, or a read that expects 0 or 1 in every bit (R529). -/
inductive MarchOp where
  | w (v : Bool)
  | r (v : Bool)
  deriving DecidableEq, Repr

/-- The elements of March C− and March SS (R529): the order of the words, upward, downward or either, and the operations on each word. -/
def marchElems (ss : Bool) : List (Option Bool × List MarchOp) :=
  if ss then
    [(none, [.w false]), (some true, [.r false, .r false, .w false, .r false, .w true]), (some true, [.r true, .r true, .w true, .r true, .w false]),
     (some false, [.r false, .r false, .w false, .r false, .w true]), (some false, [.r true, .r true, .w true, .r true, .w false]), (none, [.r false])]
  else
    [(none, [.w false]), (some true, [.r false, .w true]), (some true, [.r true, .w false]), (some false, [.r false, .w true]),
     (some false, [.r true, .w false]), (none, [.r false])]

/-- Operations of a march on one word. -/
def marchOps (ss : Bool) : Nat := ((marchElems ss).map fun e => e.2.length).sum

/-- Ticks of the test of one bank (R532, Table 19-3): a cycle for each operation; the preserving mode copies the 16 words of each row in 32 cycles
and restores them in 32. In traffic the engine has one cycle in 16, but for solver data. -/
def marchTicks (m : March) (traffic : Bool) : Nat :=
  let n := memWords m.memory
  let t := if m.destroy then n * marchOps m.ss else n / 16 * (64 + 16 * marchOps m.ss)
  if traffic && m.memory != 4 then 16 * t else t

/-- The mode is refused (R530, Table 19-3). -/
def State.marchRefused (s : State) (memory : Nat) (destroy : Bool) : Bool := s.mode.cur != .calibrate && (destroy || memory == 5)

/-- Banks of two marches overlap. -/
def March.overlaps (a b : March) : Bool := a.first < b.first + b.count && b.first < a.first + a.count

/-- A capture slot is being filled, or a pending SHU_CAPTURE names it. Which of slots 0 to 47 a DPD capture fills is not told: any. -/
def State.captureBusy (s : State) (k : Nat) : Bool :=
  (s.lin.caps.any fun c => decide (c.start ≤ s.dp) && (match c.shu with
    | some u => decide (48 + u.first ≤ k) && decide (k < 48 + u.first + u.nslot)
    | none => decide (k < 48)))
  || s.ym.events.any fun e => match e.body with
    | .shuCapture _ _ first n _ _ => decide (48 + first ≤ k) && decide (k < 48 + first + n)
    | _ => false

/-- A bank of a running march may start: up to 32 banks at once in CALIBRATE, else one bank of each memory, or of the solver data those
of one core (R532). A capture slot in use and a core with a foreground job defer their banks. -/
def State.bankStarts (s : State) (b : Nat) : Bool :=
  let run := s.mem.marches.flatMap fun m => m.run.map fun (x : MarchBank) => x.bank
  (if s.mode.cur = .calibrate then decide (run.length < 32)
   else if memOf b = 4 then run.all fun x => memOf x != 4 || (x - 272) / 8 == (b - 272) / 8
   else run.all fun x => memOf x != memOf b)
  && (if memOf b = 2 then !s.captureBusy (b - 192)
      else if memOf b = 4 then (match toFin 9 ((b - 272) / 8) with | some c => s.sol.cores[c].fgJob.isNone | none => true)
      else true)

/-- Contents that a destroying march takes: every word of the bank holds 0 (R530). -/
def State.wipeBank (s : State) (b : Nat) : State :=
  match memOf b with
  | 0 | 1 => s.dropWeights false
  | 2 => if b - 192 < 48 then s else { s with shu := { s.shu with caps := cellPut (b - 192) [] s.shu.caps } }
  | 3 => { s with ofdm := { s.ofdm with beams := s.ofdm.beams.filter fun x => x.1 / 256 != b - 256 } }
  | 4 =>
    match toFin 9 ((b - 272) / 8) with
    | none => s
    | some c =>
      let k := (b - 272) % 8
      { s with sol := { s.sol with cores := vmod s.sol.cores c fun m =>
          { m with data := m.data.filter fun x => x.1 / 32 % 8 != k, zeroF := m.zeroF ||| ((1#8) <<< k), zeroB := m.zeroB ||| ((1#8) <<< k) } } }
  | _ => s

/-- Change the march of a command. -/
def State.modMarch (s : State) (r : CmdRef) (f : March → March) : State :=
  { s with mem := { s.mem with marches := s.mem.marches.map fun (m : March) => if m.ref = r then f m else m } }

/-- The test of a bank begins; a core's background job waits. -/
def State.bankBegin (s : State) (m : March) (b : Nat) : State :=
  let t := marchTicks m (s.mode.cur != .calibrate)
  let go (x : March) : March := { x with todo := x.todo.erase b, run := x.run ++ [{ bank := b, start := s.dp, fin := s.dp + t }] }
  let s := s.modMarch m.ref go
  let s := { s with mem := { s.mem with lastMem := BitVec.ofNat 3 m.memory, lastBank := BitVec.ofNat 11 b, lastRow := 0 } }
  let s := match (if m.memory = 4 then toFin 9 ((b - 272) / 8) else none) with
    | some c => { s with sol := { s.sol with cores := vmod s.sol.cores c fun x => { x with bgOn := false } } }
    | none => s
  if m.destroy then s.wipeBank b else s

/-- A march whose banks are all done leaves and completes; a destroyed solver program has been loaded again (R530, R533). -/
def State.marchDone (s : State) (m : March) : State :=
  let s := { s with mem := { s.mem with marches := s.mem.marches.filter fun x => x.ref != m.ref } }
  let s := if m.destroy && m.memory == 5 then ((s.bootKernel false).bootKernel true).kernelFallback else s
  s.complete m.ref (if m.unrepaired then .hwFault else .ok) (BitVec.ofNat 32 (min m.failing 65535 + 65536 * min m.repairs 65535))

/-- Marches begin and go on: a waiting one whose banks no earlier one tests begins, or is refused if its mode no longer suits; banks
start as the limits allow; a march with nothing left completes. -/
def State.marchSweep (s : State) : State :=
  (s.mem.marches.map fun (m : March) => m.ref).foldl (fun (s : State) r =>
    match s.mem.marches.find? fun m => m.ref == r with
    | none => s
    | some m =>
      if m.waiting && s.mem.marches.any (fun x => !x.waiting && x.overlaps m) then s
      else if m.waiting && s.marchRefused m.memory m.destroy then
        { s with mem := { s.mem with marches := s.mem.marches.filter fun x => x.ref != r } }.complete r .modeConflict
      else
        let s := s.modMarch r fun x => { x with waiting := false }
        let s := m.todo.foldl (fun (s : State) b => if s.bankStarts b then s.bankBegin m b else s) s
        if m.todo.isEmpty && m.run.isEmpty then s.marchDone m else s) s

/-- MARCH_RUN (R533, R534). -/
def execMarchRun (c : Cmd) (s : State) : R :=
  .next (s.hostCmd c 0x90 anyOp fun x =>
    let mem := (pf x.payload 0 0 3).toNat
    let first := (pf x.payload 2 0 16).toNat
    let w := s.within 1 (memBanks mem) (pf x.payload 4 0 16).toNat
    let n := if memBanks mem < (pf x.payload 4 0 16).toNat then (pf x.payload 4 0 16).toNat else w.1
    let s := w.2
    let destroy := pb x.payload 1 1
    if first + n > memBanks mem || (destroy && mem == 7) then s.complete c.ref .badArg
    else if s.marchRefused mem destroy || s.inTransition || s.conv.run.isSome then s.complete c.ref .modeConflict
    else
      let m : March :=
        { ref := c.ref, memory := mem, first := memBase mem + first, count := n, ss := pb x.payload 1 0, destroy := destroy, repair := pb x.payload 1 2
          waiting := true, todo := (List.range n).map fun i => memBase mem + first + i, run := [], failing := 0, repairs := 0, unrepaired := false }
      { s.setStage c.ref .running with mem := { s.mem with marches := s.mem.marches ++ [m] } }.marchSweep)

/-- MARCH_BANK_END (R531, R533): the test of a bank ends, with the failures found in it. -/
def execMarchBankEnd (ring : Fin 16) (seq : Nat) (bank : Nat) (fails : List MarchFail) (s : State) : R :=
  let r : CmdRef := { ring := ring, seq := seq }
  .next (
    match s.mem.marches.find? fun m => m.ref == r && m.run.any fun x => x.bank == bank && decide (x.fin ≤ s.dp) with
    | none => s
    | some m =>
      let fs := fails.filter fun f => f.bank == bank && decide (f.row.toNat < bankRows bank)
      let s := if m.destroy then s.wipeBank bank else s
      let a := s.bankTested bank fs m.repair
      let put (x : March) : March :=
        { x with run := x.run.filter fun y => y.bank != bank, failing := x.failing + (fs.map fun (f : MarchFail) => f.words).sum
                 repairs := x.repairs + a.2.1, unrepaired := x.unrepaired || a.2.2 }
      let s := a.1.modMarch r put
      let s := if !m.destroy && s.mem.lastBank.toNat == bank then { s with mem := { s.mem with lastRow := BitVec.ofNat 8 (bankRows bank - 1) } } else s
      match s.mem.marches.find? fun m => m.ref == r with
      | some m => if m.todo.isEmpty && m.run.isEmpty then (s.marchDone m).marchSweep else s.marchSweep
      | none => s)

/-- A ledger record of KIND 1 loaded into its bank (R543). -/
def State.loadRepair (s : State) (r : LedgerRec) : State :=
  if r.kind ≠ 1 ∨ r.res.idx < 0x400 ∨ 0x5A0 < r.res.idx then s
  else
    let d := r.detail
    s.modBank (r.res.idx - 0x400) fun b =>
      { b with rows := Vector.ofFn fun (i : Fin 3) => if d.getLsbD (9 * i.val + 8) then some (d.extractLsb' (9 * i.val) 8) else none
               cols := Vector.ofFn fun (i : Fin 2) => if d.getLsbD (27 + 10 * i.val + 9) then some (d.extractLsb' (27 + 10 * i.val) 9) else none }

/-- POWERUP_MEMORY_READY (R528, R543, R546): the ledger's repairs are loaded; the destroying march of every bank ends with the failures
listed, and repairs them; every bank holds 0. -/
def execPowerupMemoryReady (fails : List MarchFail) (s : State) : R :=
  .next (
    if s.pwr.step ≠ .cold ∨ s.pwr.bootStage ≠ 2 ∨ s.pwr.memReady = true then s
    else
      let s := s.tack.ledger.foldl (fun (s : State) r => s.loadRepair r) s
      let banks := (((fails.map fun (f : MarchFail) => f.bank) ++ ((s.mem.banks.filter fun x => !x.2.marked.isEmpty).map fun (x : Nat × BankRec) => x.1)).eraseDups).filter fun b => b ≤ 416
      let s := banks.foldl (fun (s : State) b => (s.bankTested b (fails.filter fun f => f.bank == b && decide (f.row.toNat < bankRows b)) true).1) s
      let zero (m : SolCore) : SolCore := { m with data := [], zeroF := 0xFF, zeroB := 0xFF }
      { s with
        pwr := { s.pwr with memReady := true }
        mem := { s.mem with corr := 0, uncorr := 0, patrolAt := s.dp }
        ofdm := { s.ofdm with beams := [] }
        sol := { s.sol with cores := s.sol.cores.map zero }
        shu := { s.shu with caps := (List.range 16).map fun k => (48 + k, []) } })

-- Error correction (R525, R526)

/-- A bank is under a march. -/
def State.bankMarched (s : State) (b : Nat) : Bool := s.mem.marches.any fun m => m.run.any fun x => x.bank == b

/-- A corrected error counts; the eighth of a row marks it. -/
def State.corrected (s : State) (b : Nat) (row : BitVec 8) : State :=
  if 416 < b ∨ bankRows b ≤ row.toNat then s
  else
    let n := (match (s.bank b).rowCorr.find? fun x => x.1 == row.toNat with | some x => x.2 | none => 0) + 1
    let mark : Bool := n == 8 && !(s.bank b).marked.contains row.toNat
    let s := s.modBank b fun x =>
      { x with corr := satInc x.corr, rowCorr := (x.rowCorr.filter fun y => y.1 != row.toNat) ++ [(row.toNat, n)]
               marked := if mark then x.marked ++ [row.toNat] else x.marked }
    let s := { s with mem := { s.mem with corr := satInc s.mem.corr } }
    if mark then s.postSpare 6 1 (bankRes b) else s

/-- MEM_CORRECTED (R525). -/
def execMemCorrected (bank : Nat) (row : BitVec 8) (s : State) : R := .next (if s.memLive then s.corrected bank row else s)

/-- PATROL_SCRUB (R525): once every 10 s each word is read and each error corrected; banks under a march are skipped. -/
def execPatrolScrub (errs : List (Nat × BitVec 8)) (s : State) : R :=
  .next (
    if s.memLive && decide (s.mem.patrolAt + 9830400000 ≤ s.dp) then
      let s := errs.foldl (fun (s : State) e => if s.bankMarched e.1 then s else s.corrected e.1 e.2) s
      { s with mem := { s.mem with patrolAt := s.dp } }
    else s)

/-- A received message in the fronthaul buffers is dropped and counted (R526). -/
def State.dropHeldMsg (s : State) (n : Fin 8) (i : Nat) : State :=
  let s := match (s.fh.dlData.filter fun (d : DlData) => d.port == n.val)[i]? with
    | some d => { s with fh := { s.fh with dlData := s.fh.dlData.erase d } }
    | none => s
  s.modPort n fun p => { p with count := { p.count with rxBufDrop := satInc p.count.rxBufDrop } }

/-- The consumer of a word that cannot be corrected (R526). `what` names it: the allocation of weight memory, the port of the book's
entry, the path whose capture is filled, the beam, for fronthaul buffers the port that receives (0 to 7) or sends (8 to 15) and, above
that, which of its messages (the n-th downlink message that it holds, or the n-th that waits to be sent); a core is told by its bank, and
`cmd` is the command that needed the word of control RAM. -/
def State.uncorrConsumer (s : State) (b what : Nat) (cmd : Option CmdRef) : State :=
  match memOf b with
  | 0 =>
    match s.ofdm.claims.find? fun x => match x.how with | .served w => w.blk == what | .waiting _ _ k _ => k == what | .beam => false with
    | some x => s.fallbackClaim x
    | none => s
  | 1 => { s with ofdm := { s.ofdm with book := s.ofdm.book.filter fun e => e.port.toNat != what } }
  | 2 => (match toFin 64 what with | some p => s.capAbort p | none => s)
  | 3 => { s with ofdm := { s.ofdm with beamsBad := (what, s.ym.now) :: s.ofdm.beamsBad.filter fun e => decide (s.ym.now ≤ e.2 + 2 * subframe) } }
  | 4 => (match toFin 9 ((b - 272) / 8) with | some c => s.coreFault c 6 | none => s)
  | 5 => (match toFin 9 (b - 344) with | some c => s.coreFault c 6 | none => s)
  | 6 =>
    (match toFin 8 (what % 8) with
    | none => s
    | some n =>
      if what % 16 < 8 then s.dropHeldMsg n (what / 16)
      else
        let s := match (s.fh.egress.filter fun (m : EgressMsg) => m.port == n.val)[what / 16]? with
          | some m => { s with fh := { s.fh with egress := s.fh.egress.erase m } }
          | none => s
        s.modPort n fun p => { p with count := { p.count with txDrop := satInc p.count.txDrop } })
  | 7 => (match cmd with | some r => s.complete r .hwFault | none => s)
  | _ => s

/-- MEM_UNCORR (R526, R534): the error counts, its consumer acts, a march stops on the bank, and the arbiter is told. -/
def execMemUncorr (bank what : Nat) (row : BitVec 8) (cmd : Option (Fin 16 × Nat)) (s : State) : R :=
  .next (
    if !s.memLive || 416 < bank || decide (bankRows bank ≤ row.toNat) then s
    else
      let s := s.modBank bank fun x => { x with uncorr := satInc x.uncorr, bad := row }
      let stop (m : March) : March := { m with run := m.run.filter fun x => x.bank != bank }
      let s := { s with mem := { s.mem with uncorr := satInc s.mem.uncorr, marches := s.mem.marches.map stop } }
      let s := s.uncorrConsumer bank what (cmd.map fun (r : Fin 16 × Nat) => { ring := r.1, seq := r.2 })
      (s.raiseFault .memUncorr (bankRes bank)).marchSweep)

/-- MEM_CORR_COUNT_READ (R15, Table 19-7). -/
def execMemCorrCountRead (c : Cmd) (s : State) : R := .next (s.readNamed c 0x3004)

/-- MEM_UNCORR_COUNT_READ (R15, Table 19-7). -/
def execMemUncorrCountRead (c : Cmd) (s : State) : R := .next (s.readNamed c 0x3008)

/-- The record of a memory (R544). -/
def State.memRecord (s : State) (m : Nat) : Bytes × State :=
  let bs := (s.mem.banks.filter fun x => decide (memBase m ≤ x.1) && decide (x.1 < memBase m + memBanks m)).map fun (x : Nat × BankRec) => x.2
  let sum (f : BankRec → Nat) : Nat := (bs.map f).sum
  let rows := sum fun b => (b.rows.toList.filter fun r => r.isSome).length
  let cols := sum fun b => (b.cols.toList.filter fun r => r.isSome).length
  s.record 16 [.v 32 (min (sum fun b => b.corr.toNat) 0xFFFFFFFF), .v 16 (min (sum fun b => b.uncorr.toNat) 0xFFFF), .v 16 rows, .v 16 cols,
    .v 16 (3 * memBanks m - rows), .v 16 (2 * memBanks m - cols), .v 16 (sum fun b => b.marked.length)]

/-- MEM_STATUS (R544). -/
def execMemStatus (c : Cmd) (s : State) : R :=
  .next (s.statusCmd c 0x92 8 fun x =>
    let ms := (setBits (pf x.payload 0 0 8)).map fun (m : Fin 8) => m.val
    let r := s.records ms fun s m => s.memRecord m
    let clr (b : Nat × BankRec) : Nat × BankRec := if ms.contains (memOf b.1) then (b.1, { b.2 with corr := 0, uncorr := 0 }) else b
    r.2.respond c x r.1 fun s => { s with mem := { s.mem with banks := s.mem.banks.map clr } })

/-- LEDGER_READ (R544). -/
def execLedgerRead (c : Cmd) (s : State) : R :=
  .next (s.hostCmd c 0x93 anyOp fun x =>
    if x.select ≠ 0 then s.complete c.ref .badArg
    else s.respond c x (((s.tack.ledger.drop (pf x.payload 20 0 16).toNat).take (pf x.payload 22 0 16).toNat).flatMap fun r => r.bytes))

-- Logic BIST (R535, R536)

/-- Time and signature of a target (Table 19-4). -/
def lbistTicks (t : Nat) : Nat := match t with | 0 => 176947200 | 1 => 1966080 | 2 => 1474560 | _ => 2949120
def lbistSig (t : Nat) : BitVec 128 :=
  match t with
  | 0 => 0x9C4107E25B3DA8162F90C4E71D5AB063 | 1 => 0x3E7AC9150D4862BFA1C35E097742D8E6
  | 2 => 0x58D02B6FE934A17C06B5F28EC3D14A97 | _ => 0xB2167FC43A890E5DD74B29E16C08F3A5

/-- The paths that a target covers. -/
def lbistPaths (target index : Nat) : List (Fin 64) :=
  (List.finRange 64).filter fun p => target == 0 || (target == 1 && p.val == index) || (target == 3 && p.val / 8 == index)

/-- A target is out of range (R536). -/
def lbistRange (target index : Nat) : Bool :=
  match target with | 0 => index == 0 | 1 => index < 64 | 2 => index < 9 | _ => index < 8

/-- MODE_CONFLICT of LBIST_RUN (R536). -/
def State.lbistRefused (s : State) (target index : Nat) (lend : Bool) : Bool :=
  let ps := lbistPaths target index
  s.inTransition || s.conv.run.isSome ||
  (match target with
   | 0 => s.mode.cur != .calibrate
   | 1 => ps.any (fun p => s.radio.paths[p].retired || (!lend && s.inTraffic p))
   | 2 => (match toFin 9 index with | some c => s.sol.cores[c].st == .retired | none => false) || s.sol.cores[(8 : Fin 9)].st != .spare || s.coreTested 8
   | _ => (ps.all fun p => s.radio.paths[p].retired) || ps.any fun p => s.inTraffic p)

/-- Two runs cover logic of one another. -/
def Lbist.meets (a b : Lbist) : Bool :=
  a.target == 0 || b.target == 0 || (a.target == b.target && a.index == b.index)
  || (a.target == 1 && b.target == 3 && a.index / 8 == b.index) || (a.target == 3 && b.target == 1 && b.index / 8 == a.index)

/-- The jobs of a core are given up: the target of BIST is reset. -/
def State.coreDrop (s : State) (c : Fin 9) : State :=
  let m := s.sol.cores[c]
  let s := s.bgLost m.bgJob
  s.modCore c fun m => { m with bgJob := none, bgOn := false }

/-- A run begins: DEVICE also drops what its reset takes from the datapath (captures, weights, solver jobs). -/
def State.lbistBegin (s : State) (l : Lbist) : State :=
  let put (x : Lbist) : Lbist := if x.ref = l.ref then { x with fin := some (s.dp + lbistTicks l.target) } else x
  let s := { s with mem := { s.mem with lbist := s.mem.lbist.map put } }
  let s := (lbistPaths l.target l.index).foldl (fun (s : State) p => s.capAbort p) s
  match l.target with
  | 0 => ((List.finRange 9).foldl (fun (s : State) c => s.coreDrop c) s).dropWeights false
  | 2 => (match toFin 9 l.index with | some c => s.coreDrop c | none => s)
  | _ => s

/-- The run's target is ready: a path out of traffic, or lent and in OBS; a core without a foreground job. -/
def State.lbistReady (s : State) (l : Lbist) : Bool :=
  match l.target with
  | 1 => (match toFin 64 l.index with
      | some p => !s.inTraffic p || (s.radio.paths[p].lent && s.radio.paths[p].st == .obs && s.radio.paths[p].transit.isNone)
      | none => true)
  | 2 => (match toFin 9 l.index with | some c => s.sol.cores[c].fgJob.isNone | none => true)
  | 0 => s.sol.cores.toList.all fun m => m.fgJob.isNone
  | _ => true

/-- Runs that wait for their target begin, one at a time on what they share; one whose path has been retired ends. -/
def State.lbistSweep (s : State) : State :=
  s.mem.lbist.foldl (fun (s : State) (l : Lbist) =>
    let gone : Bool := l.target == 1 && (match toFin 64 l.index with | some p => s.radio.paths[p].retired | none => false)
    if gone && (l.fin.isNone || l.result.isSome) then
      let s := { s with mem := { s.mem with lbist := s.mem.lbist.filter fun x => x.ref != l.ref } }
      match l.result with
      | some r => s.complete l.ref r.1 r.2
      | none => s.complete l.ref .modeConflict
    else if l.fin.isSome || (s.mem.lbist.any fun x => x.fin.isSome && x.result.isNone && x.meets l) then s
    else if s.lbistReady l then s.lbistBegin l
    else match toFin 64 l.index with | some p => if l.target == 1 && s.radio.paths[p].lent then s.obsEntry p else s | none => s) s

/-- LBIST_RUN (R536). -/
def execLbistRun (c : Cmd) (s : State) : R :=
  .next (s.hostCmd c 0x91 anyOp fun x =>
    let target := (pf x.payload 0 0 2).toNat
    let index := (pf x.payload 1 0 8).toNat
    let addr := pf x.payload 8 0 64
    let lend := pb x.payload 2 0
    if !lbistRange target index || addr.extractLsb' 0 3 != 0 then s.complete c.ref .badArg
    else if s.lbistRefused target index lend then s.complete c.ref .modeConflict
    else
      let l : Lbist := { ref := c.ref, target := target, index := index, addr := addr, lend := lend, accepted := s.ym.now, fin := none, result := none }
      { s.setStage c.ref .running with mem := { s.mem with lbist := s.mem.lbist ++ [l] } }.lbistSweep)

/-- After a run the target is reset and reloaded, and its calibration results are restored as on a transition (R39, R41). -/
def State.lbistReload (s : State) (target index : Nat) : State :=
  let ps := lbistPaths target index
  let keys := (s.cal.vals.map fun (v : CalVal) => v.key).filter fun k => decide (4 ≤ k.id) &&
    (match k.path? with | some p => ps.contains p | none => target != 1 && (match k.paddock? with | some m => target == 0 || (target == 3 && m.val == index) | none => false))
  let s := s.calRestore keys false
  let s := ps.foldl (fun (s : State) p => if s.inActive p then s.seedDpd p else s) s
  match target with
  | 0 => ((s.bootKernel false).bootKernel true).kernelFallback
  | _ => s

/-- LBIST_END (R536): a run's time is over, with its signature; `wrErr` tells whether host memory refuses it. -/
def execLbistEnd (target index : Nat) (sig : BitVec 128) (wrErr : Bool) (s : State) : R :=
  .next (
    match s.mem.lbist.find? fun l => l.target == target && l.index == index && l.result.isNone && (match l.fin with | some t => decide (t ≤ s.dp) | none => false) with
    | none => s
    | some l =>
      let write : Bool := l.addr != 0
      let s := if !write then s else if wrErr then s.emit (.hostUndefined l.addr 16) else s.emit (.hostWrite l.addr (leBytes 16 sig.toNat))
      let st : Status := if write && wrErr then .busErr else if sig = lbistSig target then .ok else .hwFault
      let res := sig.extractLsb' 0 32
      let drop (s : State) : State := { s with mem := { s.mem with lbist := s.mem.lbist.filter fun x => x.ref != l.ref } }
      let s := s.lbistReload target index
      let lent : Option (Fin 64) := if target = 1 then (match toFin 64 index with | some p => if s.radio.paths[p].lent then some p else none | none => none) else none
      match lent with
      | some p =>
        let put (x : Lbist) : Lbist := if x.ref = l.ref then { x with result := some (st, res) } else x
        ({ s with mem := { s.mem with lbist := s.mem.lbist.map put } }.pathBegin p .standby none).lbistSweep
      | none => ((drop s).complete l.ref st res).lbistSweep)

-- Path retirement (R540, R541)

/-- PATH_RETIRE with OP RETIRE (R541): in NO_TIME the boundary is counted in cycles from acceptance. -/
def execPathRetire (c : Cmd) (s : State) : R :=
  .next (s.hostCmd c 0x94 (opIs 8 0 8 1) fun x =>
    let ps := pf x.payload 0 0 64
    if ps = 0 then s.complete c.ref .badArg
    else
      let due := if s.counting then s.dpOf (ceilTo subframe (s.ym.now + 98304)) else s.dp + 98304
      { s.setStage c.ref .running with mem := { s.mem with retiring := s.mem.retiring ++ [{ ref := c.ref, paths := ps, due := due }] } })

/-- RETIREMENT_EFFECT (R541): paths whose boundary has come are retired; one already retired is unaffected. -/
def execRetirementEffect (s : State) : R :=
  .next (
    let done := s.mem.retiring.filter fun r => r.due ≤ s.dp
    done.foldl (fun (s : State) (r : Retiring) =>
      ((setBits r.paths).foldl (fun (s : State) p => s.retirePath p 0xF2) s).complete r.ref .ok)
      { s with mem := { s.mem with retiring := s.mem.retiring.filter fun r => !(r.due ≤ s.dp) } })

/-- A path returns to service (R541): its results are gone from force and from every stored set, which the tack store writes. -/
def State.restorePath (s : State) (p : Fin 64) : State :=
  if s.radio.paths[p].retired then
    let r : Res := { cls := 1, idx := p.val }
    let s := s.modPath p fun x => { x with retired := false }
    let mine (k : CalKey) : Bool := k.cls == 1 && k.idx == p.val
    let cut (x : CalSet) : CalSet := { x with results := x.results.filter fun q => !mine q.1 }
    let s := { s with cal := { s.cal with
      vals := s.cal.vals.filter fun v => !mine v.key, recs := s.cal.recs.filter fun q => !mine q.key, sets := s.cal.sets.map cut } }
    let s := if s.cal.sets.isEmpty then s else s.tackPut 35 .calSet
    (s.ledgerPut 8 0xF2 r 1).postSpare 3 8 r
  else s

/-- PATH_RETIRE with OP RESTORE (R541). -/
def execPathRestore (c : Cmd) (s : State) : R :=
  .next (s.hostCmd c 0x94 (opIs 8 0 8 2) fun x =>
    let ps := pf x.payload 0 0 64
    let dead (p : Fin 64) : Bool := s.radio.synths[synthOf (paddockOf p) false].st == .retired && s.radio.synths[synthOf (paddockOf p) true].st == .retired
    if ps = 0 then s.complete c.ref .badArg
    else if s.mode.cur ≠ .calibrate then s.complete c.ref .modeConflict
    else if (setBits ps).any dead then s.complete c.ref .notReady
    else ((setBits ps).foldl (fun (s : State) p => s.restorePath p) s).complete c.ref .ok)

end Sys2Proof.Machine
end

