-- ==== Sys2Proof/Machine/FamOut.lean ====
section
/-! DEFINITION. Meanings of halter and rein outputs (R509 to R518, R520). -/

namespace Sys2Proof.Machine

-- Taking a value (R510, R511, R516, R517)

/-- An output is a halter output. -/
def isHalter (i : Fin 80) : Bool := i.val < 64

/-- The output goes to the stored range and target (R511): another range is taken after a dwell of 20,480 ticks at 0. -/
def OutCh.take (o : OutCh) (halter : Bool) (dp : Nat) : OutCh :=
  if halter && o.dwell.isNone && o.tgtRange != o.range then { o with now := 0, dwell := some (dp + 20480) } else o

/-- A VALUE takes effect (R511): one for an output held at the safe value is stored. -/
def OutCh.value (o : OutCh) (halter : Bool) (range : BitVec 2) (code : BitVec 16) (dp : Nat) : OutCh :=
  let o := { o with tgtRange := if halter then range else 0, tgt := code, gen := none, opSafe := false, valued := true }
  if o.held || o.compliance then o else o.take halter dp

/-- SAFE takes effect (R517): at once, replacing the stored value. -/
def OutCh.safe (o : OutCh) : OutCh := { o with tgtRange := 0, tgt := 0, now := 0, range := 0, dwell := none, gen := none, opSafe := true }

/-- An OUTPUT_SET takes effect at the ball. -/
def State.outputNow (s : State) (idx : Nat) (range : BitVec 2) (code : BitVec 16) (safe : Bool) : State :=
  match toFin 80 idx with
  | none => s
  | some i =>
    let t := s.modOut i fun o => if safe then o.safe else o.value (isHalter i) range code s.dp
    match toFin 64 idx with
    | some p => if s.interlock p && !t.interlock p then t.capMuted p true false else t
    | none => t

/-- HALTER_DWELL_END (R511): the new range at code 0. -/
def execHalterDwellEnd (hb : Fin 64) (s : State) : R :=
  .next (match s.sup.out[hbOf hb].dwell with
    | some t => if t ≤ s.dp then s.modOut (hbOf hb) fun o => { o with dwell := none, range := o.tgtRange, now := 0 } else s
    | none => s)

/-- COMPLIANCE (R512): the output's ball has been outside its range for 10 µs; one at 0 µA cannot be. -/
def execCompliance (hb : Fin 64) (s : State) : R :=
  .next (
    let o := s.sup.out[hbOf hb]
    if o.now = 0 ∨ o.compliance = true then s
    else ((s.modOut (hbOf hb) fun o => { o with compliance := true, now := 0 }).capMuted hb true false).postSup 2 hb.val 0)

-- Updates (R515, R516)

/-- The PRBS23 generator of ITU-T O.150, one step (R516). -/
def prbs23 (s : BitVec 23) : BitVec 23 := (s <<< 1) ||| (if s.getLsbD 22 != s.getLsbD 17 then 1 else 0)

/-- A generator's next target (R516). -/
def Gen.next (g : Gen) (tgt step : BitVec 16) : BitVec 16 × Gen :=
  let lo := g.lo.toNat
  let hi := g.hi.toNat
  let t := tgt.toNat
  let st := step.toNat
  match g.wave.toNat with
  | 3 => (BitVec.ofNat 16 (lo + (hi - lo + 1) * g.s.toNat / 2 ^ 23), { g with first := false, s := prbs23 g.s })
  | 1 =>
    if g.first then (g.lo, { g with first := false, up := true })
    else
      let up : Bool := if g.up then decide (t < hi) else decide (t ≤ lo)
      if up then (BitVec.ofNat 16 (min hi (t + st)), { g with up := true }) else (BitVec.ofNat 16 (max lo (t - st)), { g with up := false })
  | _ =>
    if g.first || decide (hi ≤ t) then (g.lo, { g with first := false }) else (BitVec.ofNat 16 (min hi (t + st)), g)

/-- One code toward another by at most a step. -/
def codeStep (now tgt : BitVec 16) (n : Nat) : BitVec 16 :=
  if now.toNat ≤ tgt.toNat then BitVec.ofNat 16 (min tgt.toNat (now.toNat + n)) else BitVec.ofNat 16 (max tgt.toNat (now.toNat - n))

/-- An output at an update tick `t` of the 32-tick grid; `free`: R510 does not hold it. The stored value of one no longer held takes effect
first. -/
def OutCh.update (o : OutCh) (halter free : Bool) (t : Int) (dp : Nat) : OutCh :=
  let o := if o.held && free then (let o := { o with held := false }; if o.valued && !o.opSafe && !o.compliance then o.take halter dp else o) else o
  let tick : Bool := t % ((o.period.toNat + 1 : Nat) * 32 : Int) == 0
  let o := match o.gen with
    | some g => if tick && !o.held && !o.compliance && !o.opSafe then (let r := g.next o.tgt o.step; { o with tgt := r.1, gen := some r.2 }) else o
    | none => o
  if o.held || o.compliance || o.opSafe || o.dwell.isSome || (halter && !o.valued) then o
  else if o.step = 0 then { o with now := o.tgt }
  else if tick then { o with now := codeStep o.now o.tgt o.step.toNat }
  else o

/-- R510 does not hold an output at the safe value. -/
def State.outFree (s : State) (i : Fin 80) : Bool :=
  match toFin 64 i.val with
  | some p => s.inActive p && !s.biasHeld
  | none => true

/-- SLEW_UPDATE (R510, R515, R516): one update tick of the 32-tick grid, counted in air time while it counts. -/
def execSlewUpdate (s : State) : R :=
  .next (
    let t : Int := if s.counting then s.ym.now else s.dp
    if t % 32 ≠ 0 ∨ s.sup.updAt = some s.dp then s
    else
      let out := Vector.ofFn fun i : Fin 80 => s.sup.out[i].update (isHalter i) (s.outFree i) t s.dp
      { s with sup := { s.sup with out := out, updAt := some s.dp } })

/-- The code whose mean duty cycle a rein output's modulator gives (R514): low while the always-on domain runs on RC30. -/
def State.reinDuty (s : State) (i : Fin 16) : BitVec 16 := if s.clk.aonXo then s.sup.out[(⟨64 + i.val, by omega⟩ : Fin 80)].now else 0

-- OUT_SET (R517)

/-- Outputs that an OUT_SET names; none where MASK or the common checks fail. -/
def outNamed (p : BitVec 320) : Option (List (Fin 80)) :=
  let m := pf p 0 0 64
  let rein := pb p 8 7
  if m = 0 ∨ (rein = true ∧ m.toNat ≥ 65536) ∨ pf p 9 0 2 = 3
      ∨ (rein = false ∧ ((pf p 10 0 16).toNat > 4095 ∨ (pf p 12 0 16).toNat > 4095)) then none
  else some ((List.finRange 80).filter fun i => if rein then 64 ≤ i.val && m.getLsbD (i.val - 64) else i.val < 64 && m.getLsbD i.val)

/-- The resource of an output (Table 2-5). -/
def outRes (i : Fin 80) : Res := if i.val < 64 then { cls := 7, idx := i.val } else { cls := 8, idx := i.val - 64 }

/-- OUT_SET VALUE and SAFE: one OUTPUT_SET event for each output, one group. -/
def State.outEvents (s : State) (c : Cmd) (x : Slot) (is : List (Fin 80)) (safe : Bool) : State :=
  let due := s.eventDue x .outputSet
  s.presentCmd c.ref x.tag (some due) (is.map fun i =>
    { kind := .outputSet, due := due, res := outRes i
      body := .output i.val (if safe then 0 else pf x.payload 9 0 2) (if safe then 0 else pf x.payload 10 0 16) safe })

/-- The path of a halter output is retired. -/
def State.outRetired (s : State) (i : Fin 80) : Bool := match toFin 64 i.val with | some p => s.radio.paths[p].retired | none => false

/-- OUT_SET VALUE (R511, R517). -/
def execOutSetValue (c : Cmd) (s : State) : R :=
  .next (s.hostCmd c 0x85 (opIs 8 0 3 1) fun x =>
    match outNamed x.payload with
    | none => s.complete c.ref .badArg
    | some is =>
      if x.atBad then s.complete c.ref .badArg
      else if is.any s.outRetired then s.complete c.ref .modeConflict
      else s.outEvents c x is false)

/-- OUT_SET SAFE (R517). -/
def execOutSetSafe (c : Cmd) (s : State) : R :=
  .next (s.hostCmd c 0x85 (opIs 8 0 3 4) fun x =>
    match outNamed x.payload with
    | none => s.complete c.ref .badArg
    | some is => if x.atBad then s.complete c.ref .badArg else s.outEvents c x is true)

/-- STEP and PERIOD of the outputs named (R515); a PERIOD above 1,023 is outside its range (R2). -/
def State.setSlew (s : State) (p : BitVec 320) (is : List (Fin 80)) : State :=
  let w := s.within 0 1023 (pf p 16 0 16).toNat
  is.foldl (fun (s : State) i => s.modOut i fun o => { o with step := pf p 14 0 16, period := BitVec.ofNat 10 w.1 }) w.2

/-- OUT_SET SLEW (R515, R517). -/
def execOutSetSlew (c : Cmd) (s : State) : R :=
  .next (s.hostCmd c 0x85 (opIs 8 0 3 2) fun x =>
    match outNamed x.payload with
    | none => s.complete c.ref .badArg
    | some is => (s.setSlew x.payload is).finish c.ref .ok)

/-- OUT_SET GEN (R516, R517); the table gives WAVE no 0, which no check covers (R2). -/
def execOutSetGen (c : Cmd) (s : State) : R :=
  .next (s.hostCmd c 0x85 (opIs 8 0 3 3) fun x =>
    match outNamed x.payload with
    | none => s.complete c.ref .badArg
    | some is =>
      let lo := pf x.payload 10 0 16
      let hi := pf x.payload 12 0 16
      if hi.toNat < lo.toNat then s.complete c.ref .badArg
      else if s.mode.cur ≠ .calibrate ∧ is.any isHalter = true then s.complete c.ref .modeConflict
      else
        let w := s.within 1 3 (pf x.payload 18 0 2).toNat
        let g : Gen := { wave := BitVec.ofNat 2 w.1, lo := lo, hi := hi, up := true, first := true, s := BitVec.allOnes 23 }
        (is.foldl (fun (s : State) i => s.modOut i fun o => { o with gen := some g }) (w.2.setSlew x.payload is)).finish c.ref .ok)

/-- OUTPUT_SET_RELEASE (R511). -/
def execOutputSetRelease (ev : Nat) (s : State) : R :=
  .next (s.release ev .outputSet (fun _ _ => none) fun s e =>
    match e.body with
    | .output idx range code safe => s.at_ (s.dpOf e.due) (.output idx range code safe)
    | _ => s)

-- SUP_CLEAR COMPLIANCE, SUP_CFG, SUP_STATUS

/-- SUP_CLEAR_COMPLIANCE (R512): the output slews from 0 to its stored value. -/
def execSupClearCompliance (c : Cmd) (s : State) : R :=
  .next (s.hostCmd c 0x86 (opIs 0 0 8 2) fun x =>
    let m := pf x.payload 8 0 64
    if m = 0 ∨ pf x.payload 16 0 120 ≠ 0 then s.complete c.ref .badArg
    else
      let is := (setBits m).filter fun p => s.sup.out[hbOf p].compliance
      (is.foldl (fun (s : State) p =>
        (s.modOut (hbOf p) fun o => let o := { o with compliance := false }; if o.held || o.opSafe then o else o.take true s.dp).postSup 4 p.val 0) s).finish c.ref .ok)

/-- SUP_CFG (R518). -/
def execSupCfg (c : Cmd) (s : State) : R :=
  .next (s.hostCmd c 0x88 anyOp fun x =>
    { s with sup := { s.sup with
        th := Vector.ofFn fun m : Fin 8 => { en := pb x.payload m.val 7, pair := pf x.payload m.val 0 3 }
        thCoef := Vector.ofFn fun i : Fin 8 => (pf x.payload (8 + 4 * i.val) 0 16, pf x.payload (10 + 4 * i.val) 0 16) } }.finish c.ref .ok)

/-- A SUP_STATUS record (R520). -/
def State.outRecord (s : State) (i : Fin 80) : Bytes × State :=
  let o := s.sup.out[i]
  let h := isHalter i
  let lock : Bool := match toFin 64 i.val with | some p => s.interlock p | none => false
  s.record 8 [.v 16 o.tgt.toNat, .v 16 (match toFin 16 (i.val - 64) with | some r => if h then o.now.toNat else (s.reinDuty r).toNat | none => 0), .v 2 (match o.gen with | some g => g.wave.toNat | none => 0),
    .v 1 (b2n (o.held || o.compliance || o.opSafe || (h && !o.valued))), .v 1 (b2n (h && o.dwell.isSome)), .v 1 (b2n (h && o.compliance)),
    .v 1 (b2n (h && o.validBias)), .v 2 (if h then o.range.toNat else 0), .u 7, .v 1 (b2n lock), .v 16 o.step.toNat]

/-- SUP_STATUS (R520): halter records first. -/
def execSupStatus (c : Cmd) (s : State) : R :=
  .next (s.hostCmd c 0x87 anyOp fun x =>
    let rein := pf x.payload 20 0 16
    if x.select = 0 ∧ rein = 0 then s.complete c.ref .badArg
    else
      let is := (List.finRange 80).filter fun i => if i.val < 64 then x.select.getLsbD i.val else rein.getLsbD (i.val - 64)
      let r := is.foldl (fun (a : Bytes × State) i => let b := a.2.outRecord i; (a.1 ++ b.1, b.2)) ([], s)
      r.2.respond c x r.1)

end Sys2Proof.Machine
end

