-- ==== Sys2Proof/Machine/FamPwr.lean ====
section
/-! DEFINITION. Meanings of supply, regulation and power states (chapter 14). -/

namespace Sys2Proof.Machine

/-- Change the power control. -/
def State.modPwr (s : State) (f : Pwr → Pwr) : State := { s with pwr := f s.pwr }

-- Muting (R407 to R409)

/-- MUTE_SET (R94, R409, R444): one MUTE event for each named path. -/
def execMuteSet (c : Cmd) (s : State) : R :=
  .next (s.hostCmd c 0x14 anyOp fun x =>
    let ps := setBits (pf x.payload 0 0 64)
    let tx := pb x.payload 8 2
    let rx := pb x.payload 8 1
    let on := pb x.payload 8 0
    let due := s.eventDue x .mute
    if x.atBad || !(tx || rx) then s.complete c.ref .badArg
    else if ps.any (fun p => s.radio.paths[p].retired) || (s.host.top.safe && !on) then s.complete c.ref .modeConflict
    else if ps.isEmpty then s.finish c.ref .ok
    else s.presentCmd c.ref x.tag (some due) (ps.map fun (p : Fin 64) => muteEvent p tx rx on true due))

/-- A MUTE finds its path in OFF (Table 3-7). -/
def State.muteCheck (s : State) (e : Event) : Option (Cause × Res) :=
  match e.body with
  | .mute p _ _ _ _ => if (s.pathBefore p (s.dpOf e.due)).st = .off then some (.pathState, e.res) else none
  | _ => none

/-- MUTE_RELEASE (R94, R124, R407 to R409): the chain changes k ticks after the due time at its ball. A TX sample of an engine tick reaches the ball k
ticks later by itself; the RX ball's samples are those of its own instant. -/
def execMuteRelease (ev : Nat) (s : State) : R :=
  .next (s.release ev .mute State.muteCheck fun s e =>
    match e.body with
    | .mute p tx rx on cmd =>
      let s := if tx then s.at_ (s.dpOf e.due) (.mute p true false on cmd) else s
      if rx then s.at_ (s.dpOf e.due + p.val % 8) (.mute p false true on cmd) else s
    | _ => s)

/-- A mute or unmute takes effect; captures that a mute cuts are discarded (R231, R465). -/
def State.muteNow (s : State) (p : Fin 64) (tx rx on cmd : Bool) : State :=
  let s := s.modPath p fun x =>
    if cmd then { x with cmdMuteTx := if tx then on else x.cmdMuteTx, cmdMuteRx := if rx then on else x.cmdMuteRx }
    else { x with symMuteTx := if tx then on else x.symMuteTx, symMuteRx := if rx then on else x.symMuteRx }
  if on then s.capMuted p tx rx else s

-- Rails and temperature (R387 to R389)

/-- RAIL_OUT (R387): a rail that its state needs leaves ±5 %. -/
def execRailOut (rail : Fin 9) (s : State) : R :=
  .next (
    if (railsNeeded s.pwr.st).getLsbD rail.val && s.pwr.rails.getLsbD rail.val then
      (s.modPwr fun p => { p with rails := p.rails &&& ~~~((1 : BitVec 9) <<< rail.val) }).raiseFault .railOut { cls := 9, idx := 0x300 + 16 * rail.val + 15 }
    else s)

/-- Phases of a buck, the spare among them (Table 14-1). -/
def phasesOf (rail : Nat) : Nat := match rail with | 1 => 7 | 2 | 3 | 4 | 5 | 6 => 3 | 7 => 2 | _ => 0

/-- PHASE_IMBALANCE (R387, R538): the spare phase takes the place of one that departs; with the spare in service RAIL_OUT is raised on
the phase, past level 1. -/
def execPhaseImbalance (rail : Fin 9) (phase : Fin 15) (s : State) : R :=
  .next (
    let r : Res := { cls := 9, idx := 0x300 + 16 * rail.val + phase.val }
    if phasesOf rail.val ≤ phase.val ∨ (rail.val, phase.val) ∈ s.pwr.phasesOut then s
    else if s.pwr.spared.any fun x => x.1 == rail.val then s.raiseFault .railOut r 3
    else
      let s := s.modPwr fun p => { p with spared := (rail.val, phase.val) :: p.spared, phasesOut := (rail.val, phase.val) :: p.phasesOut }
      (s.ledgerPut 7 1 r 0).postSpare 1 7 r)

/-- THERMAL_MUTE (R388): a die sensor at 115 °C mutes every TX chain. -/
def execThermalMute (sensor : Fin 16) (s : State) : R :=
  .next (
    if s.pwr.thermalMute then s
    else
      let s := (s.modPwr fun p => { p with thermalMute := true }).raiseFault .thermalMute { cls := 9, idx := 0x3C0 + sensor.val }
      (List.finRange 64).foldl (fun (s : State) p => s.capMuted p true false) s)

/-- THERMAL_MUTE_RELEASE (R388): every sensor below 105 °C. -/
def execThermalMuteRelease (s : State) : R := .next (s.modPwr fun p => { p with thermalMute := false })

/-- The quiesce boundary of an entry accepted now (Table 14-5). -/
def State.qOf (s : State) : Tick := ceilTo frameTicks (s.ym.now + 98304)

/-- An entry begins at A0. -/
def State.beginEntry (s : State) (t : PwrState) (cmd : Option CmdRef) : State :=
  let q := s.qOf
  s.modPwr fun p => { p with target := t, step := .beforeQ, qAt := q, stepDue := s.dp + 98304, since := s.dp, cmd := cmd, latch := none }

/-- Some wake source is enabled for a state (Table 14-7). -/
def State.wakeArmed (s : State) (t : PwrState) (alarm : Bool) : Bool :=
  let w := s.pwr.wakeCfg
  alarm || w.getLsbD 3 || w.getLsbD 7 || w.getLsbD 11 || w.getLsbD 15
  || (t == .nap && (w.getLsbD 25 || (w.getLsbD 24 && w.extractLsb' 16 8 != 0)))

/-- THERMAL_DEEP (R388, R389): a sensor at 125 °C for 1 ms. A request under way is abandoned for it; from NAP the steps that NAP has
taken stand. -/
def execThermalDeep (sensor : Fin 16) (s : State) : R :=
  .next (
    if !s.pwr.vin || s.pwr.thermalDeep || s.pwr.step == .cold || s.pwr.step == .hold then s
    else
      let s := (s.raiseFault .thermalDeep { cls := 9, idx := 0x3C0 + sensor.val }).postPwr 5 s.pwr.st 0 0 0
      let armed := s.wakeArmed .deep s.pwr.alarm.isSome
      let s := s.modPwr fun p => { p with thermalDeep := true, thermalSelf := !armed }
      if s.pwr.st = .deep then s
      else
        let cmd := s.pwr.cmd
        if s.pwr.st = .nap then s.modPwr fun p => { p with target := .deep, step := .e3, stepDue := s.dp + 32, since := s.dp, latch := none }
        else match s.pwr.step with
          | .e1 | .e2 | .e3 | .e4 =>
            let s := match cmd with | some r => s.complete r .notReady | none => s
            s.modPwr fun p => { p with target := .deep, cmd := none, latch := none }
          | _ =>
            let s := match cmd with | some r => s.complete r .notReady | none => s
            s.beginEntry .deep none)

/-- THERMAL_RECOVERY (R388, R389): every sensor below 100 °C. -/
def execThermalRecovery (s : State) : R :=
  .next (
    if !s.pwr.thermalDeep then s
    else
      let self := s.pwr.thermalSelf
      let s := s.modPwr fun p => { p with thermalDeep := false }
      if s.pwr.st = .deep ∧ s.pwr.step = .steady then
        match s.pwr.latch with
        | some src => s.startWake src.toNat
        | none => if self then s.startWake 10 else s
      else if self then s.modPwr fun p => { p with latch := some (p.latch.getD 10) } else s)

-- Requests (R397, R398)

/-- Codes of TARGET (Table 14-5a). -/
def pwrTarget (n : Nat) : Option PwrState :=
  match n with | 0 => some .active | 1 => some .idle | 2 => some .doze | 3 => some .nap | 4 => some .deep | _ => none

/-- An event of a command ring is pending. -/
def State.cmdPending (s : State) : Bool := s.ym.events.any fun e => match e.src with | .cmd _ _ => true | _ => false

/-- The active REF_IN source is a lane of a port outside WAKE_PORTS (R398). -/
def State.refOutside (s : State) : Bool :=
  if s.activeRef = 0 then false
  else match s.refSrc s.activeRef with
    | .lane l => !(List.finRange 8).any fun p => s.pwr.wakeCfg.getLsbD (16 + p.val) && s.fh.ports[p].hasLane l
    | _ => false

/-- NOT_READY of R398, and of a request that meets a sequence under way. -/
def State.pwrNotReady (s : State) (t : PwrState) (alarm : Bool) : Bool :=
  let low : Bool := t == .nap || t == .deep
  s.cmdPending || s.pwr.step != .steady || (low && (!s.clk.aonXo || s.switching .aon)) || (t == .nap && s.refOutside)
  || (low && !s.wakeArmed t alarm) || (alarm && !s.counting)

/-- POWER_STATE (R397, R398, R46, R444). -/
def execPowerState (c : Cmd) (s : State) : R :=
  .next (s.hostCmd c 0x13 anyOp fun x =>
    let alarm := pb x.payload 1 0
    let w := pf x.payload 8 0 64
    match pwrTarget (pf x.payload 0 0 3).toNat with
    | none => s.complete c.ref .badArg
    | some t =>
      if t = s.pwr.st ∨ (alarm ∧ airWordOk w = false) then s.complete c.ref .badArg
      else if s.mode.cur == .array || s.inTransition || s.conv.run.isSome || !s.cal.runs.isEmpty || s.host.top.safe
          || ((t == .idle || t == .doze) && t.code < s.pwr.st.code) then s.complete c.ref .modeConflict
      else if s.pwrNotReady t alarm then s.complete c.ref .notReady
      else
        let begin (s : State) : State :=
          if t = .active then (s.modPwr fun p => { p with cmd := some c.ref }).startWake 8 else s.beginEntry t (some c.ref)
        if alarm then
          s.presentCmd c.ref x.tag none [{ kind := .alarm, due := s.ofAirWord w, res := { cls := 9, idx := 0 }, body := .alarm }] fun (s : State) =>
            (begin s).modPwr fun p => { p with alarm := some (s.ym.nextId - 1) }
        else begin (s.setStage c.ref .running))

/-- ALARM_RELEASE (R397): the alarm fires at its due time. -/
def execAlarmRelease (ev : Nat) (s : State) : R :=
  .next (s.release ev .alarm (fun _ _ => none) fun s e => s.at_ (s.dpOf e.due) .alarmFire)

/-- WAKE_PIN (R401 to R403): a pin fires by its sense, an edge of the polarity set or its level held for 2 AON cycles; an edge
in E4 is lost, and a level counts then only at the completion. -/
def execWakePin (pin : Fin 4) (edge : Bool) (s : State) : R :=
  .next (
    if edge = s.pwr.wakeCfg.getLsbD (4 * pin.val + 1) ∨ s.pwr.step = .e4 then s
    else s.wake (pin.val + 1))

-- Registers (R406, R411, R412)

/-- PWR_WAKE_CFG_WRITE (R412). -/
def execPwrWakeCfgWrite (value : BitVec 32) (s : State) : R := .next (if s.pwr.vin then s.writeWakeCfg value 0xFFFFFFFF else s)

/-- PWR_WAKE_FAIL_CLEAR (R15). -/
def execPwrWakeFailClear (value : BitVec 32) (s : State) : R := .next (if s.pwr.vin then s.writeWakeFail value else s)

/-- RETRY (R406, R411). -/
def execRetry (value : BitVec 32) (s : State) : R := .next (if s.pwr.vin then s.writeRetry value else s)

-- Entry (R399 to R402)

/-- Synthesisers that are tuned, as a mask. -/
def State.tunedMask (s : State) : BitVec 16 :=
  BitVec.ofNat 16 ((List.finRange 16).foldl (fun (a : Nat) (i : Fin 16) =>
    let y : Synth := s.radio.synths[i]
    if y.st != .off && y.st != .retired && y.freq != 0 then a + 2 ^ i.val else a) 0)

/-- E1 at Q (R391, R399, R84, R510): traffic stops; paths, and below IDLE synthesisers, go down; command and symbol mutes end. -/
def State.entryStop (s : State) : State :=
  let idle : Bool := s.pwr.target == .idle
  let s := (s.quiesce.capDiscard fun _ => true)
  let s := s.calActive.foldl (fun (s : State) x => s.calAborted x) s
  let s := s.cal.runs.foldl (fun (s : State) r => s.complete r.ref .hwFault) s
  let s := { s.dormantLeave with cal := { s.dormantLeave.cal with runs := [] }, burst := { s.dormantLeave.burst with window := none } }
  let s := (List.finRange 64).foldl (fun (s : State) p =>
    let s := s.modPath p fun x => { x with jobs := [], run := none, cmdMuteTx := false, cmdMuteRx := false }
    match s.radio.paths[p].st with
    | .off => s
    | .sleep => if idle then s else s.pathBegin p .off none
    | _ => s.pathBegin p (if idle then .sleep else .off) none) s
  if idle then s
  else
    let tuned := if s.pwr.st = .active ∨ s.pwr.st = .idle then s.tunedMask else s.pwr.tuned
    let s := (s.modPwr fun p => { p with tuned := tuned }).epochInvalid
    { s with radio := { s.radio with synths := s.radio.synths.map fun (y : Synth) =>
        if y.st = .retired then y else { y with st := .off, op := none, jobs := [], aligned := false } } }

/-- QUIESCE_BOUNDARY (R399): Q is reached; in NO_TIME Q is 98,304 ticks after acceptance. -/
def execQuiesceBoundary (s : State) : R :=
  .next (
    if s.pwr.step = .beforeQ ∧ (if s.counting then decide (s.pwr.qAt ≤ s.ym.now) else decide (s.pwr.stepDue ≤ s.dp)) = true then
      let s := s.modPwr fun p => { p with step := .e1, stepDue := s.dp + 2048 }
      let s := s.entryStop
      if s.biasHeld then (List.finRange 64).foldl (fun (s : State) p => s.modOut (hbOf p) OutCh.hold) s else s
    else s)

/-- An abort point (R399, R412): a waiting write of PWR_WAKE_CFG takes effect; a latched wake of an enabled source abandons
the entry, whose steps are undone in the time of W8, and of W3 after a hand-off (R400). A thermal entry goes on (R388). -/
def State.abortPoint (s : State) (point : Nat) (go : State → State) : State :=
  let s := s.modPwr fun p => { p with wakeCfg := p.wakeCfgNext.getD p.wakeCfg, wakeCfgNext := none }
  match s.pwr.latch with
  | some src =>
    if s.pwr.thermalDeep || !s.wakeOk src.toNat then go s
    else
      let w8 : Nat := if s.pwr.target = .idle then 40 else 95
      let w3 : Nat := if point = 3 then (match s.pwr.target with | .deep => 200 | .nap => 10 | _ => 0) else 0
      s.modPwr fun p => { p with step := .undo, since := s.dp, stepDue := s.dp + usTicks (w3 + w8), point := BitVec.ofNat 2 point }
  | none => go s

/-- ENTRY_A1 (R399, R469): E1 is over and E2 begins; for NAP and DEEP the Shunter's channels and the marches stop. -/
def execEntryA1 (s : State) : R :=
  .next (
    if s.pwr.step = .e1 ∧ s.pwr.stepDue ≤ s.dp then
      let down : PState := if s.pwr.target = .idle then .sleep else .off
      let rest (x : Path) : Path := { x with st := if x.st = PState.off then PState.off else down, transit := none }
      let s := { s with radio := { s.radio with paths := s.radio.paths.map rest } }
      s.abortPoint 1 fun (s : State) =>
        let s := s.modPwr fun p => { p with step := .e2, stepDue := s.dp }
        if s.pwr.target = .nap ∨ s.pwr.target = .deep then
          let s := (List.finRange 16).foldl (fun (s : State) i => s.modChan i ShuChan.halt) s
          let s := s.mem.marches.foldl (fun (s : State) (m : March) => s.complete m.ref .notReady) s
          { s with mem := { s.mem with marches := [] } }
        else s
    else s)

/-- ENTRY_GATING_END (R399): A2, once the tack-store writes have committed and, for NAP and DEEP, every channel is IDLE. -/
def execEntryGatingEnd (s : State) : R :=
  let low : Bool := s.pwr.target == .nap || s.pwr.target == .deep
  .next (
    if s.pwr.step = .e2 ∧ s.tack.queue.isEmpty ∧ (low = false ∨ s.shuIdle = true) then
      s.abortPoint 2 fun s => s.modPwr fun p => { p with step := .e3, stepDue := s.dp + 32 }
    else s)

/-- TIME_KEEPER_HANDOFF (R395, R396): at a 32-tick grid point air time goes to the time keeper; for DEEP the reference PLL stops. -/
def execTimeKeeperHandoff (s : State) : R :=
  .next (
    if s.pwr.step = .e3 ∧ (s.pwr.target = .nap ∨ s.pwr.target = .deep) ∧ s.pwr.keeper = false ∧ s.ym.now % 32 = 0 then
      let s := s.modPwr fun p => { p with keeper := true, keeperAt := s.dp, stepDue := s.dp + 32 }
      let s := if s.time.ppsOut then { s with time := { s.time with ppsOut := false, ppsFall := none } }.emit (.pin "PPS_OUT" false) else s
      if s.pwr.target = .deep then s.modClk fun c => { c with pll := .off } else s
    else s)

/-- ENTRY_A3 (R399): one AON cycle after E3. -/
def execEntryA3 (s : State) : R :=
  .next (
    if s.pwr.step = .e3 ∧ s.pwr.stepDue ≤ s.dp ∧ (s.pwr.keeper = true ∨ s.pwr.target = .idle ∨ s.pwr.target = .doze) then
      s.abortPoint 3 fun s => s.modPwr fun p => { p with step := .e4, stepDue := s.dp + 128 }
    else s)

/-- What DEEP loses (Table 14-3, R469): beams, results in force, presets, kernels, captures, measurement sets, quality values. -/
def State.deepLoss (s : State) : State :=
  let s := s.ofdm.stages.foldl (fun (s : State) x => match x.cmd with | some r => s.complete r .hwFault | none => s) s
  let s := (s.setKernel false Kernel.empty s.sec.mK1).setKernel true Kernel.empty s.sec.mK2
  { s with ofdm := { s.ofdm with beams := [], stages := [] }
           cal := { s.cal with vals := s.cal.vals.map fun (v : CalVal) => { v with valid := false, moving := false, waiting := none } }
           lin := { s.lin with paths := s.lin.paths.map fun (d : Dpd) => { d with stale := true } }
           radio := { s.radio with synths := s.radio.synths.map fun (y : Synth) => { y with presets := Vector.replicate 32 Preset.empty } }
           burst := { s.burst with sets := [] }
           quality := Vector.replicate 64 Quality.reset
           sol := { s.sol with cores := s.sol.cores.map fun (c : SolCore) => { c with data := [], genF := c.genF + 1, genB := c.genB + 1, zeroF := 0, zeroB := 0, bgJob := none, fgJob := none, prep := none }, ready := [] }
           shu := { s.shu with flags := 0, caps := [], chans := s.shu.chans.map fun (c : ShuChan) => { c with db := 0 } } }

/-- Pins set to level sense that are asserted (R402), lowest first. -/
def State.levelPin (s : State) (pins : BitVec 4) : Option Nat :=
  (List.range 4).find? fun n => pins.getLsbD n && s.pwr.wakeCfg.getLsbD (4 * n + 3) && s.pwr.wakeCfg.getLsbD (4 * n + 1)

/-- Ports in electrical idle in a low state re-enter TRAINING at the wake (R390): they receive nothing until then. The recovered
clocks of their lanes are gone, with no clock-class fault where the PLL is stopped (R396). -/
def State.portsIdle (s : State) : State :=
  let stays (n : Fin 8) : Bool := s.pwr.st == .nap && s.pwr.wakeCfg.getLsbD (16 + n.val)
  let s := (List.finRange 8).foldl (fun (s : State) n =>
    if stays n || s.fh.ports[n].st == .disabled then s
    else (if s.pwr.st = .deep then s else s.lanesDown n).modPort n fun p => { p with st := .training }) s
  ([2, 3] : List (Fin 11)).foldl (fun (s : State) (i : Fin 11) =>
    match s.refSrc i.val with
    | .lane l => if s.watched (.lane l) then s else s.setMon i .fault
    | _ => s) s

/-- ENTRY_COMPLETE (R399, R402): the device is in the target state; what was latched after A3, or a level-sensed pin that is
asserted, starts a wake at once, but for a thermal DEEP. -/
def execEntryComplete (pins : BitVec 4) (s : State) : R :=
  .next (
    if s.pwr.step = .e4 ∧ s.pwr.stepDue ≤ s.dp then
      let t := s.pwr.target
      let old := s.pwr.latch
      let s := s.modPwr fun p => { p with st := t, step := .steady, latch := none, rails := p.rails &&& railsNeeded t
                                          wakeCfg := p.wakeCfgNext.getD p.wakeCfg, wakeCfgNext := none }
      let s := if t = .deep then s.deepLoss else s
      let s := if t = .nap ∨ t = .deep then s.portsIdle else s
      let s := if t = .idle ∨ t = .doze then
          let s := s.postPwr 1 t 0 0 0
          let s := match s.pwr.cmd with | some r => s.complete r .ok | none => s
          s.modPwr fun p => { p with cmd := none }
        else s
      let src : Option Nat := match old with | some x => if s.wakeOk x.toNat then some x.toNat else s.levelPin pins | none => s.levelPin pins
      match src with
      | some x => if s.pwr.thermalDeep then s.modPwr fun p => { p with latch := some (BitVec.ofNat 4 x) } else s.startWake x
      | none => if s.pwr.thermalSelf && !s.pwr.thermalDeep && t == .deep then s.startWake 10 else s
    else s)

-- Waking (R404 to R406)

/-- A synthesiser that was tuned has a usable preset for its channel (R77). -/
def State.hasPreset (s : State) (i : Fin 16) : Bool := match s.tuneOp i s.radio.synths[i].freq with | .retune _ => true | _ => false

/-- A paddock serves a configured carrier, suspended or not. -/
def State.servesAny (s : State) (k : Fin 8) : Bool := (List.finRange 8).any fun c => s.ofdm.carriers[c].cfg.isSome && (s.servingPaddocks c).contains k

/-- W8 (R404): synthesisers with (`ready`) or without a usable preset begin their retune or full calibration, and the paths of their
paddocks that serve configured carriers go to STANDBY. -/
def State.raise (s : State) (ready : Bool) : State :=
  let idle : Bool := s.pwr.st == .idle
  let mine (s : State) (i : Fin 16) : Bool := s.pwr.tuned.getLsbD i.val && s.radio.synths[i].st == .off
  let pads := (List.finRange 8).filter fun k => s.servesAny k && (if idle then ready else s.pwr.tuned.getLsbD (s.active k).val && s.hasPreset (s.active k) == ready)
  let s := if idle then s else (List.finRange 16).foldl (fun (s : State) i =>
    if mine s i && s.hasPreset i == ready then s.synthBegin i (s.tuneOp i s.radio.synths[i].freq) else s) s
  pads.foldl (fun s k => s.standbyPaths k) s

/-- A wake step begins. -/
def State.wakeEnter (s : State) (n : Nat) : State := if n = 8 then s.raise true else s

/-- What the end of a wake step leaves (Table 14-6). W3 gives air time back to DP with the error of the oscillator that kept it: none
relative to DP's own count on the XO, and up to ±3 % of the time kept on RC30 (R389). -/
def State.wakeEffect (s : State) (n : Nat) : State :=
  match n with
  | 1 => s.modPwr fun p => { p with rails := p.rails ||| 0x1C7 }
  | 2 => s.modPwr fun p => { p with rails := 0x1FF }
  | 3 =>
    let kept := s.dp - s.pwr.keeperAt
    let deep : Bool := s.clk.pll == .off
    let s := s.modPwr fun p => { p with keeper := false }
    let s := if s.clk.aonXo then s
      else
        let b := kept * 3 / 100
        let f := s.takeFree 64
        let e : Int := (f.1.toNat % (2 * b + 1) : Nat) - (b : Int)
        { f.2 with ym := { f.2.ym with now := if f.2.counting then f.2.ym.now + e else f.2.ym.now }
                   time := { f.2.time with tb2 := ((f.2.time.tb2 : Int) + e).toNat, tb := f.2.time.tb.map fun (b : Tb) => { b with count := b.count + e * 3125 * 2 ^ 30 } } }
    if deep then (s.modClk fun c => { c with pll := .holdover }).refSelect else s
  | 5 => { s with radio := { s.radio with synths := Vector.ofFn fun i : Fin 16 => { s.radio.synths[i] with presets := s.tack.nv.presets[i] } } }
  | 7 =>
    let s := s.calRestore ((s.cal.vals.map fun v => v.key).filter fun k => 4 ≤ k.id) false
    let s := s.activeSet.foldl (fun s p => s.seedDpd p) s
    let need := s.activeSet.filter fun p => (s.calSetFor s.mode.prof s.mode.plo[paddockOf p]).isNone
    let s := s.modPwr fun q => { q with needCal := BitVec.ofNat 64 (need.foldl (fun (a : Nat) (p : Fin 64) => a + 2 ^ p.val) 0) }
    ((s.bootKernel false).bootKernel true).kernelFallback
  | _ => s

/-- The device is ACTIVE again (R397, R404, R405, R395). -/
def State.awake (s : State) : State :=
  let from_ := s.pwr.wakeFrom
  let cmd := s.pwr.cmd
  let s := (s.raise false).cancelAlarm
  let s := s.modPwr fun p => { p with
    st := .active, target := .active, step := .steady, latch := none, cmd := none, attempts := 0, thermalSelf := false
    resumeAt := some (ceilTo frameTicks (s.ym.now + 983040)), resumeWake := true }
  let s := s.postPwr 2 from_ 0 s.pwr.lastWake.toNat 0
  let s := (setBits s.pwr.needCal).foldl (fun (s : State) p => s.postPwr 4 from_ 0 0 p.val) s
  let s := if from_ = .nap ∨ from_ = .deep then let b := s.servosWake.anchorBody; b.2.post 0x0A b.1 else s
  match cmd with | some r => s.complete r .ok | none => s

/-- Every synthesiser that takes part in W8's readiness is LOCKED (R404). -/
def State.synthsReady (s : State) : Bool :=
  (List.finRange 16).all fun i =>
    let y : Synth := s.radio.synths[i]
    !(s.pwr.tuned.getLsbD i.val) || y.st == .retired || y.st == .locked || (y.st == .off && !s.hasPreset i)

/-- The end of an abandoned entry's undoing (R400): W8's work is done again, and traffic resumes under R405. -/
def State.undone (s : State) : State :=
  let s := if s.pwr.st = .active then (s.raise true).raise false else s
  let s := s.modPwr fun p => { p with keeper := false }
  let s := if s.clk.pll = .off then (s.modClk fun c => { c with pll := .holdover }).refSelect else s
  let s := if s.pwr.st = .active then
      s.modPwr fun p => { p with resumeAt := some (ceilTo frameTicks (s.airOf p.since + 983040)), resumeWake := true }
    else s
  s.abandoned s.pwr.point.toNat (s.pwr.latch.getD 0)

/-- WAKE_STEP_END (R404): a step's fixed delay has passed and what it starts is ready; the next step's delay is then taken in full. Or the undoing of
an abandoned entry ends. -/
def execWakeStepEnd (s : State) : R :=
  .next (
    if s.dp < s.pwr.stepDue then s
    else match s.pwr.step with
      | .undo => s.undone
      | .wake n =>
        if n = 8 ∧ s.pwr.st ≠ .idle ∧ s.synthsReady = false then s
        else
          let s := s.wakeEffect n
          match (wakePlan s.pwr.st).find? fun x => n < x.1 with
          | some x => (s.modPwr fun p => { p with
              step := .wake x.1
              since := p.since + (s.dp - p.stepDue)
              stepDue := p.since + (s.dp - p.stepDue) + usTicks x.2 }).wakeEnter x.1
          | none => s.awake
      | _ => s)

/-- The failure record (Table 14-12). -/
def failRecord (from_ step attempts : Nat) (cause : BitVec 4) (index : BitVec 8) : BitVec 32 :=
  BitVec.ofNat 4 from_ ++ BitVec.ofNat 4 step ++ BitVec.ofNat 4 attempts ++ cause ++ (if cause = 1 then index else 0) ++ (1 : BitVec 8)

/-- Cycle at which a wake step has exceeded its timeout (R404): 4 × its delay and at least 20 µs after its start. -/
def State.wakeLimit (s : State) (n : Nat) : Nat :=
  let plan := wakePlan s.pwr.st
  let fin := match plan.find? fun x => x.1 == n with | some x => x.2 | none => 0
  let start := ((plan.filter fun x => decide (x.1 < n)).map fun (x : Nat × Nat) => x.2).foldl max 0
  s.pwr.since + usTicks start + max (usTicks (4 * (fin - start))) (usTicks 20)

/-- WAKE_STEP_TIMEOUT (R404, R406): a step has not become ready within its timeout. The wake falls back to DEEP's rails and is retried whole; the fourth failure holds the device. -/
def execWakeStepTimeout (cause : BitVec 4) (index : BitVec 8) (s : State) : R :=
  .next (match s.pwr.step with
    | .wake n =>
      if s.dp < s.wakeLimit n then s
      else
      let s := (s.modClk fun c => { c with pll := .off }).deepLoss
      let s := { s with radio := { s.radio with synths := s.radio.synths.map fun (y : Synth) =>
        if y.st = .retired then y else { y with st := .off, op := none, jobs := [], aligned := false } } }
      let s := (List.finRange 64).foldl (fun (s : State) p => s.pathOff p) s
      let s := s.modPwr fun p => { p with st := .deep, rails := railsNeeded .deep, keeper := true, keeperAt := if p.keeper then p.keeperAt else s.dp }
      if s.pwr.attempts < 4 then
        s.modPwr fun p => { p with attempts := p.attempts + 1, step := .wake 1, since := s.dp, stepDue := s.dp + 786432 }
      else
        (s.modPwr fun p => { p with step := .hold, target := .deep, fault := true
                                    wakeFail := failRecord p.wakeFrom.code n 4 cause index }).setFaultN
    | _ => s)

/-- A path has every result that a calibration set holds (R266, R405). -/
def State.calWholePath (s : State) (p : Fin 64) : Bool :=
  [4, 5, 6, 7, 8, 9, 10].all fun i => s.cal.vals.any fun v => v.key == calSubject i p && v.valid

/-- WAKE_CARRIER_RESUME (R405): at the boundary the carriers resume, each with a first-use period; one with a path that still lacks
results after DEEP stays suspended and resumes later. -/
def execWakeCarrierResume (s : State) : R :=
  .next (match s.pwr.resumeAt with
    | some t =>
      if s.pwr.resumeWake = true ∧ t ≤ s.ym.now ∧ s.pwr.st = .active ∧ s.pwr.step = .steady ∧ s.host.top.safe = false ∧ s.mode.cur ≠ .calibrate then
        let lack (p : Fin 64) : Bool := s.pwr.needCal.getLsbD p.val && !s.radio.paths[p].retired && !s.calWholePath p
        let b := ceilTo frameTicks s.ym.now
        let held := (List.finRange 8).filter fun c => s.ofdm.carriers[c].cfg.isSome && s.ofdm.carriers[c].suspended && (s.antennas c).any lack
        let s := (List.finRange 8).foldl (fun (s : State) c =>
          if s.ofdm.carriers[c].cfg.isSome && s.ofdm.carriers[c].suspended && !held.contains c then
            (s.modCarrier c fun x => { x with suspended := false, serveFrom := if s.ym.now - t < frameTicks then t else b }).firstUse c
          else s) s
        let s := if s.mode.cur = .dormant then s.dormantEnter else s
        if held.isEmpty then s.modPwr fun p => { p with resumeAt := none, resumeWake := false, needCal := 0 } else s
      else s
    | none => s)

-- Cold power-up (R410, R411, R573)

/-- The tack store and the identity outlive the supply; the first of the waiting writes, if any, is left without effect, or (when
the free bit says so) has committed (R272, R573). A partly written image slot holds nothing that verifies (R552). -/
def State.powerLost (s : State) : State :=
  let f := s.takeFree 1
  let s := f.2
  let part (k : Nat) : Option Nat := ([5, 4, 3, 2, 1, 0] : List Nat).find? fun i => imageSector i ≤ k && k < imageSector i + 256
  let s := match s.tack.queue with
    | w :: _ =>
      let s := match part w.sector, (s.tack.queue.any fun y => match y.rec_ with | .image _ _ => true | _ => false) with
        | some i, true => match toFin 6 i with
          | some i => { s with tack := { s.tack with images := vset s.tack.images i none } }
          | none => s
        | _, _ => s
      if f.1 = 1 then s.tackApply w.rec_ else s
    | [] => s
  { State.reset with
    pending := s.pending, out := s.out, free := s.free
    mem := { Mem.reset with banks := (s.mem.banks.filter fun x => !x.2.marked.isEmpty).map fun (x : Nat × BankRec) => (x.1, { BankRec.empty with marked := x.2.marked }) }
    tack := { s.tack with queue := [], read := false, crcFail := 0 }
    host := { HostIf.reset with top := { HostIf.reset.top with perstHigh := s.host.top.perstHigh } } }

/-- BROWN_OUT (R573): TX blanks, the halters go to 0 µA, the rails fall; what stood in volatile state is gone. -/
def execBrownOut (s : State) : R := .next (if s.pwr.vin then s.powerLost else s)

/-- POWER_GOOD (R410, R104, R385, R506, R569, R570): VIN rises through 2.95 V; XO_SEL and TEST_EN are sampled; a calibration of each
housekeeping converter is asked for. -/
def execPowerGood (xoSel fitted : BitVec 2) (testEn : Bool) (s : State) : R :=
  .next (
    if s.pwr.vin then s
    else
      let s := { s with dp := 0, clk := { s.clk with xoSel := xoSel, xoBad := xoSel == 3 || xoSel != fitted }, pkg := { s.pkg with testMode := testEn, clkreqLow := true }
                        tack := { s.tack with boots := s.tack.boots + 1 }
                        sup := { s.sup with conv := s.sup.conv.map fun (k : HkConv) => { k with calWait := [none] } } }
      (s.modPwr fun p => { p with vin := true, st := .active, target := .active, step := .cold, rails := 0x100 }).emit (.pin "PCIE_CLKREQ_N" false))

/-- POWERUP_RAILS_READY (R387, R410): rails 0 to 7 that are ready, in order: a rail counts once those before it do. -/
def execPowerupRailsReady (ready : BitVec 8) (s : State) : R :=
  .next (
    if !s.pwr.vin then s
    else if s.pwr.step = .cold then
      if s.clk.aonXo = false then s
      else
        let n := ((List.range 8).takeWhile fun i => ready.getLsbD i || s.pwr.rails.getLsbD i).length
        (s.modPwr fun p => { p with rails := p.rails ||| BitVec.ofNat 9 (2 ^ n - 1) }).refSelect
    else s.modPwr fun p => { p with rails := p.rails ||| (ready.setWidth 9 &&& railsNeeded p.st) })

/-- Which copy of a ×2 region, and which half of the copy, a sector holds: the sector of the other copy. -/
def twinSector (n : Nat) : Option Nat :=
  if n = 0 ∨ n = 3 then some (n + 1) else if n = 1 ∨ n = 4 then some (n - 1)
  else if 9 ≤ n ∧ n ≤ 12 then some (n + 4) else if 13 ≤ n ∧ n ≤ 16 then some (n - 4)
  else if n = 17 ∨ n = 18 then some (n + 2) else if n = 19 ∨ n = 20 then some (n - 2) else none

/-- Elements of a list whose index fails a test are dropped. -/
def dropIdx {α : Type} (l : List α) (bad : Nat → Bool) : List α := (l.zipIdx.filter fun x => !bad x.2).map fun (x : α × Nat) => x.1

/-- One bad sector of the tack store at power-up (R275, Table 9-8): the other copy serves and the bad one is rewritten; elsewhere its
records are absent. `all` lists the bad sectors. -/
def State.badSector (s : State) (all : List Nat) (n : Nat) : State :=
  let s := { s with tack := { s.tack with crcFail := satInc s.tack.crcFail } }
  let nv (f : Nv → Nv) : State := { s with tack := { s.tack with nv := f s.tack.nv } }
  let good : Bool := match twinSector n with | some m => !all.contains m | none => false
  if good then s.tackPut n .directory
  else if n = 2 then nv fun v => { v with bootFc := none, calCfg := none }
  else if n = 5 ∨ n = 6 then { s with tack := { s.tack with pub := none } }
  else if n = 7 ∨ n = 8 then { s with tack := { s.tack with cert := none } }
  else if 9 ≤ n ∧ n ≤ 12 then { s with tack := { s.tack with ledger := dropIdx s.tack.ledger fun i => i / 256 == n - 9 } }
  else if n = 17 ∨ n = 18 then nv fun v => { v with presets := Vector.ofFn fun i : Fin 16 => if i.val / 8 = n - 17 then Vector.replicate 32 Preset.empty else v.presets[i] }
  else if 22 ≤ n ∧ n ≤ 33 then nv fun v => { v with trims := dropIdx v.trims fun i => i == (n - 22) / 3 }
  else if n = 34 then nv fun v => { v with adj := Vector.replicate 64 (0, 0) }
  else if 35 ≤ n ∧ n ≤ 114 then nv fun v => { v with sets := dropIdx v.sets fun i => i == (n - 35) / 5 }
  else if 115 ≤ n ∧ n ≤ 456 then
    nv fun v => { v with keys := (v.keys.foldl (fun (a : List DpdKey × Nat) k =>
      (a.1 ++ [{ k with sets := dropIdx k.sets fun i => (a.2 + i) / 6 == n - 115 }], a.2 + k.sets.length)) ([], 0)).1 }
  else if 457 ≤ n ∧ n ≤ 520 then { s with tack := { s.tack with faultLog := dropIdx s.tack.faultLog fun i => i / 127 == n - 457 } }
  else if 521 ≤ n ∧ n ≤ 1544 then
    let slot := (([5, 4, 3, 2, 1, 0] : List Nat).find? fun i => imageSector i ≤ n).getD 0
    { s with sec := { s.sec with slotBad := s.sec.slotBad ||| ((1 : BitVec 6) <<< slot) } }
  else s

/-- A ledger record is applied (R543). -/
def State.applyLedger (s : State) (r : LedgerRec) : State :=
  let i := r.res.idx
  match r.kind.toNat with
  | 3 =>
    match toFin 9 (i - 0x100) with
    | some c =>
      let cs := vmod s.sol.cores c fun x => { x with st := .retired }
      let cs := vmod cs 8 fun x => { x with st := .inService, standsFor := BitVec.ofNat 4 c.val }
      { s with sol := { s.sol with cores := cs } }
    | none => s
  | 4 =>
    match toFin 9 i with
    | some o =>
      let s : State := { s with lin := { s.lin with obsOut := vset s.lin.obsOut o true } }
      match toFin 8 o.val with
      | some k => if s.lin.obsOut[(8 : Fin 9)] ∨ s.lin.obs8.isSome then s.noObserver k else { s with lin := { s.lin with obs8 := some k } }
      | none =>
        let t : State := { s with lin := { s.lin with obs8 := none } }
        (match s.lin.obs8 with | some k => t.noObserver k | none => t)
    | none => s
  | 5 =>
    match toFin 16 i with
    | some y =>
      let s := s.modSynth y fun x => { x with st := .retired }
      if s.active (synthPaddock y) = y then { s with radio := { s.radio with activeB := vset s.radio.activeB (synthPaddock y) (y.val % 2 == 0) } } else s
    | none => s
  | 6 => { s with fh := { s.fh with lanesRetired := s.fh.lanesRetired ||| (1 <<< (i - 0x200)) } }
  | 7 => let rp := ((i - 0x300) / 16, i % 16)
         s.modPwr fun p => { p with spared := rp :: p.spared, phasesOut := rp :: p.phasesOut }
  | 8 =>
    match toFin 64 i with
    | some p => (s.modPath p fun x => { x with retired := !r.detail.getLsbD 0 })
    | none => s
  | _ => s

/-- TACK_STORE_BOOT_READ (R275, R76, R109, R226, R543): `bad` lists the logical sectors whose records have a bad CRC. -/
def execTackStoreBootRead (bad : List Nat) (s : State) : R :=
  .next (
    if s.pwr.step ≠ .cold ∨ s.pwr.bootStage ≠ 2 ∨ s.pwr.memReady = false then s
    else
      let s := bad.foldl (fun (s : State) n => s.badSector bad n) s
      let v := s.tack.nv
      let ys : Vector Synth 16 := Vector.ofFn fun i : Fin 16 => { s.radio.synths[i] with presets := v.presets[i] }
      let fresh (k : DpdKey) : DpdKey := { k with sets := k.sets.map fun (x : DpdSet) => { x with wrote := 0 } }
      let s := { s with
        tack := { s.tack with read := true }
        radio := { s.radio with synths := ys }
        conv := { s.conv with trims := v.trims, bootFc := v.bootFc, fcN := v.bootFc.getD 32768 }
        lin := { s.lin with adj := v.adj, keys := v.keys.map fresh }
        cal := { s.cal with sets := v.sets.map fun (x : CalSet) => { x with bgAt := none }, cfg := v.calCfg.getD s.cal.cfg }
        pwr := { s.pwr with bootStage := 3 } }
      s.tack.ledger.foldl (fun s r => s.applyLedger r) s)

/-- BRINGUP_SERVICE (R31, R410). -/
def execBringupService (s : State) : R :=
  .next (
    if s.pwr.step = .cold ∧ s.pwr.bootStage = 5 ∧ s.sup.conv.toList.all (fun (k : HkConv) => k.cal.isNone && k.calWait.isEmpty) = true then
      { s with mode := ModeCtl.reset, pwr := { s.pwr with bootStage := 6, step := .steady, attempts := 0 } }
    else s)

/-- The STEP code of the row of Table 14-9 under way. -/
def State.coldStep (s : State) : Nat :=
  match s.pwr.bootStage.toNat with
  | 0 => if s.clk.mon[(1 : Fin 11)] = (.unqualified, 0) then 9 else 10
  | 1 => if s.pwr.rails = 0x1FF then 12 else 11
  | 2 => 13
  | _ => 14

/-- POWERUP_STEP_TIMEOUT (R411): the sequence restarts from rail 0, the XO kept if it has qualified; the fourth failure holds the
device in the rail set of DEEP, with VIO off too where it is what failed. -/
def execPowerupStepTimeout (cause : BitVec 4) (index : BitVec 8) (s : State) : R :=
  .next (
    if s.pwr.step ≠ .cold ∨ s.sec.recovery = true then s
    else
      let step := s.coldStep
      let n := s.pwr.attempts + 1
      let s := (s.modClk fun c => { c with pll := .off, cbPll := false, active := 0, sw := c.sw.filter fun x => x.domain == .aon })
      let s := s.modPwr fun p => { p with attempts := n, bootStage := if s.clk.aonXo then 1 else 0, rails := 0x100, memReady := false }
      if n < 4 then s
      else
        let vioDead : Bool := cause == 1 && index == 7
        (s.modPwr fun p => { p with step := .hold, fault := true, rails := if vioDead then 0x144 else 0x1C4
                                    wakeFail := failRecord 5 step 4 cause index }).setFaultN)

end Sys2Proof.Machine
end

