-- ==== Sys2Proof/Machine/FamShu.lean ====
section
/-! DEFINITION. Meanings of the Shunter DMA engine (chapter 16). -/

namespace Sys2Proof.Machine

-- Commands (R462 to R467)

/-- The program area of Table 16-1. -/
def inProgArea (a : BitVec 64) : Bool :=
  a.getLsbD 63 && a.extractLsb' 40 23 == 0 && 0x2000000 ≤ (a.extractLsb' 0 40).toNat && (a.extractLsb' 0 40).toNat < 0x2040000

/-- SHU_START (R462). The tick register takes the acceptance tick, undefined in NO_TIME (R457). -/
def execShuStart (c : Cmd) (s : State) : R :=
  .next (s.hostCmd c 0x70 anyOp fun x =>
    let i : Fin 16 := (pf x.payload 0 0 4).toFin
    let prog := pf x.payload 8 0 64
    let wb := pf x.payload 16 0 64
    if prog.extractLsb' 0 3 != 0 || (prog.getLsbD 63 && !inProgArea prog) || wb.extractLsb' 0 3 != 0 || wb.getLsbD 63 then s.complete c.ref .badArg
    else if s.shu.chans[i].st ≠ .idle then s.complete c.ref .modeConflict
    else
      let t := s.takeFree 64
      let tick : Tick := if s.counting then s.ym.now else t.1.toInt
      (t.2.modChan i fun _ => { ShuChan.reset with st := .running, prog := prog, wb := wb, tick := tick, cmd := some c.ref }).setStage c.ref .running)

/-- SHU_STOP (R463). -/
def execShuStop (c : Cmd) (s : State) : R :=
  .next (s.hostCmd c 0x71 anyOp fun x =>
    let busy := (setBits (pf x.payload 0 0 16)).filter fun i => s.shu.chans[i].st != .idle
    if busy.isEmpty then s.finish c.ref .ok
    else
      let s := busy.foldl (fun (s : State) i => s.modChan i fun h => { h.halt with stopCmds := c.ref :: h.stopCmds }) s
      s.setStage c.ref .running)

/-- Little-endian 64-bit words of a byte string. -/
def words64 (b : Bytes) : List (BitVec 64) := (List.range (b.length / 8)).map fun i => BitVec.ofNat 64 (ofLe ((b.drop (8 * i)).take 8))

/-- SHU_PROG_LOAD (R464). -/
def execShuProgLoad (c : Cmd) (s : State) : R :=
  .next (s.hostCmd c 0x72 anyOp fun x =>
    let off := (pf x.payload 0 0 32).toNat
    let len := (pf x.payload 4 0 32).toNat
    let runs (h : ShuChan) : Bool :=
      h.st != .idle && inProgArea h.prog && (let o := (h.prog.extractLsb' 0 40).toNat - 0x2000000; decide (off ≤ o) && decide (o < off + len))
    if off % 8 ≠ 0 ∨ len % 8 ≠ 0 ∨ (pf x.payload 8 0 3) ≠ 0 ∨ len = 0 ∨ off + len > 262144 then s.complete c.ref .badArg
    else if s.shu.chans.toList.any runs then s.complete c.ref .modeConflict
    else match c.data with
      | none => s.complete c.ref .busErr
      | some b => { s with shu := { s.shu with prog := cellPuts (off / 8) (words64 (b.take len)) s.shu.prog } }.finish c.ref .ok)

/-- SHU_CAPTURE (R465): one OBS_CAPTURE event; NSLOT × 268,435,456/FC_N ticks. -/
def execShuCapture (c : Cmd) (s : State) : R :=
  .next (s.hostCmd c 0x73 anyOp fun x =>
    let p : Fin 64 := (pf x.payload 0 0 6).toFin
    let src := (pf x.payload 1 0 1).toNat
    let flag := (pf x.payload 2 0 6).toNat
    let first := (pf x.payload 3 0 4).toNat
    let n := (pf x.payload 4 0 5).toNat
    if first + n > 16 || n == 0 || x.atBad then s.complete c.ref .badArg
    else if !s.inActive p then s.complete c.ref .modeConflict
    else if src = 0 ∧ s.obsOf p = none then s.complete c.ref .notReady
    else
      let len := (cdiv ((n : Int) * 268435456) s.conv.fcN.toNat).toNat
      let res : Res := if src = 0 then { cls := 5, idx := (s.obsOf p).getD 0 } else { cls := 1, idx := p.val }
      s.presentCmd c.ref x.tag none [{ kind := .obsCapture, due := s.eventDue x .obsCapture, res := res, body := .shuCapture p src first n len flag }])

/-- SHU_CAPTURE_COMPLETE (R465): the capture that fills the slots from `slot` on has taken its samples, 16,384 for each slot. -/
def execShuCaptureComplete (slot : Nat) (samples : List (BitVec 32)) (s : State) : R :=
  .next (match s.lin.caps.find? fun k => decide (k.fin ≤ s.dp) && (match k.shu with | some u => 48 + u.first == slot | none => false) with
    | none => s
    | some k =>
      match k.shu with
      | none => s
      | some u =>
        if samples.length ≠ 16384 * u.nslot then s else
        let parts := (List.range u.nslot).map fun j => (samples.drop (16384 * j)).take 16384
        let m := BitVec.twoPow 64 u.flag
        { s with
            lin := { s.lin with caps := s.lin.caps.erase k }
            shu := { s.shu with caps := cellPuts slot parts s.shu.caps }.flagOp 0 m }.complete u.ref .ok)

/-- SHU_FLAG (R466): clears first, then sets. A flag set in this cycle stays set (R458). -/
def execShuFlag (c : Cmd) (s : State) : R :=
  .next (s.hostCmd c 0x75 anyOp fun x =>
    { s with shu := s.shu.flagOp (pf x.payload 8 0 64) (pf x.payload 0 0 64) }.finish c.ref .ok)

/-- A record of SHU_STATUS (R467); index and bytes of an IDLE channel are undefined. -/
def State.shuRecord (s : State) (i : Fin 16) : Bytes × State :=
  let h := s.shu.chans[i]
  let idle : Bool := h.st == .idle
  s.record 16 [.u 3, .v 3 h.loops.length, .v 2 h.st.code.toNat, .v 8 h.db.toNat, .u 16,
    (if idle then .u 32 else .v 32 h.pc), (if idle then .u 64 else .v 64 h.bytes)]

/-- SHU_STATUS (R467). -/
def execShuStatus (c : Cmd) (s : State) : R :=
  .next (s.statusCmd c 0x74 16 fun x =>
    let r := (setBits (pf x.payload 0 0 16)).foldl (fun (a : Bytes × State) i => let b := a.2.shuRecord i; (a.1 ++ b.1, b.2)) ([], s)
    r.2.respond c x r.1)

/-- SHU_BAD_COUNT_READ (R470). -/
def execShuBadCountRead (c : Cmd) (s : State) : R := .next (s.readNamed c 0x180C)

/-- SHU_DB (R457): one count more, saturating; a host access (R390). -/
def execShuDb (ch : Fin 16) (s : State) : R := .next ((s.modChan ch fun h => { h with db := satInc h.db }).wake 7)

-- Fetching (R453, R454)

/-- Instructions (Table 16-2), with KIND. -/
inductive ShuOp where
  | move | loop | waitAbs | waitRel | waitFlag | waitDb | sigEvent | sigMsix | sigSet | sigClear
  deriving DecidableEq, Repr

/-- The instruction of word 0; none for a reserved OP. -/
def shuOpOf (w : BitVec 64) : Option ShuOp :=
  match (w.extractLsb' 60 4).toNat, (w.extractLsb' 57 2).toNat with
  | 1, _ => some .move
  | 2, _ => some .loop
  | 3, 0 => some .waitAbs
  | 3, 1 => some .waitRel
  | 3, 2 => some .waitFlag
  | 3, _ => some .waitDb
  | 4, 0 => some .sigEvent
  | 4, 1 => some .sigMsix
  | 4, 2 => some .sigSet
  | 4, _ => some .sigClear
  | _, _ => none

/-- The reserved bits of word 0 (Table 16-2) with what a flag or vector value above its range sets (R454). -/
def ShuOp.reserved : ShuOp → BitVec 64
  | .move => 0x01FFFFFF00000000
  | .loop => 0x07FF0000FFFF0000
  | .waitAbs => 0x0100000000000000
  | .waitRel => 0x01FFFFFF00000000
  | .waitFlag => 0x01FF0000FFFFFEC0
  | .waitDb => 0x01FF0000FFFFFFFF
  | .sigEvent => 0x01FFFFFFFFFF0000
  | .sigMsix => 0x01FFFFFFFFFFFFE0
  | .sigSet | .sigClear => 0x01FFFFFFFFFFFFC0

/-- Words of an instruction. -/
def ShuOp.size : ShuOp → Nat
  | .move => 4
  | _ => 1

/-- Word `j` of a program in the program area; an unwritten word is undefined (R472), and none lies past the area. -/
def State.progWord (s : State) (h : ShuChan) (j : Nat) : Option (BitVec 64) × State :=
  let k := ((h.prog.extractLsb' 0 40).toNat - 0x2000000) / 8 + j
  if 32768 ≤ k then (none, s)
  else match cellGet k s.shu.prog with
    | some w => (some w, s)
    | none => let f := s.takeFree 64; (some f.1, f.2)

/-- The words of an instruction: `words` is what host memory answers, none for an error. The flag says that the fetch ran past
the program area. -/
def State.shuWords (s : State) (h : ShuChan) (words : Option (List (BitVec 64))) (n : Nat) : Option (List (BitVec 64)) × Bool × State :=
  if h.prog.getLsbD 63 then
    let r := (List.range n).foldl (fun (a : Option (List (BitVec 64)) × State) j =>
      match a.1 with
      | none => a
      | some l => let w := a.2.progWord h (h.pc + j); (w.1.map fun x => l ++ [x], w.2)) (some [], s)
    (r.1, r.1.isNone, r.2)
  else match words with
    | some l => if l.length < n then (none, false, s) else (some (l.take n), false, s)
    | none => (none, false, s)

/-- The program of a channel ends with a status (R461). -/
def ShuChan.endWith (h : ShuChan) (st : Status) : ShuChan := { h with st := .running, wait := none, waitEnd := none, ending := some st }

/-- Where execution goes after the instruction at `idx` (R456): a next pass, or past the LOOPs that end there. -/
def ShuChan.loopEnd (h : ShuChan) (idx next : Nat) : List ShuLoop → ShuChan
  | [] => { h with pc := next, loops := [] }
  | l :: ls =>
    if l.target = idx then
      if l.i + 1 < l.count then { h with pc := l.body, loops := { l with i := l.i + 1 } :: ls }
      else if l.last then ({ h with loops := ls }).endWith .ok
      else ShuChan.loopEnd h idx next ls
    else { h with pc := next, loops := l :: ls }

/-- The instruction at the index of the channel is done; `n` words. -/
def ShuChan.advance (h : ShuChan) (n : Nat) (last : Bool) : ShuChan :=
  if last then h.endWith .ok else ({ h with st := .running, wait := none, waitEnd := none }).loopEnd h.pc (h.pc + n) h.loops

/-- Fetch and check the instruction of a running channel (R454), and execute it if it is the one named: `bad` is what its own
checks find wrong. -/
def State.shuExec (s : State) (ch : Fin 16) (words : Option (List (BitVec 64))) (op : ShuOp)
    (bad : ShuChan → List (BitVec 64) → Bool) (f : State → ShuChan → List (BitVec 64) → State) : State :=
  let h := s.shu.chans[ch]
  if h.st != .running || h.ending.isSome then s
  else
    let r := s.shuWords h words 1
    match r.1 with
    | none => r.2.2.modChan ch fun h => h.endWith (if r.2.1 then .badArg else .busErr)
    | some w0 =>
      let w := w0.headD 0
      match shuOpOf w with
      | none => r.2.2.modChan ch fun h => h.endWith .badArg
      | some o =>
        if o ≠ op then s
        else
          let r := s.shuWords h words op.size
          match r.1 with
          | none => r.2.2.modChan ch fun h => h.endWith (if r.2.1 then .badArg else .busErr)
          | some ws =>
            let w := ws.headD 0
            let past : Bool := decide (32767 < h.pc + op.size) && !w.getLsbD 59 || decide (32768 < h.pc + op.size)
            if w &&& op.reserved != 0 || past || bad h ws then r.2.2.modChan ch fun h => h.endWith .badArg
            else f r.2.2 h ws

/-- No further check. -/
def noCheck : ShuChan → List (BitVec 64) → Bool := fun _ _ => false

-- MOVE (R455, R459, R460)

/-- One bit of the CRC-32C, reflected (R460). -/
def crc32cStep (r : BitVec 32) : BitVec 32 := if r.getLsbD 0 then (r >>> 1) ^^^ 0x82F63B78 else r >>> 1

/-- One byte of the CRC-32C. -/
def crc32cByte (r : BitVec 32) (b : Byte) : BitVec 32 := (List.range 8).foldl (fun r _ => crc32cStep r) (r ^^^ b.setWidth 32)

/-- Regions of Table 16-1: offset, size. -/
def shuRegions : List (Nat × Nat) :=
  [(0, 0x1000000), (0x1000000, 0x800000), (0x1800000, 0x400000), (0x1C00000, 0x100000), (0x2000000, 0x40000), (0x3000000, 0x800000)]

/-- A source range keeps to one region of Table 16-1, or to host memory (R451, R452). -/
def shuSrcOk (a : BitVec 64) (len : Nat) : Bool :=
  if a.getLsbD 63 then
    let o := (a.extractLsb' 0 40).toNat
    a.extractLsb' 40 23 == 0 && shuRegions.any fun r => r.1 ≤ o && o + len ≤ r.1 + r.2
  else a.toNat + len ≤ 2 ^ 63

/-- LEN, SRC and DST of a MOVE for iteration `i` (R455). -/
def moveLen (ws : List (BitVec 64)) : Nat := (ws.headD 0).toNat % 2 ^ 32
def moveSrc (ws : List (BitVec 64)) (i : Nat) : BitVec 64 :=
  let a := (ws[1]?).getD 0
  if (ws.headD 0).getLsbD 58 then a + BitVec.ofNat 64 (i * moveLen ws) else a
def moveDst (ws : List (BitVec 64)) (i : Nat) : BitVec 64 :=
  let a := (ws[2]?).getD 0
  if (ws.headD 0).getLsbD 57 then a + BitVec.ofNat 64 (i * moveLen ws) else a

/-- The iteration index of the innermost enclosing LOOP, or 0. -/
def ShuChan.iter (h : ShuChan) : Nat := match h.loops with | l :: _ => l.i | [] => 0

/-- What R454 finds wrong with a MOVE. -/
def moveBad (h : ShuChan) (ws : List (BitVec 64)) : Bool :=
  let n := moveLen ws
  let a := moveSrc ws h.iter
  let d := moveDst ws h.iter
  n == 0 || decide (16777216 < n) || n % 4 != 0 || a.extractLsb' 0 2 != 0 || d.extractLsb' 0 2 != 0 || !shuSrcOk a n
  || d.getLsbD 63 || decide (2 ^ 63 < d.toNat + n)

/-- A capture slot is being filled. -/
def State.slotFilling (s : State) (k : Nat) : Bool :=
  s.lin.caps.any fun c => decide (c.start ≤ s.dp) && (match c.shu with | some u => decide (48 + u.first ≤ k) && decide (k < 48 + u.first + u.nslot) | none => false)

/-- The image of a TACK image slot that a logical sector belongs to, with its first sector (Table 9-8). -/
def State.imageAt (s : State) (sector : Nat) : Option (Nat × Bytes) :=
  (List.finRange 6).findSome? fun i =>
    let a := imageSector i.val
    let n := if i.val < 2 then 256 else 128
    if a ≤ sector ∧ sector < a + n then (s.tack.images[i]).map fun x => (a, x.bytes) else none

/-- The sets that weight memory holds (R148, R149): of claims, confirmed ones, of sidings, and of the array. -/
def State.memSets (s : State) : List WSet :=
  let sd (v : Vector (Option Siding) 8) : List WSet := v.toList.flatMap fun (x : Option Siding) =>
    match x with | some y => y.groups.filterMap fun (g : SidingGroup) => g.set | none => []
  (s.ofdm.claims.filterMap fun (x : Claim) => match x.how with | .served w => some w | .waiting _ _ _ w => w | .beam => none)
  ++ s.ofdm.confirmed ++ sd s.ofdm.sidingsDl ++ sd s.ofdm.sidingsUl ++ s.hit.groups.filterMap fun (g : ChainGroup) => g.set

/-- The word of a set that an offset of weight memory names, for a set at a half block: none outside it. -/
def setWord (ul : Bool) (place o : Nat) : Option Nat :=
  let base := if ul then 4096 * (place % 4096) else 8192 * (place % 2048)
  let size := if ul then 4096 else 8192
  if base ≤ o ∧ o < base + size then some ((o - base) / 4) else none

/-- A word of weight memory (R148), of which the device says nowhere which block holds which set; none where it is undefined. -/
def State.weightWord (s : State) (o : Nat) : Option (BitVec 32) :=
  let device := s.memSets.findSome? fun (w : WSet) => (setWord w.ul (Config.blockPlace w.blk) o).map fun i => w.elem (i / 64) (i % 64)
  let section_ (x : Section) : Option (BitVec 32) :=
    match x.source, s.ofdm.carriers[x.carrier].cfg with
    | .baseband ws, some k =>
      if x.fallback || decide (s.slotEnd x.carrier x.slot ≤ s.ym.now) then none
      else (ws.filter fun g => !x.fbGroups.contains g.1).findSome? fun g =>
        match setWord x.ul (Config.basebandPlace x.id g.1) o with
        | none => none
        | some i =>
          if (if x.ul then k.ulLayers.toNat else k.dlLayers.toNat) ≤ i / 64 then some 0
          else (x.layers.findIdx? fun l => l == i / 64).bind fun j => g.2[j]?.bind fun r => r[i % 64]?
    | _, _ => none
  match device with
  | some w => some w
  | none => s.ofdm.sections.findSome? section_

/-- A word of the channel book (R169), of which the device says nowhere which slot holds which sample. -/
def State.bookWord (s : State) (o : Nat) : Option (BitVec 32) :=
  s.ofdm.book.findSome? fun (e : BookEntry) =>
    (e.samples.zipIdx.find? fun r => Config.bookSlot e.port.toNat e.seq.toNat r.2 % 32768 == o / 256).bind fun r => r.1[o % 256 / 4]?

/-- Device bytes that the model holds, by 4 KiB page or slot: what starts at `base`, as far as it is held. -/
def State.devChunk (s : State) (o : Nat) : Option (Nat × Bytes) :=
  let word (w : Option (BitVec 32)) : Option (Nat × Bytes) := w.map fun v => (o / 4 * 4, leBytes 4 v.toNat)
  if o < 0x1000000 then word (s.weightWord o)
  else if o < 0x1800000 then word (s.bookWord (o - 0x1000000))
  else if o < 0x1C00000 then
    let k := (o - 0x1800000) / 65536
    if k < 48 ∨ s.slotFilling k = true then none
    else match cellGet k s.shu.caps with
      | none => none
      | some [] => some (o / 4 * 4, [0, 0, 0, 0])
      | some l => some (0x1800000 + 65536 * k, l.flatMap fun w => leBytes 4 w.toNat)
  else if o < 0x1D00000 then
    let k := (o - 0x1C00000) / 256
    let b : List (BitVec 32) := match s.ofdm.beams.find? fun b => b.1 == k with | some b => b.2 | none => List.replicate 64 0
    some (0x1C00000 + 256 * k, b.flatMap fun w => leBytes 4 w.toNat)
  else if o < 0x2040000 then
    let k := (o - 0x2000000) / 8
    (cellGet k s.shu.prog).map fun w => (0x2000000 + 8 * k, leBytes 8 w.toNat)
  else (s.imageAt ((o - 0x3000000) / 4096)).map fun x => (0x3000000 + 4096 * x.1, x.2)

/-- Four bytes of device memory; undefined where the model holds none. -/
def State.devWord (s : State) (o : Nat) : Bytes × State :=
  match s.devChunk o with
  | some (base, b) =>
    let w := (b.drop (o - base)).take 4
    if w.length = 4 then (w, s) else s.freeBytes 4
  | none => s.freeBytes 4

/-- A read of device memory, in ascending address. -/
def State.devRead (s : State) (o len : Nat) : Bytes × State :=
  (List.range (len / 4)).foldl (fun (a : Bytes × State) i => let b := a.2.devWord (o + 4 * i); (a.1 ++ b.1, b.2)) ([], s)

/-- A range meets a sector of IDENTITY or ROLLBACK (R452). -/
def deniedRead (o len : Nat) : Bool :=
  0x3000000 ≤ o && (let a := (o - 0x3000000) / 4096; let b := (o - 0x3000000 + len - 1) / 4096; decide (a ≤ 8) && decide (3 ≤ b))

/-- The data of a MOVE, or its CODE (Table 16-3). `src` is what the source answers, none for an error. -/
def State.moveData (s : State) (a : BitVec 64) (len : Nat) (src : Option Bytes) : (Bytes ⊕ Nat) × State :=
  if a.getLsbD 63 then
    let o := (a.extractLsb' 0 40).toNat
    if deniedRead o len then (.inr 4, s)
    else match src with
      | none => (.inr 3, s)
      | some _ => let r := s.devRead o len; (.inl r.1, r.2)
  else match src with
    | none => (.inr 1, s)
    | some b =>
      if len ≤ b.length then (.inl (b.take len), s)
      else let f := s.freeBytes (len - b.length); (.inl (b ++ f.1), f.2)

/-- EXECS of the MOVE at the channel's index, with this execution (R459). -/
def ShuChan.execs1 (h : ShuChan) : BitVec 16 := satInc (match h.execs.find? fun e => e.1 == h.pc with | some e => e.2 | none => 0)

/-- The write-back of word 3 (R459, Table 16-3); its error ends the program with BUS_ERR. -/
def State.moveBack (s : State) (ch : Fin 16) (code : Nat) (wbErr : Bool) : State :=
  let h := s.shu.chans[ch]
  let n := h.execs1
  let r := s.record 8 [.v 16 n.toNat, .u 10, .v 4 code, .v 1 (b2n (code != 0)), .v 1 1, .u 32]
  let s := r.2.modChan ch fun h => { h with execs := (h.pc, n) :: h.execs.filter fun e => e.1 != h.pc }
  let a := h.prog + BitVec.ofNat 64 (8 * (h.pc + 3))
  if h.prog.getLsbD 63 then
    { s with shu := { s.shu with prog := cellPut (((a.extractLsb' 0 40).toNat - 0x2000000) / 8) (BitVec.ofNat 64 (ofLe r.1)) s.shu.prog } }
  else if wbErr then (s.emit (.hostUndefined a 8)).modChan ch fun h => h.endWith .busErr
  else s.emit (.hostWrite a r.1)

/-- A bad execution is counted (R459, R470). -/
def State.moveBadCount (s : State) (ch : Fin 16) (code : Nat) : State :=
  let s := s.modChan ch fun h => { h with bad := satInc h.bad, anyBad := h.anyBad || decide (1 ≤ code && code ≤ 4) }
  { s with shu := { s.shu with badCount := satInc s.shu.badCount } }

/-- MOVE (R455, R459, R460). In a channel that is STOPPING it is the MOVE in progress, which stops (R463). -/
def execShuMove (ch : Fin 16) (words : Option (List (BitVec 64))) (src : Option Bytes) (dstErr wbErr : Bool) (s : State) : R :=
  .next (
    let h := s.shu.chans[ch]
    let stop : Bool := h.st == .stopping && h.ending.isNone
    let s' := if stop then s.modChan ch fun h => { h with st := .running } else s
    let t := s'.shuExec ch words .move moveBad fun s h ws =>
      let len := moveLen ws
      let d := moveDst ws h.iter
      let r := s.moveData (moveSrc ws h.iter) len src
      let code : Nat := if stop then 5 else match r.1 with | .inr k => k | .inl _ => if dstErr then 2 else 0
      let s := match r.1, code with
        | .inl b, 0 =>
          (r.2.emit (.hostWrite d b)).modChan ch fun h => { h with crc := b.foldl crc32cByte h.crc, bytes := h.bytes + len }
        | _, _ => (r.2.emit (.hostUndefined d len)).moveBadCount ch code
      let s := s.moveBack ch code wbErr
      s.modChan ch fun h => if h.ending.isSome then h else h.advance 4 ((ws.headD 0).getLsbD 59)
    if stop then
      if t.out.length = s.out.length then s
      else t.modChan ch fun h => { h with st := .stopping, ending := some (h.ending.getD .ok) }
    else t)

-- LOOP (R456)

/-- TARGET and COUNT of a LOOP. -/
def loopTarget (w : BitVec 64) : Nat := (w.extractLsb' 0 16).toNat
def loopCount (w : BitVec 64) : Nat := let n := (w.extractLsb' 32 16).toNat; if n = 0 then 65536 else n

/-- What R454 finds wrong with a LOOP. -/
def loopBad (h : ShuChan) (ws : List (BitVec 64)) : Bool :=
  let t := loopTarget (ws.headD 0)
  decide (4 ≤ h.loops.length) || decide (t ≤ h.pc) || (match h.loops with | l :: _ => decide (l.target < t) | [] => false)

/-- LOOP (R456). -/
def execShuLoop (ch : Fin 16) (words : Option (List (BitVec 64))) (s : State) : R :=
  .next (s.shuExec ch words .loop loopBad fun s h ws =>
    let w := ws.headD 0
    let l : ShuLoop := { body := h.pc + 1, target := loopTarget w, count := loopCount w, i := 0, last := w.getLsbD 59 }
    s.modChan ch fun h => { h with pc := h.pc + 1, loops := l :: h.loops })

-- WAIT (R457, R458)

/-- A WAIT for an air tick: NO_TIME ends the program; a tick that has passed is noted. -/
def State.waitTick (s : State) (ch : Fin 16) (due : Tick) (last : Bool) : State :=
  if !s.counting then s.modChan ch fun h => { h with tick := due }.endWith .notReady
  else if due ≤ s.ym.now then s.modChan ch fun h => ({ h with tick := due, lateWait := h.lateWait || decide (due < s.ym.now) }).advance 1 last
  else s.modChan ch fun h => { h with st := .waiting, tick := due, wait := some (.at_ due), waitEnd := none, last := last }

/-- WAIT AT_ABS (R457). -/
def execShuWaitAtAbs (ch : Fin 16) (words : Option (List (BitVec 64))) (s : State) : R :=
  .next (s.shuExec ch words .waitAbs noCheck fun s _ ws =>
    let w := ws.headD 0
    s.waitTick ch (s.ofAirWord (w.extractLsb' 24 32 ++ (w.extractLsb' 0 24).setWidth 32)) (w.getLsbD 59))

/-- WAIT AT_REL (R457). -/
def execShuWaitAtRel (ch : Fin 16) (words : Option (List (BitVec 64))) (s : State) : R :=
  .next (s.shuExec ch words .waitRel noCheck fun s h ws =>
    let w := ws.headD 0
    s.waitTick ch (h.tick + (w.extractLsb' 0 32).toNat) (w.getLsbD 59))

/-- The cycle at which a TIMEOUT elapses: 10 µs per step, 0 none. -/
def State.waitLimit (s : State) (w : BitVec 64) : Option Nat :=
  let n := (w.extractLsb' 32 16).toNat
  if n = 0 then none else some (s.dp + (cdiv ((n : Int) * 98304) 10).toNat)

/-- A flag is there for a channel, from the cycle after it rose: of several WAITs with CLEAR the lowest channel takes it (R458). -/
def State.flagFor (s : State) (ch : Fin 16) (m : Nat) (clear : Bool) : Bool :=
  (s.shu.flags &&& ~~~s.shu.rose).getLsbD m && !(clear && (List.finRange 16).any fun j => decide (j.val < ch.val) && s.shu.chans[j].wait == some (.flag m true))

/-- A channel passes its WAIT for a flag, clearing it if CLEAR is set. -/
def State.passFlag (s : State) (ch : Fin 16) (m : Nat) (clear last : Bool) : State :=
  let s := if clear then { s with shu := s.shu.flagOp (BitVec.twoPow 64 m) 0 } else s
  s.modChan ch fun h => h.advance 1 last

/-- WAIT FLAG (R457, R458). -/
def execShuWaitFlag (ch : Fin 16) (words : Option (List (BitVec 64))) (s : State) : R :=
  .next (s.shuExec ch words .waitFlag noCheck fun s _ ws =>
    let w := ws.headD 0
    let m := (w.extractLsb' 0 6).toNat
    if s.flagFor ch m (w.getLsbD 8) then s.passFlag ch m (w.getLsbD 8) (w.getLsbD 59)
    else
      let lim := s.waitLimit w
      s.modChan ch fun h => { h with st := .waiting, wait := some (.flag m (w.getLsbD 8)), waitEnd := lim, last := w.getLsbD 59 })

/-- WAIT DOORBELL (R457). -/
def execShuWaitDoorbell (ch : Fin 16) (words : Option (List (BitVec 64))) (s : State) : R :=
  .next (s.shuExec ch words .waitDb noCheck fun s h ws =>
    let w := ws.headD 0
    if h.db ≠ 0 then s.modChan ch fun h => ({ h with db := h.db - 1 }).advance 1 (w.getLsbD 59)
    else
      let lim := s.waitLimit w
      s.modChan ch fun h => { h with st := .waiting, wait := some .doorbell, waitEnd := lim, last := w.getLsbD 59 })

/-- WAIT_SATISFIED (R457): the condition of the channel's WAIT holds before its TIMEOUT elapses. -/
def execWaitSatisfied (ch : Fin 16) (s : State) : R :=
  .next (
    let h := s.shu.chans[ch]
    let inTime : Bool := match h.waitEnd with | some e => decide (s.dp ≤ e) | none => true
    if h.st != .waiting || !inTime then s
    else match h.wait with
      | some (.at_ due) =>
        if !s.counting then s.modChan ch fun h => h.endWith .notReady
        else if due ≤ s.ym.now then s.modChan ch fun h => h.advance 1 h.last
        else s
      | some (.flag m clear) => if s.flagFor ch m clear then s.passFlag ch m clear h.last else s
      | some .doorbell => if h.db = 0 then s else s.modChan ch fun h => ({ h with db := h.db - 1 }).advance 1 h.last
      | none => s)

/-- WAIT_TIMEOUT (R457). -/
def execWaitTimeout (ch : Fin 16) (s : State) : R :=
  .next (match s.shu.chans[ch].waitEnd with
    | some e => if e ≤ s.dp ∧ s.shu.chans[ch].st = .waiting then s.modChan ch fun h => h.endWith .notReady else s
    | none => s)

-- SIGNAL (R458)

/-- A SIGNAL: earlier host writes of the channel are already out, in order. -/
def State.signal (s : State) (ch : Fin 16) (words : Option (List (BitVec 64))) (op : ShuOp) (f : State → Nat → State) : State :=
  s.shuExec ch words op noCheck fun s _ ws =>
    let w := ws.headD 0
    (f s (w.extractLsb' 0 16).toNat).modChan ch fun h => h.advance 1 (w.getLsbD 59)

/-- SIGNAL EVENT (R458, R471). -/
def execSignalEvent (ch : Fin 16) (words : Option (List (BitVec 64))) (s : State) : R :=
  .next (s.signal ch words .sigEvent fun s v => s.postRec 0x0F 8 [.v 8 1, .v 4 ch.val, .u 4, .v 16 v, .v 32 s.frameNow])

/-- SIGNAL MSIX (R458). -/
def execSignalMsix (ch : Fin 16) (words : Option (List (BitVec 64))) (s : State) : R :=
  .next (s.signal ch words .sigMsix fun s v => s.sendMsix (BitVec.ofNat 5 v))

/-- SIGNAL SET_FLAG (R458). -/
def execSignalSetFlag (ch : Fin 16) (words : Option (List (BitVec 64))) (s : State) : R :=
  .next (s.signal ch words .sigSet fun s v => { s with shu := s.shu.flagOp 0 (BitVec.twoPow 64 v) })

/-- SIGNAL CLEAR_FLAG (R458): a flag set in this cycle stays set. -/
def execSignalClearFlag (ch : Fin 16) (words : Option (List (BitVec 64))) (s : State) : R :=
  .next (s.signal ch words .sigClear fun s v => { s with shu := s.shu.flagOp (BitVec.twoPow 64 v) 0 })

-- The end of a program (R461)

/-- The status of an ending program (R461). -/
def ShuChan.status (h : ShuChan) : Status :=
  match h.ending with
  | some .badArg => .badArg
  | some .notReady => .notReady
  | some .busErr => .busErr
  | _ => if h.anyBad then .busErr else .ok

/-- SHU_PROGRAM_END (R461): the end record, the completion, IDLE; then the SHU_STOPs that waited (R463). `wbErr`: host memory
answers the end record with an error. -/
def execShuProgramEnd (ch : Fin 16) (wbErr : Bool) (s : State) : R :=
  .next (
    let h := s.shu.chans[ch]
    if h.st = .idle ∨ (h.ending = none ∧ h.st ≠ .stopping) then s
    else
      let st := h.status
      let r := s.record 24 ([.v 32 (~~~h.crc).toNat, .v 16 h.bad.toNat, .v 8 st.code.toNat, .v 1 (b2n h.lateWait), .v 1 (b2n h.stopped), .u 6,
        .v 64 h.bytes] ++ airFlds s.atNow)
      let s := r.2.emit (if wbErr then .hostUndefined h.wb 24 else .hostWrite h.wb r.1)
      let s := s.modChan ch ShuChan.free
      let s := match h.cmd with
        | some k => s.complete k (if wbErr then .busErr else st) (BitVec.ofNat 32 (min h.bytes 0xFFFFFFFF))
        | none => s
      s.stopsDone h.stopCmds)

end Sys2Proof.Machine
end

