-- ==== Sys2Proof/Machine/FamTap.lean ====
section
/-! DEFINITION. Meanings of the test access port (R569, R577), whose controller is that of IEEE 1149.1. -/

namespace Sys2Proof.Machine

/-- The next controller state at a rising edge of TCK (IEEE 1149.1; PRESUMED). -/
def TapState.next (t : TapState) (tms : Bool) : TapState :=
  match t with
  | .reset => if tms then .reset else .idle
  | .idle => if tms then .selDr else .idle
  | .selDr => if tms then .selIr else .capDr
  | .capDr => if tms then .exit1Dr else .shiftDr
  | .shiftDr => if tms then .exit1Dr else .shiftDr
  | .exit1Dr => if tms then .updDr else .pauseDr
  | .pauseDr => if tms then .exit2Dr else .pauseDr
  | .exit2Dr => if tms then .updDr else .shiftDr
  | .updDr => if tms then .selDr else .idle
  | .selIr => if tms then .reset else .capIr
  | .capIr => if tms then .exit1Ir else .shiftIr
  | .shiftIr => if tms then .exit1Ir else .shiftIr
  | .exit1Ir => if tms then .updIr else .pauseIr
  | .pauseIr => if tms then .exit2Ir else .pauseIr
  | .exit2Ir => if tms then .updIr else .shiftIr
  | .updIr => if tms then .selDr else .idle

/-- IDCODE (R569), the bit that leaves first in front. -/
def idcodeBits : List Bool := (List.range 32).map fun i => (0x16464001#32).getLsbD i

/-- The instruction that a code selects. Outside board-test mode the port offers BYPASS and IDCODE only; every other code is BYPASS. -/
def State.tapDecode (s : State) (code : List Bool) : TapInstr :=
  if code.all id then .bypass
  else match Config.tapCode code with
    | 0 => .idcode
    | 1 => if s.pkg.testMode then .sample else .bypass
    | 2 => if s.pkg.testMode then .extest else .bypass
    | 3 => if s.pkg.testMode then .extestPulse else .bypass
    | 4 => if s.pkg.testMode then .extestTrain else .bypass
    | _ => .bypass

/-- Change the pins and the port. -/
def State.modPkg (s : State) (f : Pkg → Pkg) : State := { s with pkg := f s.pkg }

/-- What Capture-DR loads: the identity, one 0 for BYPASS, or the balls, whose levels the model does not hold. -/
def State.captureDr (s : State) : State :=
  match s.pkg.tapInstr with
  | .idcode => s.modPkg fun k => { k with drShift := idcodeBits }
  | .bypass => s.modPkg fun k => { k with drShift := [false] }
  | _ =>
    let n := s.free
    let l := (List.range Config.tapBsrLen).map fun i => (Config.freeBits 1 (n + i)).getLsbD 0
    { s with free := n + Config.tapBsrLen }.modPkg fun k => { k with drShift := l }

/-- A rising edge: the register of the present state captures or shifts, and the controller moves. -/
def State.tapRise (s : State) (tms tdi : Bool) : State :=
  let s := match s.pkg.tap with
    | .capDr => s.captureDr
    | .capIr =>
      let n := s.free
      let l := (List.range (Config.tapIrLen - 2)).map fun i => (Config.freeBits 1 (n + i)).getLsbD 0
      { s with free := n + (Config.tapIrLen - 2) }.modPkg fun k => { k with irShift := [true, false] ++ l }
    | .shiftDr => s.modPkg fun k => { k with drShift := k.drShift.drop 1 ++ [tdi] }
    | .shiftIr => s.modPkg fun k => { k with irShift := k.irShift.drop 1 ++ [tdi] }
    | _ => s
  let t := s.pkg.tap.next tms
  s.modPkg fun k => { k with tap := t, tapInstr := if t = .reset then .idcode else k.tapInstr }

/-- A falling edge: updates take effect, and TDO drives the bit next to it while shifting (R577). -/
def State.tapFall (s : State) : State :=
  match s.pkg.tap with
  | .updIr => let i := s.tapDecode s.pkg.irShift; s.modPkg fun k => { k with tapInstr := i, tdo := none }
  | .updDr => s.modPkg fun k => { k with bsr := if k.tapInstr = .idcode ∨ k.tapInstr = .bypass then k.bsr else k.drShift, tdo := none }
  | .shiftDr => s.modPkg fun k => { k with tdo := k.drShift.head? }
  | .shiftIr => s.modPkg fun k => { k with tdo := k.irShift.head? }
  | _ => s.modPkg fun k => { k with tdo := none }

/-- The port in reset: IDCODE in force, TDO at high impedance. -/
def Pkg.tapReset (k : Pkg) (held : Bool) : Pkg := { k with trst := held, tap := .reset, tapInstr := .idcode, tdo := none }

/-- TAP_TCK_EDGE (R569, R577): an edge of TCK with the levels of TRST_N, TMS and TDI. -/
def execTapTckEdge (trstN rising tms tdi : Bool) (s : State) : R :=
  .next (
    if !s.pwr.vin then s
    else if !trstN then s.modPkg fun k => k.tapReset true
    else
      let s := s.modPkg fun k => { k with trst := false }
      if rising then s.tapRise tms tdi else s.tapFall)

/-- TRST_N_ASSERT (R577): the port is held in reset. -/
def execTrstNAssert (s : State) : R := .next (s.modPkg fun k => k.tapReset true)

end Sys2Proof.Machine
end

