-- ==== Sys2Proof/Machine/Dispatch.lean ====
section
/-! DEFINITION. The effect of each command: one arm per constructor. -/

namespace Sys2Proof.Machine

/-- What a command does to everything but the queue. -/
def exec (i : Instr) (s : State) : Host.Outcome State Fault Refusal :=
  match i with
  | .nop c => Sys2Proof.Machine.execNop c s
  | .regRead c => Sys2Proof.Machine.execRegRead c s
  | .regWrite c => Sys2Proof.Machine.execRegWrite c s
  | .clearSafe c => Sys2Proof.Machine.execClearSafe c s
  | .clearQueue c => Sys2Proof.Machine.execClearQueue c s
  | .faultRead c => Sys2Proof.Machine.execFaultRead c s
  | .modeSet c => Sys2Proof.Machine.execModeSet c s
  | .airRelease c => Sys2Proof.Machine.execAirRelease c s
  | .phaseSync c => Sys2Proof.Machine.execPhaseSync c s
  | .powerState c => Sys2Proof.Machine.execPowerState c s
  | .muteSet c => Sys2Proof.Machine.execMuteSet c s
  | .synthRetune c => Sys2Proof.Machine.execSynthRetune c s
  | .synthHop c => Sys2Proof.Machine.execSynthHop c s
  | .synthCalibrate c => Sys2Proof.Machine.execSynthCalibrate c s
  | .synthPowerOff c => Sys2Proof.Machine.execSynthPowerOff c s
  | .synthPin c => Sys2Proof.Machine.execSynthPin c s
  | .synthUnpin c => Sys2Proof.Machine.execSynthUnpin c s
  | .synthStatus c => Sys2Proof.Machine.execSynthStatus c s
  | .pathSetState c => Sys2Proof.Machine.execPathSetState c s
  | .pathSetReturn c => Sys2Proof.Machine.execPathSetReturn c s
  | .pathSetLevels c => Sys2Proof.Machine.execPathSetLevels c s
  | .pathStatus c => Sys2Proof.Machine.execPathStatus c s
  | .fcSet c => Sys2Proof.Machine.execFcSet c s
  | .rsCoefLoad c => Sys2Proof.Machine.execRsCoefLoad c s
  | .convStatus c => Sys2Proof.Machine.execConvStatus c s
  | .delayReport c => Sys2Proof.Machine.execDelayReport c s
  | .carrierConfigure c => Sys2Proof.Machine.execCarrierConfigure c s
  | .carrierRemove c => Sys2Proof.Machine.execCarrierRemove c s
  | .beamLoad c => Sys2Proof.Machine.execBeamLoad c s
  | .carrierStatus c => Sys2Proof.Machine.execCarrierStatus c s
  | .weightSet c => Sys2Proof.Machine.execWeightSet c s
  | .weightHint c => Sys2Proof.Machine.execWeightHint c s
  | .bookRead c => Sys2Proof.Machine.execBookRead c s
  | .weightStatus c => Sys2Proof.Machine.execWeightStatus c s
  | .burstCfg c => Sys2Proof.Machine.execBurstCfg c s
  | .burstTx c => Sys2Proof.Machine.execBurstTx c s
  | .burstRx c => Sys2Proof.Machine.execBurstRx c s
  | .burstMeas c => Sys2Proof.Machine.execBurstMeas c s
  | .burstStatus c => Sys2Proof.Machine.execBurstStatus c s
  | .qualityStatus c => Sys2Proof.Machine.execQualityStatus c s
  | .cfrSet c => Sys2Proof.Machine.execCfrSet c s
  | .dpdSet c => Sys2Proof.Machine.execDpdSet c s
  | .dpdFreeze c => Sys2Proof.Machine.execDpdFreeze c s
  | .dpdResume c => Sys2Proof.Machine.execDpdResume c s
  | .dpdReset c => Sys2Proof.Machine.execDpdReset c s
  | .dpdErase c => Sys2Proof.Machine.execDpdErase c s
  | .dpdReadActive c => Sys2Proof.Machine.execDpdReadActive c s
  | .dpdReadStored c => Sys2Proof.Machine.execDpdReadStored c s
  | .dpdAdjLoad c => Sys2Proof.Machine.execDpdAdjLoad c s
  | .dpdStatus c => Sys2Proof.Machine.execDpdStatus c s
  | .calRun c => Sys2Proof.Machine.execCalRun c s
  | .calSet c => Sys2Proof.Machine.execCalSet c s
  | .calStatus c => Sys2Proof.Machine.execCalStatus c s
  | .tackStatus c => Sys2Proof.Machine.execTackStatus c s
  | .fhPortSet c => Sys2Proof.Machine.execFhPortSet c s
  | .fhWindowSet c => Sys2Proof.Machine.execFhWindowSet c s
  | .fhFlowSet c => Sys2Proof.Machine.execFhFlowSet c s
  | .fhStatus c => Sys2Proof.Machine.execFhStatus c s
  | .hitSet c => Sys2Proof.Machine.execHitSet c s
  | .hitStatus c => Sys2Proof.Machine.execHitStatus c s
  | .timeCfg c => Sys2Proof.Machine.execTimeCfg c s
  | .timeDevSet c => Sys2Proof.Machine.execTimeDevSet c s
  | .timeTodSet c => Sys2Proof.Machine.execTimeTodSet c s
  | .timeStatus c => Sys2Proof.Machine.execTimeStatus c s
  | .refCfg c => Sys2Proof.Machine.execRefCfg c s
  | .shuStart c => Sys2Proof.Machine.execShuStart c s
  | .shuStop c => Sys2Proof.Machine.execShuStop c s
  | .shuProgLoad c => Sys2Proof.Machine.execShuProgLoad c s
  | .shuCapture c => Sys2Proof.Machine.execShuCapture c s
  | .shuStatus c => Sys2Proof.Machine.execShuStatus c s
  | .shuFlag c => Sys2Proof.Machine.execShuFlag c s
  | .solverLoad c => Sys2Proof.Machine.execSolverLoad c s
  | .solverSelect c => Sys2Proof.Machine.execSolverSelect c s
  | .solverStatus c => Sys2Proof.Machine.execSolverStatus c s
  | .solverTest c => Sys2Proof.Machine.execSolverTest c s
  | .hkSeqSet c => Sys2Proof.Machine.execHkSeqSet c s
  | .hkCmpSet c => Sys2Proof.Machine.execHkCmpSet c s
  | .hkTriggerSweep c => Sys2Proof.Machine.execHkTriggerSweep c s
  | .hkTriggerSpot c => Sys2Proof.Machine.execHkTriggerSpot c s
  | .hkTriggerStop c => Sys2Proof.Machine.execHkTriggerStop c s
  | .hkCal c => Sys2Proof.Machine.execHkCal c s
  | .hkRead c => Sys2Proof.Machine.execHkRead c s
  | .outSetValue c => Sys2Proof.Machine.execOutSetValue c s
  | .outSetSlew c => Sys2Proof.Machine.execOutSetSlew c s
  | .outSetGen c => Sys2Proof.Machine.execOutSetGen c s
  | .outSetSafe c => Sys2Proof.Machine.execOutSetSafe c s
  | .supClearTrips c => Sys2Proof.Machine.execSupClearTrips c s
  | .supClearCompliance c => Sys2Proof.Machine.execSupClearCompliance c s
  | .supStatus c => Sys2Proof.Machine.execSupStatus c s
  | .supCfg c => Sys2Proof.Machine.execSupCfg c s
  | .marchRun c => Sys2Proof.Machine.execMarchRun c s
  | .lbistRun c => Sys2Proof.Machine.execLbistRun c s
  | .memStatus c => Sys2Proof.Machine.execMemStatus c s
  | .ledgerRead c => Sys2Proof.Machine.execLedgerRead c s
  | .pathRetire c => Sys2Proof.Machine.execPathRetire c s
  | .pathRestore c => Sys2Proof.Machine.execPathRestore c s
  | .secImageLoad c => Sys2Proof.Machine.execSecImageLoad c s
  | .secRollbackCommit c => Sys2Proof.Machine.execSecRollbackCommit c s
  | .secAttest c => Sys2Proof.Machine.execSecAttest c s
  | .secIdRead c => Sys2Proof.Machine.execSecIdRead c s
  | .secProvision c healthy => Sys2Proof.Machine.execSecProvision c healthy s
  | .secCertStore c => Sys2Proof.Machine.execSecCertStore c s
  | .commandFetch ring entry cplErr => Sys2Proof.Machine.execCommandFetch ring entry cplErr s
  | .commandStart ring seq payload => Sys2Proof.Machine.execCommandStart ring seq payload s
  | .eventEntryWrite busErr => Sys2Proof.Machine.execEventEntryWrite busErr s
  | .eventCoalesceTimeout => Sys2Proof.Machine.execEventCoalesceTimeout s
  | .ringDrainEnd ring => Sys2Proof.Machine.execRingDrainEnd ring s
  | .releaseFenceOut ring => Sys2Proof.Machine.execReleaseFenceOut ring s
  | .tail ring value => Sys2Proof.Machine.execTail ring value s
  | .cplHead ring value => Sys2Proof.Machine.execCplHead ring value s
  | .release ring value => Sys2Proof.Machine.execRelease ring value s
  | .evtHead value => Sys2Proof.Machine.execEvtHead value s
  | .shuDb ch => Sys2Proof.Machine.execShuDb ch s
  | .barBadAccess bar2 addr len write => Sys2Proof.Machine.execBarBadAccess bar2 addr len write s
  | .registerWrite addr value => Sys2Proof.Machine.execRegisterWrite addr value s
  | .ringCmdEnable ring value => Sys2Proof.Machine.execRingCmdEnable ring value s
  | .ringCmdDisable ring value => Sys2Proof.Machine.execRingCmdDisable ring value s
  | .ringEvtEnable value => Sys2Proof.Machine.execRingEvtEnable value s
  | .ringEvtDisable value => Sys2Proof.Machine.execRingEvtDisable value s
  | .ymAirOffsetWrite c => Sys2Proof.Machine.execYmAirOffsetWrite c s
  | .ymPendHwmRead c => Sys2Proof.Machine.execYmPendHwmRead c s
  | .ymLateCountRead c => Sys2Proof.Machine.execYmLateCountRead c s
  | .ymFullCountRead c => Sys2Proof.Machine.execYmFullCountRead c s
  | .topStatusRead => Sys2Proof.Machine.execTopStatusRead s
  | .clkStatusRead c => Sys2Proof.Machine.execClkStatusRead c s
  | .clkGateToRead c => Sys2Proof.Machine.execClkGateToRead c s
  | .ringEvtStatusRead => Sys2Proof.Machine.execRingEvtStatusRead s
  | .hkOverrunRead c => Sys2Proof.Machine.execHkOverrunRead c s
  | .shuBadCountRead c => Sys2Proof.Machine.execShuBadCountRead c s
  | .memCorrCountRead c => Sys2Proof.Machine.execMemCorrCountRead c s
  | .memUncorrCountRead c => Sys2Proof.Machine.execMemUncorrCountRead c s
  | .secBootStatusRead c => Sys2Proof.Machine.execSecBootStatusRead c s
  | .clkMeterStart c => Sys2Proof.Machine.execClkMeterStart c s
  | .clkMeterClear c => Sys2Proof.Machine.execClkMeterClear c s
  | .clkMeterEnd count => Sys2Proof.Machine.execClkMeterEnd count s
  | .dpByp c => Sys2Proof.Machine.execDpByp c s
  | .cbDiv c => Sys2Proof.Machine.execCbDiv c s
  | .pwrWakeCfgWrite value => Sys2Proof.Machine.execPwrWakeCfgWrite value s
  | .pwrWakeFailClear value => Sys2Proof.Machine.execPwrWakeFailClear value s
  | .retry value => Sys2Proof.Machine.execRetry value s
  | .fhLaneEqWrite c => Sys2Proof.Machine.execFhLaneEqWrite c s
  | .powerGood xoSel fitted testEn => Sys2Proof.Machine.execPowerGood xoSel fitted testEn s
  | .brownOut => Sys2Proof.Machine.execBrownOut s
  | .perstNAssert => Sys2Proof.Machine.execPerstNAssert s
  | .perstNRelease => Sys2Proof.Machine.execPerstNRelease s
  | .pcieLinkUp => Sys2Proof.Machine.execPcieLinkUp s
  | .powerupRailsReady ready => Sys2Proof.Machine.execPowerupRailsReady ready s
  | .powerupMemoryReady fails => Sys2Proof.Machine.execPowerupMemoryReady fails s
  | .tackStoreBootRead bad => Sys2Proof.Machine.execTackStoreBootRead bad s
  | .bootImageVerify => Sys2Proof.Machine.execBootImageVerify s
  | .bringupService => Sys2Proof.Machine.execBringupService s
  | .powerupStepTimeout cause index => Sys2Proof.Machine.execPowerupStepTimeout cause index s
  | .modeChangeRelease ev => Sys2Proof.Machine.execModeChangeRelease ev s
  | .modeTransitionEnd ok others => Sys2Proof.Machine.execModeTransitionEnd ok others s
  | .arrayStartTimeout others => Sys2Proof.Machine.execArrayStartTimeout others s
  | .trafficResume => Sys2Proof.Machine.execTrafficResume s
  | .dlSymbolRelease ev => Sys2Proof.Machine.execDlSymbolRelease ev s
  | .ulSymbolRelease ev => Sys2Proof.Machine.execUlSymbolRelease ev s
  | .soundingRelease ev => Sys2Proof.Machine.execSoundingRelease ev s
  | .burstTxRelease ev => Sys2Proof.Machine.execBurstTxRelease ev s
  | .burstRxRelease ev => Sys2Proof.Machine.execBurstRxRelease ev s
  | .pathStateRelease ev => Sys2Proof.Machine.execPathStateRelease ev s
  | .muteRelease ev => Sys2Proof.Machine.execMuteRelease ev s
  | .synthHopRelease ev => Sys2Proof.Machine.execSynthHopRelease ev s
  | .synthRetuneRelease ev => Sys2Proof.Machine.execSynthRetuneRelease ev s
  | .phaseSyncRelease ev => Sys2Proof.Machine.execPhaseSyncRelease ev s
  | .obsCaptureRelease ev => Sys2Proof.Machine.execObsCaptureRelease ev s
  | .hkTriggerRelease ev => Sys2Proof.Machine.execHkTriggerRelease ev s
  | .outputSetRelease ev => Sys2Proof.Machine.execOutputSetRelease ev s
  | .pinEdgeRelease ev => Sys2Proof.Machine.execPinEdgeRelease ev s
  | .calSlotRelease ev => Sys2Proof.Machine.execCalSlotRelease ev s
  | .configRelease ev => Sys2Proof.Machine.execConfigRelease ev s
  | .alarmRelease ev => Sys2Proof.Machine.execAlarmRelease ev s
  | .pathTransitionEnd p => Sys2Proof.Machine.execPathTransitionEnd p s
  | .automaticReturn p => Sys2Proof.Machine.execAutomaticReturn p s
  | .synthOperationEnd syn => Sys2Proof.Machine.execSynthOperationEnd syn s
  | .synthCalibrationEnd syn m => Sys2Proof.Machine.execSynthCalibrationEnd syn m s
  | .synthLockLoss syn => Sys2Proof.Machine.execSynthLockLoss syn s
  | .channelBookPublish occ raw => Sys2Proof.Machine.execChannelBookPublish occ raw s
  | .sidingReady car ul => Sys2Proof.Machine.execSidingReady car ul s
  | .sidingSlotEnd car ul => Sys2Proof.Machine.execSidingSlotEnd car ul s
  | .onDemandPublish car ul slot grp => Sys2Proof.Machine.execOnDemandPublish car ul slot grp s
  | .weightDeadline car ul slot grp => Sys2Proof.Machine.execWeightDeadline car ul slot grp s
  | .solverJobDispatch core => Sys2Proof.Machine.execSolverJobDispatch core s
  | .solverJobExit core => Sys2Proof.Machine.execSolverJobExit core s
  | .solverFault core cause => Sys2Proof.Machine.execSolverFault core cause s
  | .solverWatchdog core => Sys2Proof.Machine.execSolverWatchdog core s
  | .solverCoreResetEnd core => Sys2Proof.Machine.execSolverCoreResetEnd core s
  | .solverNop core bg w => Sys2Proof.Machine.execSolverNop core bg w s
  | .solBr core bg w => Sys2Proof.Machine.execSolBr core bg w s
  | .solCall core bg w => Sys2Proof.Machine.execSolCall core bg w s
  | .solRet core bg w => Sys2Proof.Machine.execSolRet core bg w s
  | .solRept core bg w => Sys2Proof.Machine.execSolRept core bg w s
  | .solEnd core bg w => Sys2Proof.Machine.execSolEnd core bg w s
  | .solTrap core bg w => Sys2Proof.Machine.execSolTrap core bg w s
  | .solAdd core bg w => Sys2Proof.Machine.execSolAdd core bg w s
  | .solSub core bg w => Sys2Proof.Machine.execSolSub core bg w s
  | .solAnd core bg w => Sys2Proof.Machine.execSolAnd core bg w s
  | .solOr core bg w => Sys2Proof.Machine.execSolOr core bg w s
  | .solXor core bg w => Sys2Proof.Machine.execSolXor core bg w s
  | .solShl core bg w => Sys2Proof.Machine.execSolShl core bg w s
  | .solShr core bg w => Sys2Proof.Machine.execSolShr core bg w s
  | .solSra core bg w => Sys2Proof.Machine.execSolSra core bg w s
  | .solMul core bg w => Sys2Proof.Machine.execSolMul core bg w s
  | .solSlt core bg w => Sys2Proof.Machine.execSolSlt core bg w s
  | .solSltu core bg w => Sys2Proof.Machine.execSolSltu core bg w s
  | .solMin core bg w => Sys2Proof.Machine.execSolMin core bg w s
  | .solMax core bg w => Sys2Proof.Machine.execSolMax core bg w s
  | .solMovi core bg w => Sys2Proof.Machine.execSolMovi core bg w s
  | .solMovhi core bg w => Sys2Proof.Machine.execSolMovhi core bg w s
  | .solAddi core bg w => Sys2Proof.Machine.execSolAddi core bg w s
  | .solAddhi core bg w => Sys2Proof.Machine.execSolAddhi core bg w s
  | .solLdw core bg w => Sys2Proof.Machine.execSolLdw core bg w s
  | .solStw core bg w => Sys2Proof.Machine.execSolStw core bg w s
  | .solMovsx core bg w => Sys2Proof.Machine.execSolMovsx core bg w s
  | .solMovxs core bg w => Sys2Proof.Machine.execSolMovxs core bg w s
  | .solSetcfg core bg w => Sys2Proof.Machine.execSolSetcfg core bg w s
  | .solGetcfg core bg w => Sys2Proof.Machine.execSolGetcfg core bg w s
  | .solSetmask core bg w => Sys2Proof.Machine.execSolSetmask core bg w s
  | .solGetspr core bg w => Sys2Proof.Machine.execSolGetspr core bg w s
  | .solAddx core bg w => Sys2Proof.Machine.execSolAddx core bg w s
  | .solVld core bg w => Sys2Proof.Machine.execSolVld core bg w s
  | .solVst core bg w => Sys2Proof.Machine.execSolVst core bg w s
  | .solVldb core bg w => Sys2Proof.Machine.execSolVldb core bg w s
  | .solVstm core bg w => Sys2Proof.Machine.execSolVstm core bg w s
  | .solVmul core bg w => Sys2Proof.Machine.execSolVmul core bg w s
  | .solVmac core bg w => Sys2Proof.Machine.execSolVmac core bg w s
  | .solVmulb core bg w => Sys2Proof.Machine.execSolVmulb core bg w s
  | .solVmacb core bg w => Sys2Proof.Machine.execSolVmacb core bg w s
  | .solVmacs core bg w => Sys2Proof.Machine.execSolVmacs core bg w s
  | .solVmacm core bg w => Sys2Proof.Machine.execSolVmacm core bg w s
  | .solVrnd core bg w => Sys2Proof.Machine.execSolVrnd core bg w s
  | .solVrnds core bg w => Sys2Proof.Machine.execSolVrnds core bg w s
  | .solAclr core bg w => Sys2Proof.Machine.execSolAclr core bg w s
  | .solAsum core bg w => Sys2Proof.Machine.execSolAsum core bg w s
  | .solAload core bg w => Sys2Proof.Machine.execSolAload core bg w s
  | .solSext core bg w => Sys2Proof.Machine.execSolSext core bg w s
  | .solVadd core bg w => Sys2Proof.Machine.execSolVadd core bg w s
  | .solVsub core bg w => Sys2Proof.Machine.execSolVsub core bg w s
  | .solVconj core bg w => Sys2Proof.Machine.execSolVconj core bg w s
  | .solVneg core bg w => Sys2Proof.Machine.execSolVneg core bg w s
  | .solVsel core bg w => Sys2Proof.Machine.execSolVsel core bg w s
  | .solVperm core bg w => Sys2Proof.Machine.execSolVperm core bg w s
  | .solVbcast core bg w => Sys2Proof.Machine.execSolVbcast core bg w s
  | .solVins core bg w => Sys2Proof.Machine.execSolVins core bg w s
  | .solVextl core bg w => Sys2Proof.Machine.execSolVextl core bg w s
  | .solVshr core bg w => Sys2Proof.Machine.execSolVshr core bg w s
  | .solSrsq core bg w => Sys2Proof.Machine.execSolSrsq core bg w s
  | .solSrec core bg w => Sys2Proof.Machine.execSolSrec core bg w s
  | .solSnorm core bg w => Sys2Proof.Machine.execSolSnorm core bg w s
  | .solXfer core bg w => Sys2Proof.Machine.execSolXfer core bg w s
  | .foregroundPreempt core => Sys2Proof.Machine.execForegroundPreempt core s
  | .shuMove ch words src dstErr wbErr => Sys2Proof.Machine.execShuMove ch words src dstErr wbErr s
  | .shuLoop ch words => Sys2Proof.Machine.execShuLoop ch words s
  | .shuWaitAtAbs ch words => Sys2Proof.Machine.execShuWaitAtAbs ch words s
  | .shuWaitAtRel ch words => Sys2Proof.Machine.execShuWaitAtRel ch words s
  | .shuWaitFlag ch words => Sys2Proof.Machine.execShuWaitFlag ch words s
  | .shuWaitDoorbell ch words => Sys2Proof.Machine.execShuWaitDoorbell ch words s
  | .waitSatisfied ch => Sys2Proof.Machine.execWaitSatisfied ch s
  | .waitTimeout ch => Sys2Proof.Machine.execWaitTimeout ch s
  | .signalEvent ch words => Sys2Proof.Machine.execSignalEvent ch words s
  | .signalMsix ch words => Sys2Proof.Machine.execSignalMsix ch words s
  | .signalSetFlag ch words => Sys2Proof.Machine.execSignalSetFlag ch words s
  | .signalClearFlag ch words => Sys2Proof.Machine.execSignalClearFlag ch words s
  | .shuProgramEnd ch wbErr => Sys2Proof.Machine.execShuProgramEnd ch wbErr s
  | .shuCaptureComplete slot samples => Sys2Proof.Machine.execShuCaptureComplete slot samples s
  | .ethFrameReceive port frame corr uncorr => Sys2Proof.Machine.execEthFrameReceive port frame corr uncorr s
  | .cPlaneSections port msg => Sys2Proof.Machine.execCPlaneSections port msg s
  | .uPlaneData port msg => Sys2Proof.Machine.execUPlaneData port msg s
  | .scheduleHint port msg => Sys2Proof.Machine.execScheduleHint port msg s
  | .soundingDirective port msg => Sys2Proof.Machine.execSoundingDirective port msg s
  | .burstDirective port msg => Sys2Proof.Machine.execBurstDirective port msg s
  | .weightBlocks port msg => Sys2Proof.Machine.execWeightBlocks port msg s
  | .beamUpload port msg => Sys2Proof.Machine.execBeamUpload port msg s
  | .wakeMessage port msg => Sys2Proof.Machine.execWakeMessage port msg s
  | .delayRequest port src msg => Sys2Proof.Machine.execDelayRequest port src msg s
  | .delayFollowUp port src msg => Sys2Proof.Machine.execDelayFollowUp port src msg s
  | .followUpTimeout port => Sys2Proof.Machine.execFollowUpTimeout port s
  | .orphanBlockTimeout idx => Sys2Proof.Machine.execOrphanBlockTimeout idx s
  | .ulEgress car sym raw => Sys2Proof.Machine.execUlEgress car sym raw s
  | .portUp port deskew => Sys2Proof.Machine.execPortUp port deskew s
  | .portFailed port cause lane => Sys2Proof.Machine.execPortFailed port cause lane s
  | .portRevert port => Sys2Proof.Machine.execPortRevert port s
  | .ptpSync port dst msg at_ => Sys2Proof.Machine.execPtpSync port dst msg at_ s
  | .ptpFollowUp port msg => Sys2Proof.Machine.execPtpFollowUp port msg s
  | .ptpDelayResp port msg => Sys2Proof.Machine.execPtpDelayResp port msg s
  | .ptpAnnounce port msg => Sys2Proof.Machine.execPtpAnnounce port msg s
  | .announceTimeout tb => Sys2Proof.Machine.execAnnounceTimeout tb s
  | .delayReqSend tb at_ => Sys2Proof.Machine.execDelayReqSend tb at_ s
  | .ppsInEdge at_ => Sys2Proof.Machine.execPpsInEdge at_ s
  | .servoHoldover tb => Sys2Proof.Machine.execServoHoldover tb s
  | .servoExpired tb => Sys2Proof.Machine.execServoExpired tb s
  | .bleedDone => Sys2Proof.Machine.execBleedDone s
  | .timeAnchor => Sys2Proof.Machine.execTimeAnchor s
  | .hitchTimeSend => Sys2Proof.Machine.execHitchTimeSend s
  | .hitchTime port msg at_ => Sys2Proof.Machine.execHitchTime port msg at_ s
  | .hitchTimeEcho port msg at_ => Sys2Proof.Machine.execHitchTimeEcho port msg at_ s
  | .hitchFwd port msg => Sys2Proof.Machine.execHitchFwd port msg s
  | .ulPsum port msg => Sys2Proof.Machine.execUlPsum port msg s
  | .ulPsumSend car sym raw => Sys2Proof.Machine.execUlPsumSend car sym raw s
  | .gram port msg => Sys2Proof.Machine.execGram port msg s
  | .solve port msg => Sys2Proof.Machine.execSolve port msg s
  | .ready port msg => Sys2Proof.Machine.execReady port msg s
  | .commit port msg => Sys2Proof.Machine.execCommit port msg s
  | .commitSend car ul slot grp => Sys2Proof.Machine.execCommitSend car ul slot grp s
  | .commitMiss car ul slot grp => Sys2Proof.Machine.execCommitMiss car ul slot grp s
  | .sndDone port msg => Sys2Proof.Machine.execSndDone port msg s
  | .meas port msg => Sys2Proof.Machine.execMeas port msg s
  | .keepalive port msg => Sys2Proof.Machine.execKeepalive port msg s
  | .keepaliveSend port => Sys2Proof.Machine.execKeepaliveSend port s
  | .memberLost d => Sys2Proof.Machine.execMemberLost d s
  | .membershipChange => Sys2Proof.Machine.execMembershipChange s
  | .clockMonitorWindowEnd clk clean => Sys2Proof.Machine.execClockMonitorWindowEnd clk clean s
  | .clockDead clk => Sys2Proof.Machine.execClockDead clk s
  | .turntableSwitchEnd => Sys2Proof.Machine.execTurntableSwitchEnd s
  | .pllLocked => Sys2Proof.Machine.execPllLocked s
  | .revertHoldExpiry => Sys2Proof.Machine.execRevertHoldExpiry s
  | .gateRequest block => Sys2Proof.Machine.execGateRequest block s
  | .gateTimeout block => Sys2Proof.Machine.execGateTimeout block s
  | .railOut rail => Sys2Proof.Machine.execRailOut rail s
  | .phaseImbalance rail phase => Sys2Proof.Machine.execPhaseImbalance rail phase s
  | .thermalMute sensor => Sys2Proof.Machine.execThermalMute sensor s
  | .thermalMuteRelease => Sys2Proof.Machine.execThermalMuteRelease s
  | .thermalDeep sensor => Sys2Proof.Machine.execThermalDeep sensor s
  | .thermalRecovery => Sys2Proof.Machine.execThermalRecovery s
  | .quiesceBoundary => Sys2Proof.Machine.execQuiesceBoundary s
  | .entryGatingEnd => Sys2Proof.Machine.execEntryGatingEnd s
  | .timeKeeperHandoff => Sys2Proof.Machine.execTimeKeeperHandoff s
  | .entryA3 => Sys2Proof.Machine.execEntryA3 s
  | .entryComplete pins => Sys2Proof.Machine.execEntryComplete pins s
  | .wakePin pin edge => Sys2Proof.Machine.execWakePin pin edge s
  | .wakeStepEnd => Sys2Proof.Machine.execWakeStepEnd s
  | .wakeStepTimeout cause index => Sys2Proof.Machine.execWakeStepTimeout cause index s
  | .wakeCarrierResume => Sys2Proof.Machine.execWakeCarrierResume s
  | .hkConversionEnd conv raw => Sys2Proof.Machine.execHkConversionEnd conv raw s
  | .hkTrigPin pin => Sys2Proof.Machine.execHkTrigPin pin s
  | .hkSweepEnd conv => Sys2Proof.Machine.execHkSweepEnd conv s
  | .hkPowerDown conv => Sys2Proof.Machine.execHkPowerDown conv s
  | .hkCalStart conv => Sys2Proof.Machine.execHkCalStart conv s
  | .hkCalEnd conv gain ofs => Sys2Proof.Machine.execHkCalEnd conv gain ofs s
  | .compliance hb => Sys2Proof.Machine.execCompliance hb s
  | .halterDwellEnd hb => Sys2Proof.Machine.execHalterDwellEnd hb s
  | .slewUpdate => Sys2Proof.Machine.execSlewUpdate s
  | .dpdCaptureDecision k => Sys2Proof.Machine.execDpdCaptureDecision k s
  | .dpdCaptureEnd p obs => Sys2Proof.Machine.execDpdCaptureEnd p obs s
  | .dpdAdaptPublish p => Sys2Proof.Machine.execDpdAdaptPublish p s
  | .adaptTimeout p => Sys2Proof.Machine.execAdaptTimeout p s
  | .blendBoundary => Sys2Proof.Machine.execBlendBoundary s
  | .burstDetection sample raw => Sys2Proof.Machine.execBurstDetection sample raw s
  | .syncHypothesisFail lane raw => Sys2Proof.Machine.execSyncHypothesisFail lane raw s
  | .syncAccepted lane raw => Sys2Proof.Machine.execSyncAccepted lane raw s
  | .syncFieldEnd lane => Sys2Proof.Machine.execSyncFieldEnd lane s
  | .longTrainingEnd lane => Sys2Proof.Machine.execLongTrainingEnd lane s
  | .payloadEnd lane => Sys2Proof.Machine.execPayloadEnd lane s
  | .decoderStop lane raw => Sys2Proof.Machine.execDecoderStop lane raw s
  | .burstWindowClose => Sys2Proof.Machine.execBurstWindowClose s
  | .noiseFloorBlock p car raw => Sys2Proof.Machine.execNoiseFloorBlock p car raw s
  | .backgroundCalDecision id cls idx due => Sys2Proof.Machine.execBackgroundCalDecision id cls idx due s
  | .calibrationComplete id cls idx ok vals => Sys2Proof.Machine.execCalibrationComplete id cls idx ok vals s
  | .calStepBoundary id cls idx => Sys2Proof.Machine.execCalStepBoundary id cls idx s
  | .lendStart p => Sys2Proof.Machine.execLendStart p s
  | .lendRejoin p => Sys2Proof.Machine.execLendRejoin p s
  | .calSetStore => Sys2Proof.Machine.execCalSetStore s
  | .partialResultExpiry id cls idx => Sys2Proof.Machine.execPartialResultExpiry id cls idx s
  | .tackRecordCommit verified => Sys2Proof.Machine.execTackRecordCommit verified s
  | .beamTableSwitch => Sys2Proof.Machine.execBeamTableSwitch s
  | .fcSetComplete => Sys2Proof.Machine.execFcSetComplete s
  | .recoveryStart => Sys2Proof.Machine.execRecoveryStart s
  | .recoveryComplete => Sys2Proof.Machine.execRecoveryComplete s
  | .d2dUncorr => Sys2Proof.Machine.execD2dUncorr s
  | .memUncorr bank what row cmd => Sys2Proof.Machine.execMemUncorr bank what row cmd s
  | .memCorrected bank row => Sys2Proof.Machine.execMemCorrected bank row s
  | .patrolScrub errs => Sys2Proof.Machine.execPatrolScrub errs s
  | .marchBankEnd ring seq bank fails => Sys2Proof.Machine.execMarchBankEnd ring seq bank fails s
  | .lbistEnd target index sig wrErr => Sys2Proof.Machine.execLbistEnd target index sig wrErr s
  | .retirementEffect => Sys2Proof.Machine.execRetirementEffect s
  | .entryA1 => Sys2Proof.Machine.execEntryA1 s
  | .untimedCommandComplete ring seq => Sys2Proof.Machine.execUntimedCommandComplete ring seq s
  | .hitchTimeLoss port => Sys2Proof.Machine.execHitchTimeLoss port s
  | .d2dCorrectedError => Sys2Proof.Machine.execD2dCorrectedError s
  | .ppsOutPulseEnd => Sys2Proof.Machine.execPpsOutPulseEnd s
  | .tapTckEdge trstN rising tms tdi => Sys2Proof.Machine.execTapTckEdge trstN rising tms tdi s
  | .trstNAssert => Sys2Proof.Machine.execTrstNAssert s
  | .l12Entry => Sys2Proof.Machine.execL12Entry s
  | .l12Exit => Sys2Proof.Machine.execL12Exit s

end Sys2Proof.Machine
end

