-- ==== Sys2Proof/Machine/Tick.lean ====
section
/-! DEFINITION. One cycle of the datapath clock (one air tick): what the block does when no command waits. -/

namespace Sys2Proof.Machine

-- The time bases (R339 to R341, R354)

/-- P (R341): FREQ of TB_S, and while B is not 0 the steering at SLEW, within its range. -/
def State.pullNow (s : State) (b : Int) : Int :=
  let f := s.time.tb[s.tbS].freq
  let slew := (freqUnit.mul (Q.ofInt s.time.dev.slew.toNat)).round
  clampI (-freqMax) freqMax (if s.time.bleed.isNone ∨ b = 0 then f else if b < 0 then f - slew else f + slew)

/-- What the counters hold at the start of a control-bus cycle, every fourth cycle of the datapath clock (Table 0-4). -/
def State.rcLatch (s : State) : RcBase :=
  { badAccess := s.host.top.badAccess, ttHung := s.clk.ttHung, switches := s.clk.switches, gateTo := s.clk.gateTo, late := s.ym.late
    full := s.ym.full, lost := s.host.evt.lost, shuBad := s.shu.badCount, ovr0 := s.sup.conv[(0 : Fin 2)].ovr, ovr1 := s.sup.conv[(1 : Fin 2)].ovr
    corr := s.mem.corr, uncorr := s.mem.uncorr, fails := s.sec.fails, done := s.clk.done, err := s.clk.err, wakeFail := s.pwr.wakeFail }

/-- One cycle of the counters. TB_S moves with B, so that τ3 advances by the nominal increment exactly; counts are in 2^-40/3 ns. -/
def State.tickTime (s : State) : State :=
  let nominal : Int := 3125 * 2 ^ 30
  let s := { s with dp := s.dp + 1, rc := if (s.dp + 1) % (4 * 2 ^ s.clk.cbDiv.toNat) = 0 then s.rcLatch else s.rc }
  let b := s.bleedNow
  let p := s.pullNow s.time.b
  let adv (d : Fin 2) : Tb :=
    let x := s.time.tb[d]
    { x with count := x.count + nominal + (if d = s.tbS then b - s.time.b else 3 * (x.freq - p)) }
  let t := { s.time with tb := Vector.ofFn adv, tb2 := s.time.tb2 + 1, pull := p, b := b }
  { s with time := t, ym := { s.ym with now := if s.counting then s.ym.now + 1 else s.ym.now }, shu := { s.shu with setNow := 0, rose := 0 } }

/-- While DP_BYP is 1 or XO_SEL does not name the oscillator the time bases and air time are undefined (R380), and with them the instants of
every event: free values. -/
def State.timeLost (s : State) : State :=
  if s.clk.dpByp || s.clk.xoBad then
    let a := s.takeFree 128
    let b := a.2.takeFree 128
    let c := b.2.takeFree 64
    let n := c.2.takeFree 64
    let w (t : Tb) (v : BitVec 128) : Tb := { t with count := v.toNat }
    { n.2 with
      time := { n.2.time with tb := Vector.ofFn fun d : Fin 2 => w n.2.time.tb[d] (if d = 0 then a.1 else b.1), tb2 := c.1.toNat }
      ym := { n.2.ym with now := if n.2.counting then n.1.toInt else n.2.ym.now } }
  else s

-- The schedule

/-- An effect whose cycle has come. -/
def State.act (s : State) : Act → State
  | .complete r st v => s.complete r st v
  | .pathStart p => s.pathStart p
  | .synthStart i => s.synthStart i
  | .hop k b => s.hopNow k b
  | .phaseSync => s.phaseSyncNow
  | .mute p tx rx on cmd => s.muteNow p tx rx on cmd
  | .cfg ch _ => s.applyCfg ch
  | .output i r c safe => s.outputNow i r c safe
  | .pps => s.ppsNow
  | .alarmFire => s.wake 5
  | .modeStart => s.modeStartNow

/-- Carry out what is due, in order. -/
def State.runTimed (s : State) : State :=
  let due := s.ym.timed.takeWhile fun t => decide (t.due ≤ s.dp)
  due.foldl (fun (s : State) (t : Timed) => s.act t.act) { s with ym := { s.ym with timed := s.ym.timed.drop due.length } }

-- Engines

/-- A core's clock: cycles of instructions that have been executed pass first; those of a job whose kernel is not told by instructions
count here. -/
def SolCore.tick (m : SolCore) : SolCore :=
  if 0 < m.ahead then { m with ahead := m.ahead - 1 }
  else if m.fgJob.isSome then (if m.ended.isNone then { m with fgCyc := m.fgCyc + 1, fgCycles := satInc m.fgCycles } else m)
  else if m.bgOn && m.bgJob.isSome then { m with bgCyc := m.bgCyc + 1 }
  else m

/-- Occasions that have all been published or given up are done with (R170). -/
def State.soundingsOver (s : State) : State :=
  ((s.ofdm.occasions.map fun (x : Occasion) => (x.carrier, x.slot)).eraseDups).foldl (fun (s : State) k => s.soundingSweep k.1 k.2) s

/-- What the engines do in a cycle, in a state in which the datapath clock runs. -/
def State.engines (s : State) : State :=
  let s := s.fcSwitch.coefServe.calRunSweep
  let s := s.darkTick.txTick.noiseTick.weightPrune
  let s := s.soundingsOver.openSweep.dataSweep.egressTick
  let s := s.ppsPlan.alignTry.devStep
  let s := (s.hkGo 0).hkGo 1
  let s := s.marchSweep.lbistSweep
  { s with sol := { s.sol with cores := s.sol.cores.map SolCore.tick } }

/-- One tick. What the last one asked of the weights in its order comes first (R170). With VIN absent nothing counts; in NAP and DEEP the time keeper
counts alone (R395). -/
def State.tick (s : State) : State :=
  if !s.pwr.vin then s
  else
    let s := s.weightTick.tickTime.timeLost.runTimed
    if s.asleep then s else s.engines

end Sys2Proof.Machine
end

