-- ==== Sys2Proof/WellFormed.lean ====
section
/-! DEFINITION. Well-formed commands: operands that the spec's tables allow. -/

namespace Sys2Proof

/-- The words of a Shunter instruction (Table 16-1): `n` of them, or none where host memory answers with an error. -/
def wfWords (n : Nat) (words : Option (List (BitVec 64))) : Bool := match words with | none => true | some w => w.length == n

/-- Codes of the converters (Table 4-1): 14 bits, of paths 0 to 63. -/
def adcCode (v : Int × Int) : Bool := decide (-8192 ≤ v.1 ∧ v.1 < 8192 ∧ -8192 ≤ v.2 ∧ v.2 < 8192)
def adcOk (raw : List AdcIn) : Bool := raw.all fun r => decide (r.path < 64) && r.vals.all adcCode

/-- A target of logic BIST with its index (R536). -/
def wfLbist (target index : Nat) : Bool :=
  match target with | 0 => index == 0 | 1 => decide (index < 64) | 2 => decide (index < 9) | 3 => decide (index < 8) | _ => false

/-- A calibration ID with a subject of its class (Table 9-1): the device, a path, a paddock or a synthesiser. -/
def wfSubject (id cls idx : Nat) : Bool :=
  decide (1 ≤ id) && decide (id ≤ 11) &&
  (match cls with | 1 => decide (idx < 64) | 2 => decide (idx < 8) | 3 => decide (idx < 16) | 9 => idx == 0 | _ => false)

/-- Well-formedness of a command. -/
def Instr.wellFormed : Instr → Bool
  | .nop _ => true
  | .regRead _ => true
  | .regWrite _ => true
  | .clearSafe _ => true
  | .clearQueue _ => true
  | .faultRead _ => true
  | .modeSet _ => true
  | .airRelease _ => true
  | .phaseSync _ => true
  | .powerState _ => true
  | .muteSet _ => true
  | .synthRetune _ => true
  | .synthHop _ => true
  | .synthCalibrate _ => true
  | .synthPowerOff _ => true
  | .synthPin _ => true
  | .synthUnpin _ => true
  | .synthStatus _ => true
  | .pathSetState _ => true
  | .pathSetReturn _ => true
  | .pathSetLevels _ => true
  | .pathStatus _ => true
  | .fcSet _ => true
  | .rsCoefLoad _ => true
  | .convStatus _ => true
  | .delayReport _ => true
  | .carrierConfigure _ => true
  | .carrierRemove _ => true
  | .beamLoad _ => true
  | .carrierStatus _ => true
  | .weightSet _ => true
  | .weightHint _ => true
  | .bookRead _ => true
  | .weightStatus _ => true
  | .burstCfg _ => true
  | .burstTx _ => true
  | .burstRx _ => true
  | .burstMeas _ => true
  | .burstStatus _ => true
  | .qualityStatus _ => true
  | .cfrSet _ => true
  | .dpdSet _ => true
  | .dpdFreeze _ => true
  | .dpdResume _ => true
  | .dpdReset _ => true
  | .dpdErase _ => true
  | .dpdReadActive _ => true
  | .dpdReadStored _ => true
  | .dpdAdjLoad _ => true
  | .dpdStatus _ => true
  | .calRun _ => true
  | .calSet _ => true
  | .calStatus _ => true
  | .tackStatus _ => true
  | .fhPortSet _ => true
  | .fhWindowSet _ => true
  | .fhFlowSet _ => true
  | .fhStatus _ => true
  | .hitSet _ => true
  | .hitStatus _ => true
  | .timeCfg _ => true
  | .timeDevSet _ => true
  | .timeTodSet _ => true
  | .timeStatus _ => true
  | .refCfg _ => true
  | .shuStart _ => true
  | .shuStop _ => true
  | .shuProgLoad _ => true
  | .shuCapture _ => true
  | .shuStatus _ => true
  | .shuFlag _ => true
  | .solverLoad _ => true
  | .solverSelect _ => true
  | .solverStatus _ => true
  | .solverTest _ => true
  | .hkSeqSet _ => true
  | .hkCmpSet _ => true
  | .hkTriggerSweep _ => true
  | .hkTriggerSpot _ => true
  | .hkTriggerStop _ => true
  | .hkCal _ => true
  | .hkRead _ => true
  | .outSetValue _ => true
  | .outSetSlew _ => true
  | .outSetGen _ => true
  | .outSetSafe _ => true
  | .supClearTrips _ => true
  | .supClearCompliance _ => true
  | .supStatus _ => true
  | .supCfg _ => true
  | .marchRun _ => true
  | .lbistRun _ => true
  | .memStatus _ => true
  | .ledgerRead _ => true
  | .pathRetire _ => true
  | .pathRestore _ => true
  | .secImageLoad _ => true
  | .secRollbackCommit _ => true
  | .secAttest _ => true
  | .secIdRead _ => true
  | .secProvision _ _ => true
  | .secCertStore _ => true
  | .commandFetch _ _ _ => true
  | .commandStart _ _ _ => true
  | .eventEntryWrite _ => true
  | .eventCoalesceTimeout => true
  | .ringDrainEnd _ => true
  | .releaseFenceOut _ => true
  | .tail _ _ => true
  | .cplHead _ _ => true
  | .release _ _ => true
  | .evtHead _ => true
  | .shuDb _ => true
  | .barBadAccess _ _ _ _ => true
  | .registerWrite addr _ => addr.toNat % 4 == 0
  | .ringCmdEnable _ _ => true
  | .ringCmdDisable _ _ => true
  | .ringEvtEnable _ => true
  | .ringEvtDisable _ => true
  | .ymAirOffsetWrite _ => true
  | .ymPendHwmRead _ => true
  | .ymLateCountRead _ => true
  | .ymFullCountRead _ => true
  | .topStatusRead => true
  | .clkStatusRead _ => true
  | .clkGateToRead _ => true
  | .ringEvtStatusRead => true
  | .hkOverrunRead _ => true
  | .shuBadCountRead _ => true
  | .memCorrCountRead _ => true
  | .memUncorrCountRead _ => true
  | .secBootStatusRead _ => true
  | .clkMeterStart _ => true
  | .clkMeterClear _ => true
  | .clkMeterEnd _ => true
  | .dpByp _ => true
  | .cbDiv _ => true
  | .pwrWakeCfgWrite _ => true
  | .pwrWakeFailClear _ => true
  | .retry _ => true
  | .fhLaneEqWrite _ => true
  | .powerGood _ _ _ => true
  | .brownOut => true
  | .perstNAssert => true
  | .perstNRelease => true
  | .pcieLinkUp => true
  | .powerupRailsReady _ => true
  | .powerupMemoryReady fails => fails.all fun f => decide (f.bank ≤ 416)
  | .tackStoreBootRead bad => bad.all fun n => decide (n < 1925)
  | .bootImageVerify => true
  | .bringupService => true
  | .powerupStepTimeout _ _ => true
  | .modeChangeRelease _ => true
  | .modeTransitionEnd _ _ => true
  | .arrayStartTimeout _ => true
  | .trafficResume => true
  | .dlSymbolRelease _ => true
  | .ulSymbolRelease _ => true
  | .soundingRelease _ => true
  | .burstTxRelease _ => true
  | .burstRxRelease _ => true
  | .pathStateRelease _ => true
  | .muteRelease _ => true
  | .synthHopRelease _ => true
  | .synthRetuneRelease _ => true
  | .phaseSyncRelease _ => true
  | .obsCaptureRelease _ => true
  | .hkTriggerRelease _ => true
  | .outputSetRelease _ => true
  | .pinEdgeRelease _ => true
  | .calSlotRelease _ => true
  | .configRelease _ => true
  | .alarmRelease _ => true
  | .pathTransitionEnd _ => true
  | .automaticReturn _ => true
  | .synthOperationEnd _ => true
  | .synthCalibrationEnd _ _ => true
  | .synthLockLoss _ => true
  | .channelBookPublish _ raw => adcOk raw
  | .sidingReady _ _ => true
  | .sidingSlotEnd _ _ => true
  | .onDemandPublish _ _ _ _ => true
  | .weightDeadline _ _ _ _ => true
  | .solverJobDispatch _ => true
  | .solverJobExit _ => true
  | .solverFault _ cause => decide (1 ≤ cause.toNat) && decide (cause.toNat ≤ 7)
  | .solverWatchdog _ => true
  | .solverCoreResetEnd _ => true
  | .solverNop _ _ _ => true
  | .solBr _ _ _ => true
  | .solCall _ _ _ => true
  | .solRet _ _ _ => true
  | .solRept _ _ _ => true
  | .solEnd _ _ _ => true
  | .solTrap _ _ _ => true
  | .solAdd _ _ _ => true
  | .solSub _ _ _ => true
  | .solAnd _ _ _ => true
  | .solOr _ _ _ => true
  | .solXor _ _ _ => true
  | .solShl _ _ _ => true
  | .solShr _ _ _ => true
  | .solSra _ _ _ => true
  | .solMul _ _ _ => true
  | .solSlt _ _ _ => true
  | .solSltu _ _ _ => true
  | .solMin _ _ _ => true
  | .solMax _ _ _ => true
  | .solMovi _ _ _ => true
  | .solMovhi _ _ _ => true
  | .solAddi _ _ _ => true
  | .solAddhi _ _ _ => true
  | .solLdw _ _ _ => true
  | .solStw _ _ _ => true
  | .solMovsx _ _ _ => true
  | .solMovxs _ _ _ => true
  | .solSetcfg _ _ _ => true
  | .solGetcfg _ _ _ => true
  | .solSetmask _ _ _ => true
  | .solGetspr _ _ _ => true
  | .solAddx _ _ _ => true
  | .solVld _ _ _ => true
  | .solVst _ _ _ => true
  | .solVldb _ _ _ => true
  | .solVstm _ _ _ => true
  | .solVmul _ _ _ => true
  | .solVmac _ _ _ => true
  | .solVmulb _ _ _ => true
  | .solVmacb _ _ _ => true
  | .solVmacs _ _ _ => true
  | .solVmacm _ _ _ => true
  | .solVrnd _ _ _ => true
  | .solVrnds _ _ _ => true
  | .solAclr _ _ _ => true
  | .solAsum _ _ _ => true
  | .solAload _ _ _ => true
  | .solSext _ _ _ => true
  | .solVadd _ _ _ => true
  | .solVsub _ _ _ => true
  | .solVconj _ _ _ => true
  | .solVneg _ _ _ => true
  | .solVsel _ _ _ => true
  | .solVperm _ _ _ => true
  | .solVbcast _ _ _ => true
  | .solVins _ _ _ => true
  | .solVextl _ _ _ => true
  | .solVshr _ _ _ => true
  | .solSrsq _ _ _ => true
  | .solSrec _ _ _ => true
  | .solSnorm _ _ _ => true
  | .solXfer _ _ _ => true
  | .foregroundPreempt _ => true
  | .shuMove _ words _ _ _ => wfWords 4 words
  | .shuLoop _ words => wfWords 1 words
  | .shuWaitAtAbs _ words => wfWords 1 words
  | .shuWaitAtRel _ words => wfWords 1 words
  | .shuWaitFlag _ words => wfWords 1 words
  | .shuWaitDoorbell _ words => wfWords 1 words
  | .waitSatisfied _ => true
  | .waitTimeout _ => true
  | .signalEvent _ words => wfWords 1 words
  | .signalMsix _ words => wfWords 1 words
  | .signalSetFlag _ words => wfWords 1 words
  | .signalClearFlag _ words => wfWords 1 words
  | .shuProgramEnd _ _ => true
  | .shuCaptureComplete slot _ => decide (48 ≤ slot) && decide (slot < 64)
  | .ethFrameReceive _ _ _ _ => true
  | .cPlaneSections _ _ => true
  | .uPlaneData _ _ => true
  | .scheduleHint _ _ => true
  | .soundingDirective _ _ => true
  | .burstDirective _ _ => true
  | .weightBlocks _ _ => true
  | .beamUpload _ _ => true
  | .wakeMessage _ _ => true
  | .delayRequest _ _ _ => true
  | .delayFollowUp _ _ _ => true
  | .followUpTimeout _ => true
  | .orphanBlockTimeout _ => true
  | .ulEgress _ _ raw => adcOk raw
  | .portUp _ _ => true
  | .portFailed _ _ _ => true
  | .portRevert _ => true
  | .ptpSync _ _ _ _ => true
  | .ptpFollowUp _ _ => true
  | .ptpDelayResp _ _ => true
  | .ptpAnnounce _ _ => true
  | .announceTimeout _ => true
  | .delayReqSend _ _ => true
  | .ppsInEdge _ => true
  | .servoHoldover _ => true
  | .servoExpired _ => true
  | .bleedDone => true
  | .timeAnchor => true
  | .hitchTimeSend => true
  | .hitchTime _ _ _ => true
  | .hitchTimeEcho _ _ _ => true
  | .hitchFwd _ _ => true
  | .ulPsum _ _ => true
  | .ulPsumSend _ _ raw => adcOk raw
  | .gram _ _ => true
  | .solve _ _ => true
  | .ready _ _ => true
  | .commit _ _ => true
  | .commitSend _ _ _ _ => true
  | .commitMiss _ _ _ _ => true
  | .sndDone _ _ => true
  | .meas _ _ => true
  | .keepalive _ _ => true
  | .keepaliveSend _ => true
  | .memberLost _ => true
  | .membershipChange => true
  | .clockMonitorWindowEnd _ _ => true
  | .clockDead _ => true
  | .turntableSwitchEnd => true
  | .pllLocked => true
  | .revertHoldExpiry => true
  | .gateRequest _ => true
  | .gateTimeout _ => true
  | .railOut _ => true
  | .phaseImbalance _ _ => true
  | .thermalMute _ => true
  | .thermalMuteRelease => true
  | .thermalDeep _ => true
  | .thermalRecovery => true
  | .quiesceBoundary => true
  | .entryGatingEnd => true
  | .timeKeeperHandoff => true
  | .entryA3 => true
  | .entryComplete _ => true
  | .wakePin _ _ => true
  | .wakeStepEnd => true
  | .wakeStepTimeout _ _ => true
  | .wakeCarrierResume => true
  | .hkConversionEnd _ raw => decide (-2048 ≤ raw) && decide (raw ≤ 4095)
  | .hkTrigPin _ => true
  | .hkSweepEnd _ => true
  | .hkPowerDown _ => true
  | .hkCalStart _ => true
  | .hkCalEnd _ _ _ => true
  | .compliance _ => true
  | .halterDwellEnd _ => true
  | .slewUpdate => true
  | .dpdCaptureDecision _ => true
  | .dpdCaptureEnd _ obs => obs.all adcCode
  | .dpdAdaptPublish _ => true
  | .adaptTimeout _ => true
  | .blendBoundary => true
  | .burstDetection _ raw => adcOk raw
  | .syncHypothesisFail _ raw => adcOk raw
  | .syncAccepted _ raw => adcOk raw
  | .syncFieldEnd _ => true
  | .longTrainingEnd _ => true
  | .payloadEnd _ => true
  | .decoderStop _ raw => adcOk raw
  | .burstWindowClose => true
  | .noiseFloorBlock _ _ raw => adcOk raw
  | .backgroundCalDecision id cls idx _ => wfSubject id cls idx
  | .calibrationComplete id cls idx _ _ => wfSubject id cls idx
  | .calStepBoundary id cls idx => wfSubject id cls idx
  | .lendStart _ => true
  | .lendRejoin _ => true
  | .calSetStore => true
  | .partialResultExpiry id cls idx => wfSubject id cls idx
  | .tackRecordCommit _ => true
  | .beamTableSwitch => true
  | .fcSetComplete => true
  | .recoveryStart => true
  | .recoveryComplete => true
  | .d2dUncorr => true
  | .memUncorr bank _ _ _ => decide (bank ≤ 416)
  | .memCorrected bank _ => decide (bank ≤ 416)
  | .patrolScrub errs => errs.all fun e => decide (e.1 ≤ 416)
  | .marchBankEnd _ _ bank fails => decide (bank ≤ 416) && fails.all fun f => f.bank == bank
  | .lbistEnd target index _ _ => wfLbist target index
  | .retirementEffect => true
  | .entryA1 => true
  | .untimedCommandComplete _ _ => true
  | .hitchTimeLoss _ => true
  | .d2dCorrectedError => true
  | .ppsOutPulseEnd => true
  | .tapTckEdge _ _ _ _ => true
  | .trstNAssert => true
  | .l12Entry => true
  | .l12Exit => true

end Sys2Proof
end

