-- ==== Sys2Proof/Certificates/Slice0/Obligations.lean ====
section
/-! DEFINITION. Statements for the provers. Each `def Obligations.<Name> : Prop` says what its name states; the definitions in
`Sys2Proof.Claims` are the vocabulary of the statements. -/

namespace Sys2Proof.Claims

open Sys2Proof.Machine

/-- The host command `c`, of opcode `op`, has started with the slot contents `x`; its entry passes the check of R420, and the device is not
in RECOVERY (R554). -/
def Served (s : State) (c : Cmd) (op : BitVec 8) (x : Slot) : Prop :=
  s.slot? c.ref = some x ∧ x.stage = .started ∧ x.opcode = op ∧ entryOk x.entry x.payload = true ∧ s.sec.recovery = false

end Sys2Proof.Claims

open Sys2Proof Sys2Proof.Machine Sys2Proof.Claims
namespace Sys2Proof.Claims

open Sys2Proof.Machine

-- Solver instructions (chapter 17)

/-- The solver instruction `w` of encoding `o` is at the PC of a context that issues, and nothing in its word or place is illegal
(R480 to R482, R485): the word is the one that the loaded kernel holds there, or, where the manual does not give the code (the vendor's
background kernels), any. The vendor's foreground kernels are known by their results alone (R489). -/
def Issue (s : State) (c : Fin 9) (bg : Bool) (w : BitVec 32) (o : IsaOp) : Prop :=
  let m := s.sol.cores[c]
  let b := m.bank bg
  let k := m.kernel bg
  m.issues bg = true ∧ fF w 28 4 = o.cls ∧ (o.cls = 10 ∨ fF w 24 4 = o.op)
  ∧ (match s.codeAt k b.pc.toNat with | some x => x == w | none => bg || k != 0) = true ∧ pcOk k b.pc.toNat = true
  ∧ (b.rept = 0 ∨ o.rep = true) ∧ w &&& o.zero = 0 ∧ (∀ lo ∈ o.vs, vBad bg w lo = false)
  ∧ (o.cls = 10 → inSlot k b.pc.toNat = false)

/-- The accumulator that the instruction reads was not written by either of the two instructions before it (R482). -/
def NoHazard (s : State) (c : Fin 9) (bg : Bool) (w : BitVec 32) : Prop :=
  let b := (s.sol.cores[c]).bank bg
  b.wr1 ≠ some (BitVec.ofFin (aA w)) ∧ b.wr2 ≠ some (BitVec.ofFin (aA w))

/-- An instruction is done: the bank `b` replaces that of the context, PC advances (or a repetition is counted), `cyc` cycles pass, and
of the rest of the state nothing changes. `acc`: the accumulator it has written. -/
def retire (s : State) (c : Fin 9) (bg : Bool) (b : Bank) (cyc : Nat) (acc : Option (BitVec 2) := none) : State :=
  let b' := { b with wr2 := b.wr1, wr1 := acc, rept := if 1 < b.rept then b.rept - 1 else 0, pc := if 1 < b.rept then b.pc else b.pc + 1 }
  s.modCore c fun m => if bg then { m with bg := b', bgCyc := m.bgCyc + cyc, ahead := m.ahead + cyc }
    else { m with fg := b', fgCyc := m.fgCyc + cyc, fgCycles := satAdd m.fgCycles cyc, ahead := m.ahead + cyc }

/-- The same for an instruction that sets PC itself. -/
def jump (s : State) (c : Fin 9) (bg : Bool) (b : Bank) (cyc : Nat) : State :=
  let b' := { b with wr2 := b.wr1, wr1 := none }
  s.modCore c fun m => if bg then { m with bg := b', bgCyc := m.bgCyc + cyc, ahead := m.ahead + cyc }
    else { m with fg := b', fgCyc := m.fgCyc + cyc, fgCycles := satAdd m.fgCycles cyc, ahead := m.ahead + cyc }

/-- The bank of a context, a vector register of a core. -/
abbrev bankOf (s : State) (c : Fin 9) (bg : Bool) : Bank := (s.sol.cores[c]).bank bg
abbrev vreg (s : State) (c : Fin 9) (i : Fin 32) : Vector (BitVec 32) 32 := (s.sol.cores[c]).v[i]

/-- Three-register scalar instructions: constructor, OP, result. -/
def saluTable : List ((Fin 9 → Bool → BitVec 32 → Instr) × Nat × (BitVec 32 → BitVec 32 → BitVec 32)) :=
  [(.solAdd, 0, fun x y => x + y), (.solSub, 1, fun x y => x - y), (.solAnd, 2, fun x y => x &&& y), (.solOr, 3, fun x y => x ||| y),
   (.solXor, 4, fun x y => x ^^^ y), (.solShl, 5, fun x y => x <<< (y.toNat % 32)), (.solShr, 6, fun x y => x >>> (y.toNat % 32)),
   (.solSra, 7, fun x y => x.sshiftRight (y.toNat % 32)), (.solMul, 8, fun x y => x * y),
   (.solSlt, 9, fun x y => if x.toInt < y.toInt then 1 else 0), (.solSltu, 10, fun x y => if x.toNat < y.toNat then 1 else 0),
   (.solMin, 11, fun x y => if y.toInt < x.toInt then y else x), (.solMax, 12, fun x y => if x.toInt < y.toInt then y else x)]

/-- Immediate scalar instructions. -/
def simmTable : List ((Fin 9 → Bool → BitVec 32 → Instr) × Nat × (BitVec 32 → BitVec 16 → BitVec 32)) :=
  [(.solMovi, 0, fun _ i => i.signExtend 32), (.solMovhi, 1, fun d i => i ++ d.extractLsb' 0 16),
   (.solAddi, 2, fun d i => d + i.signExtend 32), (.solAddhi, 3, fun d i => d + (i ++ (0 : BitVec 16)))]

end Sys2Proof.Claims

open Sys2Proof Sys2Proof.Machine Sys2Proof.Claims

/-- Table 17-4, SALU: D takes the result of A and B, wrapping; S0 reads 0 and ignores the write; nothing else of the state changes but PC and
the cycle counts. -/
def Sys2Proof.Claims.SolverScalarResults : Prop :=
  ∀ p ∈ saluTable, ∀ (s : State) (c : Fin 9) (bg : Bool) (w : BitVec 32), Issue s c bg w { cls := 1, op := p.2.1, zero := 0x008421FF } →
    exec (p.1 c bg w) s = .next (retire s c bg ((bankOf s c bg).ws (sD w) (p.2.2 ((bankOf s c bg).rs (sA w)) ((bankOf s c bg).rs (sB w)))) 1)

/-- Table 17-4, SIMM and XREG: results of the immediate instructions and of the moves between register files. -/
def Sys2Proof.Claims.SolverMoves : Prop :=
  (∀ p ∈ simmTable, ∀ (s : State) (c : Fin 9) (bg : Bool) (w : BitVec 32), Issue s c bg w { cls := 2, op := p.2.1, zero := 0x00870000 } →
    exec (p.1 c bg w) s = .next (retire s c bg ((bankOf s c bg).ws (sD w) (p.2.2 ((bankOf s c bg).rs (sD w)) (w.extractLsb' 0 16))) 1))
  ∧ ∀ (s : State) (c : Fin 9) (bg : Bool) (w : BitVec 32), let b := bankOf s c bg
    (Issue s c bg w { cls := 4, op := 0, zero := 0x00843FFF } → exec (.solMovsx c bg w) s = .next (retire s c bg { b with x := vset b.x (sD w) ((b.rs (sA w)).setWidth 18) } 1))
    ∧ (Issue s c bg w { cls := 4, op := 1, zero := 0x00843FFF } → exec (.solMovxs c bg w) s = .next (retire s c bg (b.ws (sD w) (b.x[sA w].setWidth 32)) 1))
    ∧ (Issue s c bg w { cls := 4, op := 2, zero := 0x00843FFF } → exec (.solSetcfg c bg w) s = .next (retire s c bg { b with xcfg := vset b.xcfg (sD w) (b.rs (sA w)) } 1))
    ∧ (Issue s c bg w { cls := 4, op := 3, zero := 0x00843FFF } → ∃ v n, exec (.solGetcfg c bg w) s = .next (retire { s with free := n } c bg (b.ws (sD w) v) 1)
        ∧ v &&& 0xC01FFFFF = b.xcfg[sA w] &&& 0xC01FFFFF)
    ∧ (Issue s c bg w { cls := 4, op := 4, zero := 0x00FC3FFF } → exec (.solSetmask c bg w) s = .next (retire s c bg { b with vmask := b.rs (sA w) } 1))
    ∧ (Issue s c bg w { cls := 4, op := 5, zero := 0x00803FFF } → ∀ h : (fA w).val < 4, exec (.solGetspr c bg w) s = .next (retire s c bg (b.ws (sD w)
        (#v[BitVec.ofNat 32 c.val, BitVec.ofNat 32 (if bg then (s.sol.cores[c]).bgCyc else (s.sol.cores[c]).fgCyc), (s.sol.cores[c]).satcnt.setWidth 32,
          if bg then 1 else 0][(fA w).val]'h)) 1))
    ∧ (Issue s c bg w { cls := 4, op := 6, zero := 0x00843FFF } → ∀ v, xNext b.x[sD w] b.xcfg[sD w] (b.rs (sA w)).toInt = some v →
        exec (.solAddx c bg w) s = .next (retire s c bg { b with x := vset b.x (sD w) v } 1))

/-- Table 17-4, SALU, SIMM and XREG: the scalar results, the immediate instructions and the moves between register files. -/
def Obligations.SolverScalarAndMoves : Prop := Sys2Proof.Claims.SolverScalarResults ∧ Sys2Proof.Claims.SolverMoves

/-- R477, R479, Table 17-4: loads and stores at Xn inside the context's region, aligned to 4 where the instruction asks for it; Xn takes
`v` afterwards. A load changes no memory; a store changes the words that its bytes lie in alone. -/
def Obligations.SolverMemoryAccess : Prop :=
  ∀ (s : State) (c : Fin 9) (bg : Bool) (w : BitVec 32) (v : BitVec 18), let b := bankOf s c bg
    let a := b.x[fX w].toNat
    let after (b : Bank) : Bank := { b with x := vset b.x (fX w) v }
    xNext b.x[fX w] b.xcfg[fX w] (4 * fInc w) = some v →
    (inRegion bg a 4 = true → a % 4 = 0 →
      (Issue s c bg w { cls := 3, op := 0, zero := 0x0080007F } → exec (.solLdw c bg w) s = .next (retire s c bg (after (b.ws (sD w) (s.solLoad c a))) 1))
      ∧ (Issue s c bg w { cls := 3, op := 1, zero := 0x0080007F } → exec (.solStw c bg w) s = .next (retire (s.solStore c a (b.rs (sD w))) c bg (after b) 1))
      ∧ (Issue s c bg w { cls := 5, op := 2, zero := 0x7F, vs := [19], rep := true } →
          exec (.solVldb c bg w) s = .next (retire (s.wv c (fD w) (Vector.replicate 32 (s.solLoad c a))) c bg (after b) 1)))
    ∧ (inRegion bg a 128 = true →
      (Issue s c bg w { cls := 5, op := 0, zero := 0x7F, vs := [19], rep := true } →
          exec (.solVld c bg w) s = .next (retire (s.wv c (fD w) (Vector.ofFn fun j => s.solLoad c (a + 4 * j.val))) c bg (after b) 1))
      ∧ (Issue s c bg w { cls := 5, op := 1, zero := 0x7F, vs := [19], rep := true } →
          exec (.solVst c bg w) s = .next (retire (s.solVecPut c a (vreg s c (fD w)) (BitVec.allOnes 32)) c bg (after b) 1))
      ∧ (Issue s c bg w { cls := 5, op := 3, zero := 0x7F, vs := [19], rep := true } →
          exec (.solVstm c bg w) s = .next (retire (s.solVecPut c a (vreg s c (fD w)) b.vmask) c bg (after b) 1)))

/-- R481, Table 17-4, VMAC: the products and sums of the lanes saturate into the accumulator D, each saturation counts, and the
instruction is noted as a writer of that accumulator. -/
def Obligations.SolverMultiplyAccumulate : Prop :=
  ∀ (s : State) (c : Fin 9) (bg : Bool) (w : BitVec 32), let b := bankOf s c bg
    let x := vreg s c (fA w)
    let mul (add : Bool) (y : Fin 32 → BitVec 32) : State × Bank := s.accSat c b (aD w) fun j =>
      let p := macProd w x[j] (y j)
      if add then ((accOf b (aD w) j).1 + p.1, (accOf b (aD w) j).2 + p.2) else p
    let done (r : State × Bank) : State := retire r.1 c bg r.2 1 (some (BitVec.ofFin (aD w)))
    (Issue s c bg w { cls := 6, op := 0, zero := 0x00E0003F, vs := [14, 9], rep := true } → exec (.solVmul c bg w) s = .next (done (mul false fun j => (vreg s c (fB w))[j])))
    ∧ (Issue s c bg w { cls := 6, op := 1, zero := 0x00E0003F, vs := [14, 9], rep := true } → exec (.solVmac c bg w) s = .next (done (mul true fun j => (vreg s c (fB w))[j])))
    ∧ (Issue s c bg w { cls := 6, op := 2, zero := 0x00E00020, vs := [14, 9], rep := true } →
        exec (.solVmulb c bg w) s = .next (done (mul false fun _ => (vreg s c (fB w))[((w.extractLsb' 0 5).toFin : Fin 32)])))
    ∧ (Issue s c bg w { cls := 6, op := 3, zero := 0x00E00020, vs := [14, 9], rep := true } →
        exec (.solVmacb c bg w) s = .next (done (mul true fun _ => (vreg s c (fB w))[((w.extractLsb' 0 5).toFin : Fin 32)])))
    ∧ (Issue s c bg w { cls := 6, op := 4, zero := 0x00E0203F, vs := [14], rep := true } → exec (.solVmacs c bg w) s = .next (done (mul true fun _ => b.rs (sB w))))
    ∧ (Issue s c bg w { cls := 6, op := 5, zero := 0x00E0203F, vs := [14], rep := true } → inRegion bg b.x[sB w].toNat 128 = true →
        ∀ v, xNext b.x[sB w] b.xcfg[sB w] 128 = some v →
        exec (.solVmacm c bg w) s = .next (let r := mul true fun j => s.solLoad c (b.x[sB w].toNat + 4 * j.val)
          done (r.1, { r.2 with x := vset r.2.x (sB w) v })))

/-- Table 17-4, VEXT: the accumulators read out, cleared, summed and loaded. -/
def Obligations.SolverAccumulatorReadout : Prop :=
  ∀ (s : State) (c : Fin 9) (bg : Bool) (w : BitVec 32), let b := bankOf s c bg
    let round (k : Nat) (j : Fin 32) : Int × Int := (rshift (accOf b (aA w) j).1 k, rshift (accOf b (aA w) j).2 k)
    (NoHazard s c bg w →
      (Issue s c bg w { cls := 7, op := 0, zero := 0x00073FC0, vs := [19], rep := true } → exec (.solVrnd c bg w) s = .next (retire (s.vecSat c (fD w) (round (fF w 0 6))) c bg b 1))
      ∧ (Issue s c bg w { cls := 7, op := 1, zero := 0x000721FF, vs := [19], rep := true } →
          exec (.solVrnds c bg w) s = .next (retire (s.vecSat c (fD w) (round ((b.rs (sB w)).toNat % 64))) c bg b 1))
      ∧ (Issue s c bg w { cls := 7, op := 3, zero := 0x00E73FFF, rep := true } → exec (.solAsum c bg w) s = .next (
          let sum := (List.finRange 32).foldl (fun (t : Int × Int) j => (t.1 + (accOf b (aA w) j).1, t.2 + (accOf b (aA w) j).2)) (0, 0)
          let r := s.accSat c b (aD w) fun j => if j = 0 then sum else (0, 0)
          retire r.1 c bg r.2 1 (some (BitVec.ofFin (aD w)))))
      ∧ (Issue s c bg w { cls := 7, op := 5, zero := 0x008721C0 } → exec (.solSext c bg w) s = .next (
          let a := accOf b (aA w) ((w.extractLsb' 0 5).toFin : Fin 32)
          let v := rshift (if w.getLsbD 5 then a.2 else a.1) ((b.rs (sB w)).toNat % 64)
          retire (s.satCount c (overC32 v)) c bg (b.ws (sD w) (BitVec.ofInt 32 (satC32 v))) 1)))
    ∧ (Issue s c bg w { cls := 7, op := 2, zero := 0x00E7FFFF, rep := true } →
        exec (.solAclr c bg w) s = .next (retire s c bg { b with acc := vset b.acc (aD w) (Vector.replicate 32 (0, 0)) } 1 (some (BitVec.ofFin (aD w)))))
    ∧ (Issue s c bg w { cls := 7, op := 4, zero := 0x00E03FC0, vs := [14], rep := true } → exec (.solAload c bg w) s = .next (
        let r := s.accSat c b (aD w) fun j => (reOf (vreg s c (fA w))[j] * (2 ^ fF w 0 6 : Nat), imOf (vreg s c (fA w))[j] * (2 ^ fF w 0 6 : Nat))
        retire r.1 c bg r.2 1 (some (BitVec.ofFin (aD w)))))

/-- R482: an instruction that reads an accumulator written by one of the two instructions before it completes too, up to two cycles later;
the manual leaves the number open. -/
def Obligations.SolverAccumulatorHazard : Prop :=
  ∀ (s : State) (c : Fin 9) (bg : Bool) (w : BitVec 32), ¬ NoHazard s c bg w → Issue s c bg w { cls := 7, op := 0, zero := 0x00073FC0, vs := [19], rep := true } →
    ∃ n h, h ≤ 2 ∧ exec (.solVrnd c bg w) s = .next (retire { s.vecSat c (fD w) (fun j =>
      (rshift (accOf (bankOf s c bg) (aA w) j).1 (fF w 0 6), rshift (accOf (bankOf s c bg) (aA w) j).2 (fF w 0 6))) with free := n } c bg (bankOf s c bg) (1 + h))

/-- Table 17-4, VALU: lane-wise results; saturating ones count what they saturate. -/
def Obligations.SolverVectorResults : Prop :=
  ∀ (s : State) (c : Fin 9) (bg : Bool) (w : BitVec 32), let b := bankOf s c bg
    let x := vreg s c (fA w)
    let y := vreg s c (fB w)
    let put (f : Fin 32 → BitVec 32) : State := retire (s.wv c (fD w) (Vector.ofFn f)) c bg b 1
    let sat (f : Fin 32 → Int × Int) : State := retire (s.vecSat c (fD w) f) c bg b 1
    (Issue s c bg w { cls := 8, op := 0, zero := 0x1FF, vs := [19, 14, 9], rep := true } → exec (.solVadd c bg w) s = .next (sat fun j => (reOf x[j] + reOf y[j], imOf x[j] + imOf y[j])))
    ∧ (Issue s c bg w { cls := 8, op := 1, zero := 0x1FF, vs := [19, 14, 9], rep := true } → exec (.solVsub c bg w) s = .next (sat fun j => (reOf x[j] - reOf y[j], imOf x[j] - imOf y[j])))
    ∧ (Issue s c bg w { cls := 8, op := 2, zero := 0x3FFF, vs := [19, 14], rep := true } → exec (.solVconj c bg w) s = .next (sat fun j => (reOf x[j], -(imOf x[j]))))
    ∧ (Issue s c bg w { cls := 8, op := 3, zero := 0x3FFF, vs := [19, 14], rep := true } → exec (.solVneg c bg w) s = .next (sat fun j => (-(reOf x[j]), -(imOf x[j]))))
    ∧ (Issue s c bg w { cls := 8, op := 4, zero := 0x1FF, vs := [19, 14, 9], rep := true } → exec (.solVsel c bg w) s = .next (put fun j => if b.vmask.getLsbD j.val then x[j] else y[j]))
    ∧ (Issue s c bg w { cls := 8, op := 5, zero := 0x1FF, vs := [19, 14, 9], rep := true } → exec (.solVperm c bg w) s = .next (put fun j => x[((y[j].extractLsb' 0 5).toFin : Fin 32)]))
    ∧ (Issue s c bg w { cls := 8, op := 6, zero := 0x00043FFF, vs := [19], rep := true } → exec (.solVbcast c bg w) s = .next (put fun _ => b.rs (sA w)))
    ∧ (Issue s c bg w { cls := 8, op := 7, zero := 0x00043FE0, vs := [19], rep := true } → exec (.solVins c bg w) s = .next (put fun j => if j.val = fF w 0 5 then b.rs (sA w) else (vreg s c (fD w))[j]))
    ∧ (Issue s c bg w { cls := 8, op := 8, zero := 0x00803FE0, vs := [14], rep := true } →
        exec (.solVextl c bg w) s = .next (retire s c bg (b.ws (sD w) x[((w.extractLsb' 0 5).toFin : Fin 32)]) 1))
    ∧ (Issue s c bg w { cls := 8, op := 9, zero := 0x3FF0, vs := [19, 14], rep := true } →
        exec (.solVshr c bg w) s = .next (put fun j => lane (rshift (reOf x[j]) (fF w 0 4)) (rshift (imOf x[j]) (fF w 0 4))))

/-- What a library routine leaves alone (R488), and where it goes on: after the CALL, with the link in S15. -/
def Sys2Proof.Claims.AfterLibrary (b b' : Bank) : Prop :=
  b'.pc = b.pc + 1 ∧ b'.rept = b.rept ∧ b'.s[15] = (b.pc + 1).setWidth 32 ∧ b'.x[0] = b.x[0] ∧ b'.x[14] = b.x[14]
  ∧ (∀ i : Fin 16, 8 ≤ i.val → i.val ≤ 14 → b'.s[i] = b.s[i]) ∧ ∀ i : Fin 16, 8 ≤ i.val → i.val ≤ 13 → b'.x[i] = b.x[i] ∧ b'.xcfg[i] = b.xcfg[i]

/-- Table 17-4, CTRL, SFN and the vendor transfer: where PC goes, what ends a job, what a CALL of the library keeps (R488), and the special functions with their cycles. TRAP's own
effect is the fault of cause 4. -/
def Obligations.SolverControlAndFunctions : Prop :=
  ∀ (s : State) (c : Fin 9) (bg : Bool) (w : BitVec 32), let b := bankOf s c bg
    let k := (s.sol.cores[c]).kernel bg
    let sfn (f : Nat → Nat) (cyc : Nat) : State :=
      let v := f (b.rs (sA w)).toNat
      retire (s.satCount c (if 0xFFFFFFFF < v then 1 else 0)) c bg (b.ws (sD w) (BitVec.ofNat 32 (min v 0xFFFFFFFF))) cyc
    (Issue s c bg w { cls := 0, op := 0, zero := 0x00FFFFFF } → exec (.solverNop c bg w) s = .next (retire s c bg b 1))
    ∧ (Issue s c bg w { cls := 0, op := 1, zero := 0 } →
        (condOf (fF w 20 4) (b.rs (w.extractLsb' 16 4).toFin) = some false → exec (.solBr c bg w) s = .next (jump s c bg { b with pc := b.pc + 1 } 1))
        ∧ (condOf (fF w 20 4) (b.rs (w.extractLsb' 16 4).toFin) = some true → pcOk k (b.pc + 1 + (w.extractLsb' 0 16).setWidth 14).toNat = true →
            exec (.solBr c bg w) s = .next (jump s c bg { b with pc := b.pc + 1 + (w.extractLsb' 0 16).setWidth 14 } 2)))
    ∧ (Issue s c bg w { cls := 0, op := 2, zero := 0x00FFC000 } → pcOk k (w.extractLsb' 0 14).toNat = true → (k = 0 ∨ libEntry (w.extractLsb' 0 14).toNat = false) →
        exec (.solCall c bg w) s = .next (jump s c bg { b with s := vset b.s 15 ((b.pc + 1).setWidth 32), pc := w.extractLsb' 0 14 } 2))
    ∧ (Issue s c bg w { cls := 0, op := 2, zero := 0x00FFC000 } → k ≠ 0 → libEntry (w.extractLsb' 0 14).toNat = true → inRegion false (b.x[0]).toNat 64 = true →
        ∃ t, exec (.solCall c bg w) s = .next t ∧ AfterLibrary b (bankOf t c bg))
    ∧ (Issue s c bg w { cls := 0, op := 3, zero := 0x00FFFFFF } → pcOk k ((b.s[15]).setWidth 14).toNat = true →
        exec (.solRet c bg w) s = .next (jump s c bg { b with pc := (b.s[15]).setWidth 14 } 2))
    ∧ (Issue s c bg w { cls := 0, op := 4, zero := 0 } → fF w 12 12 = 0 → exec (.solRept c bg w) s = .next (jump s c bg { b with rept := fF w 0 12 + 1, pc := b.pc + 1 } 1))
    ∧ (Issue s c bg w { cls := 0, op := 4, zero := 0 } → fF w 20 4 = 1 → fF w 0 16 = 0 → ∀ n, n = (b.rs (w.extractLsb' 16 4).toFin).toNat → 0 < n → n ≤ 4096 →
        exec (.solRept c bg w) s = .next (jump s c bg { b with rept := n, pc := b.pc + 1 } 1))
    ∧ (Issue s c bg w { cls := 0, op := 5, zero := 0x00FFFFFF } → (b.rs 1).toNat < 2 → exec (.solEnd c bg w) s = .next (retire
        (s.modCore c fun m => if bg then { m with bgJob := none, bgOn := false } else { m with ended := some (b.rs 1) }) c bg b 1))
    ∧ (Issue s c bg w { cls := 0, op := 6, zero := 0x00FFFF00 } → exec (.solTrap c bg w) s = .next (s.coreFault c 4))
    ∧ (Issue s c bg w { cls := 9, op := 0, zero := 0x00843FFF } → exec (.solSrsq c bg w) s = .next (sfn srsq 8))
    ∧ (Issue s c bg w { cls := 9, op := 1, zero := 0x00843FFF } → exec (.solSrec c bg w) s = .next (sfn srec 8))
    ∧ (Issue s c bg w { cls := 9, op := 2, zero := 0x00843FFF } → exec (.solSnorm c bg w) s = .next (sfn leadZeros 1))
    ∧ (Issue s c bg w { cls := 10, op := 0, zero := 0 } → ∃ t, exec (.solXfer c bg w) s = .next t
        ∧ t = retire (s.modCore c fun m => { m with data := (t.sol.cores[c]).data, genF := (t.sol.cores[c]).genF, genB := (t.sol.cores[c]).genB,
                                                     zeroF := (t.sol.cores[c]).zeroF, zeroB := (t.sol.cores[c]).zeroB }) c bg b 1
        ∧ ∀ i, decide (i < 32768) = bg → t.solWord c i = s.solWord c i)

/-- R485, Table 17-5: what faults a core, with its cause: reserved bits and the other context's V registers (ILLEGAL), a PC outside the
kernel's place (RANGE), an access outside the region (RANGE) or off its alignment (ALIGN), END with S1 of 2 or more (STATUS). -/
def Obligations.SolverInstructionFaults : Prop :=
  ∀ (s : State) (c : Fin 9) (bg : Bool) (w : BitVec 32), let b := bankOf s c bg
    (Issue s c bg (w &&& 0xFF7BDE00) { cls := 1, op := 0, zero := 0x008421FF } → w &&& 0x008421FF ≠ 0 →
        s.codeAt ((s.sol.cores[c]).kernel bg) b.pc.toNat = none → exec (.solAdd c bg w) s = .next (s.coreFault c 1))
    ∧ (Issue s c bg w { cls := 3, op := 0, zero := 0x0080007F } → inRegion bg b.x[fX w].toNat 4 = false → exec (.solLdw c bg w) s = .next (s.coreFault c 2))
    ∧ (Issue s c bg w { cls := 3, op := 1, zero := 0x0080007F } → inRegion bg b.x[fX w].toNat 4 = true → b.x[fX w].toNat % 4 ≠ 0 → exec (.solStw c bg w) s = .next (s.coreFault c 3))
    ∧ (Issue s c bg w { cls := 0, op := 5, zero := 0x00FFFFFF } → 2 ≤ (b.rs 1).toNat → exec (.solEnd c bg w) s = .next (s.coreFault c 7))

namespace Sys2Proof.Claims

open Sys2Proof.Machine

/-- Reads of registers with read-clear fields: constructor, address, and what the read clears: of each count what was there when the
control-bus cycle began, so that what the hardware sets in that cycle stays (R15, Table 0-4). -/
def namedReads : List ((Cmd → Instr) × Nat × (State → State)) :=
  [(.clkStatusRead, 0x0800, fun s => { s with
      clk := { s.clk with ttHung := rcKeep s.clk.ttHung s.rc.ttHung, switches := rcKeep s.clk.switches s.rc.switches }, rc := { s.rc with ttHung := 0, switches := 0 } }),
   (.clkGateToRead, 0x081C, fun s => { s with clk := { s.clk with gateTo := rcKeep s.clk.gateTo s.rc.gateTo }, rc := { s.rc with gateTo := 0 } }),
   (.ymPendHwmRead, 0x1008, fun s => { s with ym := { s.ym with hwm := s.pendingCount } }),
   (.ymLateCountRead, 0x100C, fun s => { s with ym := { s.ym with late := rcKeep s.ym.late s.rc.late }, rc := { s.rc with late := 0 } }),
   (.ymFullCountRead, 0x1010, fun s => { s with ym := { s.ym with full := rcKeep s.ym.full s.rc.full }, rc := { s.rc with full := 0 } }),
   (.shuBadCountRead, 0x180C, fun s => { s with shu := { s.shu with badCount := rcKeep s.shu.badCount s.rc.shuBad }, rc := { s.rc with shuBad := 0 } }),
   (.hkOverrunRead, 0x2404, fun s => { s with sup := { s.sup with conv := s.ovrMap fun cur base => rcKeep cur base }, rc := { s.rc with ovr0 := 0, ovr1 := 0 } }),
   (.memCorrCountRead, 0x3004, fun s => { s with mem := { s.mem with corr := rcKeep s.mem.corr s.rc.corr }, rc := { s.rc with corr := 0 } }),
   (.memUncorrCountRead, 0x3008, fun s => { s with mem := { s.mem with uncorr := rcKeep s.mem.uncorr s.rc.uncorr }, rc := { s.rc with uncorr := 0 } }),
   (.secBootStatusRead, 0x3400, fun s => { s with sec := { s.sec with fails := rcKeep s.sec.fails s.rc.fails }, rc := { s.rc with fails := 0 } })]

/-- What a read of a register with the fields `fs` answers, with the free values that it has taken (R16): past the limit of the control bus
all of it is undefined (R380). -/
def readOf (s : State) (fs : List Fld) : BitVec 32 × State := s.reg32 (if s.busLost then [.u 32] else fs)

/-- No wake source counts while the device is ACTIVE and enters nothing (R403). -/
def Awake (s : State) : Prop := s.pwr.st = .active ∧ s.pwr.step = .steady

end Sys2Proof.Claims

/-- R15, R16, R427: a REG_READ of a register with read-clear fields completes with OK and the register's value in RESULT, its reserved bits
free; the fields are cleared, but for what the hardware has set in the same control-bus cycle, and nothing else changes but what the
completion writes. -/
def Obligations.ReadClearRegisters : Prop :=
  ∀ p ∈ namedReads, ∀ (s : State) (c : Cmd) (x : Slot), Served s c 0x02 x → regAddr x.payload = p.2.1 → s.gatedReg p.2.1 = false →
    ∃ fs, s.rcView.regFlds p.2.1 = some fs ∧ exec (p.1 c) s = .next ((p.2.2 (readOf s fs).2).complete c.ref .ok (readOf s fs).1)

/-- R423, R427, R56, R57: NOP does nothing but complete; REG_READ and REG_WRITE act on the register they name; AIR_RELEASE moves air time
to RELEASED while TB_S is usable; a write of the air offset in NO_TIME sets the masked bits. -/
def Obligations.BasicCommands : Prop :=
  ∀ (s : State) (c : Cmd) (x : Slot),
    (Served s c 0x01 x → exec (.nop c) s = .next (s.complete c.ref .ok))
    ∧ (Served s c 0x02 x → s.gatedReg (regAddr x.payload) = false → ∀ fs, (s.regFlds (regAddr x.payload)).isSome = true →
        s.rcView.regFlds (regAddr x.payload) = some fs →
        exec (.regRead c) s = .next (((readOf s fs).2.regClear (regAddr x.payload)).complete c.ref .ok (readOf s fs).1))
    ∧ (Served s c 0x03 x → s.gatedReg (regAddr x.payload) = false → let r := s.regWrite (regAddr x.payload) (pf x.payload 4 0 32) (pf x.payload 8 0 32)
        exec (.regWrite c) s = .next (r.2.complete c.ref r.1))
    ∧ (Served s c 0x03 x → s.busLost = false → s.gatedReg 0x0810 = false → regAddr x.payload = 0x0810 →
        exec (.regWrite c) s = .next ({ s with clk := { s.clk with
          meterN := (s.clk.meterN &&& ~~~(pf x.payload 8 0 32)) ||| (pf x.payload 4 0 32 &&& pf x.payload 8 0 32) } }.complete c.ref .ok))
    ∧ (Served s c 0x03 x → s.busLost = false → s.gatedReg 0x1004 = false → regAddr x.payload = 0x1004 → s.ym.air = .noTime →
        exec (.ymAirOffsetWrite c) s = .next ({ s with ym := { s.ym with
          offset := (s.ym.offset &&& ~~~(pf x.payload 8 0 32)) ||| (pf x.payload 4 0 32 &&& pf x.payload 8 0 32) } }.complete c.ref .ok))
    ∧ (Served s c 0x11 x → s.ym.air = .running → s.tbUsable s.tbS = true →
        exec (.airRelease c) s = .next ({ s with ym := { s.ym with air := .released } }.complete c.ref .ok))

/-- R421, R432, R433: the completion of a command takes its slot out of the ring and writes one record with the command's TAG, the status and
RESULT at the ring's completion index, which advances, with the phase bit turned at the end of the ring. -/
def Obligations.CompletionRecord : Prop :=
  ∀ (s : State) (c : CmdRef) (x : Slot) (res : BitVec 32), s.slot? c = some x → s.host.rings[c.ring].st ≠ .stopped → x.cplErr = false → x.irq = false →
    let r := s.host.rings[c.ring]
    let t := s.complete c .notReady res
    (∃ e : Completion, t.out.head? = (s.out ++ [Out.cpl r.cplIdx e]).head? ∧ Out.cpl r.cplIdx e ∈ t.out ∧ e.tag = x.tag ∧ e.status = .notReady ∧ e.result = res ∧ e.phase = r.phase
        ∧ e.ring = c.ring ∧ e.index = BitVec.ofNat 16 x.index)
    ∧ (t.host.rings[c.ring]).slots = r.slots.filter (fun y => y.seq != c.seq)
    ∧ (t.host.rings[c.ring]).cplIdx = (if r.cplIdx + 1 = r.size then 0 else r.cplIdx + 1)
    ∧ (t.host.rings[c.ring]).phase = (if r.cplIdx + 1 = r.size then !r.phase else r.phase)
    ∧ (t.host.rings[c.ring]).unread = r.unread + 1

/-- R442, R446, R448: leaving the safe state, discarding queued calibration faults, and reading the fault log. -/
def Obligations.FaultControlCommands : Prop :=
  ∀ (s : State) (c : Cmd) (x : Slot),
    (Served s c 0x04 x → pf x.payload 0 0 8 = 1 → s.host.top.safe = true → s.host.arb.held = [] →
      ∃ t : State, exec (.clearSafe c) s = .next (t.complete c.ref .ok) ∧ t.host.top.safe = false ∧ t.pkg.faultN = s.pwr.fault
        ∧ t.pwr.resumeAt = some (ceilTo frameTicks (s.ym.now + 983040)) ∧ t.mode = s.mode ∧ t.radio = s.radio)
    ∧ (Served s c 0x04 x → pf x.payload 0 0 8 = 2 → exec (.clearQueue c) s = .next ({ s with host := { s.host with arb := { s.host.arb with
        held := s.host.arb.held.filter fun (h : HeldFault) => !(h.code.cls == FClass.calibration && h.hold == Hold.queued && !h.ever) } } }.complete c.ref .ok))
    ∧ (Served s c 0x05 x → s.tack.read = true → x.select = 0 → exec (.faultRead c) s = .next (s.respond c x
        (((s.tack.faultLog.drop (pf x.payload 20 0 32).toNat).take (pf x.payload 24 0 16).toNat).flatten)))

/-- R416 to R418: enabling a ring starts it with its indices at 0 where its size is in range; disabling a running ring drains it, with the
fetched commands fenced out, and it is DISABLED once nothing is outstanding; a write of a base address in the DISABLED state is kept. -/
def Obligations.RingSetup : Prop :=
  ∀ (s : State) (n : Fin 16) (v : BitVec 32),
    (s.host.rings[n].st = .disabled → v.getLsbD 31 = true → v &&& 0x01FFFFF0 = 0 → 4 ≤ (v.extractLsb' 0 4).toNat → (v.extractLsb' 0 4).toNat ≤ 12 →
      exec (.ringCmdEnable n v) s = .next { s with host := { s.host with rings := vmod s.host.rings n fun r =>
        { r with strict := v.getLsbD 30, vec := v.extractLsb' 25 5, log2 := v.extractLsb' 0 4, st := .running, head := 0, tail := 0, cplIdx := 0, hostHead := 0,
                 phase := true, unread := 0, slots := [], release := none } } })
    ∧ (s.host.rings[n].st = .running → v.getLsbD 31 = false →
      exec (.ringCmdDisable n v) s = .next ({ s with host := { s.host with rings := vmod s.host.rings n fun r => { r with st := .draining, release := none } } }.fenceOutAll n))
    ∧ (s.host.rings[n].st = .draining → s.host.rings[n].outstanding = 0 →
      exec (.ringDrainEnd n) s = .next { s with host := { s.host with rings := vmod s.host.rings n fun r => { r with st := .disabled } } })
    ∧ (s.host.evt.en = false → v.getLsbD 31 = true → v &&& 0x4000FFE0 = 0 → 6 ≤ (v.extractLsb' 0 5).toNat → (v.extractLsb' 0 5).toNat ≤ 16 →
      exec (.ringEvtEnable v) s = .next { s with host := { s.host with evt :=
        { s.host.evt with vec := v.extractLsb' 25 5, coal := v.extractLsb' 16 9, log2 := v.extractLsb' 0 5, en := true, stopped := false,
                          wrIdx := 0, hostHead := 0, phase := true, unread := 0, sinceMsg := 0, oldest := none } } })
    ∧ (s.host.evt.en = true → v.getLsbD 31 = false → ∃ e, exec (.ringEvtDisable v) s = .next { s with host := { s.host with evt := e } }
        ∧ e.en = false ∧ e.lost = satAdd s.host.evt.lost (evPlaces s.host.evt.queue) ∧ e.baseHi = s.host.evt.baseHi)
    ∧ (s.host.rings[n].st = .disabled → exec (.registerWrite (BitVec.ofNat 16 (0x1004 + 0x40 * n.val)) v) s =
        .next { s with host := { s.host with rings := vmod s.host.rings n fun r => { r with cmdBaseHi := v } } })

/-- R417, R419, R420, R424, R428: the next entry of a running ring is fetched into a slot; a fetched command that no fence holds back starts
with its payload; an untimed command whose effect is done completes with its status once no tack write of it waits. -/
def Obligations.CommandFlow : Prop :=
  ∀ (s : State) (n : Fin 16),
    (∀ (e : BitVec 512) (cplErr : Bool), s.ringsServed = true → s.host.rings[n].head ≠ s.host.rings[n].tail →
      s.host.rings[n].outstanding < s.host.rings[n].size → s.host.rings[n].st = .running → s.host.rings[n].release = none →
      exec (.commandFetch n (some e) cplErr) s = .next { s with host := { s.host with rings := vmod s.host.rings n fun r =>
        { r with head := (r.head + 1) % r.size, nextSeq := r.nextSeq + 1,
                 slots := r.slots ++ [{ seq := r.nextSeq, index := r.head, entry := e, payload := pf e 24 0 320, stage := .fetched, cplErr := cplErr }] } } })
    ∧ (∀ (seq : Nat) (x : Slot) (p : Option (BitVec 320)), s.slot? { ring := n, seq := seq } = some x → s.ringsServed = true →
        (s.host.rings[n]).mayStart x = true → x.indirect = false → entryOk x.entry x.payload = true →
        exec (.commandStart n seq p) s = .next { s with host := { s.host with rings := vmod s.host.rings n fun r =>
          { r with slots := r.slots.map fun y => if y.seq = seq then { y with payload := x.payload, stage := .started } else y } } })
    ∧ (∀ (seq : Nat) (x : Slot) (st : Status) (res : BitVec 32), s.slot? { ring := n, seq := seq } = some x → x.stage = .finishing st res →
        (s.tack.queue.any fun w => w.cmd == some { ring := n, seq := seq }) = false →
        exec (.untimedCommandComplete n seq) s = .next (s.complete { ring := n, seq := seq } st res))

/-- R16, R417, R421, R438, R457 (doorbells in ACTIVE): a valid tail or head moves; a RELEASE of a held ring names the range to fence out, whose
fetched commands complete with FENCED_OUT one by one. `w` is the value that takes effect: the one written, or, where reserved bits are 1, a
free one (for RELEASE: whether a reserved value releases). -/
def Obligations.Doorbells : Prop :=
  ∀ (s : State) (n : Fin 16) (v : BitVec 32), Awake s → let r := s.host.rings[n]
    let w := s.wrVal 0 v 0xFFFFFFFF 0xFFFFF000
    let e := s.wrVal 0 v 0xFFFFFFFF 0xFFFF0000
    let q := if v = 1 then ((1 : BitVec 1), s) else s.takeFree 1
    let i := (w.1.extractLsb' 0 12).toNat
    (r.st ≠ .disabled → i < r.size → (r.tail + r.size - r.head) % r.size ≤ (i + r.size - r.head) % r.size →
      exec (.tail n v) s = .next { w.2 with host := { s.host with rings := vmod s.host.rings n fun r => { r with tail := i } } })
    ∧ (r.st ≠ .disabled → i < r.size → i ≠ r.hostHead → ∀ k, k = (i + r.size - r.hostHead) % r.size → k ≤ r.unread →
      exec (.cplHead n v) s = .next { w.2 with host := { s.host with rings := vmod s.host.rings n fun r => { r with hostHead := i, unread := r.unread - k } } })
    ∧ (r.st = .held → q.1 = 1 → r.release = none → 0 < (r.tail + r.size - r.head) % r.size →
      exec (.release n v) s = .next { q.2 with host := { s.host with rings := vmod s.host.rings n fun r => { r with release := some { left := (r.tail + r.size - r.head) % r.size, fenced := 0 } } } })
    ∧ (∀ x q, r.release = some q → (r.slots.find? fun x => x.stage == .fetched) = some x → ∃ t : State, exec (.releaseFenceOut n) s = .next t
        ∧ t = (let u := s.complete { ring := n, seq := x.seq } .fencedOut
               let v : State := { u with host := { u.host with rings := vmod u.host.rings n fun r => { r with release := r.release.map fun q => { q with fenced := q.fenced + 1 } } } }
               v.releaseDone n))
    ∧ (s.host.evt.en = true → ∀ h, h = (e.1.extractLsb' 0 16).toNat → h < 2 ^ s.host.evt.log2.toNat → h ≠ s.host.evt.hostHead →
      ∀ k, k = (h + 2 ^ s.host.evt.log2.toNat - s.host.evt.hostHead) % 2 ^ s.host.evt.log2.toNat → k ≤ s.host.evt.unread →
      exec (.evtHead v) s = .next { e.2 with host := { s.host with evt := { s.host.evt with hostHead := h, unread := s.host.evt.unread - k } } })

/-- R15, R415, R434, R435: the first waiting event goes to the ring's next place; 20 µs after the oldest entry not signalled the vector is
sent; a bad access of BAR0 or BAR2 is counted and reads as all ones; reads of the two status registers clear their counts. -/
def Obligations.EventsAndRegisters : Prop :=
  ∀ (s : State), let r := s.host.evt
    (∀ (t : Nat) (e : EvtEntry) (q : List QItem), r.en = true → r.stopped = false → r.unread < 2 ^ r.log2.toNat → r.queue = .ev t e :: q →
      e.type ≠ 0x0D → e.type ≠ 0x0E → r.sinceMsg + 1 < r.coal.toNat →
      exec (.eventEntryWrite false) s = .next ({ s with host := { s.host with evt := { r with
          queue := q, wrIdx := if r.wrIdx + 1 = 2 ^ r.log2.toNat then 0 else r.wrIdx + 1, phase := if r.wrIdx + 1 = 2 ^ r.log2.toNat then !r.phase else r.phase,
          unread := r.unread + 1, sinceMsg := r.sinceMsg + 1, oldest := some (r.oldest.getD s.dp) } } }.emit (.evt r.wrIdx r.phase e)))
    ∧ (∀ t, r.oldest = some t → t + 19661 ≤ s.dp →
        exec .eventCoalesceTimeout s = .next ({ s with host := { s.host with evt := { r with sinceMsg := 0, oldest := none } } }.sendMsix r.vec))
    ∧ (∀ (bar2 : Bool) (a len : Nat), a % 4 ≠ 0 → exec (.barBadAccess bar2 a len false) s =
        .next ({ s with host := { s.host with top := { s.host.top with badAccess := satInc s.host.top.badAccess } } }.emit (.barRead 0xFFFFFFFF)))
    ∧ (∃ fs, s.rcView.regFlds 0x0004 = some fs ∧ exec .topStatusRead s = .next (({ (readOf s fs).2 with
        host := { s.host with top := { s.host.top with badAccess := rcKeep s.host.top.badAccess s.rc.badAccess } }, rc := { s.rc with badAccess := 0 } } : State).emit
        (.barRead (readOf s fs).1)))
    ∧ (∃ fs, s.rcView.regFlds 0x158C = some fs ∧ exec .ringEvtStatusRead s = .next (({ (readOf s fs).2 with
        host := { s.host with evt := { r with lost := rcKeep r.lost s.rc.lost } }, rc := { s.rc with lost := 0 } } : State).emit (.barRead (readOf s fs).1)))

/-- R22, R410, R441, R442, R570: recoveries start one at a time and end no earlier than 100 ms later with their record; the die-to-die link's
errors; PERST_N, the link and L1.2. -/
def Obligations.RecoveriesAndLink : Prop :=
  ∀ (s : State),
    (∀ f, s.nextFault = some f → 0 < f.level → f.ever = false → exec .recoveryStart s = .next
        (let u := s.modHeld f.id fun _ => { f with hold := .running, ever := true, started := s.dp }
         ({ u with host := { u.host with arb := { u.host.arb with ran := true } } } : State).levelAction { f with hold := .running, ever := true, started := s.dp }))
    ∧ (∀ f, (s.host.arb.held.find? fun h => h.hold == .running) = some f → f.started + 98304000 ≤ s.dp → s.recovered f = true →
        exec .recoveryComplete s = .next ((s.setHeld (s.host.arb.held.filter fun h => h.id != f.id)).faultRec .complete f))
    ∧ exec .d2dUncorr s = .next (s.raiseFault .d2dUncorr { cls := 9, idx := 0x3F1 })
    ∧ exec .d2dCorrectedError s = .next { s with host := { s.host with arb := { s.host.arb with d2dErr := satInc s.host.arb.d2dErr } } }
    ∧ (s.host.top.linkUp = true → ∃ h, exec .perstNAssert s = .next { s with host := h } ∧ h.top.linkUp = false ∧ h.evt.en = false
        ∧ (∀ n : Fin 16, (h.rings[n]).st = .disabled ∧ (h.rings[n]).slots = []) ∧ h.arb = s.host.arb)
    ∧ exec .perstNRelease s = .next { s with host := { s.host with top := { s.host.top with perstHigh := true } } }
    ∧ (s.pwr.vin = true → s.host.top.perstHigh = true → exec .pcieLinkUp s = .next { s with host := { s.host with top := { s.host.top with linkUp := true } } })
    ∧ (s.host.top.linkUp = true → s.host.top.l12 = false → exec .l12Entry s =
        .next ({ s with host := { s.host with top := { s.host.top with l12 := true } }, pkg := { s.pkg with clkreqLow := false } }.emit (.pin "PCIE_CLKREQ_N" true)))
    ∧ (s.host.top.l12 = true → exec .l12Exit s =
        .next ({ s with host := { s.host with top := { s.host.top with l12 := false } }, pkg := { s.pkg with clkreqLow := true } }.emit (.pin "PCIE_CLKREQ_N" false)))

namespace Sys2Proof.Claims

open Sys2Proof.Machine

-- Status commands (R425)

/-- Records of the items of a list, one after the other, each built with the free values it takes. -/
def gather {α : Type} (l : List α) (f : State → α → Bytes × State) (s : State) : Bytes × State :=
  l.foldl (fun (a : Bytes × State) i => let b := f a.2 i; (a.1 ++ b.1, b.2)) ([], s)

/-- A status command: constructor, opcode, the selections it answers, the records of its response, what CLEAR clears. -/
structure StatusRow where
  row   : Cmd → Instr
  op    : BitVec 8
  ok    : State → Slot → Bool
  recs  : Slot → State → Bytes × State
  clear : Slot → State → State

/-- A selection of at least one of `n` resources. -/
def someOf (n : Nat) (_ : State) (x : Slot) : Bool := x.select != 0 && decide (x.select.toNat < 2 ^ n)

/-- A selection that must be 0. -/
def noneOf (_ : State) (x : Slot) : Bool := x.select == 0

/-- The 8 carriers, or ports, of a selection. -/
def sel8 (x : Slot) : List (Fin 8) := (List.finRange 8).filter fun k => x.select.getLsbD k.val

/-- The status commands. -/
def statusTable : List StatusRow :=
  [ { row := .synthStatus, op := 0x19, ok := someOf 16, clear := fun _ => id
      recs := fun x => gather (bitsOf 16 x.select.toNat) fun s n =>
        match toFin 16 n with
        | none => ([], s)
        | some i =>
          let a := s.synthRecord i
          if pb x.entry 4 1 then
            let b := gather (List.range 32) (fun (s : State) j => match toFin 32 j with | some j => s.presetRecord s.radio.synths[i].presets[j] | none => ([], s)) a.2
            (a.1 ++ b.1, b.2)
          else a },
    { row := .pathStatus, op := 0x1B, ok := someOf 64, clear := fun _ => id
      recs := fun x => gather (bitsOf 64 x.select.toNat) fun s n => match toFin 64 n with | some p => s.pathRecord (pb x.entry 4 1) p | none => ([], s) },
    { row := .convStatus, op := 0x22, ok := someOf 64, recs := fun x => gather (setBits x.select) State.convRecord
      clear := fun x s => { s with conv := { s.conv with sat := (setBits x.select).foldl (fun v p => vset v p ConvSat.zero) s.conv.sat } } },
    { row := .delayReport, op := 0x23, ok := someOf 8, clear := fun _ => id
      recs := fun x s => (sel8 x).foldl (fun (a : Bytes × State) k =>
        match s.ofdm.carriers[k].cfg with | some g => let b := a.2.delayRecord g; (a.1 ++ b.1, b.2) | none => a) ([], s) },
    { row := .carrierStatus, op := 0x2A, ok := someOf 8, recs := fun x => gather (sel8 x) State.carrierRecord
      clear := fun x s => (sel8 x).foldl (fun (s : State) k => s.modCarrier k fun y => { y with count := CarrierCount.zero }) s },
    { row := .bookRead, op := 0x32, ok := someOf 8, clear := fun _ => id
      recs := fun x s =>
        let held := s.ofdm.book.filter fun e => x.select.getLsbD e.carrier.val && decide ((pf x.payload 20 0 8).toNat ≤ e.port.toNat ∧ e.port.toNat ≤ (pf x.payload 21 0 8).toNat)
        gather ((sortKey (held.map fun e => (e.port.toNat, e))).map fun y => y.2) (fun (s : State) e =>
          let h := s.bookHeader e
          (h.1 ++ (if pb x.entry 4 2 then e.bytes else []), h.2)) s },
    { row := .weightStatus, op := 0x33, ok := someOf 8, recs := fun x => gather (sel8 x) State.weightRecord
      clear := fun x s => (sel8 x).foldl (fun (s : State) k => s.modWcount k fun _ => WeightCount.zero) s },
    { row := .burstMeas, op := 0x3B, clear := fun _ => id
      ok := fun s x => someOf 64 s x && (s.burst.sets.find? fun m => m.id == pf x.payload 20 0 16).isSome
      recs := fun x s => gather (setBits x.select) (fun (t : State) p =>
        t.measRecord p (((s.burst.sets.find? fun m => m.id == pf x.payload 20 0 16).map fun m => m.recs.find? fun y => y.path == p).getD none)) s },
    { row := .burstStatus, op := 0x3C, ok := noneOf, clear := fun _ s => s.modBurst fun _ => BurstCount.zero
      recs := fun _ s =>
        let n := s.burst.count
        s.record 32 ([n.detections, n.falseDet, n.decoded, n.crcFail, n.captured, n.ignored, n.lostBusy].map (fun v => .v 32 v.toNat) ++
          [.v 16 s.burst.seq.toNat, .v 1 (b2n (s.burst.lanes[(0 : Fin 2)].st != .search)), .v 1 (b2n (s.burst.lanes[(1 : Fin 2)].st != .search)), .u 6, .u 8]) },
    { row := .qualityStatus, op := 0x3D, ok := someOf 64, recs := fun x => gather (setBits x.select) State.qualityRecord, clear := fun _ => id },
    { row := .dpdStatus, op := 0x44, ok := someOf 64, recs := fun x => gather (setBits x.select) State.dpdRecord
      clear := fun x s => (setBits x.select).foldl (fun (s : State) p => s.modDpd p fun d => { d with adapts := 0, capAbort := 0, adaptDrop := 0, cfrPeaks := 0, cfrResid := 0, dpdSat := 0 }) s },
    { row := .calStatus, op := 0x4A, ok := fun _ _ => true, clear := fun _ => id
      recs := fun x => gather (State.calSelected (setBits x.select) (pf x.payload 20 0 16).toNat) State.calRecord },
    { row := .tackStatus, op := 0x4B, ok := noneOf, clear := fun _ => id
      recs := fun _ s =>
        let t := s.tack
        s.record 16 [.v 16 t.spares, .v 16 t.retired, .v 32 (t.counters.foldl (fun (m : Nat) (p : Nat × BitVec 32) => max m p.2.toNat) 0),
          .v 5 ((t.nv.sets.filter fun y => s.calSetValid y).length), .u 3, .v 1 (b2n t.readOnly), .u 3, .v 4 s.lin.keys.length, .v 16 t.crcFail.toNat, .v 32 t.writes.toNat] },
    { row := .fhStatus, op := 0x53, ok := someOf 8, recs := fun x => gather (sel8 x) State.portRecord
      clear := fun x s => (sel8 x).foldl (fun (s : State) k => s.cnt k fun _ => PortCount.zero) s },
    { row := .hitStatus, op := 0x59, ok := noneOf
      clear := fun _ s => s.modHit fun h => { h with psumMiss := 0, commitMiss := 0, hopLate := 0, badFrame := 0, chainFb := 0 }
      recs := fun _ s =>
        let h := s.hit
        s.record 32 [.v 8 h.members.toNat, .v 3 s.dev, .u 2, .v 1 (b2n h.aligned), .v 1 (b2n h.cutOff), .v 1 (b2n (h.timeLock || (h.cfg.isSome && s.dev == 0))),
          .v 16 h.timeOfs.toNat, .v 32 h.psumMiss.toNat, .v 32 h.commitMiss.toNat, .v 32 h.hopLate.toNat, .v 32 h.badFrame.toNat, .v 32 h.chainFb.toNat, .u 64] },
    { row := .timeStatus, op := 0x63, ok := someOf 2, recs := fun x => gather (bitsOf 2 x.select.toNat) State.timeRecord
      clear := fun x s => (bitsOf 2 x.select.toNat).foldl (fun (s : State) i => s.modTb (if i = 1 then 1 else 0) fun b => { b with outliers := 0, lost := 0, steps := 0 })
        { s with time := { s.time with ptpIgnored := 0 } } },
    { row := .shuStatus, op := 0x74, ok := someOf 16, recs := fun x => gather (setBits (pf x.payload 0 0 16)) State.shuRecord, clear := fun _ => id },
    { row := .solverStatus, op := 0x7A, ok := someOf 9, recs := fun x => gather (setBits (pf x.payload 0 0 9)) State.coreRecord
      clear := fun x s => (setBits (pf x.payload 0 0 9)).foldl (fun (s : State) i =>
        s.modCore i fun m => { m with satcnt := 0, fgJobs := 0, fgCycles := 0, faults := 0, watchdog := 0 }) s },
    { row := .hkRead, op := 0x84, clear := fun _ => id
      ok := fun _ x => x.select == 0 && pf x.payload 21 0 8 != 0 && decide ((pf x.payload 20 0 8).toNat + (pf x.payload 21 0 8).toNat ≤ 184)
      recs := fun x => gather ((List.finRange 184).filter fun ch =>
        decide ((pf x.payload 20 0 8).toNat ≤ ch.val ∧ ch.val < (pf x.payload 20 0 8).toNat + (pf x.payload 21 0 8).toNat)) State.hkReadRecord },
    { row := .supStatus, op := 0x87, ok := fun _ x => x.select != 0 || pf x.payload 20 0 16 != 0, clear := fun _ => id
      recs := fun x => gather ((List.finRange 80).filter fun i => if i.val < 64 then x.select.getLsbD i.val else (pf x.payload 20 0 16).getLsbD (i.val - 64)) State.outRecord },
    { row := .memStatus, op := 0x92, ok := someOf 8, recs := fun x => gather ((setBits (pf x.payload 0 0 8)).map fun (m : Fin 8) => m.val) State.memRecord
      clear := fun x s => { s with mem := { s.mem with banks := s.mem.banks.map fun b =>
        if ((setBits (pf x.payload 0 0 8)).map fun (m : Fin 8) => m.val).contains (memOf b.1) then (b.1, { b.2 with corr := 0, uncorr := 0 }) else b } } },
    { row := .ledgerRead, op := 0x93, ok := noneOf, clear := fun _ => id
      recs := fun x s => (((s.tack.ledger.drop (pf x.payload 20 0 16).toNat).take (pf x.payload 22 0 16).toNat).flatMap fun r => r.bytes, s) } ]

end Sys2Proof.Claims

/-- R425: a status command whose selection, alignment and buffer are good writes the records of what it selects, in ascending order, to host
memory; with CLEAR it clears its counters after that; it completes with OK and the length in RESULT. -/
def Obligations.StatusResponses : Prop :=
  ∀ p ∈ statusTable, ∀ (s : State) (c : Cmd) (x : Slot), Served s c p.op x → p.ok s x = true → c.respErr = false →
    let r := p.recs x s
    let addr := pf x.payload 8 0 64
    addr.extractLsb' 0 3 = 0 → r.1.length ≤ (pf x.payload 16 0 32).toNat →
    let t := r.2.emit (.hostWrite addr r.1)
    exec (p.row c) s = .next ((if pb x.entry 4 0 then p.clear x t else t).complete c.ref .ok (BitVec.ofNat 32 r.1.length))

namespace Sys2Proof.Claims

open Sys2Proof.Machine

-- Releases of accepted events (R64, R66, R424)

/-- The event `e`, of number `ev` and kind `k`, is the next to be released; it passes its check and makes its group pass: either the group has
been judged, or the event is the group's only one. -/
def Passes (s : State) (ev : Nat) (k : Kind) (e : Event) (chk : State → Event → Option (Cause × Res)) : Prop :=
  s.releasable ev k = some e ∧ chk s e = none ∧ (e.judged = true ∨ (s.ym.events.filter fun x => x.group == e.group) = [e])

/-- Paths can serve a traffic event for `len` ticks from its due time (R90 to R93, R97, R98, R101): none is retired, the LO is LOCKED throughout,
the interlock is closed where they transmit, and the state needed fits what was accepted earlier. -/
def Serves (s : State) (e : Event) (need : PState) (len : Nat) (ps : List (Fin 64)) : Prop :=
  ∀ p ∈ ps, s.radio.paths[p].retired = false ∧ s.loCause (paddockOf p) (s.dpOf e.due) (s.dpOf e.due + len) = none
    ∧ (need = .tx → s.interlock p = true) ∧ s.pathFits p need (s.dpOf e.due) (s.dpOf e.due + len) e.kind.latency.toNat (s.dpOf e.release) = true

/-- The event of number `ev` and kind `k` is the next to be released, and no other event of its group is left to be judged with it. -/
def Next (s : State) (ev : Nat) (k : Kind) (e : Event) : Prop :=
  s.releasable ev k = some e ∧ (e.judged = true ∨ (s.ym.events.filter fun x => x.group == e.group) = [e])

/-- The command of a group whose last event `e` was completes at the group's last effect point. -/
def closeGroup (s : State) (e : Event) : State :=
  match e.doneAt, e.src with
  | some t, .cmd r _ => if s.ym.events.any fun x => x.group == e.group then s else s.at_ (s.dpOf t) (.complete r .ok 0)
  | _, _ => s

/-- A kind of event: the row that releases it, its check, and what its release brings about. -/
structure ReleaseRow where
  row  : Nat → Instr
  kind : Kind
  chk  : State → Event → Option (Cause × Res)
  eff  : State → Event → State

/-- Nothing to check. -/
def always (_ : State) (_ : Event) : Option (Cause × Res) := none

/-- Events whose release places an effect at the due time, or begins what leads to it. -/
def releaseTable : List ReleaseRow :=
  [ { row := .phaseSyncRelease, kind := .phaseSync, chk := always, eff := fun s e => s.at_ (s.dpOf e.due) .phaseSync },
    { row := .pathStateRelease, kind := .pathState, chk := State.pathStateCheck
      eff := fun s e => match e.body with | .pathState p t => s.pathLater p (s.pathStateRun p t (s.dpOf e.due) (s.dpOf e.release)).1 t none | _ => s },
    { row := .muteRelease, kind := .mute, chk := State.muteCheck
      eff := fun s e => match e.body with
        | .mute p tx rx on cmd =>
          let s := if tx then s.at_ (s.dpOf e.due) (.mute p true false on cmd) else s
          if rx then s.at_ (s.dpOf e.due + p.val % 8) (.mute p false true on cmd) else s
        | _ => s },
    { row := .alarmRelease, kind := .alarm, chk := always, eff := fun s e => s.at_ (s.dpOf e.due) .alarmFire },
    { row := .outputSetRelease, kind := .outputSet, chk := always
      eff := fun s e => match e.body with | .output idx range code safe => s.at_ (s.dpOf e.due) (.output idx range code safe) | _ => s },
    { row := .hkTriggerRelease, kind := .hkTrigger, chk := State.hkCheck
      eff := fun s e => match e.src, e.body with
        | .cmd r _, .hkSweep i => s.modConv i fun k => { k with timed := k.timed ++ [{ samp := s.dpOf e.due, spot := none, cmd := r }] }
        | .cmd r _, .hkSpot i ch fmt => s.modConv i fun k => { k with timed := k.timed ++ [{ samp := s.dpOf e.due, spot := some (ch, fmt), cmd := r }] }
        | _, _ => s },
    { row := .pinEdgeRelease, kind := .pinEdge, chk := always
      eff := fun s e => match e.body with
        | .pinEdge sec => ({ s with time := { s.time with ppsDone := ppsMark sec s.time.ppsDone } }).at_ (s.dpOf e.due) .pps
        | _ => s },
    { row := .burstTxRelease, kind := .burstTx, chk := State.burstTxCheck
      eff := fun s e => match e.body with
        | .burstTx b =>
          let a := s.dpOf e.due
          let s := s.trafficBegin e .tx b.len [b.path]
          let on : TxOn := { id := e.id, paths := 1#64 <<< b.path.val, start := a, fin := a + b.len }
          let w : TxWave := { path := b.path, off := b.off, due := e.due, vals := s.burstSamplesOf b e.due }
          let o := Out.burst b.path.val (e.due + (b.path.val % 8 : Nat)) b.nsym b.att b.off (s.burstBlock b e.due)
          { s with burst := { s.burst with
              seq := s.burst.seq + 1
              bursts := on :: s.burst.bursts.filter fun x => decide (s.dp < x.fin)
              waves := s.burst.waves ++ [w] } }.emit o
        | _ => s },
    { row := .burstRxRelease, kind := .burstRx, chk := State.burstRxCheck
      eff := fun s e => match e.body with
        | .burstRx ps n w off tag =>
          let a := s.dpOf e.due
          let s := s.trafficBegin e .rx (burstSpan n w) (setBits ps)
          let first := ceilTo 32 e.due
          { s with burst := { s.burst with
              window := some { paths := ps, nsym := n, first := first, openAt := s.dpOf first, close := a + 32 * w, off := off, tag := tag }
              busy := a + burstSpan n w } }
        | _ => s },
    { row := .obsCaptureRelease, kind := .obsCapture, chk := State.captureCheck, eff := State.captureBegin } ]

end Sys2Proof.Claims

/-- R64, R66, R424: the release of an event that passes takes it out of the table and carries out its effect; the command of a group whose
last event this was completes at the group's last effect point. -/
def Sys2Proof.Claims.EventReleases : Prop :=
  ∀ p ∈ releaseTable, ∀ (s : State) (ev : Nat) (e : Event), Passes s ev p.kind e p.chk →
    exec (p.row ev) s = .next (closeGroup (p.eff (s.removeEvent ev) e) e)

/-- R65, R66, R75, R81: the release of a SYNTH_RETUNE gives the operation to the synthesiser, that of a SYNTH_HOP whose target is LOCKED places
the hop at the due time; a group with a member that meets a synthesiser in service, or a paddock in use, is withdrawn and its command
completes with MODE_CONFLICT. -/
def Sys2Proof.Claims.SynthReleases : Prop :=
  ∀ (s : State) (ev : Nat) (e : Event),
    (Passes s ev .synthRetune e State.retuneCheck → s.groupConflict e.group = false → ∀ i o, e.body = .retune i o →
      exec (.synthRetuneRelease ev) s = .next (closeGroup ((s.removeEvent ev).synthLater i (s.dpOf e.due) o) e))
    ∧ (Passes s ev .synthHop e State.hopCheck → s.groupConflict e.group = false → ∀ k b, e.body = .hop k b →
      exec (.synthHopRelease ev) s = .next (closeGroup ((s.removeEvent ev).at_ (s.dpOf e.due) (.hop k b)) e))
    ∧ (s.releasable ev .synthHop = some e → e.judged = false → s.groupConflict e.group = true → ∀ r t, e.src = .cmd r t →
      exec (.synthHopRelease ev) s = .next ((s.withdrawGroup e.group).complete r .modeConflict))

/-- R64 to R66, R75, R81, R424: the releases of the kinds of event that the table holds, and those of the synthesisers. -/
def Obligations.EventAndSynthReleases : Prop := Sys2Proof.Claims.EventReleases ∧ Sys2Proof.Claims.SynthReleases

/-- R64, R66, R71, R136, R143, R155, R163, R93: the releases of CONFIG, DL_SYMBOL, UL_SYMBOL and SOUNDING. A change is placed at its boundary,
unless a path it names is in OFF, SLEEP or OBS. The precoded symbol leaves on the antennas, each k ticks after the due time at its ball; an antenna
whose interlock is open drops out with a LATE record. The antennas receive for an UL symbol and for a sounding occasion. -/
def Obligations.TrafficReleases : Prop :=
  ∀ (s : State) (ev : Nat) (e : Event), let u := s.removeEvent ev
    (∀ ch, Next s ev .config e → e.body = .config ch →
        (∀ ps, (∃ a b, ch = .pathReturn ps a b) ∨ (∃ a b, ch = .pathLevels ps a b) → ∀ p ∈ setBits ps,
          (s.pathBefore p (s.dpOf e.due)).st ≠ .off ∧ (s.pathBefore p (s.dpOf e.due)).st ≠ .sleep ∧ (s.pathBefore p (s.dpOf e.due)).st ≠ .obs) →
      exec (.configRelease ev) s = .next (closeGroup (u.cfgPlace e ch) e))
    ∧ (∀ x sym len k, Next s ev .dlSymbol e → s.symbolOf e = some (x, sym, len) → s.ofdm.carriers[x.carrier].cfg = some k →
        (∀ p ∈ s.antennas x.carrier, s.burstBefore e.id p (s.dpOf e.due) (s.dpOf e.due + len) = false) →
        Serves s e .tx len ((s.antennas x.carrier).filter s.interlock) →
      exec (.dlSymbolRelease ev) s = .next (closeGroup
        (let on := (u.antennas x.carrier).filter u.interlock
         let v := ((u.antennas x.carrier).filter fun p => !u.interlock p).foldl (fun (v : State) p => v.lateRec e.src .dlSymbol e.due { cls := 1, idx := p.val } .pathState 0) u
         let v := (v.settleSection x k).trafficBegin e .tx len on
         let r := v.precode x k e.due
         let g := v.rampedOut x k (r.1.filter fun y => on.any fun p => p.val == y.1)
         let tx : TxOn := { id := e.id, paths := BitVec.ofNat 64 (on.foldl (fun m p => m + 2 ^ p.val) 0), start := v.dpOf e.due, fin := v.dpOf e.due + len }
         let v : State := { v with burst := { v.burst with dl := tx :: v.burst.dl.filter fun y => decide (v.dp < y.fin) } }
         let v := (v.modCarrier x.carrier fun y => { y with count := { y.count with preSat := satAdd y.count.preSat r.2 } }).addSats x.carrier g.2
         (v.txJoin { carrier := x.carrier, cfg := k, sym := sym, due := e.due, len := len, grid := g.1, wave := none }).emit
           (.dl x.carrier.val e.due (on.map fun p => (p.val, e.due + (p.val % 8 : Nat))) g.1)) e))
    ∧ (∀ x sym len, Next s ev .ulSymbol e → s.symbolOf e = some (x, sym, len) → Serves s e .rx len (s.antennas x.carrier) →
      exec (.ulSymbolRelease ev) s = .next (closeGroup
        (let v := u.trafficBegin e .rx len (u.antennas x.carrier)
         { v with ofdm := { v.ofdm with sections := v.ofdm.sections.map fun (y : Section) => if y.id = x.id then { y with released := y.released ++ [sym] } else y } }) e))
    ∧ (∀ occ sym len x, Next s ev .sounding e → e.body = .sounding occ sym len → s.ofdm.occasions.find? (fun y => y.id == occ) = some x →
        x.published = false → x.abandoned = false → x.done = false → Serves s e .rx len (s.antennas x.carrier) →
      exec (.soundingRelease ev) s = .next (closeGroup
        (let v := u.trafficBegin e .rx len (u.antennas x.carrier)
         let v := if sym = x.sym0 then v.modOccasion x.id fun y => { y with smooth := (v.wcfgAt x.carrier e.due).smooth } else v
         v.smoothingJob x) e))

namespace Sys2Proof.Claims

open Sys2Proof.Machine

-- Presentation of a command's events (R56, R58, R62, R63, R65)

/-- The table takes a command's group: air time is RELEASED, or counts and none of the events is traffic; no event is late or lies more than
256 frames ahead; none meets one of its kind, due time and resource; an unreserved entry is free for each. -/
def Fits (s : State) (evs : List NewEv) : Prop :=
  s.ym.air ≠ .noTime ∧ (s.ym.air = .running → ∀ e ∈ evs, e.kind.traffic = false)
  ∧ (∀ e ∈ evs, s.ym.now ≤ e.release ∧ e.due - s.ym.now ≤ 256 * frameTicks
      ∧ ∀ y ∈ s.ym.events, y.kind = e.kind → y.due = e.due → s.evKey y.res y.body ≠ s.evKey e.res e.body)
  ∧ s.tableFull evs.length = false

/-- The command's events are in the table; its completion is to be written at `done`. -/
def taken (s : State) (c : Cmd) (x : Slot) (done : Option Tick) (evs : List NewEv) : State :=
  (s.accept (.cmd c.ref x.tag) done evs).setStage c.ref .running

/-- Synthesisers and paddocks that a SYNTH_SET names are free for it (R81). -/
def SynthFree (s : State) (x : Slot) (due : Tick) : Prop :=
  ∀ k ∈ synthNamed x.payload, s.radio.synths[synthTarget x.payload k].st ≠ .retired ∧ s.inUse k = false
    ∧ (x.timed = false → s.servingAt k (s.dpOf due) ≠ synthTarget x.payload k)

/-- RETUNE and CALIBRATE. -/
def retuneTable : List ((Cmd → Instr) × Nat × (State → BitVec 320 → Fin 16 → Option SynthOp)) :=
  [(.synthRetune, 1, State.retuneOp), (.synthCalibrate, 3, State.calibrateOp)]

/-- PIN and UNPIN. -/
def pinTable : List ((Cmd → Instr) × Nat × Bool) := [(.synthPin, 5, true), (.synthUnpin, 6, false)]

end Sys2Proof.Claims

/-- R60, R61, R323: a timed PHASE_SYNC that names no multiple of 32 ticks completes with BAD_ARG; any other enters the table as one PHASE_SYNC event, at its
due time, 2,048 ticks or more ahead, or at the first such point. In ARRAY D0 accepts it as far ahead as it takes to reach every member, and sends it on. -/
def Obligations.PhaseSyncAccepted : Prop :=
  ∀ (s : State) (c : Cmd) (x : Slot) (d : Tick), Served s c 0x12 x → x.atBad = false →
    (s.dueOf x = some d → d % 32 ≠ 0 → exec (.phaseSync c) s = .next (s.complete c.ref .badArg))
    ∧ (d % 32 = 0 →
    let evs : List NewEv := [{ kind := .phaseSync, due := d, res := { cls := 9, idx := 0 }, body := .phaseSync }]
    Fits s evs →
    (s.mode.cur ≠ .array → (s.dueOf x).getD (ceilTo 32 (s.ym.now + 2048)) = d → s.ym.now + 2048 ≤ d → exec (.phaseSync c) s = .next (taken s c x (some d) evs))
    ∧ (∀ h, s.mode.cur = .array → s.hit.cfg = some h → h.dev = 0 → s.dueOf x = some d → s.ym.now + 2048 + 1180 * ((h.ndev : Int) - 1) ≤ d →
      exec (.phaseSync c) s = .next ((taken s c x (some d) evs).emit (.fhSend h.downPort.toNat "PHASE_SYNC" (beBytes 8 (airWord d).toNat)))))

/-- R80 to R82: SYNTH_SET. RETUNE and CALIBRATE enter one SYNTH_RETUNE event for each named paddock, HOP one SYNTH_HOP event; POWER_OFF acts at
acceptance; PIN and UNPIN mark the presets, which the tack store then holds. -/
def Obligations.SynthCommands : Prop :=
  ∀ (s : State) (c : Cmd) (x : Slot), let p := x.payload
    let ks := synthNamed p
    let evs (k : Kind) (r : Fin 8 → Res) (b : Fin 8 → EvBody) : List NewEv := ks.map fun i => { kind := k, due := s.eventDue x k, res := r i, body := b i }
    synthBadArg x = false →
    (∀ q ∈ retuneTable, Served s c 0x18 x → (pf p 1 0 4).toNat = q.2.1 → s.pwr.st = .active → s.transitionBlocks (s.dueOf x) = false →
        (synthByFreq p = false → ∀ k ∈ ks, s.radio.synths[synthTarget p k].presets[synthSlot p].valid = true) →
        SynthFree s x (s.eventDue x .synthRetune) →
        ∀ o : Fin 8 → SynthOp, (∀ k ∈ ks, q.2.2 s p (synthTarget p k) = some (o k)) →
        let e := evs .synthRetune (fun k => { cls := 3, idx := (synthTarget p k).val }) (fun k => .retune (synthTarget p k) (o k))
        let due := s.dpOf (s.eventDue x .synthRetune)
        let done : Tick := if x.timed then s.eventDue x .synthRetune else s.airOf (ks.foldl (fun m k => max m (s.synthEnd (synthTarget p k) due (o k))) due)
        Fits s e → exec (q.1 c) s = .next (taken s c x (some done) e))
    ∧ (Served s c 0x18 x → (pf p 1 0 4).toNat = 2 → s.pwr.st = .active → SynthFree s x (s.eventDue x .synthHop) →
        let e := evs .synthHop (fun k => { cls := 2, idx := k.val }) (fun k => .hop k (pb p 1 4))
        Fits s e → exec (.synthHop c) s = .next (taken s c x (some (if x.timed then s.eventDue x .synthHop else s.eventDue x .synthHop + 787)) e))
    ∧ (Served s c 0x18 x → (pf p 1 0 4).toNat = 4 →
        (∀ k ∈ ks, s.radio.synths[synthTarget p k].st ≠ .retired ∧ s.inUse k = false ∧ s.active k ≠ synthTarget p k) →
        exec (.synthPowerOff c) s = .next ((ks.foldl (fun (s : State) k => s.modSynth (synthTarget p k) fun y =>
          { y with st := .off, op := none, jobs := [], aligned := false }) s).finish c.ref .ok))
    ∧ (∀ q ∈ pinTable, Served s c 0x18 x → (pf p 1 0 4).toNat = q.2.1 → (∀ k ∈ ks, s.radio.synths[synthTarget p k].st ≠ .retired) →
        ∀ j : Fin 8 → Fin 32, (∀ k ∈ ks, s.pinSlot p (synthTarget p k) = some (j k)) →
        exec (q.1 c) s = .next (let t := ks.foldl (fun (s : State) k => s.modSynth (synthTarget p k) fun y =>
            { y with presets := vmod y.presets (j k) fun r => { r with pinned := q.2.2 } }) s
          ((t.tackPut 17 .presets).tackPut 19 .presets (some c.ref)).finish c.ref .ok))

/-- R71, R93, R96: PATH_SET. A change of state enters one PATH_STATE event for each named path; RETURN and LEVELS one CONFIG event for each. An untimed
change of state completes at the end of the last transition, a setting at the first symbol boundary of the paths. Levels outside Table 3-1 are free
(the model's choice, log 22). With no path named the command completes with OK (the model's choice, log 14). -/
def Obligations.PathCommands : Prop :=
  ∀ (s : State) (c : Cmd) (x : Slot), let p := x.payload
    let ps := pathNamed p
    let conf (mk : BitVec 64 → CfgChange) : List NewEv := ps.map fun q =>
      { kind := .config, due := s.eventDue x .config, res := { cls := 1, idx := q.val }, body := .config (mk (1 <<< q.val)) }
    Served s c 0x1A x → x.atBad = false → (∀ q ∈ ps, s.inActive q = true) → s.pwr.st ≠ .doze →
    ((pf p 8 0 4).toNat = 1 → (pathTarget p = .rx ∨ pathTarget p = .tx → s.trafficGate = none ∧ s.conv.run = none) →
        (pathTarget p = .tx → ∀ q ∈ ps, s.interlock q = true) →
        let e : List NewEv := ps.map fun q => { kind := .pathState, due := s.eventDue x .pathState, res := { cls := 1, idx := q.val }, body := .pathState q (pathTarget p) }
        let due := s.dpOf (s.eventDue x .pathState)
        let done : Tick := if x.timed then s.eventDue x .pathState else s.airOf (ps.foldl (fun m q => max m (s.pathStateRun q (pathTarget p) due s.dp).2.1) due)
        (ps = [] → exec (.pathSetState c) s = .next (s.finish c.ref .ok))
        ∧ (ps ≠ [] → Fits s e → exec (.pathSetState c) s = .next (taken s c x (some done) e)))
    ∧ ((pf p 8 0 4).toNat = 2 →
        let r : RetTx := match (pf p 10 0 2).toNat with | 0 => .standby | 1 => .sleep | _ => .rx
        let e := conf fun m => .pathReturn m r (pb p 10 2)
        (ps = [] → exec (.pathSetReturn c) s = .next (s.finish c.ref .ok))
        ∧ (ps ≠ [] → Fits s e → exec (.pathSetReturn c) s = .next (taken s c x (some (symbolCeil (ps.all s.grid30) (s.eventDue x .config))) e)))
    ∧ ((pf p 8 0 4).toNat = 3 →
        let g : BitVec 5 × State := if pf p 11 0 5 = 31 then s.takeFree 5 else (pf p 11 0 5, s)
        let a : BitVec 7 × State := if pb p 12 7 then g.2.takeFree 7 else (pf p 12 0 7, g.2)
        let e := conf fun m => .pathLevels m (if pb p 13 0 then some g.1 else none) (if pb p 13 1 then some a.1 else none)
        (ps = [] → exec (.pathSetLevels c) s = .next (a.2.finish c.ref .ok))
        ∧ (ps ≠ [] → Fits s e → exec (.pathSetLevels c) s = .next (taken a.2 c x (some (symbolCeil (ps.all s.grid30) (s.eventDue x .config))) e)))

/-- R75, R86, R89, R97: what paths and synthesisers do by themselves. A transition ends in its state; a path whose run is over returns; a
synthesiser's operation ends LOCKED, aligned to a valid epoch, and a calibration stores its result with PHASE_VALID clear; a lock lost for the
first time in 10 s raises the fault and starts the recovery. -/
def Obligations.RadioProgress : Prop :=
  ∀ (s : State),
    (∀ (p : Fin 64) t, s.radio.paths[p].transit = some t → t.fin ≤ s.dp → t.dst = t.target → t.hold = none →
      exec (.pathTransitionEnd p) s = .next ((s.modPath p fun y => { y with st := t.dst, transit := none, transitions := satInc y.transitions }).pathStart p))
    ∧ (∀ (p : Fin 64) r, let y := s.radio.paths[p]
      y.run = some r → y.transit = none → r.fin ≤ s.dp → y.ret r.isTx ≠ y.st → y.retired = false → y.jobs = [] →
      s.keepsPath p r.fin (s.dp + chainTime y.st (y.ret r.isTx)) = false → s.mayEnter p (y.ret r.isTx) (s.dp + chainTime y.st (y.ret r.isTx)) = true →
      exec (.automaticReturn p) s = .next ((s.modPath p fun z => { z with run := none }).pathBegin p (y.ret r.isTx) none))
    ∧ (∀ (i : Fin 16) o, s.radio.synths[i].op = some o → (∀ f n, o ≠ .calibrate f n) → s.radio.synths[i].opEnd ≤ s.dp →
      let t := s.modSynth i fun y => { y with st := .locked, op := none, aligned := s.radio.epochValid, phase := y.phaseAfter o }
      exec (.synthOperationEnd i) s = .next ((if o = .realign then t else t.phaseTaken i).synthStart i))
    ∧ (∀ (i : Fin 16) (m : SynthMeas) f j, s.radio.synths[i].op = some (.calibrate f false) → s.radio.synths[i].opEnd ≤ s.dp → s.radio.synths[i].calSlot f = some j →
      let t := s.modSynth i fun y => { y with st := .locked, op := none, aligned := s.radio.epochValid, phase := 0, slot := j.val, noPreset := false, useCount := y.useCount + 1
                                              presets := vmod y.presets j fun q => { q with valid := true, phaseValid := false, vcoBand := m.vcoBand, capCode := m.capCode
                                                                                            loopGain := m.loopGain, freq := f, kvco := m.kvco, calTemp := m.temp, useSeq := y.useCount + 1 } }
      exec (.synthCalibrationEnd i m) s = .next (((((t.tackPut 17 .presets).tackPut 19 .presets).calDone { id := 3, cls := 3, idx := i.val }).synthStart i).calRunMet
        { id := 3, cls := 3, idx := i.val } true))
    ∧ (∀ i : Fin 16, s.radio.synths[i].st = .locked → s.radio.synths[i].lastLoss = none → s.active (synthPaddock i) ≠ i → s.calActive = [] →
      let t := (s.modSynth i fun y => { y with st := .unlocked, aligned := false, lockLoss := satInc y.lockLoss, lastLoss := some s.dp }).raiseFault .loUnlock { cls := 3, idx := i.val }
      exec (.synthLockLoss i) s = .next (if t.radio.synths[i].st = .retired then t else t.recoverSynth i))

namespace Sys2Proof.Claims

open Sys2Proof.Machine

/-- The one CONFIG event of a carrier's change. -/
def carrierEvents (s : State) (x : Slot) (n : Fin 8) (ch : CfgChange) : List NewEv :=
  [{ kind := .config, due := s.eventDue x .config, res := { cls := 4, idx := n.val }, body := .config ch }]

/-- A carrier's change is accepted; the command completes where the change takes effect, which its release settles (R71, R136). -/
def changeTaken (s : State) (c : Cmd) (x : Slot) (n : Fin 8) (ch : CfgChange) : State := taken s c x none (carrierEvents s x n ch)

end Sys2Proof.Claims

/-- R110 to R113, R121 to R123: an FC_SET that names the FC_N in force is over at once; another begins a blank of 2.5 ms, with 80 ms more for a trim.
At its end the trim is stored, and converters serve from the next frame boundary. A coefficient set, loaded or from ROM, is taken for the paddocks
named at the next frame boundary, or at once where air time does not count. -/
def Obligations.ConverterClock : Prop :=
  ∀ (s : State) (c : Cmd) (x : Slot),
    (Served s c 0x20 x → let n : BitVec 16 := pf x.payload 2 0 16
      30000 ≤ n.toNat → n.toNat ≤ 35000 → s.fcConflict = false →
      (n = s.conv.fcN → exec (.fcSet c) s = .next ((s.fcPersist c.ref n (pb x.payload 0 0)).finish c.ref .ok))
      ∧ (n ≠ s.conv.fcN → (s.conv.trims.contains n = true ∨ pb x.payload 0 1 = true) →
        exec (.fcSet c) s = .next (let t := s.setStage c.ref .running
          { t with conv := { t.conv with run := some { ref := c.ref, fcN := n, blank := s.dp + 2457600, fin := s.dp + 2457600 + (if s.conv.trims.contains n then 0 else 78643200)
                                                       switched := false, trim := !s.conv.trims.contains n, persist := pb x.payload 0 0 } } })))
    ∧ (∀ r, s.conv.run = some r → r.fin ≤ s.dp → r.switched = true →
      exec .fcSetComplete s = .next (
        let t : State := { s with conv := { s.conv with run := none, serveAt := if s.counting then some (ceilTo frameTicks s.ym.now) else none } }
        let t := if r.trim then ({ t with conv := { t.conv with trims := t.conv.trims.take 4 } }.tackPut 22 .convTrim).calDone { id := 2, cls := 9, idx := 0 } else t
        (t.fcPersist r.ref r.fcN r.persist).finish r.ref .ok))
    ∧ (Served s c 0x21 x → pf x.payload 0 0 8 ≠ 0 → s.fcConflict = false → ∀ v : Option (List (BitVec 18)),
      ((pb x.payload 1 0 = true ∧ v = none) ∨ (pb x.payload 1 0 = false ∧ (pf x.payload 8 0 64).extractLsb' 0 6 = 0 ∧
        ∃ b, c.data = some b ∧ coefValid (coefWords b) = true ∧ v = some (coefWords b))) →
      (s.counting = true → exec (.rsCoefLoad c) s = .next (
        let at_ := (s.ym.now / frameTicks + 1) * frameTicks
        let t : State := { s with conv := { s.conv with coefNext := (setBits (pf x.payload 0 0 8)).foldl (fun a (k : Fin 8) => vset a k (some (at_, v))) s.conv.coefNext } }
        (t.setStage c.ref .running).at_ (s.dpOf at_) (.complete c.ref .ok 0)))
      ∧ (s.counting = false → exec (.rsCoefLoad c) s = .next (
        { s with conv := { s.conv with coef := (setBits (pf x.payload 0 0 8)).foldl (fun a (k : Fin 8) => vset a k v) s.conv.coef } }.finish c.ref .ok)))

/-- R71, R135, R136, R174, R217, R307, R493: CARRIER_SET, WEIGHT_SET, FH_FLOW_SET, SOLVER_SELECT and CFR_SET each enter one CONFIG event that
carries the change; the command completes where it takes effect, a CFR_SET at the first multiple of 983,040 ticks. -/
def Obligations.CarrierChanges : Prop :=
  ∀ (s : State) (c : Cmd) (x : Slot), let p := x.payload
    let n : Fin 8 := (pf p 0 0 3).toFin
    x.atBad = false →
    (Served s c 0x28 x → (pf p 0 3 2).toNat = 1 → let k := carrierOf p
      k.bad = false → s.bandOverlap n k = false → s.transitionBlocks (s.dueOf x) = false → (s.mode.cur ≠ .calibrate → fits s.mode.cur s.mode.bandA s.mode.bandB n k = true) →
      Fits s (carrierEvents s x n (.carrier n k)) → exec (.carrierConfigure c) s = .next (changeTaken s c x n (.carrier n k)))
    ∧ (Served s c 0x28 x → (pf p 0 3 2).toNat = 2 → s.transitionBlocks (s.dueOf x) = false → s.ofdm.carriers[n].cfg.isSome = true →
      Fits s (carrierEvents s x n (.carrierRemove n)) → exec (.carrierRemove c) s = .next (changeTaken s c x n (.carrierRemove n)))
    ∧ (Served s c 0x30 x → (pf p 1 0 3).toNat ≤ 4 → pf p 3 0 8 ≠ 0 → (pf p 1 6 2 = 0 ∨ pf p 1 0 3 ≠ 0) → s.ofdm.carriers[n].cfg.isSome = true →
      let w : WeightCfg := { aheadDir := pf p 1 6 2, onDemand := pb p 1 5, kAhead := pf p 1 0 3, smooth := pf p 2 0 2, maxAge := pf p 3 0 8, sigE := pf p 6 0 8, sigM := pf p 4 0 16 }
      Fits s (carrierEvents s x n (.weight n w)) → exec (.weightSet c) s = .next (changeTaken s c x n (.weight n w)))
    ∧ (Served s c 0x52 x → 6 ≤ (pf p 2 0 4).toNat → s.fh.ports[(pf p 1 0 3).toFin].cfg.role = 0 → s.ofdm.carriers[n].cfg.isSome = true →
      let ch : CfgChange := .flow n (pf p 1 0 3) (pb p 2 7) (pf p 2 0 4)
      Fits s (carrierEvents s x n ch) → exec (.fhFlowSet c) s = .next (changeTaken s c x n ch))
    ∧ (Served s c 0x79 x → pf p 1 0 2 ≠ 3 → s.kernelReady (pf p 1 0 2) = true → s.ofdm.carriers[n].cfg.isSome = true → (pf p 1 0 2 = 0 ∨ s.mode.cur ≠ .array) →
      Fits s (carrierEvents s x n (.kernel n (pf p 1 0 2))) → exec (.solverSelect c) s = .next (changeTaken s c x n (.kernel n (pf p 1 0 2))))
    ∧ (Served s c 0x40 x → (pf p 1 0 3).toNat ≤ 4 → 70 ≤ (pf p 2 0 8).toNat → (pf p 2 0 8).toNat ≤ 100 → -400 ≤ (pf p 4 0 16).toInt → (pf p 4 0 16).toInt ≤ 0 →
      (pb p 0 0 = false ∨ s.mode.cur = .split) →
      let e : List NewEv := [{ kind := .config, due := s.eventDue x .config, res := { cls := 9, idx := 0 }
                               body := .config (.cfr (if pb p 0 0 then 1 else 0) { passes := pf p 1 0 3, target := pf p 2 0 8, ref := pf p 4 0 16 }) }]
      Fits s e → exec (.cfrSet c) s = .next (taken s c x (some (ceilTo subframe (s.eventDue x .config))) e))

/-- R152 to R154: BEAM_LOAD stages entries read from host memory for the next multiple of 983,040 ticks; there they take their places together,
in order of acceptance. -/
def Obligations.BeamTable : Prop :=
  ∀ (s : State),
    (∀ (c : Cmd) (x : Slot) b, Served s c 0x29 x → let first := (pf x.payload 0 0 12).toNat
      let n := (pf x.payload 2 0 13).toNat
      0 < n → first + n ≤ 4096 → (pf x.payload 8 0 64).extractLsb' 0 6 = 0 → c.data = some b →
      exec (.beamLoad c) s = .next (let t := s.setStage c.ref .running
        { t with ofdm := { t.ofdm with stages := t.ofdm.stages ++ [{ boundary := (s.ym.now / subframe + 1) * subframe, first := first
                                                                     entries := (List.range n).map fun i => words32 64 (b.drop (256 * i)), cmd := some c.ref }] } }))
    ∧ (∀ t : BeamStage, s.counting = true → s.ofdm.stages = [t] → t.boundary ≤ s.ym.now → ∀ r, t.cmd = some r →
      exec .beamTableSwitch s = .next ({ s with ofdm := { s.ofdm with stages := []
                                                                      beams := t.entries.zipIdx.foldl (fun l (e : List (BitVec 32) × Nat) => putBeam l (t.first + e.2) e.1) s.ofdm.beams } }.complete r .ok))
    ∧ (s.counting = true → (∀ t ∈ s.ofdm.stages, s.ym.now < t.boundary) → exec .beamTableSwitch s = .next s)

/-- R163 to R173, R178: the smoothing of an occasion whose symbols are over, which a core has in hand, ends: what the ADCs gave is received and
estimated, and published in the channel book in place of its port's entry, with the next SEQ and the smallest exponent that fits, where the book
has room. -/
def Obligations.ChannelBookPublishes : Prop :=
  ∀ (s : State) (occ : Nat) (raw : List AdcIn) (x : Occasion) (i : Fin 9) (k : CarrierCfg),
    s.ofdm.occasions.find? (fun y => y.id == occ) = some x → s.smoothingCore occ = some i → s.ofdm.carriers[x.carrier].cfg = some k →
    x.abandoned = false → x.published = false → x.lastEnd ≤ s.ym.now →
    let t : State := { s with sol := { s.sol with cores := vmod s.sol.cores i fun (m : SolCore) => { m with bgJob := none, bgOn := false, bgCyc := 0 } } }
    let t := t.soundSats x k raw
    let ls := t.soundRows x k raw
    let r := x.estimate k.groupPrbs (t.ofdm.occasions.any fun y => y.id != x.id && y.shares x) ls.1
    let ws := r.2.1.map (bookWords (bookExp r.2.1))
    let t := t.modWcount x.carrier fun w => { w with estSat := satAdd w.estSat (ls.2 + r.2.2 + (ws.map fun w => w.2).sum) }
    let t := t.modOccasion x.id fun y => { y with published := true }
    ws.length ≤ t.bookFree →
    exec (.channelBookPublish occ raw) s = .next ((t.bookPut x k (bookExp r.2.1) r.1 (ws.map fun w => w.1)).soundingSweep x.carrier x.slot)

/-- R179 to R185: hints, sidings and weights on demand. -/
def Obligations.WeightProgress : Prop :=
  ∀ (s : State) (car : Fin 8) (ul : Bool),
    (∀ (c : Cmd) (x : Slot), Served s c 0x31 x → let p := x.payload
      let n : Fin 8 := (pf p 0 0 3).toFin
      let t := s.ofAirWord x.at_
      let m := hintMap p
      ∀ k, s.ofdm.carriers[n].cfg = some k → s.counting = true → x.atBad = false → t % s.carrierSlot n = 0 → m ≠ [] →
      (∀ y ∈ m, y.1 < (if pb p 0 3 then k.ulLayers.toNat else k.dlLayers.toNat)) → distinct (m.map fun y => y.2) = true → s.ym.now < t →
      exec (.weightHint c) s = .next ((s.setStage c.ref .running).hintAccept { carrier := n, ul := pb p 0 3, target := t, ranges := [(0, 512, m)] } [c.ref]))
    ∧ (∀ x, s.siding car ul = some x → x.ready = false → (x.groups.all fun g => g.set.isSome) = true →
      exec (.sidingReady car ul) s = .next (s.setSiding car ul (some { x with ready := true })))
    ∧ (∀ x, s.siding car ul = some x → s.counting = true → s.slotEnd car x.target ≤ s.ym.now → exec (.sidingSlotEnd car ul) s = .next (s.scrapSiding car ul))
    ∧ (∀ slot grp x od d b w, s.claim? car ul slot grp = some x → x.how = .waiting od d b (some w) → s.chain.isSome = false → s.ym.now ≤ d →
      exec (.onDemandPublish car ul slot grp) s = .next ((if od then s.modWcount car fun n => { n with onDemand := satInc n.onDemand } else s).publish x w))
    ∧ (∀ slot grp x od d b w, s.claim? car ul slot grp = some x → x.how = .waiting od d b w → s.chain.isSome = false → d ≤ s.ym.now →
      exec (.weightDeadline car ul slot grp) s = .next (s.abandonClaim x))

namespace Sys2Proof.Claims

open Sys2Proof.Machine

/-- DPD_CTRL operations without data: constructor, OP, whether CALIBRATE is needed, the operation on a path, what follows. -/
def dpdCtrlTable : List ((Cmd → Instr) × Nat × Bool × (State → Fin 64 → State) × (Cmd → State → State)) :=
  [(.dpdFreeze, 1, false, fun s p => s.modDpd p fun d => { d with frozen := true }, fun _ => id),
   (.dpdResume, 2, false, fun s p => s.modDpd p fun d => { d with frozen := false }, fun _ => id),
   (.dpdReset, 3, true, State.coldStart, fun _ => id),
   (.dpdErase, 4, true, fun s p => (s.eraseSets p).tackPut (dpdSector p) .dpdSet, fun c s => s.tackPut 1 .directory (some c.ref))]

/-- DPD_CTRL operations that read: constructor, OP, the records of a path. -/
def dpdReadTable : List ((Cmd → Instr) × Nat × (Nat → State → Fin 64 → Bytes × State)) :=
  [(.dpdReadActive, 5, fun _ => State.activeSetRec),
   (.dpdReadStored, 6, fun key s p => (List.range 4).foldl (fun (a : Bytes × State) i =>
      let sets : List DpdSet := match s.lin.keys[key]? with | some k => k.sets.filter fun (y : DpdSet) => y.path == p | none => []
      let b := a.2.storedSetRec p s.lin.keys[key]? sets[i]?
      (a.1 ++ b.1, b.2)) ([], s))]

end Sys2Proof.Claims

/-- R228, R247, R248: DPD_SET, the operations of DPD_CTRL and the load of the adjacency table, which invalidates the state and
erases the stored sets of the paths whose entry changes. -/
def Sys2Proof.Claims.DpdCommands : Prop :=
  ∀ (s : State) (c : Cmd) (x : Slot), let p := x.payload
    (Served s c 0x41 x → (pf p 0 0 4).toNat ≤ 10 → pf p 1 0 8 ≠ 0 → -100 ≤ (pf p 2 0 8).toInt → (pf p 2 0 8).toInt ≤ -30 →
      exec (.dpdSet c) s = .next ({ s with lin := { s.lin with cfg :=
        { autoStore := pb p 0 5, adaptEn := pb p 0 4, blendB := pf p 0 0 4, capPeriod := pf p 1 0 8, convTh := pf p 2 0 8 } } }.finish c.ref .ok))
    ∧ (∀ q ∈ dpdCtrlTable, Served s c 0x42 x → (pf p 8 0 4).toNat = q.2.1 → dpdNamed p ≠ [] → (q.2.2.1 = true → s.mode.cur = .calibrate) →
      exec (q.1 c) s = .next ((q.2.2.2.2 c ((dpdNamed p).foldl q.2.2.2.1 s)).finish c.ref .ok))
    ∧ (∀ q ∈ dpdReadTable, Served s c 0x42 x → (pf p 8 0 4).toNat = q.2.1 → dpdNamed p ≠ [] → (pf p 16 0 64).extractLsb' 0 6 = 0 → c.respErr = false →
      let r := gather (dpdNamed p) (q.2.2 (pf p 9 0 3).toNat) s
      exec (q.1 c) s = .next ((r.2.emit (.hostWrite (pf p 16 0 64) r.1)).finish c.ref .ok))
    ∧ (Served s c 0x43 x → (pf p 8 0 64).extractLsb' 0 6 = 0 → s.mode.cur = .calibrate → ∀ b, c.data = some b →
      (∀ q : Fin 64, adjBad q (adjEntry b q) = false) →
      exec (.dpdAdjLoad c) s = .next (
        let t := (List.finRange 64).foldl (fun (t : State) q =>
          if t.lin.adj[q] = adjEntry b q then t
          else
            let t := (((t.eraseSets q).tackPut (dpdSector q) .dpdSet).coldStart q).modDpd q fun d => { d with stale := true }
            { t with lin := { t.lin with adj := vset t.lin.adj q (adjEntry b q) } }) s
        (t.tackPut 34 .adjacency (some c.ref)).finish c.ref .ok))

/-- R214, R229, R230, R233 to R237, R240, R241, R244, R246, R247: a period after its last decision a paddock takes the settings in force and presents
a capture of the path whose turn it is; where no symbol begins within a frame the attempt fails. A capture of the present generation gives residual,
gain and TX EVM, and the adaptation is given to the solver; a result in time goes into the idle bank and is blended in; one that is late, of an
old generation or without coefficients in range is dropped; the boundaries of blend and ramp act on every path whose grid has a symbol start. -/
def Sys2Proof.Claims.DpdProgress : Prop :=
  ∀ (s : State),
    (∀ (k : Fin 8) p due o, s.counting = true → s.lin.owners[k].want = none → s.capOut k = false → s.lin.cfg.adaptEn = true → s.mode.cur ≠ .calibrate → s.mode.cur ≠ .bringup →
      s.lin.owners[k].lastAt + s.lin.owners[k].cfg.capPeriod.toNat * 491520 ≤ s.dp →
      let t := s.modOwner k fun y => { y with cfg := s.lin.cfg, lastAt := s.dp }
      let u := t.modOwner k fun y => { y with want := some p }
      t.capPick k = some p → u.capEligible p = true → u.capSymbol p (u.airOf s.dp) = some due → u.obsOf p = some o →
      let r := u.present (.internal .dpd) none [{ kind := .obsCapture, due := due, res := { cls := 5, idx := o }, body := .capture p o s.captureTicks }]
      r.1 = .ok → exec (.dpdCaptureDecision k) s = .next (r.2.modOwner k fun y => { y with want := none }))
    ∧ (∀ (k : Fin 8) p, s.counting = true → s.lin.owners[k].want = some p → s.capModes k = true → s.capEligible p = true →
      s.capSymbol p (s.airOf s.lin.owners[k].lastAt) = none → s.lin.owners[k].lastAt + 9830400 < s.dp →
      exec (.dpdCaptureDecision k) s = .next ((s.capFail p).modOwner k fun y => { y with want := none }))
    ∧ (∀ (p : Fin 64) (obs : List (Int × Int)) c, s.lin.caps.find? (fun c => c.path == p && c.shu.isNone && c.fin ≤ s.dp) = some c →
      s.mode.cur ≠ .calibrate → s.mode.cur ≠ .bringup →
      let y := obs.map fun v => ((adcWord v.1).1.toInt, (adcWord v.2).1.toInt)
      let t : State := ({ s with lin := { s.lin with caps := s.lin.caps.erase c } }).modOwner (paddockOf p) fun o => { o with pos := (p.val % 8 + 1) % 8 }
      let t := (t.modDpd p fun d => { d with fails := 0 }).readPaTemp p
      let t : State := { t with quality := vmod t.quality p fun q =>
        { q with txEvm := errorDb (aligned (y.take 16384) (c.u.take 16384)) (c.u.take 16384), capAt := t.airOf c.start } }
      (t.lin.paths[p].gen ≠ c.gen → exec (.dpdCaptureEnd p obs) s = .next t)
      ∧ (t.lin.paths[p].gen = c.gen → exec (.dpdCaptureEnd p obs) s = .next (
        let x := c.x.take 16384
        let hat := aligned (y.take 16384) x
        let g := (t.lin.paths[p].gain).getD (smallGain (t.cfrThreshold (t.cfrBand p)) x hat)
        let yn := normalised g hat
        let u := t.modDpd p fun d => { d with gain := some g, residual := errorDb yn x }
        let u := if u.converged c p (errorDb yn x) then u.capConverged p (errorDb yn x) else u.capNotConverged p
        let a : Adapting := { fin := c.fin, gen := c.gen, deep := u.mode.prof == .pl, use0 := (u.slotPath p 0).isSome, use1 := (u.slotPath p 1).isSome
                              y := yn, z := c.z.take 16384, v0 := c.v0.take 16384, v1 := c.v1.take 16384 }
        { u.modDpd p fun d => { d with adapting := d.adapting ++ [a] } with sol := { u.sol with ready := u.sol.ready ++
          [{ kind := .adapt p c.fin, deadline := u.airOf (c.fin + 98304000), budget := 1760000, kernel := 0 }] } })))
    ∧ (∀ (p : Fin 64) a, s.lin.paths[p].adapting.find? (fun a => s.sol.cores.toList.any fun x => match x.bgJob with | some j => j.adapts p a.fin | none => false) = some a →
      (a.gen = s.lin.paths[p].gen → s.dp ≤ a.fin + 98304000 → s.mode.cur ≠ .calibrate → s.mode.cur ≠ .bringup → s.lin.paths[p].blend = none →
        exec (.dpdAdaptPublish p) s = .next ((s.adaptOver p a.fin).modDpd p fun d =>
          match a.fit with
          | some set => { d with
              adapts := satInc d.adapts, new := set, blend := some (0, ((s.adaptOver p a.fin).dpdCfg p).blendB.toNat, s.dp + 16384), unconverged := true
              adapted := true, learnt := some (d.paTemp, satInc d.adapts), setResidual := 0x8000 }
          | none => { d with adaptDrop := satInc d.adaptDrop }))
      ∧ (a.gen ≠ s.lin.paths[p].gen ∨ a.fin + 98304000 < s.dp →
        exec (.dpdAdaptPublish p) s = .next ((s.adaptOver p a.fin).modDpd p fun d => { d with adaptDrop := satInc d.adaptDrop })))
    ∧ (∀ (p : Fin 64) a, s.lin.paths[p].adapting.find? (fun a => decide (a.fin + 98304000 < s.dp)) = some a →
      exec (.adaptTimeout p) s = .next ((s.adaptOver p a.fin).modDpd p fun d => { d with adaptDrop := satInc d.adaptDrop }))
    ∧ (s.counting = true → exec .blendBoundary s = .next ((List.finRange 64).foldl (fun (t : State) p =>
        if symbolCeil (t.grid30 p) t.ym.now = t.ym.now then (t.blendStep p).rampStep p else t) s))

/-- R228 to R248: the pre-distortion commands, and what pre-distortion does by itself. -/
def Obligations.DpdCommandsAndProgress : Prop := Sys2Proof.Claims.DpdCommands ∧ Sys2Proof.Claims.DpdProgress

/-- R257 to R260, R536: CAL_RUN is registered with its calibrations in ID order, and begins unless a running one has overlapping subjects; a
named path in traffic is lent at the first multiple of 983,040 ticks at least 98,304 after acceptance, and rejoins at such a tick, when the DPD of
the paths that it couples into is invalidated (R227). A path that an LBIST_RUN names is lent alike. -/
def Obligations.CalibrationRuns : Prop :=
  ∀ (s : State),
    (∀ (c : Cmd) (x : Slot), Served s c 0x48 x →
      let ps : List (Fin 64) := setBits (pf x.payload 0 0 64)
      let mask := (pf x.payload 8 0 16).toNat
      ps ≠ [] → mask ≠ 0 → s.trafficGate = none → (∀ p ∈ ps, s.inActive p = true ∧ (pb x.payload 10 1 = true ∨ s.inTraffic p = false)) →
      (mask &&& 14 = 0 ∨ s.mode.cur = .calibrate) → s.inTransition = false → s.conv.run = none →
      ((mask.testBit 4 = true ∨ mask.testBit 6 = true) → ∀ p ∈ ps, (s.obsOf p).isSome = true) →
      let ks := s.calKeys ps mask
      let r : CalRun := { ref := c.ref, paths := pf x.payload 0 0 64, mask := pf x.payload 8 0 16, lend := pb x.payload 10 1, store := pb x.payload 10 0, waiting := false
                          accepted := s.ym.now, all := ks, left := ks, busy := [], failed := false, lentNow := 0 }
      let t (r : CalRun) : State := { s.setStage c.ref .running with cal := { s.cal with runs := s.cal.runs ++ [r] } }
      exec (.calRun c) s = .next (if s.cal.runs.any fun q => !q.waiting && q.overlaps r then t { r with waiting := true } else (t r).calRunBegin r))
    ∧ (∀ (p : Fin 64), s.radio.paths[p].lent = false → s.inTraffic p = true → s.ym.now % subframe = 0 →
      let lent (t : State) : State := (t.modPath p fun y => { y with lent := true, jobs := [], run := none }).obsEntry p
      let run := s.cal.runs.find? fun r => !r.waiting && r.lend && r.paths.getLsbD p.val && r.left.any fun k => k.path? == some p || (k.cls == 2 && k.idx == p.val / 8)
      (∀ r, run = some r → ceilTo subframe (r.accepted + 98304) ≤ s.ym.now → exec (.lendStart p) s = .next (
        lent { s with cal := { s.cal with runs := s.cal.runs.map fun (q : CalRun) => if q.ref = r.ref then { q with lentNow := q.lentNow ||| ((1#64) <<< p.val) } else q } }))
      ∧ (run = none → ∀ l ∈ s.mem.lbist, l.target = 1 → l.index = p.val → l.lend = true → l.fin = none → ceilTo subframe (l.accepted + 98304) ≤ s.ym.now →
        exec (.lendStart p) s = .next (lent s)))
    ∧ (∀ p : Fin 64, s.radio.paths[p].lent = true → s.radio.paths[p].st = .standby → s.radio.paths[p].transit = none → s.ym.now % subframe = 0 →
      (∀ r ∈ s.cal.runs, r.waiting = false → r.lentNow.getLsbD p.val = true → ∀ k ∈ r.left, k.path? ≠ some p ∧ (k.cls = 2 → k.idx ≠ p.val / 8)) →
      (∀ l ∈ s.mem.lbist, l.target = 1 → l.index = p.val → l.result ≠ none) →
      exec (.lendRejoin p) s = .next (
        let t : State := s.modPath p fun y => { y with lent := false }
        let t : State := { t with cal := { t.cal with runs := t.cal.runs.map fun (q : CalRun) => { q with lentNow := q.lentNow &&& ~~~((1#64) <<< p.val) } } }
        (((t.namedBy p).foldl (fun (t : State) q => if t.inActive q then t.modDpd q fun d => { d with stale := true } else t) t).lbistRejoin p).calRunSweep))

/-- R84, R99, R252, R253, R260 to R266, R269: a completed result enters service, whole or step by step, and is counted; a failed one is counted; of
three failures or outliers in succession comes a fault, or the calibration is halted; guard periods, expiry, the settings and the periodic store. -/
def Obligations.CalibrationProgress : Prop :=
  ∀ (s : State) (id cls idx : Nat), let k : CalKey := { id := id, cls := cls, idx := idx }
    (∀ vals, id ≠ 3 → s.calForeground k (calTime id) = true → (id = 9 → s.radio.epochValid = true) →
      let t := ((s.calWhole k vals).calDone k).modCalRec k fun r => { r with halted := false }
      exec (.calibrationComplete id cls idx true vals) s = .next (((if id = 9 then t.phasePreset k vals else t).calInvalidates k).calRunMet k true))
    ∧ (∀ vals, id ≠ 3 → s.calForeground k 0 = true →
      exec (.calibrationComplete id cls idx false vals) s = .next (
        ((s.modCalRec k fun x => { x with last := .fail, failRun := 0 }).raiseFault .calFail { cls := cls, idx := idx }).calRunMet k false))
    ∧ (∀ vals, id ≠ 3 → s.calForeground k (calTime id) = false → s.calBackground k = true → (id = 9 → s.radio.epochValid = true) →
      let t : State := { s with cal := { s.cal with partials := s.cal.partials.filter fun x => x.key != k } }
      ((∀ v, t.calVal? k = some v → v.valid = true → outlier id v.target vals = false) →
        exec (.calibrationComplete id cls idx true vals) s = .next ((t.calEnter k vals).calDone k))
      ∧ (∀ v, t.calVal? k = some v → v.valid = true → outlier id v.target vals = true →
        let n := (t.calRec k).outRun + 1
        let u := t.modCalRec k fun r => { r with last := .outlier, outRun := n, halted := r.halted || decide (n ≥ 3) }
        exec (.calibrationComplete id cls idx true vals) s = .next (if n = 3 then u.postCal 1 id { cls := cls, idx := idx } else u)))
    ∧ (∀ vals, id ≠ 3 → s.calForeground k 0 = false → s.calBackground k = true →
      let n := (s.calRec k).failRun + 1
      exec (.calibrationComplete id cls idx false vals) s = .next (
        let t := s.modCalRec k fun x => { x with last := .fail, failRun := if n ≥ 3 then 0 else n }
        let t : State := { t with cal := { t.cal with partials := t.cal.partials.filter fun x => x.key != k } }
        if n ≥ 3 then t.raiseFault .calRepeat { cls := cls, idx := idx } else t))
    ∧ (∀ v, s.calVal? k = some v →
      (id ≠ 4 → v.waiting = none → exec (.calStepBoundary id cls idx) s = .next
        { s with cal := { s.cal with vals := s.cal.vals.map fun y => if y.key = k then { s.calStep v with waiting := none } else y } })
      ∧ (id = 4 → ∀ x p, v.waiting = some x → k.path? = some p → s.obsCapturing p = false → exec (.calStepBoundary id cls idx) s = .next (s.calWhole k x)))
    ∧ (∀ due : Tick, (if id = 3 then s.cal.cfg.bgEn.getLsbD 3 && s.mode.cur != .calibrate && s.counting && !(s.calRec k).halted else s.calDue k) = true →
      (s.ym.events.any fun e => match e.body with | .calSlot q _ => q == k | _ => false) = false → (s.cal.slots.any fun x => x.key == k && (id != 3 || decide (s.dp < x.fin))) = false →
      (s.cal.partials.any fun x => x.key == k && x.slots ≥ calSlots id) = false →
      let t := s.modCalRec k fun r => { r with cfg := some s.cal.cfg }
      t.calSubjectOk k = true → t.calClash k (t.dpOf due) (t.dpOf due + calLen id) = false → t.ym.now + 16384 ≤ due →
      exec (.backgroundCalDecision id cls idx due) s = .next
        (t.present (.internal .farrier) none [{ kind := .calSlot, due := due, res := { cls := cls, idx := idx }, body := .calSlot k (calLen id) }]).2)
    ∧ (∀ ev e n, Next s ev .calSlot e → e.body = .calSlot k n → s.calSubjectOk k = true → s.calSlotFree e k n = true →
      let t := s.removeEvent ev
      let a := t.dpOf e.due
      (∀ p, cls = 1 → toFin 64 idx = some p → s.calSlotCause p (s.dpOf e.due) n = none →
        exec (.calSlotRelease ev) s = .next (closeGroup (
          let back := (t.pathBefore p a).st
          ((t.pathLater p a .obs (some (a + n)) a).pathLater p (a + n) back none).calSlotUsed k e.id (a + n) back) e))
      ∧ (cls = 2 → exec (.calSlotRelease ev) s = .next (closeGroup (t.calSlotUsed k e.id (a + n) .standby) e))
      ∧ (∀ i, cls = 3 → toFin 16 idx = some i → exec (.calSlotRelease ev) s = .next (closeGroup (
          let u := t.synthLater i a (.calibrate t.radio.synths[i].freq false)
          { u with cal := { u.cal with slots := (u.cal.slots.filter fun x => u.dp < x.fin) ++ [{ key := k, fin := a + n, back := .standby, ev := e.id }] } }) e)))
    ∧ exec (.partialResultExpiry id cls idx) s = .next
        { s with cal := { s.cal with partials := s.cal.partials.filter fun x => !(x.key == k && x.first + 10 * calPeriod id < s.dp) } }
    ∧ (let keys := (s.cal.recs.filter fun r => !r.stored && r.count != 0 && (s.calCfg r.key).autoStore).map fun (r : CalRec) => r.key
       s.mode.cur ≠ .calibrate → keys ≠ [] → exec .calSetStore s = .next (s.calStore keys none true))
    ∧ (∀ (c : Cmd) (x : Slot), let p := x.payload
      Served s c 0x49 x → (pf p 2 4 4).toNat ≤ 10 → pf p 3 0 8 ≠ 0 → pf p 0 0 16 &&& 0xF007 = 0 →
      let cfg : CalCfg := { bgEn := pf p 0 0 16, calB := pf p 2 4 4, autoStore := pb p 2 0, tempDelta := pf p 3 0 8, refPath := pf p 4 0 6 }
      exec (.calSet c) s = .next (({ s with cal := { s.cal with cfg := cfg } }.tackPut 2 (.calCfg cfg) (some c.ref)).finish c.ref .ok))

/-- R271 to R273: the oldest queued sector write goes to the sector that the tack store picks; verified, the logical sector moves there and the
record takes force; the first failure retires the sector and retries the write on another, the second gives it up and fails its command. -/
def Obligations.TackWrites : Prop :=
  ∀ (s : State) w rest p, s.tack.queue = w :: rest → s.tack.pick w.sector none = some p →
    exec (.tackRecordCommit true) s = .next (State.tackApply
      { s with tack := { s.tack.wrote p with queue := rest, map := (s.tack.map.filter fun (x : Nat × Nat) => x.1 != w.sector) ++ [(w.sector, p)] } } w.rec_)
    ∧ (w.retried = false → exec (.tackRecordCommit false) s = .next
        (State.tackRetire { s with tack := { s.tack.wrote p with queue := { w with retried := true } :: rest } } p))
    ∧ (w.retried = true → ∀ r, w.cmd = some r → exec (.tackRecordCommit false) s = .next
        ((State.tackRetire { s with tack := { s.tack.wrote p with queue := rest } } p).finish r .hwFault))

/-- R198, R199, R201, R202: BURST_CFG takes its fields; BURST_TX and BURST_RX enter one event. -/
def Sys2Proof.Claims.BurstCommands : Prop :=
  ∀ (s : State) (c : Cmd) (x : Slot), let p := x.payload
    (Served s c 0x38 x →
      let k : BurstCfg := { syncWord := pf p 0 0 32, unitId := pf p 4 0 24, syncTol := pf p 8 0 3, capture := pf p 9 0 8, detThr := pf p 10 0 8, iterMax := pf p 11 4 4, nfAvg := pf p 11 0 4 }
      k.syncWord ≠ 0 → k.syncWord ≠ 0xFFFFFFFF → k.syncTol ≠ 7 → k.iterMax ≠ 0 → k.iterMax.toNat ≤ 12 → k.nfAvg.toNat ≤ 10 → k.capture.toNat ≤ 30 →
      (∀ e ∈ s.ym.events, e.kind ≠ .burstTx ∧ e.kind ≠ .burstRx) → (∀ l : Fin 2, s.burst.lanes[l].st = .search) →
      exec (.burstCfg c) s = .next ({ s with burst := { s.burst with cfg := k } }.complete c.ref .ok))
    ∧ (Served s c 0x39 x → x.atBad = false →
      let b : BurstTxPar := { path := (pf p 0 0 6).toFin, nsym := (pf p 1 0 2).toNat + 1, att := pf p 2 0 8, pwr := pf p 3 0 8, off := pf p 4 0 32, user := pf p 8 0 16 }
      let due := s.eventDue x .burstTx
      let e : List NewEv := [{ kind := .burstTx, due := due, res := { cls := 1, idx := b.path.val }, body := .burstTx b }]
      s.burstTxRefusal b = none → Fits s e → exec (.burstTx c) s = .next (taken s c x (some due) e))
    ∧ (Served s c 0x3A x → x.atBad = false →
      let due := s.eventDue x .burstRx
      let e : List NewEv := [{ kind := .burstRx, due := due, res := { cls := 9, idx := 0 }
                               body := .burstRx (pf p 0 0 64) ((pf p 8 0 2).toNat + 1) (pf p 10 0 16).toNat (pf p 12 0 32) x.tag }]
      s.burstRxRefusal (pf p 0 0 64) (pf p 10 0 16).toNat (pf p 12 0 32) = none → Fits s e → exec (.burstRx c) s = .next (taken s c x (some due) e))

namespace Sys2Proof.Claims

open Sys2Proof.Machine

/-- OUTCOME of a burst (R208, R209): 0 decoded, 1 the CRC fails, 3 another block type. -/
def burstOutcome (crcOk : Bool) (block : BitVec 136) : Nat := if !crcOk then 1 else if blk block 0 4 == 1 then 0 else 3

end Sys2Proof.Claims

/-- R203 to R213: the burst receiver. A detection of a new candidate is held by a free lane, captures the weakest lane that receives if its level is
CAPTURE or more above, is ignored where one receives otherwise, and is lost where both lanes hold others; a lane goes through its fields and
decodes; the decoder's outcome is reported and its measurement kept; the window closes; a block of idle symbols gives the noise floor. -/
def Sys2Proof.Claims.BurstReceiver : Prop :=
  ∀ (s : State) (l : Fin 2) (raw : List AdcIn), let x : Lane := s.burst.lanes[l]
    (∀ sample w, s.burst.window = some w → w.openAt + 32 * (sample + 64) ≤ s.dp → w.openAt + 32 * sample < w.close →
      let rs := s.burstStreams w.paths w.off w.first raw
      s.detectsAt rs sample = true →
      let tc := burstTiming rs sample
      let level := candidateLevel rs tc
      (∀ k : Fin 2, (s.burst.lanes[k]).same (w.openAt + 32 * tc) = false) →
      ((∀ k : Fin 2, s.burst.lanes[k].st = .search) → exec (.burstDetection sample raw) s = .next (s.holdLane 0 w tc level (candidateOffset rs tc)))
      ∧ (∀ k : Fin 2, k ≠ l → x.st = .hold → s.burst.lanes[k].st = .search →
        exec (.burstDetection sample raw) s = .next (s.holdLane k w tc level (candidateOffset rs tc)))
      ∧ ((∀ k : Fin 2, s.burst.lanes[k].st = .hold) → exec (.burstDetection sample raw) s = .next (s.modBurst fun n => { n with lostBusy := satInc n.lostBusy }))
      ∧ (∀ k : Fin 2, k ≠ l → x.receiving = true → s.burst.lanes[k].st = .search → level < x.level + 2 * s.burst.cfg.capture.toNat →
        exec (.burstDetection sample raw) s = .next (s.modBurst fun n => { n with ignored := satInc n.ignored }))
      ∧ (∀ k : Fin 2, k ≠ l → x.receiving = true → s.burst.lanes[k].st = .search → x.level + 2 * s.burst.cfg.capture.toNat ≤ level →
        exec (.burstDetection sample raw) s = .next ((s.captureLane l).holdLane k w tc level (candidateOffset rs tc))))
    ∧ (x.st = .hold → x.at_ 1281 ≤ s.dp → s.syncHypothesis (s.laneStreams x raw) x.tc = none →
      exec (.syncHypothesisFail l raw) s = .next ((s.modLane l fun _ => Lane.idle).modBurst fun n => { n with falseDet := satInc n.falseDet }))
    ∧ (∀ hyp, x.st = .hold → s.syncHypothesis (s.laneStreams x raw) x.tc = some hyp → x.at_ (513 + 64 * hyp) ≤ s.dp →
      exec (.syncAccepted l raw) s = .next (s.modLane l fun y =>
        { y with st := .sync, hyp := hyp, syncErr := BitVec.ofNat 3 (s.syncErrors (s.laneStreams x raw) x.tc hyp) }))
    ∧ (x.st = .sync → x.at_ (513 + 64 * x.hyp) ≤ s.dp → exec (.syncFieldEnd l) s = .next (s.modLane l fun y => { y with st := .train }))
    ∧ (x.st = .train → x.at_ (1089 + 64 * x.hyp) ≤ s.dp → exec (.longTrainingEnd l) s = .next (s.modLane l fun y => { y with trained := true }))
    ∧ (x.st = .train → x.trained = true → x.at_ (1089 + 64 * x.hyp + 288 * x.nsym) ≤ s.dp → exec (.payloadEnd l) s = .next (s.modLane l fun y => { y with st := .decode }))
    ∧ (x.st = .decode → exec (.decoderStop l raw) s = .next (
        let r := s.burstResult x raw
        let block : BitVec 136 := r.dec.block.extractLsb' 24 136
        let out := burstOutcome r.dec.crcOk block
        let rep := s.burstReport l out r.dec.iters r.refine (BitVec.ofInt 16 r.evm) (some s.burst.nextMeas) (if out = 0 then some block else none)
        let t := ((rep.2.post 0x05 rep.1).modBurst fun n => if out = 0 then { n with decoded := satInc n.decoded } else { n with crcFail := satInc n.crcFail })
        (t.modLane l fun _ => Lane.idle).keepMeas { id := s.burst.nextMeas, ok := out == 0, unitId := blk block 4 24, dev := blk block 28 3, txPath := blk block 31 6
                                                    arrived := s.airOf (x.at_ (1 + 64 * x.hyp)) - 32768 + r.refine / 1024, recs := r.recs } rep.1))
    ∧ (∀ w, s.burst.window = some w → w.close ≤ s.dp → exec .burstWindowClose s = .next { s with burst := { s.burst with window := none } })
    ∧ (∀ (p : Fin 64) (car : Fin 8) k, s.ofdm.carriers[car].cfg = some k →
      let n := 2 ^ s.burst.cfg.nfAvg.toNat
      n ≤ (s.quality[p].idle[car]).length → raw.length = n →
      let sum := (List.zipWith (fun (t : Tick) (r : AdcIn) => s.noisePower k p (sigOf r.first r.vals) t) (s.quality[p].idle[car].take n) raw).sum
      exec (.noiseFloorBlock p car raw) s = .next { s with quality := vmod s.quality p fun q => { q with
        nf := vset q.nf car (BitVec.ofInt 16 (dbRatio 4 (Q.ofInt sum) (Q.ofInt ((n * (12 * k.nRb) : Nat) * 2 ^ 30))))
        blocks := satInc q.blocks
        idle := vset q.idle car (q.idle[car].drop n) } })

/-- R198 to R213: the burst commands and the burst receiver. -/
def Obligations.BurstCommandsAndReceiver : Prop := Sys2Proof.Claims.BurstCommands ∧ Sys2Proof.Claims.BurstReceiver

/-- R32 to R38, R44, R45, R448: MODE_SET enters the MODE_CHANGE event of its start point; its release places the start there, or refuses it with the
status of R34; the transition ends at its resume boundary with OK and the report, or fails into CALIBRATE; carriers carry traffic again at the
boundary. The time AUTO_CAL takes is free within its bound (the model's choice, log 20). -/
def Obligations.ModeTransitions : Prop :=
  ∀ (s : State),
    (∀ (c : Cmd) (x : Slot) ask, Served s c 0x10 x → x.modeAsk c.ref 0 = some ask →
      let start := (s.dueOf x).getD (ceilTo (s.startGrid ask.target) (s.ym.now + 491520))
      let f : BitVec 64 × State := if ask.autoCal then s.takeFree 64 else (0, s)
      let t : Transition := { ask with start := start, resume := start, calFree := f.1.toNat }
      x.atBad = false → t.badArg = false → start % s.startGrid t.target = 0 → (t.autoCal = true → t.target ≠ .dormant ∧ s.mode.cur ≠ .dormant) →
      s.modeBusy = false → s.pwr.st = .active → s.counting = true → (s.modePlan t).allowed = true →
      let e : List NewEv := [{ kind := .modeChange, due := start, res := { cls := 9, idx := 0 }, body := .modeChange }]
      Fits f.2 e → exec (.modeSet c) s = .next (let u := taken f.2 c x none e
        { u with mode := { u.mode with trans := some (u.modeFix t) } }))
    ∧ (∀ ev e t, s.releasable ev .modeChange = some e → s.mode.trans = some t → let u := s.removeEvent e.id
      (u.startRefusal t = none → exec (.modeChangeRelease ev) s = .next
        ({ u with mode := { u.mode with trans := some (u.modeFix t) } }.at_ (u.dpOf e.due) .modeStart))
      ∧ (∀ st, u.startRefusal t = some st → exec (.modeChangeRelease ev) s = .next ({ u with mode := { u.mode with trans := none } }.complete t.ref st)))
    ∧ (∀ t (others : Bool), s.mode.trans = some t → t.started = true →
      (t.faulted = false → t.resume ≤ s.ym.now → t.endDp ≤ s.dp → (t.target = .array → s.arrayReady = true ∧ others = true) →
        exec (.modeTransitionEnd true others) s = .next (
          let u := (if t.redo.isEmpty && t.reseed = 0 then s else s.calSettle).calRestore t.redo t.autoCal
          let u := (setBits t.reseed).foldl (fun (u : State) p => if u.radio.paths[p].retired then u else u.seedDpd p) u
          let u : State := { u with mode := { u.mode with trans := none } }
          (u.complete t.ref .ok).postMode t .ok (.v 32 (BitVec.ofInt 32 (t.resume / frameTicks)).toNat)))
      ∧ (t.faulted = true → exec (.modeTransitionEnd true others) s = .next (s.modeFail t .hwFault))
      ∧ exec (.modeTransitionEnd false others) s = .next (s.modeFail t .hwFault)
      ∧ (t.target = .array → t.start + 4 * frameTicks ≤ s.ym.now → (s.arrayReady = false ∨ others = false) →
        exec (.arrayStartTimeout others) s = .next (s.modeFail t .notReady)))
    ∧ (∀ t, s.pwr.resumeAt = some t → s.pwr.resumeWake = false → t ≤ s.ym.now → s.host.top.safe = false → Awake s → s.mode.cur ≠ .calibrate →
      exec .trafficResume s = .next ((List.finRange 8).foldl (fun (u : State) c =>
        if u.ofdm.carriers[c].cfg.isSome then u.modCarrier c fun y => { y with suspended := false, serveFrom := t } else u) { s with pwr := { s.pwr with resumeAt := none } }))
    ∧ (∀ (c : Cmd) (x : Slot), let p := x.payload
      let ps : List (Fin 64) := setBits (pf p 0 0 64)
      Served s c 0x14 x → x.atBad = false → ps ≠ [] → (pb p 8 2 = true ∨ pb p 8 1 = true) → (∀ q ∈ ps, s.radio.paths[q].retired = false) → (s.host.top.safe = false ∨ pb p 8 0 = true) →
      let e := ps.map fun q => muteEvent q (pb p 8 2) (pb p 8 1) (pb p 8 0) true (s.eventDue x .mute)
      Fits s e → exec (.muteSet c) s = .next (taken s c x (some (s.eventDue x .mute)) e))

/-- R387, R388, R538: a rail out of range, a phase that departs and is replaced by the spare, the thermal conditions. -/
def Obligations.SupplyAndTemperature : Prop :=
  ∀ (s : State),
    (∀ r : Fin 9, (railsNeeded s.pwr.st).getLsbD r.val = true → s.pwr.rails.getLsbD r.val = true →
      exec (.railOut r) s = .next ({ s with pwr := { s.pwr with rails := s.pwr.rails &&& ~~~((1 : BitVec 9) <<< r.val) } }.raiseFault .railOut { cls := 9, idx := 0x300 + 16 * r.val + 15 }))
    ∧ (∀ (r : Fin 9) (f : Fin 15), f.val < phasesOf r.val → (r.val, f.val) ∉ s.pwr.phasesOut → (∀ x ∈ s.pwr.spared, x.1 ≠ r.val) →
      let res : Res := { cls := 9, idx := 0x300 + 16 * r.val + f.val }
      exec (.phaseImbalance r f) s = .next ((State.ledgerPut { s with pwr := { s.pwr with spared := (r.val, f.val) :: s.pwr.spared, phasesOut := (r.val, f.val) :: s.pwr.phasesOut } }
        7 1 res 0).postSpare 1 7 res))
    ∧ (∀ (r : Fin 9) (f : Fin 15), f.val < phasesOf r.val → (r.val, f.val) ∉ s.pwr.phasesOut → (∃ x ∈ s.pwr.spared, x.1 = r.val) →
      exec (.phaseImbalance r f) s = .next (s.raiseFault .railOut { cls := 9, idx := 0x300 + 16 * r.val + f.val } 3))
    ∧ (∀ n : Fin 16, s.pwr.thermalMute = false →
      exec (.thermalMute n) s = .next ((List.finRange 64).foldl (fun (t : State) p => t.capMuted p true false)
        ({ s with pwr := { s.pwr with thermalMute := true } }.raiseFault .thermalMute { cls := 9, idx := 0x3C0 + n.val })))
    ∧ exec .thermalMuteRelease s = .next { s with pwr := { s.pwr with thermalMute := false } }
    ∧ (∀ n : Fin 16, s.pwr.vin = true → s.pwr.thermalDeep = false → s.pwr.step = .steady →
      let u := s.raiseFault .thermalDeep { cls := 9, idx := 0x3C0 + n.val }
      let t := u.postPwr 5 s.pwr.st 0 0 0
      let t : State := { t with pwr := { t.pwr with thermalDeep := true, thermalSelf := !(t.wakeArmed .deep t.pwr.alarm.isSome) } }
      (t.pwr.st = .deep → exec (.thermalDeep n) s = .next t)
      ∧ (t.pwr.st = .active → t.pwr.step = .steady → t.pwr.cmd = none → exec (.thermalDeep n) s = .next (t.beginEntry .deep none)))
    ∧ (s.pwr.thermalDeep = true → s.pwr.st = .deep → s.pwr.step = .steady → s.pwr.latch = none → s.pwr.thermalSelf = true →
      exec .thermalRecovery s = .next (State.startWake { s with pwr := { s.pwr with thermalDeep := false } } 10))

/-- R397 to R402: a request begins an entry at A0; Q stops traffic; the points A1, A2 and A3 pass while no wake is latched; the time keeper takes air
time at a grid point; the device is then in the target state, and DEEP has lost what Table 14-3 says. -/
def Obligations.PowerEntry : Prop :=
  ∀ (s : State),
    (∀ (c : Cmd) (x : Slot) t, Served s c 0x13 x → pb x.payload 1 0 = false → pwrTarget (pf x.payload 0 0 3).toNat = some t → t ≠ s.pwr.st → t ≠ .active →
      s.mode.cur ≠ .array → s.inTransition = false → s.conv.run = none → s.cal.runs = [] → s.host.top.safe = false → ((t = .idle ∨ t = .doze) → s.pwr.st.code ≤ t.code) →
      s.pwrNotReady t false = false →
      exec (.powerState c) s = .next (let u := s.setStage c.ref .running
        { u with pwr := { u.pwr with target := t, step := .beforeQ, qAt := ceilTo frameTicks (s.ym.now + 98304), stepDue := s.dp + 98304, since := s.dp, cmd := some c.ref, latch := none } }))
    ∧ (∀ (c : Cmd) (x : Slot), Served s c 0x13 x → pb x.payload 1 0 = false → (pf x.payload 0 0 3).toNat = 0 → s.pwr.st ≠ .active →
      s.mode.cur ≠ .array → s.inTransition = false → s.conv.run = none → s.cal.runs = [] → s.host.top.safe = false → s.pwrNotReady .active false = false →
      exec (.powerState c) s = .next (let u := s.setStage c.ref .running
        State.startWake { u with pwr := { u.pwr with cmd := some c.ref } } 8))
    ∧ (s.pwr.step = .beforeQ → (if s.counting then decide (s.pwr.qAt ≤ s.ym.now) else decide (s.pwr.stepDue ≤ s.dp)) = true →
      let t := State.entryStop { s with pwr := { s.pwr with step := .e1, stepDue := s.dp + 2048 } }
      exec .quiesceBoundary s = .next (if t.biasHeld then (List.finRange 64).foldl (fun (u : State) p => u.modOut (hbOf p) OutCh.hold) t else t))
    ∧ (s.pwr.step = .e1 → s.pwr.stepDue ≤ s.dp → s.pwr.latch = none → s.pwr.wakeCfgNext = none →
      let down : PState := if s.pwr.target = .idle then .sleep else .off
      let t : State := { s with radio := { s.radio with paths := s.radio.paths.map fun (x : Path) => { x with st := if x.st = PState.off then PState.off else down, transit := none } }
                                pwr := { s.pwr with step := .e2, stepDue := s.dp } }
      exec .entryA1 s = .next (if s.pwr.target = .nap ∨ s.pwr.target = .deep then
          let u := (List.finRange 16).foldl (fun (u : State) i => u.modChan i ShuChan.halt) t
          let u := u.mem.marches.foldl (fun (u : State) (m : March) => u.complete m.ref .notReady) u
          { u with mem := { u.mem with marches := [] } }
        else t))
    ∧ (s.pwr.step = .e2 → s.tack.queue = [] → s.shuIdle = true → s.pwr.latch = none → s.pwr.wakeCfgNext = none →
      exec .entryGatingEnd s = .next { s with pwr := { s.pwr with step := .e3, stepDue := s.dp + 32 } })
    ∧ (s.pwr.step = .e3 → (s.pwr.target = .nap ∨ s.pwr.target = .deep) → s.pwr.keeper = false → s.ym.now % 32 = 0 →
      exec .timeKeeperHandoff s = .next (
        let t : State := { s with pwr := { s.pwr with keeper := true, keeperAt := s.dp, stepDue := s.dp + 32 } }
        let t := if s.time.ppsOut then { t with time := { t.time with ppsOut := false, ppsFall := none } }.emit (.pin "PPS_OUT" false) else t
        if s.pwr.target = .deep then { t with clk := { t.clk with pll := .off } } else t))
    ∧ (s.pwr.step = .e3 → s.pwr.stepDue ≤ s.dp → (s.pwr.keeper = true ∨ s.pwr.target = .idle ∨ s.pwr.target = .doze) → s.pwr.latch = none → s.pwr.wakeCfgNext = none →
      exec .entryA3 s = .next { s with pwr := { s.pwr with step := .e4, stepDue := s.dp + 128 } })
    ∧ (s.pwr.step = .e4 → s.pwr.stepDue ≤ s.dp → s.pwr.latch = none → s.pwr.wakeCfgNext = none → s.pwr.thermalSelf = false →
      let t : State := { s with pwr := { s.pwr with st := s.pwr.target, step := .steady, latch := none, rails := s.pwr.rails &&& railsNeeded s.pwr.target } }
      (s.pwr.target = .deep → exec (.entryComplete 0) s = .next t.deepLoss.portsIdle)
      ∧ (s.pwr.target = .nap → exec (.entryComplete 0) s = .next t.portsIdle)
      ∧ ((s.pwr.target = .idle ∨ s.pwr.target = .doze) → ∀ r, s.pwr.cmd = some r →
        exec (.entryComplete 0) s = .next (let u := (t.postPwr 1 s.pwr.target 0 0 0).complete r .ok
          { u with pwr := { u.pwr with cmd := none } })))

/-- R401 to R406, R411, R412: a wake pin that fires starts the wake of a low state; each step ends after its delay and the next begins, until the
device is ACTIVE; a step that times out sends the device back to DEEP's rails and the wake is retried; the wake registers; carriers
resume at the boundary. -/
def Obligations.PowerWake : Prop :=
  ∀ (s : State),
    (∀ (n : Fin 4) e, e ≠ s.pwr.wakeCfg.getLsbD (4 * n.val + 1) → s.wakeOk (n.val + 1) = true → s.pwr.step = .steady → s.pwr.thermalDeep = false →
      exec (.wakePin n e) s = .next (s.startWake (n.val + 1)))
    ∧ (∀ k x, s.pwr.step = .wake k → s.pwr.stepDue ≤ s.dp → (k = 8 → s.pwr.st = .idle ∨ s.synthsReady = true) →
      let t := s.wakeEffect k
      let t0 := t.pwr.since + (t.dp - t.pwr.stepDue)
      ((wakePlan t.pwr.st).find? (fun x => k < x.1) = some x → exec .wakeStepEnd s = .next
        (State.wakeEnter { t with pwr := { t.pwr with step := .wake x.1, since := t0, stepDue := t0 + usTicks x.2 } } x.1))
      ∧ ((wakePlan t.pwr.st).find? (fun x => k < x.1) = none → exec .wakeStepEnd s = .next t.awake))
    ∧ (s.pwr.step = .undo → s.pwr.stepDue ≤ s.dp → exec .wakeStepEnd s = .next s.undone)
    ∧ (∀ k cause index, s.pwr.step = .wake k → s.wakeLimit k ≤ s.dp →
      let t := State.deepLoss { s with clk := { s.clk with pll := .off } }
      let t : State := { t with radio := { t.radio with synths := t.radio.synths.map fun (y : Synth) =>
        if y.st = .retired then y else { y with st := .off, op := none, jobs := [], aligned := false } } }
      let t := (List.finRange 64).foldl (fun (u : State) p => u.pathOff p) t
      let t : State := { t with pwr := { t.pwr with st := .deep, rails := railsNeeded .deep, keeper := true, keeperAt := if t.pwr.keeper then t.pwr.keeperAt else t.dp } }
      (t.pwr.attempts < 4 → exec (.wakeStepTimeout cause index) s = .next { t with pwr := { t.pwr with
        attempts := t.pwr.attempts + 1, step := .wake 1, since := t.dp, stepDue := t.dp + 786432 } })
      ∧ (4 ≤ t.pwr.attempts → exec (.wakeStepTimeout cause index) s = .next (State.setFaultN { t with pwr := { t.pwr with
        step := .hold, target := .deep, fault := true, wakeFail := failRecord t.pwr.wakeFrom.code k 4 cause index } })))
    ∧ (∀ t, s.pwr.resumeAt = some t → s.pwr.resumeWake = true → t ≤ s.ym.now → Awake s → s.host.top.safe = false → s.mode.cur ≠ .calibrate →
      let held := (List.finRange 8).filter fun c => s.ofdm.carriers[c].cfg.isSome && s.ofdm.carriers[c].suspended &&
        (s.antennas c).any fun p => s.pwr.needCal.getLsbD p.val && !s.radio.paths[p].retired && !s.calWholePath p
      let u := (List.finRange 8).foldl (fun (u : State) c => if u.ofdm.carriers[c].cfg.isSome && u.ofdm.carriers[c].suspended && !held.contains c then
        (u.modCarrier c fun y => { y with suspended := false, serveFrom := if u.ym.now - t < frameTicks then t else ceilTo frameTicks s.ym.now }).firstUse c else u) s
      let u := if u.mode.cur = .dormant then u.dormantEnter else u
      exec .wakeCarrierResume s = .next (if held.isEmpty then { u with pwr := { u.pwr with resumeAt := none, resumeWake := false, needCal := 0 } } else u))
    ∧ (∀ v, s.pwr.vin = true → exec (.pwrWakeCfgWrite v) s = .next (s.writeWakeCfg v 0xFFFFFFFF) ∧ exec (.pwrWakeFailClear v) s = .next (s.writeWakeFail v)
        ∧ exec (.retry v) s = .next (s.writeRetry v))

/-- R410, R411, R569, R573: power-good samples the pins and begins the sequence, whose rails come up in order; the tack store is read; BRINGUP is
entered; a step that times out restarts the sequence; a brown-out leaves only what the tack store holds. -/
def Obligations.ColdPowerUp : Prop :=
  ∀ (s : State),
    (∀ xo fitted te, s.pwr.vin = false → exec (.powerGood xo fitted te) s = .next
      ({ s with dp := 0, clk := { s.clk with xoSel := xo, xoBad := xo == 3 || xo != fitted }, pkg := { s.pkg with testMode := te, clkreqLow := true }, tack := { s.tack with boots := s.tack.boots + 1 }
                sup := { s.sup with conv := s.sup.conv.map fun (k : HkConv) => { k with calWait := [none] } }
                pwr := { s.pwr with vin := true, st := .active, target := .active, step := .cold, rails := 0x100 } }.emit (.pin "PCIE_CLKREQ_N" false)))
    ∧ (∀ ready, s.pwr.vin = true → s.pwr.step = .cold → s.clk.aonXo = true →
      let n := ((List.range 8).takeWhile fun i => ready.getLsbD i || s.pwr.rails.getLsbD i).length
      exec (.powerupRailsReady ready) s = .next (State.refSelect { s with pwr := { s.pwr with rails := s.pwr.rails ||| BitVec.ofNat 9 (2 ^ n - 1) } }))
    ∧ (s.pwr.step = .cold → s.pwr.bootStage = 2 → s.pwr.memReady = true → ∃ t : State, exec (.tackStoreBootRead []) s = .next (s.tack.ledger.foldl (fun u r => u.applyLedger r) t)
        ∧ t.tack = { s.tack with read := true } ∧ t.pwr = { s.pwr with bootStage := 3 } ∧ t.conv.fcN = s.tack.nv.bootFc.getD 32768 ∧ t.lin.adj = s.tack.nv.adj
        ∧ t.conv.trims = s.tack.nv.trims
        ∧ t.cal.sets = s.tack.nv.sets.map (fun (y : CalSet) => { y with bgAt := none }) ∧ t.cal.cfg = s.tack.nv.calCfg.getD s.cal.cfg ∧ t.host = s.host ∧ t.fh = s.fh ∧ t.mem = s.mem)
    ∧ (s.pwr.step = .cold → s.pwr.bootStage = 5 → (∀ i : Fin 2, (s.sup.conv[i]).cal = none ∧ (s.sup.conv[i]).calWait = []) →
      exec .bringupService s = .next { s with mode := ModeCtl.reset, pwr := { s.pwr with bootStage := 6, step := .steady, attempts := 0 } })
    ∧ (∀ cause index, s.pwr.step = .cold → s.sec.recovery = false → s.pwr.attempts < 3 →
      let t : State := { s with clk := { s.clk with pll := .off, cbPll := false, active := 0, sw := s.clk.sw.filter fun x => x.domain == .aon } }
      exec (.powerupStepTimeout cause index) s = .next { t with pwr := { s.pwr with attempts := s.pwr.attempts + 1, bootStage := if s.clk.aonXo then 1 else 0, rails := 0x100, memReady := false } })
    ∧ (s.pwr.vin = true → s.tack.queue = [] → ∃ t : State, exec .brownOut s = .next t ∧ t.tack = { s.tack with queue := [], read := false, crcFail := 0 }
        ∧ t.pwr = Pwr.reset ∧ t.ym = Ym.reset ∧ t.radio = Radio.reset ∧ t.sol = Sol.reset ∧ t.pending = s.pending)

/-- R15, R16, R375, R380, R381, R383, R427, R576: writes of the clock registers and of the lane equalisation registers. While CB_DIV is beyond its
limit the value that arrives is free, as it is where reserved bits are written with 1. -/
def Obligations.ClockRegisterWrites : Prop :=
  ∀ (s : State) (c : Cmd) (x : Slot), Served s c 0x03 x → s.gatedReg (regAddr x.payload) = false →
    let m : BitVec 32 := pf x.payload 8 0 32
    let w := pf x.payload 4 0 32 &&& m
    let b : BitVec 32 × State := if s.busLost then s.takeFree 32 else (pf x.payload 4 0 32, s)
    let ovr := b.2.wrVal (b.2.clk.cbDiv.setWidth 32 ||| (if b.2.clk.dpByp then 4 else 0)) b.1 m 0xFFFFFFF8
    let clkOvr := (State.writeDpByp { ovr.2 with clk := { ovr.2.clk with cbDiv := ovr.1.extractLsb' 0 2 } } (ovr.1.getLsbD 2)).complete c.ref .ok
    (regAddr x.payload = 0x080C → w.getLsbD 31 = true → exec (.clkMeterStart c) s = .next ((b.2.writeMeter b.1 m).complete c.ref .ok))
    ∧ (regAddr x.payload = 0x080C → w.getLsbD 31 = false → (w.getLsbD 29 = true ∨ w.getLsbD 28 = true) → exec (.clkMeterClear c) s = .next ((b.2.writeMeter b.1 m).complete c.ref .ok))
    ∧ (regAddr x.payload = 0x0808 → m.getLsbD 2 = true → exec (.dpByp c) s = .next clkOvr)
    ∧ (regAddr x.payload = 0x0808 → m.getLsbD 2 = false → m.extractLsb' 0 2 ≠ 0 → exec (.cbDiv c) s = .next clkOvr)
    ∧ (∀ l : Fin 32, regAddr x.payload = 0x1C04 + 4 * l.val → exec (.fhLaneEqWrite c) s = .next ((b.2.writeLaneEq l b.1 m).complete c.ref .ok))

/-- R371 to R381: windows of the clock monitors, a dead clock, switches, the reference PLL, the return to PRIMARY, clock gates and the meter. -/
def Obligations.ClockProgress : Prop :=
  ∀ (s : State),
    (∀ (i : Fin 11), s.windowCounts i = true →
      (∀ n, s.clk.mon[i] = (.unqualified, n) → n + 1 < 4096 → exec (.clockMonitorWindowEnd i true) s = .next (s.setMon i .unqualified (n + 1)))
      ∧ (s.clk.mon[i] = (.unqualified, 4095) → exec (.clockMonitorWindowEnd i true) s = .next ((s.setMon i .qualified).monGood i))
      ∧ (∀ n, s.clk.mon[i] = (.qualified, n) → exec (.clockMonitorWindowEnd i false) s = .next ((s.setMon i .fault).monTrip i false))
      ∧ (∀ n, (s.clk.mon[i] = (.fault, n) ∨ s.clk.mon[i] = (.dead, n)) → exec (.clockMonitorWindowEnd i true) s = .next (s.setMon i .unqualified 1)))
    ∧ (∀ i : Fin 11, 4 ≤ i.val → i.val ≤ 9 → s.monAt i.val ≠ .dead → s.clk.busy = false → s.clk.sw = [] →
      exec (.clockDead i) s = .next ((((s.setMon i .dead).postClk 6 i.val)).raiseFault .monFault { cls := 9, idx := 0x3E0 + i.val }))
    ∧ (∀ y rest, s.clk.sw = y :: rest → y.domain = .dp → exec .turntableSwitchEnd s = .next { s with clk := { s.clk with sw := rest } })
    ∧ (∀ y rest, s.clk.sw = y :: rest → y.domain = .refIn →
      let t : State := { s with clk := { s.clk with sw := rest, active := BitVec.ofNat 2 (y.dst - 1), switches := satInc s.clk.switches } }
      let u := (t.epochInvalid.postClk 1 y.dst y.restart).pllAcquire
      exec .turntableSwitchEnd s = .next (if u.monAt y.dst = .qualified then u else u.refTrip))
    ∧ (∀ y rest, s.clk.sw = y :: rest → y.domain = .cb → let t : State := { s with clk := { s.clk with sw := rest, cbPll := y.dst == 5 } }
      exec .turntableSwitchEnd s = .next (if s.pwr.bootStage = 1 then { t with pwr := { t.pwr with bootStage := 2 } } else t))
    ∧ (∀ y rest, s.clk.sw = y :: rest → y.domain = .aon → let t : State := { s with clk := { s.clk with sw := rest, aonXo := y.dst == 1, switches := satInc s.clk.switches } }
      let t : State := if y.dst = 1 ∧ s.pwr.bootStage = 0 then { t with pwr := { t.pwr with bootStage := 1 } } else t
      exec .turntableSwitchEnd s = .next (if t.clk.pll = .off then t.refSelect else t))
    ∧ (s.clk.pll = .acquire → let t := State.postClk { s with clk := { s.clk with pll := .locked } } 3 s.activeRef
      exec .pllLocked s = .next (if t.clk.cbPll || t.switching .cb then t else t.beginSwitch .cb 0 5 true))
    ∧ (∀ t, s.clk.revertAt = some t → t + s.clk.cfg.hold.toNat * 983040000 ≤ s.dp → s.monAt 2 = .qualified → s.activeRef = 3 → s.switching .refIn = false →
      exec .revertHoldExpiry s = .next (State.beginSwitch { s with clk := { s.clk with revertAt := none } } .refIn 3 2 (s.monAt 3 == .dead)))
    ∧ (∀ b, s.clk.gated.contains b = false →
      (s.clk.gateReq.contains b = false → exec (.gateRequest b) s = .next { s with clk := { s.clk with gateReq := s.clk.gateReq ++ [b] } })
      ∧ (s.clk.gateReq.contains b = true → exec (.gateRequest b) s = .next
          { s with clk := { s.clk with gateReq := s.clk.gateReq.filter (· != b), gated := s.clk.gated ++ [b] } }))
    ∧ (∀ b, s.clk.gateReq.contains b = true → exec (.gateTimeout b) s = .next ((State.postClk
        { s with clk := { s.clk with gateReq := s.clk.gateReq.filter (· != b), gated := s.clk.gated ++ [b], gateTo := satInc s.clk.gateTo } } 8 b).raiseFault .gateTo { cls := 9, idx := 0 }))
    ∧ (∀ n, s.clk.busy = true → s.clk.gateSel.toNat ≤ 10 → s.clk.testSel.toNat ≤ 10 →
      exec (.clkMeterEnd n) s = .next { s with clk := { s.clk with busy := false, done := true, result := n } })

/-- R350, R359, R360, R382: the configuration commands of clocks and time. -/
def Obligations.TimeCommands : Prop :=
  ∀ (s : State) (c : Cmd) (x : Slot), let p := x.payload
    (let k := refCfgOf p
     Served s c 0x68 x → s.refKnown k.pri = true → s.refKnown k.sec = true → k.pri ≠ k.sec → k.fineTh ≠ 0 → k.hold ≠ 0 → k.hold.toNat ≤ 3600 → s.switching .refIn = false →
      s.clk.revertAt = none → s.activeRef = 0 →
      let mon (old new : RefSrc) (i : Fin 11) : Mon × Nat := if old = new then s.clk.mon[i] else (.unqualified, 0)
      exec (.refCfg c) s = .next (State.complete { s with clk := { s.clk with cfg := k
                                                                              mon := vset (vset s.clk.mon 2 (mon s.clk.cfg.pri k.pri 2)) 3 (mon s.clk.cfg.sec k.sec 3) } } c.ref .ok))
    ∧ (Served s c 0x62 x → s.time.tb[(0 : Fin 2)].cfg.source = 2 → s.hitchMember = false →
      exec (.timeTodSet c) s = .next ({ s with time := { s.time with tod := some (pf p 0 0 48) } }.complete c.ref .ok))
    ∧ (Served s c 0x60 x → let d : Fin 2 := if pb p 0 0 then 1 else 0
      s.timeCfgBad d (timeCfgOf p) = false → (d = s.tbS → s.ym.air ≠ .released) → (d = 0 → s.hitchMember = false) →
      exec (.timeCfg c) s = .next (
        let t := s.modTb d fun b => { Tb.reset 0 with count := b.count, cfg := timeCfgOf p, lastTheta := b.lastTheta, mpd := b.mpd, outliers := b.outliers, lost := b.lost, steps := b.steps, reqSeq := b.reqSeq }
        (if d = 0 then { t with time := { t.time with ppsLast := none, tod := none } } else t).complete c.ref .ok))
    ∧ (let k : TimeDev := { autoSwitch := pb p 0 2, ppsOutEn := pb p 0 1, slew := pf p 1 0 8, ppsWidth := pf p 2 0 16, switchMax := pf p 4 0 32
                            asym := Vector.ofFn fun (i : Fin 8) => pf p (8 + 2 * i.val) 0 16 }
       Served s c 0x61 x → k.slew ≠ 0 → k.slew.toNat ≤ 100 → k.ppsWidth ≠ 0 → k.ppsWidth.toNat ≤ 50000 → k.switchMax ≠ 0 → k.switchMax.toNat ≤ 1000000 →
      let t := State.bleedFrom { s with time := { s.time with dev := k } } s.bleedNow
      (pb p 0 0 = s.time.sel → exec (.timeDevSet c) s = .next (t.complete c.ref .ok))
      ∧ (pb p 0 0 ≠ s.time.sel → s.switchFits k.switchMax = true → (s.ym.air = .released → s.time.tb[otherTb s.tbS].st = Servo.locked) →
        exec (.timeDevSet c) s = .next (t.switchTb.complete c.ref .ok)))

/-- R342 to R345: PTP. The layouts and the order of masters are the model's (log entry 30); what the manual says of them is stated: an Announce
enters its master and selects anew, a Sync, Follow_Up and Delay_Resp of the parent make an offset, 16 Delay_Req a second are sent. -/
def Obligations.PtpMessages : Prop :=
  ∀ (s : State) (p : Fin 8) (b : Bytes) (d : Fin 2), s.receiving p = true → s.fh.ports[p].cfg.role ≠ 1 → ptpVersion b = 2 → s.ptpTb p b = some d → let k := s.time.tb[d]
    (ptpType b = 11 → 64 ≤ b.length → exec (.ptpAnnounce p b) s = .next ((s.modTb d fun y => { y with masters :=
        (y.masters.filter fun (x : Master) => !(x.port == p.val && ptpSource x.data == ptpSource b)) ++ [{ port := p.val, data := b, heard := s.dp }] }).selectParent d))
    ∧ (∀ dst at_, ptpType b = 0 → 44 ≤ b.length → k.fromParent p b = true →
      let t2 := (countNs (k.count + at_)).sub (Q.make s.fh.ports[p].rxCorr 10)
      let t := s.modTb d fun y => { y with lost := if y.sync.isSome then satInc y.lost else y.lost, sync := none, syncDst := some dst }
      exec (.ptpSync p dst b at_) s = .next (if ptpTwoStep b then t.modTb d fun y => { y with sync := some (ptpSeq b, t2, ptpCorr b) } else t.ptpOffset d p t2 (ptpStamp b) (ptpCorr b)))
    ∧ (∀ t2 corr, ptpType b = 8 → 44 ≤ b.length → k.sync = some (ptpSeq b, t2, corr) → k.fromParent p b = true →
      exec (.ptpFollowUp p b) s = .next ((s.modTb d fun y => { y with sync := none }).ptpOffset d p t2 (ptpStamp b) (corr.add (ptpCorr b))))
    ∧ (∀ t3, ptpType b = 9 → 54 ≤ b.length → k.delayReq = some (ptpSeq b, t3) → k.fromParent p b = true →
      (let mac := s.fh.ports[p].cfg.ownMac.toNat
       (b.drop 44).take 10 = beBytes 3 (mac / 2 ^ 24) ++ [0xFF, 0xFE] ++ beBytes 3 mac ++ beBytes 2 (p.val + 1)) →
      exec (.ptpDelayResp p b) s = .next (s.modTb d fun y => { y with delayReq := none, exchange := some (((ptpStamp b).sub t3).sub (ptpCorr b)) }))

namespace Sys2Proof.Claims

open Sys2Proof.Machine

/-- The Delay_Req of a domain on a port (R343; IEEE 1588-2019, PRESUMED, log 30): two-step off, its own port identity and sequence number. -/
def delayReq (k : PortCfg) (n : Nat) (domain : BitVec 8) (seq : BitVec 16) : Bytes :=
  let mac := k.ownMac.toNat
  [1, 0x12] ++ beBytes 2 44 ++ beBytes 1 domain.toNat ++ beBytes 15 0 ++ beBytes 3 (mac / 2 ^ 24) ++ [0xFF, 0xFE] ++ beBytes 3 mac ++ beBytes 2 (n + 1) ++
    beBytes 2 seq.toNat ++ [1, 0x7F] ++ beBytes 10 0

end Sys2Proof.Claims

/-- R343, R344, R347, R350, R354, R356, R358: what time brings about by itself. -/
def Obligations.TimeProgress : Prop :=
  ∀ (s : State) (d : Fin 2), let b := s.time.tb[d]
    (∀ r, b.parent = some r → (∃ m ∈ b.masters, m.heard + 3 * ptpInterval (ptpLogInterval m.data) ≤ s.dp ∧ BitVec.ofNat 3 m.port = r) →
      let left := b.masters.filter fun (m : Master) => !decide (m.heard + 3 * ptpInterval (ptpLogInterval m.data) ≤ s.dp)
      exec (.announceTimeout d) s = .next ((s.modTb d fun y => { y with masters := left }).selectParent d))
    ∧ (∀ r dst at_, b.parent = some r → b.syncDst = some dst → (∀ t, b.reqAt = some t → t + 61440000 ≤ s.dp) → s.receiving r.toFin = true →
      let port := s.fh.ports[(r.toFin : Fin 8)]
      exec (.delayReqSend d at_) s = .next
        ((s.modTb d fun y => { y with reqSeq := y.reqSeq + 1, reqAt := some s.dp
                                      delayReq := some (y.reqSeq, (countNs (b.count + at_)).add (Q.make port.txCorr 10)) }).sendFrame r.toFin "DELAY_REQ"
          (port.cfg.frame dst false 0x88F7 (delayReq port.cfg (r.toFin : Fin 8).val b.cfg.ptpDomain b.reqSeq))))
    ∧ ((b.st = .track ∨ b.st = .locked) → b.lastAt + 2 * tickHz ≤ s.dp → ¬ (s.hitchMember = true ∧ d = 0 ∧ b.st = .locked) → s.asleep = false →
      let l := (b.hist.filter fun (x : Nat × Q) => decide (b.lastAt ≤ x.1 + 16 * tickHz)).map fun (x : Nat × Q) => x.2
      let m := if l.isEmpty then b.i else (Q.sum l).div (Q.ofInt l.length)
      exec (.servoHoldover d) s = .next (((s.modTb d fun y => { y with i := m, y := m, freq := freqWord m }).enterServo d .holdover).modTb d
        fun y => { y with holdAt := b.lastAt + 2 * tickHz }))
    ∧ (b.st = .holdover → b.holdAt + b.cfg.holdMax.toNat * tickHz ≤ s.dp → s.asleep = false → exec (.servoExpired d) s = .next (s.enterServo d .expired))
    ∧ (s.time.bleed.isSome = true → s.bleedNow = 0 → exec .bleedDone s = .next (State.postTime { s with time := { s.time with b := 0, bleed := none } } 8 s.tbS))
    ∧ (let sec : Int := if s.counting then (secNs s.tau3).1 else (s.tb2Ns / 1000000000 : Nat)
       s.time.anchorSec < sec → s.asleep = false → exec .timeAnchor s = .next (let a := s.anchorBody
         { a.2 with time := { a.2.time with anchorSec := sec } }.post 0x0A a.1))
    ∧ (∀ at_ v, s.time.tb[(0 : Fin 2)].cfg.source = 2 → s.hitchMember = false → s.time.ppsLast = none → s.time.tod = some v →
      exec (.ppsInEdge at_) s = .next (State.servoOffset { s with time := { s.time with ppsLast := some (32 * (s.dp : Int) + at_), tod := none } } 0
        (((countNs (s.time.tb[(0 : Fin 2)].count + at_ * (3125 * 2 ^ 25))).add (Q.ofInt (sgn s.time.tb[(0 : Fin 2)].cfg.ppsDelay))).sub (Q.ofInt (v.toNat * 1000000000)))))
    ∧ (∀ t, s.time.ppsFall = some t → t ≤ s.dp → exec .ppsOutPulseEnd s = .next ({ s with time := { s.time with ppsOut := false, ppsFall := none } }.emit (.pin "PPS_OUT" false)))

namespace Sys2Proof.Claims

open Sys2Proof.Machine

/-- A message of a kind arrives whole on a port that takes Sarfaip messages; it is classified, its items fill its body, and its sequence number is the one
that its flow expects (R283 to R288). -/
def Arrives (s : State) (p : Fin 8) (kind : Nat) (b : Bytes) (items : List Bytes) : Prop :=
  s.takesSar p = true ∧ 16 ≤ b.length ∧ b.length = 4 + beAt b 2 2 ∧ byteAt b 0 / 16 = 1 ∧ byteAt b 8 % 16 = kind ∧ sarClassified b = true
  ∧ sarItems kind (byteAt b 12) (b.drop 16) = some items ∧ byteAt b 7 = 0x80
  ∧ ∀ x, s.fh.rxSeq.find? (fun x => x.1 == ((sarOf b).typ, (sarOf b).flow)) = some x → x.2 = (sarOf b).seq

/-- The flow expects the next sequence number (R287). -/
def heard (s : State) (m : Sar) : State :=
  { s with fh := { s.fh with rxSeq := (s.fh.rxSeq.filter fun (x : (Nat × Nat) × BitVec 8) => x.1 != (m.typ, m.flow)) ++ [((m.typ, m.flow), m.seq + 1)] } }

/-- The items of a message one after the other, and whether any passed its checks. -/
def itemwise (f : State → Bytes → Bool × State) (items : List Bytes) (s : State) : Bool × State :=
  items.foldl (fun (a : Bool × State) it => let r := f a.2 it; (a.1 || r.1, r.2)) (false, s)

/-- A message took effect item by item: it goes on to the array's members where any of its items passed (R325). -/
def tookItems (r : Bool × State) (m : Sar) : State := if r.1 then r.2.fwd m else r.2

end Sys2Proof.Claims

/-- R284 to R301, R303, R306, R325: each Sarfaip message that arrives whole and in order acts item by item: sections are presented with the symbol events,
blocks are held for their section, data is stored, hints reach the siding, directives create events, beams are staged, a wake message wakes. A message for
which the C-plane and control share has no space is dropped whole. -/
def Obligations.FronthaulMessages : Prop :=
  ∀ (s : State) (p : Fin 8) (b : Bytes) (items : List Bytes), let m := sarOf b
    let u := heard s m
    (Arrives s p 8 b items → exec (.wakeMessage p b) s = .next ((u.wake 6 p.val).fwd m))
    ∧ (Arrives s p 7 b items → s.counting = true → s.fh.ports[p].cfg.role = 0 →
        exec (.beamUpload p b) s = .next (State.fwd { u with ofdm := { u.ofdm with stages := u.ofdm.stages ++ items.map fun it =>
          { boundary := u.beamBoundary, first := beAt it 0 2 % 4096, entries := [(List.range 64).map fun a => wireWord it (4 + 4 * a)], cmd := none } } } m))
    ∧ (Arrives s p 5 b items → s.counting = true → exec (.burstDirective p b) s = .next (items.foldl (fun (v : State) it => v.burstItem p m it) u)
        ∧ ∀ (v : State) it, beAt it 2 3 < 9830400 → let due : Tick := v.fullFrame m.frame * frameTicks + (beAt it 2 3 : Nat)
          let off : BitVec 32 := BitVec.ofNat 32 (beAt it 8 4)
          let ps : BitVec 64 := BitVec.ofNat 64 (beAt it 16 8)
          let tx : BurstTxPar := { path := ⟨byteAt it 5 % 64, by omega⟩, nsym := byteAt it 0 % 4 + 1, att := BitVec.ofNat 8 (byteAt it 6), pwr := BitVec.ofNat 8 (byteAt it 7), off := off, user := BitVec.ofNat 16 (beAt it 12 2) }
          v.window 5 due = none →
            (byteAt it 0 < 128 → v.burstTxRefusal tx = none → Fits v [burstTxEvent tx due] → v.burstItem p m it = v.accept (.sarfaip p.val m.tag) none [burstTxEvent tx due])
            ∧ (128 ≤ byteAt it 0 → v.burstRxRefusal ps (beAt it 12 2) off = none → let e := burstRxEvent ps (byteAt it 0 % 4 + 1) (beAt it 12 2) off m.tag due
                Fits v [e] → v.burstItem p m it = v.accept (.sarfaip p.val m.tag) none [e]))
    ∧ (∀ k, s.counting = true → s.ofdm.carriers[m.car].cfg = some k → u.outageAt m.car (s.slotTick m k) = false → m.slot < k.slots →
      (∀ (c : Instr) (f : State → Bytes → Bool × State),
        (c = .cPlaneSections p b ∧ Arrives s p 1 b items ∧ f = (fun v it => v.cSection p m k true it))
          ∨ (c = .soundingDirective p b ∧ Arrives s p 4 b items ∧ f = (fun v it => v.soundingItem p m k true it))
          ∨ (c = .weightBlocks p b ∧ Arrives s p 6 b items ∧ f = (fun v it => v.cBlock p m k true it)) →
        let r := itemwise f items u
        (u.heldBytes + b.length ≤ 1048576 → exec c s = .next (tookItems r m))
        ∧ (1048576 < u.heldBytes + b.length → r.1 = false → exec c s = .next r.2)
        ∧ (1048576 < u.heldBytes + b.length → r.1 = true → exec c s = .next (State.fwd ({ u with fh := { u.fh with ports := r.2.fh.ports } }.rx p .buf) m)))
      ∧ (Arrives s p 3 b items → let rs := items.map hintRange
          let t := s.slotTick m k
          s.ym.now < t → (∀ r ∈ rs, (∀ y ∈ r.2.2, y.1 < (if m.ul then k.ulLayers.toNat else k.dlLayers.toNat)) ∧ distinct (r.2.2.map fun y => y.2) = true ∧ 0 < r.2.1 ∧ r.1 + r.2.1 ≤ k.nRb) →
          s.window 3 t = none → u.heldBytes + b.length ≤ 1048576 → exec (.scheduleHint p b) s = .next ((u.hintAccept { carrier := m.car, ul := m.ul, target := t, ranges := rs } []).fwd m))
      ∧ (Arrives s p 2 b items → let sym := s.slotTick m k + symStart k.scs30 m.sym
          let us := items.map usecOf
          let prbs := us.flatMap fun v => (List.range v.2.1.length).map fun i => v.1 + i
          m.ul = false → m.layer < k.dlLayers.toNat → m.sym < 14 → (∀ v ∈ us, v.2.1 ≠ [] ∧ v.1 + v.2.1.length ≤ k.nRb) → distinct prbs = true →
          (∀ q ∈ prbs, q ∉ s.delivered m.car m.layer sym) → s.window 0 sym = none → (s.fh.dlData.map fun (d : DlData) => d.size).sum + b.length ≤ s.dlShare →
          ∃ ds : List DlData, exec (.uPlaneData p b) s = .next (
              let v := u.modCarrier m.car fun x => { x with count := { x.count with decompSat := satAdd x.count.decompSat (us.map fun v => v.2.2).sum } }
              State.fwd { v with fh := { v.fh with dlData := v.fh.dlData ++ ds } } m)
            ∧ ds.map (fun d => (d.carrier, d.layer, d.sym, d.prb, d.port)) = us.map (fun v => (m.car, m.layer, sym, v.1, p.val))
            ∧ (items ≠ [] → (ds.map fun d => d.size).sum = b.length)
            ∧ ds.map (fun d => d.vals) = us.map (fun v => v.2.1.map fun r => r.map fun z => (BitVec.ofInt 16 z.1, BitVec.ofInt 16 z.2))))
    ∧ (∀ (v : State) k it, let x := v.sectionOf p m k it
        v.sectionFits x k = true → v.ym.air ≠ .running → v.window (if m.ul then 2 else 1) (x.slot + symStart k.scs30 (min x.symFirst 13)) = none → (∀ l, x.source ≠ .baseband l) → Fits v (x.events k) →
        v.cSection p m k true it = (true,
          let w := State.accept { v with ofdm := { v.ofdm with nextId := v.ofdm.nextId + 1 } } (.sarfaip p.val m.tag) none (x.events k)
          let w : State := { w with ofdm := { w.ofdm with sections := w.ofdm.sections ++ [{ x with group := v.ym.nextId }] } }
          (if x.fallback then w.modCarrier x.carrier fun y => { y with count := { y.count with srcDenied := satInc y.count.srcDenied } } else w).claimSection { x with group := v.ym.nextId }))
    ∧ (∀ (v : State) k it, let x := v.occasionOf m k it
        x.valid k = true → (∀ y ∈ v.ofdm.occasions, y.clashes x = false) → v.window 4 (x.slot + symStart k.scs30 x.sym0) = none →
        let evs : List NewEv := (List.range x.nsym).map fun i =>
          { kind := .sounding, due := x.slot + symStart k.scs30 (x.sym0 + i), res := { cls := 4, idx := m.car.val }, body := .sounding x.id (x.sym0 + i) (symLen k.scs30 (x.sym0 + i)) }
        Fits v evs → v.soundingItem p m k true it = (true, State.accept { v with ofdm := { v.ofdm with
          occasions := v.ofdm.occasions ++ [{ x with group := v.ym.nextId }], nextId := v.ofdm.nextId + 1 } } (.sarfaip p.val m.tag) none evs))
    ∧ (∀ (v : State) k it, let w := wblockOf (it.drop 4)
        let slot := v.slotTick m k
        w.grp < k.groups → v.ym.air ≠ .running → w.layer0 + w.layers.length ≤ (if m.ul then k.ulLayers.toNat else k.dlLayers.toNat) →
        (∀ o ∈ v.fh.openSecs, ¬ (o.sec.carrier = m.car ∧ o.sec.ul = m.ul ∧ o.sec.slot = slot ∧ o.sec.secId = beAt it 0 2)) →
        (∀ x ∈ v.ofdm.sections, ¬ (x.carrier = m.car ∧ x.ul = m.ul ∧ x.slot = slot ∧ x.secId = beAt it 0 2)) →
        v.window (if m.ul then 2 else 1) slot ≠ some .early → v.window (if m.ul then 2 else 1) (slot + symStart k.scs30 13) ≠ some .late →
        v.heldBytes + it.length ≤ 1048576 →
        v.cBlock p m k true it = (true, { v with fh := { v.fh with held := v.fh.held ++ [{ carrier := m.car, ul := m.ul, slot := slot, secId := beAt it 0 2, port := p.val, block := w }] } }))

/-- R279, R281, R283 to R285, R292, R302, R305, R308 to R312, R314: the fronthaul's commands, frames at a port, delay measurement, egress, and the states of a
port. -/
def Obligations.FronthaulPorts : Prop :=
  ∀ (s : State) (n : Fin 8),
    (∀ (c : Cmd) (x : Slot), Served s c 0x50 x → (pf x.payload 0 0 3).toFin = n → let k := portCfgOf x.payload
      let old := s.fh.ports[n].cfg
      s.portBad n k = false → (s.isUlPort n = true → k.fixed = old.fixed) →
      (s.mode.cur = .bringup → k.speed = 0 ∨ (k.speed = 1 ∧ k.role = 0 ∧ ∀ m : Fin 8, m ≠ n → s.fh.ports[m].st = .disabled)) →
      ((k.speed = old.speed ∧ k.fec = old.fec ∧ k.laneList = old.laneList) →
        exec (.fhPortSet c) s = .next (((s.modPort n fun p => { p with cfg := k }).reBackup n old k).complete c.ref .ok))
      ∧ (¬ (k.speed = old.speed ∧ k.fec = old.fec ∧ k.laneList = old.laneList) → let u := ((s.lanesDown n).modPort n fun p => { p with cfg := k }).reBackup n old k
          let st : PortState := if k.speed = 0 then .disabled else .training
          (u.fh.ports[n].st ≠ st → exec (.fhPortSet c) s = .next (((u.modPort n fun p => { p with st := st }).postLink n 1 0).complete c.ref .ok))
          ∧ (u.fh.ports[n].st = st → exec (.fhPortSet c) s = .next ((u.modPort n fun p => { p with st := st }).complete c.ref .ok))))
    ∧ (∀ (c : Cmd) (x : Slot) i, Served s c 0x51 x → toFin 6 (pf x.payload 0 0 3).toNat = some i →
      let o : BitVec 16 := pf x.payload 2 0 16
      let cl : BitVec 16 := pf x.payload 4 0 16
      o ≠ 0 → o.toNat ≤ 10000 → closeMin i.val s.hops ≤ cl.toNat → cl.toNat < o.toNat →
      exec (.fhWindowSet c) s = .next ({ s with fh := { s.fh with windows := vset s.fh.windows i (o, cl) } }.complete c.ref .ok))
    ∧ (∀ (f : Bytes) (corr unc o : Nat), s.receiving n = true → leBytes 4 (crc32 (f.take (f.length - 4))).toNat = f.drop (f.length - 4) →
      f.length ≤ s.fh.ports[n].cfg.maxFrame.toNat → s.fh.ports[n].cfg.accepts f = some o →
      let u := s.cnt n fun c => { c with fecCorr := satAdd c.fecCorr corr, fecUncorr := satAdd c.fecUncorr unc }
      let u := u.cnt n fun c => { c with rxBytes := c.rxBytes + BitVec.ofNat 64 f.length, rxFrames := satInc c.rxFrames }
      let b := (f.take (f.length - 4)).drop (o + 2)
      (beAt f o 2 = 0x88F7 → exec (.ethFrameReceive n f corr unc) s = .next (u.ptpFrame n (BitVec.ofNat 48 (beAt f 0 6)) b))
      ∧ (beAt f o 2 = 0xAEFE → s.fh.ports[n].cfg.role = 1 → exec (.ethFrameReceive n f corr unc) s = .next (u.hitchFrame n b))
      ∧ (beAt f o 2 = 0xAEFE → s.fh.ports[n].cfg.role ≠ 1 → exec (.ethFrameReceive n f corr unc) s = .next (State.ecpri n (BitVec.ofNat 48 (beAt f 6 6)) f.length b u))
      ∧ (beAt f o 2 ≠ 0xAEFE → beAt f o 2 ≠ 0x88F7 → exec (.ethFrameReceive n f corr unc) s = .next (u.rx n .uncl)))
    ∧ (∀ (src : BitVec 48) (b : Bytes), s.takesSar n = true → byteAt b 0 / 16 = 1 → byteAt b 1 = 5 → 20 ≤ beAt b 2 2 → b.length = 4 + beAt b 2 2 →
      let id : BitVec 8 := BitVec.ofNat 8 (byteAt b 4)
      let rest := s.fh.delays.filter fun (d : DelayReq) => !(d.port == n.val && d.id == id)
      (byteAt b 5 = 0 → exec (.delayRequest n src b) s = .next (s.delayResponse n src id s.tbCount))
      ∧ (byteAt b 5 = 1 → exec (.delayRequest n src b) s = .next { s with fh := { s.fh with delays := rest ++ [{ port := n.val, id := id, stamp := s.tbCount, fin := s.dp + 9830400 }] } })
      ∧ (∀ d, byteAt b 5 = 5 → (s.fh.delays.find? fun d => d.port == n.val && d.id == id && decide (s.dp ≤ d.fin)) = some d →
          exec (.delayFollowUp n src b) s = .next (State.delayResponse { s with fh := { s.fh with delays := rest } } n src id d.stamp)))
    ∧ exec (.followUpTimeout n) s = .next { s with fh := { s.fh with delays := s.fh.delays.filter fun (d : DelayReq) => !(d.port == n.val && decide (d.fin ≤ s.dp)) } }
    ∧ (∀ (i : Nat) (h : HeldBlock) k, s.fh.held[i]? = some h → s.ofdm.carriers[h.carrier].cfg = some k → toFin 8 h.port = some n → s.counting = true →
        s.window (if h.ul then 2 else 1) (h.slot + symStart k.scs30 13) = some .late →
        exec (.orphanBlockTimeout i) s = .next (State.rx { s with fh := { s.fh with held := s.fh.held.eraseIdx i } } n .orphan))
    ∧ (∀ (i : Nat) (h : HeldBlock), s.fh.held[i]? = some h → s.ofdm.carriers[h.carrier].cfg = none → toFin 8 h.port = some n →
        exec (.orphanBlockTimeout i) s = .next (State.rx { s with fh := { s.fh with held := s.fh.held.eraseIdx i } } n .orphan))
    ∧ (∀ (sym : Tick) (raw : List AdcIn) k x l xs, s.ofdm.carriers[n].cfg = some k → s.ulSections n k sym = (x, l) :: xs → s.chain = none → sym + symLen k.scs30 l ≤ s.ym.now →
        let secs := x :: xs.map fun y => y.1
        let v := secs.foldl (fun (v : State) y => v.settleSection y k) s
        let ramp := v.ulRamp secs k
        let g := v.rxGrid n k l sym ramp raw
        let u := (v.addSats n (v.symbolSats n k l sym ramp raw)).counted n (sym + symLen k.scs30 l)
        let val (ly : Nat) (y : Nat × Section × Nat × Nat) (sc : Nat) := cround (u.combineSum y.2.1 k g y.2.2.1 y.2.2.2 ly y.1 sc) (15 + k.combShift.toNat)
        let sat := elementSats ((layersOf secs).map fun ly => (ly, (layerPrbs secs k ly).map fun y => (y.1, (List.range 12).map (val ly y))))
        exec (.ulEgress n sym raw) s = .next ((layersOf secs).foldl (fun (v : State) ly => v.egressLayer n k ly sym l ((layerPrbs secs k ly).map fun y =>
            (y.1, (List.range 12).map fun sc => (val ly y sc).1)))
          ((u.modCarrier n fun y => { y with count := { y.count with combSat := satAdd y.count.combSat sat } }).ulTaken ((x, l) :: xs))))
    ∧ (∀ d : Nat, (s.fh.ports[n].st = .training ∨ s.fh.ports[n].st = .failed) → s.pwr.st ≠ .deep → (s.pwr.st = .nap → s.pwr.wakeCfg.getLsbD (16 + n.val) = true) → (∀ l ∈ s.fh.ports[n].cfg.laneList, s.fh.lanesRetired.getLsbD l = false) →
        exec (.portUp n d) s = .next ((s.modPort n fun p => { p with st := .up, upSince := s.dp, deskew := d }).postLink n 2 0))
    ∧ (∀ (cause : Fin 3) (lane : Fin 32), s.fh.ports[n].st = .up → let ls := s.fh.ports[n].cfg.laneList
        let l := if cause = 0 ∧ lane.val ∈ ls then lane.val else ls.headD 0
        exec (.portFailed n cause lane) s = .next (((((s.lanesDown n).modPort n fun p => { p with st := .failed, count := { p.count with failures := satInc p.count.failures } }).postLink n (3 + cause.val) 0).raiseFault
          .portFailed { cls := 9, idx := 0x200 + l }).failover n))
    ∧ (let left (v : State) : Prop := ∃ c : Fin 8, v.ofdm.carriers[c].away n ≠ []
      let back := (List.finRange 8).foldl (fun (t : State) c => t.modCarrier c fun x => x.takeHome n (s.returning n c)) s
      s.fh.ports[n].st = .up → s.fh.ports[n].cfg.revert = true → s.fh.ports[n].onBackup = true → s.fh.ports[n].upSince + s.fh.ports[n].cfg.holdoff.toNat * 98304000 ≤ s.dp →
      (¬ left s ∨ ∃ c : Fin 8, s.returning n c ≠ []) →
      ∃ stays : Bool, (stays = true ↔ left back)
        ∧ exec (.portRevert n) s = .next ((back.modPort n fun p => { p with onBackup := stays }).postLink n 8 s.fh.ports[n].cfg.backup.toNat))

namespace Sys2Proof.Claims

open Sys2Proof.Machine

/-- A hitch message of a kind with a body of at least `len` bytes is received on a hitch port of the chain (R319). -/
def Hears (s : State) (p : Fin 8) (kind len : Nat) (b : Bytes) : Prop :=
  s.receiving p = true ∧ s.fh.ports[p].cfg.role = 1 ∧ byteAt b 0 = 0x10 + kind ∧ 8 + len ≤ b.length ∧ (s.isUp p = true ∨ s.isDown p = true)

/-- A message from the side of D0 reaches a member of an array. -/
def FromAbove (s : State) (p : Fin 8) (kind len : Nat) (b : Bytes) : Prop := Hears s p kind len b ∧ s.hitchMember = true ∧ s.isUp p = true

/-- A message from the side away from D0 reaches a device of an array. -/
def FromBelow (s : State) (p : Fin 8) (kind len : Nat) (b : Bytes) : Prop := Hears s p kind len b ∧ s.mode.cur = .array ∧ s.isDown p = true

/-- A message that came from above goes on down the chain. -/
def onward (s : State) (f : Nat → State) : State := match s.downPort with | some d => f d | none => s

end Sys2Proof.Claims

/-- R316, R317, R319, R321, R322, R324, R325, R334, R335: the chain's configuration, its time, its alignment, forwarding, keepalives and its membership. The
log entry on the hitch messages names what of their layout is the model's. -/
def Obligations.HitchChain : Prop :=
  ∀ (s : State),
    (∀ (c : Cmd) (x : Slot), Served s c 0x58 x → let p := x.payload
      let k : HitCfg := { dev := (pf p 0 0 3).toNat, ndev := (pf p 1 0 4).toNat, upEn := pb p 2 7, upPort := pf p 2 0 3, downEn := pb p 3 7, downPort := pf p 3 0 3 }
      2 ≤ k.ndev → k.ndev ≤ 8 → k.dev < k.ndev → (k.upEn = true ↔ k.dev ≠ 0) → (k.downEn = true ↔ k.dev + 1 ≠ k.ndev) →
      (k.upEn = true → k.downEn = true → k.upPort ≠ k.downPort) →
      (k.upEn = true → s.fh.ports[k.upPort.toFin].cfg.role = 1 ∧ s.fh.ports[k.upPort.toFin].cfg.speed = 6) →
      (k.downEn = true → s.fh.ports[k.downPort.toFin].cfg.role = 1 ∧ s.fh.ports[k.downPort.toFin].cfg.speed = 6) → s.mode.cur ≠ .array → s.inTransition = false →
      exec (.hitSet c) s = .next (State.complete { s with hit := { s.hit with cfg := some k } } c.ref .ok))
    ∧ (∀ d, s.downPort = some d → s.mode.cur = .array → s.counting = true → (∀ t, s.hit.timeOut = some t → t + 983040 ≤ s.dp) →
        exec .hitchTimeSend s = .next (let w := airWord s.ym.now
          State.hitSend { s with hit := { s.hit with timeOut := some s.dp } } d 1 "TIME" 2 0 0 (w.extractLsb' 32 32).toNat (beBytes 8 w.toNat ++ beBytes 4 s.ym.offset.toNat)))
    ∧ (∀ (p : Fin 8) (b : Bytes), let m := hitMsgOf b
      (∀ a, FromAbove s p 1 12 b → let off : BitVec 32 := BitVec.ofNat 32 (beAt m.body 8 4)
        let u := if off = s.ym.offset then s else (s.writeOffset off 0xFFFFFFFF).2
        exec (.hitchTime p b a) s = .next (u.hitSend p.val 2 "TIME_ECHO" 2 0 0 m.frame (m.body.take 12 ++ beBytes 8 (airWord (u.stampAir a)).toNat ++ beBytes 8 (airWord u.ym.now).toNat)))
      ∧ (∀ a, FromAbove s p 2 28 b → let w (i : Nat) : Tick := s.ofAirWord (BitVec.ofNat 64 (beAt m.body i 8))
        exec (.hitchTimeEcho p b a) s = .next (s.hitchOffset (Q.make ((w 0 - w 12 + (s.stampAir a - w 20)) * 3125) 6144)))
      ∧ (s.isUp p = true → s.hit.timeLock = true → s.hit.timeAt + 9830400 ≤ s.dp → let u := State.postArray { s with hit := { s.hit with timeLock := false, good := 0 } } 2 s.dev
        exec (.hitchTimeLoss p) s = .next (if u.hitchMember ∧ u.time.tb[(0 : Fin 2)].st = .locked then u.enterServo 0 .track else u))
      ∧ (FromAbove s p 10 40 b → byteAt m.body 0 / 16 = 0 → let q : BitVec 136 := BitVec.ofNat 136 (beAt m.body 20 17)
        let at_ := s.ofAirWord (BitVec.ofNat 32 (ofLe ((m.body.drop 4).take 4)) ++ BitVec.ofNat 32 (ofLe ((m.body.drop 8).take 3)))
        ((blk q 28 3).toNat = s.dev → exec (.meas p b) s = .next (State.alignTry { s with hit := { s.hit with measD0 := (blk q 31 6, at_) :: s.hit.measD0.take 15 } }))
        ∧ ((blk q 28 3).toNat ≠ s.dev → exec (.meas p b) s = .next (onward s fun d => s.hitSend d 10 "MEAS" 2 0 0 m.frame m.body)))
      ∧ (FromAbove s p 3 4 b → exec (.hitchFwd p b) s = .next ((onward s fun d => s.hitSend d 3 "FWD" 2 0 0 m.frame m.body).fwdWalk p 64 m.body))
      ∧ (s.fh.ports[p].st = .up → s.fh.ports[p].cfg.role = 1 → (∀ t, s.hit.aliveOut[p] = some t → t + 98304 ≤ s.dp) →
        exec (.keepaliveSend p) s = .next (State.hitSend { s with hit := { s.hit with aliveOut := vset s.hit.aliveOut p (some s.dp) } } p.val 11 "KEEPALIVE" 2 0 0 s.frameNow [s.seenMembers]))
      ∧ (Hears s p 11 1 b → let map : BitVec 8 := BitVec.ofNat 8 (byteAt m.body 0)
        let h : Hitch := { s.hit with lastAlive := vset s.hit.lastAlive p s.dp }
        (s.isUp p = true → exec (.keepalive p b) s = .next { s with hit := { h with upMap := some map, members := if s.hitchMember && map.getLsbD s.dev then map else h.members } })
        ∧ (s.isUp p = false → exec (.keepalive p b) s = .next { s with hit := { h with belowMap := some map } })))
    ∧ (∀ d : Fin 8, s.mode.cur = .array →
      (d.val = s.dev → s.hit.cutOff = false → s.isCutOff = true → exec (.memberLost d) s = .next (State.postArray { s with hit := { s.hit with cutOff := true } } 5 s.dev))
      ∧ (s.dev < d.val → s.seenMembers.getLsbD d.val = true → s.isLost d.val = true →
        let gone := (List.range 8).filter fun i => decide (d.val ≤ i) && s.seenMembers.getLsbD i
        let mask : BitVec 8 := BitVec.ofNat 8 (gone.foldl (fun a i => a + 2 ^ i) 0)
        let old : BitVec 8 := match s.hit.leaving with | some l => l.1 | none => 0
        let u : State := { s with hit := { s.hit with leaving := some (old ||| mask, ceilTo 983040 (s.ym.now + 1)) } }
        (s.dev ≠ 0 → exec (.memberLost d) s = .next u)
        ∧ (s.dev = 0 → exec (.memberLost d) s = .next ((gone.foldl (fun (v : State) i => v.postArray 4 i) u).raiseFault .memberLost { cls := 9, idx := 0x700 + d.val }))))
    ∧ (∀ mask t, s.hit.leaving = some (mask, t) → t ≤ s.ym.now →
        let u : State := { s with hit := { s.hit with members := s.hit.members &&& ~~~mask, leaving := none, belowMap := none } }
        let u := (List.finRange 8).foldl (fun (v : State) c =>
          match (v.scrapCarrier c).ofdm.carriers[c].cfg with
          | some k => if k.srcMask.getLsbD 2 then (v.scrapCarrier c).firstUse c else v.scrapCarrier c
          | none => v.scrapCarrier c) u
        exec .membershipChange s = .next (u.hit.groups.foldl (fun (v : State) (g : ChainGroup) => v.chainStep g.carrier g.ul g.slot g.grp) u))

/-- R327 to R333: partial sums travel up the chain and add; the stages of the distributed weights follow their messages, and D0's COMMIT says what every
member serves. -/
def Obligations.HitchSumsAndWeights : Prop :=
  ∀ (s : State),
    (∀ (p : Fin 8) (b : Bytes), let m := hitMsgOf b
      let slot := s.hitSlotOf m
      (∀ k l, FromBelow s p 4 8 b → s.ofdm.carriers[m.car].cfg = some k → let num := beAt m.body 4 2 / 128
        8 + (num * 340 + 7) / 8 ≤ m.body.length → psumPrbs (m.body.drop 8) num = some l →
        (s.ym.now ≤ s.psumTime s.dev (s.psumSym m k).2 → exec (.ulPsum p b) s = .next { s with hit := { s.hit with psums := s.hit.psums ++
          [{ carrier := m.car, layer := byteAt m.body 0 / 8, sym := (s.psumSym m k).1, prb := beAt m.body 2 2 / 128, vals := l, miss := (byteAt m.body 0).testBit 2 }] } })
        ∧ (s.psumTime s.dev (s.psumSym m k).2 < s.ym.now → exec (.ulPsum p b) s = .next { s with hit := { s.hit with hopLate := satInc s.hit.hopLate } }))
      ∧ (FromBelow s p 9 0 b → let u : State := { s with hit := { s.hit with sndDone := (s.hit.sndDone.filter fun x => x.1 != (m.car.val, slot)) ++ [((m.car.val, slot), m.body)] } }
        exec (.sndDone p b) s = .next (if (m.car.val, slot) ∈ s.hit.sndOwn then { u with ofdm := { u.ofdm with sndNow := u.ofdm.sndNow ++ [(m.car, slot)] } } else u))
      ∧ (∀ g, FromBelow s p 5 4 b → s.chainGroup? m.car m.ul slot (beAt m.body 0 2) = some g → g.map.length = byteAt m.body 2 → 4 + 6 * byteAt m.body 2 * byteAt m.body 2 ≤ m.body.length →
        exec (.gram p b) s = .next ((s.modGroup g fun x => { x with below := some (gramOf m.body) }).chainStep m.car m.ul slot (beAt m.body 0 2)))
      ∧ (FromAbove s p 6 4 b → let l := byteAt m.body 2
        4 + 4 * l * l ≤ m.body.length → let u := onward s fun d => s.hitSlot d 6 "SOLVE" m.ul m.car slot m.body
        (∀ g, u.chainGroup? m.car m.ul slot (beAt m.body 0 2) = some g → g.map.length = l → g.solved = none →
          exec (.solve p b) s = .next ((u.modGroup g fun x => { x with solved := some ((byteAt m.body 3 : Int) - 128, (List.range (l * l)).map fun i => BitVec.ofNat 32 (beAt m.body (4 + 4 * i) 4)) }).chainJob g 2))
        ∧ (u.chainGroup? m.car m.ul slot (beAt m.body 0 2) = none → exec (.solve p b) s = .next u))
      ∧ (FromBelow s p 7 35 b → exec (.ready p b) s = .next
        ((s.hit.groups.filter fun (g : ChainGroup) => g.carrier == m.car && g.ul == m.ul && g.slot == slot && (ofBe (m.body.take 35)).testBit g.grp).foldl
          (fun (v : State) (g : ChainGroup) => (v.modGroup g fun x => { x with readyBelow := true }).chainStep g.carrier g.ul g.slot g.grp) s))
      ∧ (FromAbove s p 8 4 b → let u := onward s fun d => s.hitSlot d 8 "COMMIT" m.ul m.car slot m.body
        let grp := beAt m.body 0 2
        ∀ x a d r w, u.claim? m.car m.ul slot grp = some x → x.how = .waiting a d r w →
          (∀ v, byteAt m.body 2 = 0 → ((u.chainGroup? m.car m.ul slot grp).bind fun g => g.set) = some v → exec (.commit p b) s = .next ((u.publish { x with cmds := [] } v).claimCmds x true))
          ∧ (∀ v, byteAt m.body 2 = 1 → u.newest m.car m.ul grp none = some v → exec (.commit p b) s = .next ((u.setClaim { x with how := .served v, cmds := [] }).claimCmds x false))
          ∧ (byteAt m.body 2 = 2 → exec (.commit p b) s = .next ((u.setClaim { x with how := .beam, cmds := [] }).claimCmds x false))))
    ∧ (∀ (car : Fin 8) (sym : Tick) (raw : List AdcIn) k x l xs, s.ofdm.carriers[car].cfg = some k → s.ulSections car k sym = (x, l) :: xs → s.chain ≠ none →
        s.psumTime s.dev (sym + symLen k.scs30 l) ≤ s.ym.now →
        let secs := x :: xs.map fun y => y.1
        let v := secs.foldl (fun (v : State) y => v.settleSection y k) s
        let ramp := v.ulRamp secs k
        let g := v.rxGrid car k l sym ramp raw
        let u := ((v.addSats car (v.symbolSats car k l sym ramp raw)).counted car (sym + symLen k.scs30 l)).ulTaken ((x, l) :: xs)
        let mine := u.hit.psums.filter fun (p : PSum) => p.carrier == car && p.sym == sym
        let u : State := { u with hit := { u.hit with psums := u.hit.psums.filter fun (p : PSum) => !(p.carrier == car && p.sym == sym) } }
        let below (ly : Nat) := mine.filter fun (p : PSum) => p.layer == ly
        let lost (ly : Nat) : Bool := u.downPort.isSome && (layerPrbs secs k ly).any fun y => (psumAt (below ly) y.1).isNone
        let miss (ly : Nat) : Bool := lost ly || (below ly).any fun p => p.miss
        let sums (ly : Nat) := (layerPrbs secs k ly).map fun y => (y.1, (List.range 12).map fun sc =>
          let v := u.combineSum y.2.1 k g y.2.2.1 y.2.2.2 ly y.1 sc
          let w := (((psumAt (below ly) y.1).getD [])[sc]?).getD (0, 0)
          (sat24 (rdiv v.1 (2 ^ 15)) + w.1, sat24 (rdiv v.2 (2 ^ 15)) + w.2))
        let t := (layersOf secs).foldl (fun (v : State) ly => if (if v.dev = 0 then miss ly else lost ly) then v.modHit fun h => { h with psumMiss := satInc h.psumMiss } else v) u
        (∀ p, t.upPort = some p → exec (.ulPsumSend car sym raw) s = .next ((layersOf secs).foldl (fun (v : State) ly =>
          v.psumSend p car sym l ly (miss ly) ((sums ly).map fun z => (z.1, z.2.map fun (v : Int × Int) => (sat24 v.1, sat24 v.2)))) t))
        ∧ (t.upPort = none →
          let res (ly : Nat) := (sums ly).map fun y => (y.1, y.2.map fun v => cround v k.combShift.toNat)
          exec (.ulPsumSend car sym raw) s = .next ((layersOf secs).foldl (fun (v : State) ly => v.egressLayer car k ly sym l ((res ly).map fun y => (y.1, y.2.map fun v => v.1)))
            (t.modCarrier car fun y => { y with count := { y.count with combSat := satAdd y.count.combSat (elementSats ((layersOf secs).map fun ly => (ly, res ly))) } }))))
    ∧ (∀ (car : Fin 8) (ul : Bool) (slot : Tick) (grp n : Nat) x od d r, s.chain = some (0, n) → s.claim? car ul slot grp = some x → (car, ul, slot, grp) ∉ s.hit.committed →
        (∀ w, x.how = .waiting od d r (some w) → s.ym.now ≤ d - ((s.members : Int) - 1) * 1180 →
          exec (.commitSend car ul slot grp) s = .next (((if od then s.modWcount car fun n => { n with onDemand := satInc n.onDemand } else s).publish x w).sendCommit x 0))
        ∧ (let late : State := (s.abandonClaim x).modHit fun h => { h with chainFb := satInc h.chainFb }
          (x.how = .waiting od d r none ∧ d - ((s.members : Int) - 1) * 1180 ≤ s.ym.now) ∨ (∃ w, x.how = .waiting od d r (some w) ∧ d - ((s.members : Int) - 1) * 1180 < s.ym.now) →
          exec (.commitSend car ul slot grp) s = .next (late.sendCommit x (((late.claim? car ul slot grp).getD x).code false)))
        ∧ (∀ w, x.how = .served w → exec (.commitSend car ul slot grp) s =
          .next (s.sendCommit x (if (s.chainGroup? car ul slot grp).any (fun g => g.readyOut && decide (w.words = (g.set.map fun v => v.words).getD [])) then 0 else 1)))
        ∧ (x.how = .beam → exec (.commitSend car ul slot grp) s = .next (State.sendCommit { s with hit := { s.hit with chainFb := satInc s.hit.chainFb } } x 2)))
    ∧ (∀ (car : Fin 8) (ul : Bool) (slot : Tick) (grp : Nat) x a d r w, s.claim? car ul slot grp = some x → x.how = .waiting a d r w → s.isMember = true → d ≤ s.ym.now →
        exec (.commitMiss car ul slot grp) s = .next ((State.setClaim { s with hit := { s.hit with commitMiss := satInc s.hit.commitMiss } } { x with how := .beam, cmds := [] }).claimCmds x false))

namespace Sys2Proof.Claims

open Sys2Proof.Machine

/-- One housekeeping converter changes (R498). -/
def hkPut (s : State) (i : Fin 2) (k : HkConv) : State := { s with sup := { s.sup with conv := vmod s.sup.conv i fun _ => k } }

/-- A result takes its channel's comparator (R507): within the window the count goes back to 0; outside it counts, and at PERSIST it trips. -/
def Compares (s : State) (ch : Fin 184) (t : State) : Prop :=
  let h := s.sup.chan[ch]
  let put (f : HkChan → HkChan) : State := { s with sup := { s.sup with chan := vmod s.sup.chan ch f } }
  (h.en = false → t = s)
  ∧ (h.en = true → h.inside ch.val = true → t = put fun y => { y with count := 0 })
  ∧ (h.en = true → h.inside ch.val = false → (h.tripped = true ∨ satInc h.count ≠ h.persist) → t = put fun y => { y with count := satInc h.count })
  ∧ (h.en = true → h.inside ch.val = false → h.tripped = false → satInc h.count = h.persist →
      let u := put fun y => { y with count := satInc h.count, tripped := true }
      let u := if h.mute then (u.cmpTargets ch).foldl (fun (v : State) q => v.capMuted q true false) u else u
      t = if h.event then u.postSup 1 ch.val h.persist.toNat else u)

end Sys2Proof.Claims

/-- R498 to R508, R512, R517: conversions end with their record and comparison; sweeps, spot conversions, trigger pins, calibrations, stops and the power-down
of a converter; the trips that SUP_CLEAR releases. -/
def Obligations.Housekeeping : Prop :=
  ∀ (s : State),
    (∀ (i : Fin 2), let k := s.sup.conv[i]
      (∀ raw o (ch : Fin 184), k.op = some o → o.fin ≤ s.dp → o.ch = ch.val → k.stop = [] → ∃ u, Compares (s.hkRecord ch o.fmt (k.correct o.ch raw) o.samp) ch u ∧
        let v := match o.cmd with | some r => u.complete r .ok ((hkWord o.fmt (k.correct o.ch raw)).setWidth 32) | none => u
        exec (.hkConversionEnd i raw) s = .next ((v.modConv i fun c => { c with
          op := none, idleAt := o.fin, pos := if o.sweep then c.pos + 1 else c.pos, nextAt := if o.sweep then v.dp else c.nextAt }).hkGo i))
      ∧ (k.run = true → k.op = none → k.cal = none → k.list.length ≤ k.pos →
        (k.loop = true → exec (.hkSweepEnd i) s = .next ((hkPut s i { k with pos := 0 }).hkGo i))
        ∧ (k.loop = false → exec (.hkSweepEnd i) s = .next ((hkPut s i { k with run := false, pos := 0 }).hkGo i)))
      ∧ (k.powered = true → k.op = none → k.run = false → k.queue = [] → k.cal = none → k.idleAt + 394 < s.dp → exec (.hkPowerDown i) s = .next (hkPut s i { k with powered := false }))
      ∧ (∀ w rest, k.calWait = w :: rest → k.op = none → s.hkCalReady i = true →
        exec (.hkCalStart i) s = .next (hkPut s i { k with cal := some (w, s.dp + 1179648), calWait := rest, powered := true, pos := if k.loop then 0 else k.pos }))
      ∧ (∀ g o r fin, k.cal = some (some r, fin) → fin ≤ s.dp → let u := hkPut s i { k with cal := none, gain := g, ofs := o, idleAt := s.dp, nextAt := s.dp }
        let other := u.sup.conv[1 - i]
        some r ∉ u.sup.conv[i].calWait → some r ∉ other.calWait → (∀ x, other.cal = some x → x.1 ≠ some r) → exec (.hkCalEnd i g o) s = .next ((u.complete r .ok).hkGo i)))
    ∧ (∀ pin, (∀ i : Fin 2, (if pin then s.sup.conv[i].pin1 else s.sup.conv[i].pin0) = true → s.sup.conv[i].powered = false) →
        exec (.hkTrigPin pin) s = .next ([(0 : Fin 2), 1].foldl (fun (v : State) i =>
          if (if pin then v.sup.conv[i].pin1 else v.sup.conv[i].pin0) then (v.hkTrigger i (v.dp + 394)).2 else v) s))
    ∧ (∀ pin (i : Fin 2), (∀ j : Fin 2, (if pin then s.sup.conv[j].pin1 else s.sup.conv[j].pin0) = true ↔ j = i) → s.sup.conv[i].powered = true →
        ∃ n ≤ 394, exec (.hkTrigPin pin) s = .next ((s.takeFree 16).2.hkTrigger i (s.dp + n)).2)
    ∧ (∀ (c : Cmd) (x : Slot), let p := x.payload
      let i : Fin 2 := (pf p 0 0 1).toFin
      let k := s.sup.conv[i]
      (∀ b, Served s c 0x80 x → c.data = some b → 1 ≤ (pf p 1 0 7).toNat → (pf p 1 0 7).toNat ≤ 64 → pf p 8 0 6 = 0 → k.run = false →
        let es := (List.range (pf p 1 0 7).toNat).map fun j => seqEntry b j
        (∀ e ∈ es, e < 1024 ∧ hkSuits i (e % 256) (BitVec.ofNat 2 (e / 256)) = true) →
        exec (.hkSeqSet c) s = .next ((hkPut s i { k with list := es.map fun e => (e % 256, BitVec.ofNat 2 (e / 256)), pos := 0, loop := pb p 2 0, pin0 := pb p 2 1, pin1 := pb p 2 2 }).finish c.ref .ok))
      ∧ (∀ ch : Fin 184, Served s c 0x81 x → (pf p 0 0 8).toNat = ch.val → (if hkSigned ch.val then ¬ (pf p 4 0 16).toInt < (pf p 2 0 16).toInt else (pf p 2 0 16) ≤ (pf p 4 0 16)) →
        (pb p 1 7 = true → pf p 1 0 4 ≠ 0) → (pb p 1 6 = true → ch.val < 64 ∨ (112 ≤ ch.val ∧ ch.val < 176) ∨ pf p 6 0 8 ≠ 0) → s.sup.chan[ch].tripped = false →
        exec (.hkCmpSet c) s = .next (State.finish { s with sup := { s.sup with chan := vmod s.sup.chan ch fun h =>
          { h with en := pb p 1 7, mute := pb p 1 6, event := pb p 1 5, persist := pf p 1 0 4, lo := pf p 2 0 16, hi := pf p 4 0 16, paddocks := pf p 6 0 8, count := 0 } } } c.ref .ok))
      ∧ (Served s c 0x82 x → pf p 0 2 2 = 1 → x.atBad = false → let a := s.dp + (if k.powered then 123 else 394)
        (x.timed = false → k.list ≠ [] → k.run = false → k.cal = none → exec (.hkTriggerSweep c) s = .next
          ((hkPut s i { k with run := true, pos := 0, nextAt := a, powered := true, upAt := if k.powered then k.upAt else a }).finish c.ref .ok))
        ∧ (x.timed = true → let e : List NewEv := [{ kind := .hkTrigger, due := s.eventDue x .hkTrigger, res := hkRes i, body := .hkSweep i }]
          Fits s e → exec (.hkTriggerSweep c) s = .next (taken s c x none e)))
      ∧ (Served s c 0x82 x → pf p 0 2 2 = 2 → x.atBad = false → hkSuits i (pf p 1 0 8).toNat (pf p 2 0 2) = true →
        (x.timed = false → k.hasPlace = true → exec (.hkTriggerSpot c) s = .next
          (((hkPut s i { k with queue := k.queue ++ [{ ch := (pf p 1 0 8).toNat, fmt := pf p 2 0 2, cmd := some c.ref }] }).setStage c.ref .running).hkGo i))
        ∧ (x.timed = true → let e : List NewEv := [{ kind := .hkTrigger, due := s.eventDue x .hkTrigger, res := hkRes i, body := .hkSpot i (pf p 1 0 8).toNat (pf p 2 0 2) }]
          Fits s e → exec (.hkTriggerSpot c) s = .next (taken s c x none e)))
      ∧ (Served s c 0x82 x → pf p 0 2 2 = 3 →
        (k.run = true → k.op ≠ none → exec (.hkTriggerStop c) s = .next ((hkPut s i { k with stop := k.stop ++ [c.ref] }).setStage c.ref .running))
        ∧ ((k.run = false ∨ k.op = none) → exec (.hkTriggerStop c) s = .next ((hkPut s i { k with run := false, pos := 0 }).finish c.ref .ok)))
      ∧ (Served s c 0x83 x → let is : List (Fin 2) := setBits (pf p 0 0 2)
        is ≠ [] → (s.pwr.st = .active → s.mode.cur ≠ .calibrate → ∀ ch : Fin 184, hkConvOf ch.val ∈ is → s.sup.chan[ch].en = true → s.sup.chan[ch].mute = false) →
        exec (.hkCal c) s = .next ((is.foldl (fun (v : State) i => v.modConv i fun k => { k with calWait := k.calWait ++ [some c.ref] }) s).setStage c.ref .running))
      ∧ (Served s c 0x86 x → pf p 0 0 8 = 1 → ∀ ch : Fin 184, pf p 8 0 184 = 1 <<< ch.val → s.sup.chan[ch].tripped = true → s.sup.chan[ch].inside ch.val = true →
        exec (.supClearTrips c) s = .next ((State.postSup { s with sup := { s.sup with chan := vmod s.sup.chan ch fun h => { h with tripped := false } } } 3 ch.val 0).finish c.ref .ok))
      ∧ (Served s c 0x86 x → pf p 0 0 8 = 1 → pf p 8 0 184 ≠ 0 → (∀ ch : Fin 184, (pf p 8 0 184).getLsbD ch.val = true → s.sup.chan[ch].tripped = false) →
        exec (.supClearTrips c) s = .next (s.finish c.ref .ok)))

/-- R509 to R512, R515 to R518: the outputs' commands, the dwell of a halter output, its compliance alarm and release, the updates of the 32-tick grid. -/
def Obligations.OutputsAndReins : Prop :=
  ∀ (s : State),
    (∀ (c : Cmd) (x : Slot), let p := x.payload
      (∀ is, Served s c 0x85 x → outNamed p = some is →
        (pf p 8 0 3 = 1 → x.atBad = false → (∀ i ∈ is, s.outRetired i = false) → let e : List NewEv := is.map fun i =>
            { kind := .outputSet, due := s.eventDue x .outputSet, res := outRes i, body := .output i.val (pf p 9 0 2) (pf p 10 0 16) false }
          Fits s e → exec (.outSetValue c) s = .next (taken s c x (some (s.eventDue x .outputSet)) e))
        ∧ (pf p 8 0 3 = 4 → x.atBad = false → let e : List NewEv := is.map fun i =>
            { kind := .outputSet, due := s.eventDue x .outputSet, res := outRes i, body := .output i.val 0 0 true }
          Fits s e → exec (.outSetSafe c) s = .next (taken s c x (some (s.eventDue x .outputSet)) e))
        ∧ (pf p 8 0 3 = 2 → ∃ n f, n ≤ 1023 ∧ ((pf p 16 0 16).toNat ≤ 1023 → n = (pf p 16 0 16).toNat ∧ f = s.free)
          ∧ exec (.outSetSlew c) s = .next ((is.foldl (fun (v : State) i => v.modOut i fun o => { o with step := pf p 14 0 16, period := BitVec.ofNat 10 n }) { s with free := f }).finish c.ref .ok))
        ∧ (pf p 8 0 3 = 3 → (pf p 10 0 16) ≤ (pf p 12 0 16) → (s.mode.cur = .calibrate ∨ ∀ i ∈ is, isHalter i = false) →
          ∃ n w f, n ≤ 1023 ∧ 1 ≤ w ∧ w ≤ 3 ∧ ((pf p 16 0 16).toNat ≤ 1023 → n = (pf p 16 0 16).toNat) ∧ (pf p 18 0 2 ≠ 0 → w = (pf p 18 0 2).toNat)
            ∧ ((pf p 16 0 16).toNat ≤ 1023 → pf p 18 0 2 ≠ 0 → f = s.free)
            ∧ exec (.outSetGen c) s = .next ((is.foldl (fun (v : State) i => v.modOut i fun o => { o with
              gen := some { wave := BitVec.ofNat 2 w, lo := pf p 10 0 16, hi := pf p 12 0 16, up := true, first := true, s := BitVec.allOnes 23 } })
              (is.foldl (fun (v : State) i => v.modOut i fun o => { o with step := pf p 14 0 16, period := BitVec.ofNat 10 n }) { s with free := f })).finish c.ref .ok)))
      ∧ (Served s c 0x86 x → pf p 0 0 8 = 2 → pf p 8 0 64 ≠ 0 → pf p 16 0 120 = 0 →
        exec (.supClearCompliance c) s = .next ((((setBits (pf p 8 0 64)).filter fun q => s.sup.out[hbOf q].compliance).foldl (fun (v : State) q =>
          (v.modOut (hbOf q) fun o => let o := { o with compliance := false }; if o.held || o.opSafe then o else o.take true v.dp).postSup 4 q.val 0) s).finish c.ref .ok))
      ∧ (Served s c 0x88 x → ∃ t, exec (.supCfg c) s = .next (State.finish { s with sup := t } c.ref .ok) ∧ t = { s.sup with th := t.th, thCoef := t.thCoef }
        ∧ ∀ m : Fin 8, t.th[m] = { en := pb p m.val 7, pair := pf p m.val 0 3 } ∧ t.thCoef[m] = (pf p (8 + 4 * m.val) 0 16, pf p (10 + 4 * m.val) 0 16)))
    ∧ (∀ (h : Fin 64) t, s.sup.out[hbOf h].dwell = some t → t ≤ s.dp → exec (.halterDwellEnd h) s = .next (s.modOut (hbOf h) fun o => { o with dwell := none, range := o.tgtRange, now := 0 }))
    ∧ (∀ h : Fin 64, s.sup.out[hbOf h].now ≠ 0 → s.sup.out[hbOf h].compliance = false →
        exec (.compliance h) s = .next (((s.modOut (hbOf h) fun o => { o with compliance := true, now := 0 }).capMuted h true false).postSup 2 h.val 0))
    ∧ (let t : Int := if s.counting then s.ym.now else s.dp
      t % 32 = 0 → s.sup.updAt ≠ some s.dp → ∃ u, exec .slewUpdate s = .next { s with sup := { s.sup with out := u, updAt := some s.dp } }
        ∧ ∀ i : Fin 80, u[i] = s.sup.out[i].update (isHalter i) (s.outFree i) t s.dp)
    ∧ (∀ (o : OutCh) (halter : Bool) (t : Int) (dp : Nat), (o.held = false → o.compliance = false → o.opSafe = false → o.dwell = none → (halter = true → o.valued = true) → o.gen = none → o.step = 0 →
        o.update halter true t dp = { o with now := o.tgt })
        ∧ (o.held = false → o.compliance = false → o.opSafe = false → o.dwell = none → (halter = true → o.valued = true) → o.gen = none → o.step ≠ 0 → t % ((o.period.toNat + 1 : Nat) * 32 : Int) = 0 →
          o.update halter true t dp = { o with now := codeStep o.now o.tgt o.step.toNat })
        ∧ (o.compliance = true → o.held = false → o.gen = none → o.update halter true t dp = o))

namespace Sys2Proof.Claims

open Sys2Proof.Machine

/-- A running channel fetches the instruction `op` with the words `ws`, from the program area or from host memory, and nothing of R454's common
checks stops it: no reserved bit is set, and the instruction ends before the last index or is the program's last. -/
def Fetches (s : State) (ch : Fin 16) (words : Option (List (BitVec 64))) (op : ShuOp) (ws : List (BitVec 64)) : Prop :=
  let h := s.shu.chans[ch]
  h.st = .running ∧ h.ending = none ∧ ws.length = op.size ∧ shuOpOf (ws.headD 0) = some op ∧ ws.headD 0 &&& op.reserved = 0
  ∧ (h.pc + op.size ≤ 32767 ∨ (h.pc + op.size = 32768 ∧ (ws.headD 0).getLsbD 59 = true))
  ∧ (if h.prog.getLsbD 63 then
      let k := ((h.prog.extractLsb' 0 40).toNat - 0x2000000) / 8 + h.pc
      k + op.size ≤ 32768 ∧ ∀ j < op.size, cellGet (k + j) s.shu.prog = ws[j]?
    else ∃ l, words = some l ∧ ws = l.take op.size)

/-- One channel changes to `k`. -/
def chanPut (s : State) (ch : Fin 16) (k : ShuChan) : State := { s with shu := { s.shu with chans := vmod s.shu.chans ch fun _ => k } }

end Sys2Proof.Claims

/-- R450, R457, R462 to R466, R469: the Shunter's commands, its doorbells and its captures. -/
def Obligations.ShunterCommands : Prop :=
  ∀ (s : State),
    (∀ (c : Cmd) (x : Slot), let p := x.payload
      (Served s c 0x70 x → let i : Fin 16 := (pf p 0 0 4).toFin
        let prog : BitVec 64 := pf p 8 0 64
        let wb : BitVec 64 := pf p 16 0 64
        prog.extractLsb' 0 3 = 0 → (prog.getLsbD 63 = true → inProgArea prog = true) → wb.extractLsb' 0 3 = 0 → wb.getLsbD 63 = false → s.shu.chans[i].st = .idle →
        ∃ tick : Tick, (s.counting = true → tick = s.ym.now) ∧ exec (.shuStart c) s = .next
          ((chanPut (s.takeFree 64).2 i { ShuChan.reset with st := .running, prog := prog, wb := wb, tick := tick, cmd := some c.ref }).setStage c.ref .running))
      ∧ (Served s c 0x71 x → let busy := (setBits (pf p 0 0 16)).filter fun i => s.shu.chans[i].st != .idle
        (busy = [] → exec (.shuStop c) s = .next (s.finish c.ref .ok))
        ∧ (busy ≠ [] → exec (.shuStop c) s = .next ((busy.foldl (fun (v : State) i => v.modChan i fun h => { h.halt with stopCmds := c.ref :: h.stopCmds }) s).setStage c.ref .running)))
      ∧ (∀ b, Served s c 0x72 x → c.data = some b → let off := (pf p 0 0 32).toNat
        let len := (pf p 4 0 32).toNat
        off % 8 = 0 → len % 8 = 0 → pf p 8 0 3 = 0 → 0 < len → off + len ≤ 262144 →
        (∀ i : Fin 16, s.shu.chans[i].st = .idle ∨ inProgArea s.shu.chans[i].prog = false ∨ (s.shu.chans[i].prog.extractLsb' 0 40).toNat - 0x2000000 < off
          ∨ off + len ≤ (s.shu.chans[i].prog.extractLsb' 0 40).toNat - 0x2000000) →
        exec (.shuProgLoad c) s = .next (State.finish { s with shu := { s.shu with prog := cellPuts (off / 8) (words64 (b.take len)) s.shu.prog } } c.ref .ok))
      ∧ (Served s c 0x73 x → let q : Fin 64 := (pf p 0 0 6).toFin
        let src := (pf p 1 0 1).toNat
        let first := (pf p 3 0 4).toNat
        let n := (pf p 4 0 5).toNat
        first + n ≤ 16 → 0 < n → x.atBad = false → s.inActive q = true → (src = 0 → s.obsOf q ≠ none) →
        let len := (cdiv ((n : Int) * 268435456) s.conv.fcN.toNat).toNat
        let e : List NewEv := [{ kind := .obsCapture, due := s.eventDue x .obsCapture, res := if src = 0 then { cls := 5, idx := (s.obsOf q).getD 0 } else { cls := 1, idx := q.val }
                                 body := .shuCapture q src first n len (pf p 2 0 6).toNat }]
        Fits s e → exec (.shuCapture c) s = .next (taken s c x none e))
      ∧ (Served s c 0x75 x → let set : BitVec 64 := pf p 0 0 64
        exec (.shuFlag c) s = .next (State.finish { s with shu := { s.shu with
          flags := (s.shu.flags &&& ~~~(pf p 8 0 64 &&& ~~~s.shu.setNow)) ||| set, setNow := s.shu.setNow ||| set
          rose := s.shu.rose ||| (set &&& ~~~s.shu.flags) } } c.ref .ok)))
    ∧ (∀ ch : Fin 16, exec (.shuDb ch) s = .next ((chanPut s ch { s.shu.chans[ch] with db := satInc s.shu.chans[ch].db }).wake 7))
    ∧ (∀ (slot : Nat) (samples : List (BitVec 32)) k u, (s.lin.caps.find? fun k => decide (k.fin ≤ s.dp) && (match k.shu with | some u => 48 + u.first == slot | none => false)) = some k →
        k.shu = some u → samples.length = 16384 * u.nslot →
        exec (.shuCaptureComplete slot samples) s = .next (State.complete { s with
          lin := { s.lin with caps := s.lin.caps.erase k }
          shu := { s.shu with caps := cellPuts slot ((List.range u.nslot).map fun j => (samples.drop (16384 * j)).take 16384) s.shu.caps
                              flags := s.shu.flags ||| BitVec.twoPow 64 u.flag, setNow := s.shu.setNow ||| BitVec.twoPow 64 u.flag
                              rose := s.shu.rose ||| (BitVec.twoPow 64 u.flag &&& ~~~s.shu.flags) } } u.ref .ok))

/-- R454 to R461: each instruction of a Shunter program, fetched by its running channel, has its effect and the channel goes on; a program that ends writes
its record and completes its command. -/
def Obligations.ShunterPrograms : Prop :=
  ∀ (s : State) (ch : Fin 16) (words : Option (List (BitVec 64))) (w : BitVec 64), let h := s.shu.chans[ch]
    let last := w.getLsbD 59
    let wait (x : ShuWait) : State := chanPut s ch { h with st := .waiting, wait := some x, waitEnd := s.waitLimit w, last := last }
    let tick (due : Tick) : State :=
      if s.ym.now < due then chanPut s ch { h with st := .waiting, tick := due, wait := some (.at_ due), waitEnd := none, last := last }
      else chanPut s ch (ShuChan.advance { h with tick := due, lateWait := h.lateWait || decide (due < s.ym.now) } 1 last)
    (∀ w1 w2 w3 src dstErr wbErr, let ws := [w, w1, w2, w3]
      Fetches s ch words .move ws → moveBad h ws = false → let d := moveDst ws h.iter
      let r := s.moveData (moveSrc ws h.iter) (moveLen ws) src
      let done (v : State) : State := v.modChan ch fun h => if h.ending.isSome then h else h.advance 4 last
      (∀ b, r.1 = .inl b → dstErr = false → exec (.shuMove ch words src dstErr wbErr) s = .next
        (done ((State.moveBack ((r.2.emit (.hostWrite d b)).modChan ch fun h => { h with crc := b.foldl crc32cByte h.crc, bytes := h.bytes + moveLen ws })) ch 0 wbErr)))
      ∧ (∀ b, r.1 = .inl b → dstErr = true → exec (.shuMove ch words src dstErr wbErr) s = .next
        (done (State.moveBack ((r.2.emit (.hostUndefined d (moveLen ws))).moveBadCount ch 2) ch 2 wbErr)))
      ∧ (∀ k, r.1 = .inr k → k ≠ 0 → exec (.shuMove ch words src dstErr wbErr) s = .next
        (done (State.moveBack ((r.2.emit (.hostUndefined d (moveLen ws))).moveBadCount ch k) ch k wbErr))))
    ∧ (Fetches s ch words .loop [w] → h.loops.length < 4 → h.pc < loopTarget w → (∀ l ls, h.loops = l :: ls → loopTarget w ≤ l.target) →
        exec (.shuLoop ch words) s = .next (chanPut s ch { h with pc := h.pc + 1, loops := { body := h.pc + 1, target := loopTarget w, count := loopCount w, i := 0, last := last } :: h.loops }))
    ∧ (s.counting = true →
        (Fetches s ch words .waitAbs [w] → exec (.shuWaitAtAbs ch words) s = .next (tick (s.ofAirWord (w.extractLsb' 24 32 ++ (w.extractLsb' 0 24).setWidth 32))))
        ∧ (Fetches s ch words .waitRel [w] → exec (.shuWaitAtRel ch words) s = .next (tick (h.tick + (w.extractLsb' 0 32).toNat))))
    ∧ (Fetches s ch words .waitFlag [w] → let m := (w.extractLsb' 0 6).toNat
        (s.flagFor ch m (w.getLsbD 8) = true → exec (.shuWaitFlag ch words) s = .next (s.passFlag ch m (w.getLsbD 8) last))
        ∧ (s.flagFor ch m (w.getLsbD 8) = false → exec (.shuWaitFlag ch words) s = .next (wait (.flag m (w.getLsbD 8)))))
    ∧ (Fetches s ch words .waitDb [w] →
        (h.db ≠ 0 → exec (.shuWaitDoorbell ch words) s = .next (chanPut s ch (ShuChan.advance { h with db := h.db - 1 } 1 last)))
        ∧ (h.db = 0 → exec (.shuWaitDoorbell ch words) s = .next (wait .doorbell)))
    ∧ (let on (v : State) : State := v.modChan ch fun h => h.advance 1 last
      let n := (w.extractLsb' 0 16).toNat
      (Fetches s ch words .sigEvent [w] → exec (.signalEvent ch words) s = .next (on (s.postRec 0x0F 8 [.v 8 1, .v 4 ch.val, .u 4, .v 16 n, .v 32 s.frameNow])))
      ∧ (Fetches s ch words .sigMsix [w] → exec (.signalMsix ch words) s = .next (on (s.sendMsix (BitVec.ofNat 5 n))))
      ∧ (Fetches s ch words .sigSet [w] → exec (.signalSetFlag ch words) s = .next (on { s with shu := { s.shu with
          flags := s.shu.flags ||| BitVec.twoPow 64 n, setNow := s.shu.setNow ||| BitVec.twoPow 64 n, rose := s.shu.rose ||| (BitVec.twoPow 64 n &&& ~~~s.shu.flags) } }))
      ∧ (Fetches s ch words .sigClear [w] → exec (.signalClearFlag ch words) s = .next (on { s with shu := { s.shu with flags := s.shu.flags &&& ~~~(BitVec.twoPow 64 n &&& ~~~s.shu.setNow) } })))
    ∧ (h.st = .waiting → (∀ e, h.waitEnd = some e → s.dp ≤ e) →
        (∀ due, h.wait = some (.at_ due) → s.counting = true → due ≤ s.ym.now → exec (.waitSatisfied ch) s = .next (chanPut s ch (h.advance 1 h.last)))
        ∧ (∀ m c, h.wait = some (.flag m c) → s.flagFor ch m c = true → exec (.waitSatisfied ch) s = .next (s.passFlag ch m c h.last))
        ∧ (h.wait = some .doorbell → h.db ≠ 0 → exec (.waitSatisfied ch) s = .next (chanPut s ch (ShuChan.advance { h with db := h.db - 1 } 1 h.last))))
    ∧ (∀ e, h.waitEnd = some e → e ≤ s.dp → h.st = .waiting → exec (.waitTimeout ch) s = .next (chanPut s ch (h.endWith .notReady)))
    ∧ (∀ wbErr k, h.st ≠ .idle → (h.ending ≠ none ∨ h.st = .stopping) → h.cmd = some k →
        let r := s.record 24 ([.v 32 (~~~h.crc).toNat, .v 16 h.bad.toNat, .v 8 h.status.code.toNat, .v 1 (b2n h.lateWait), .v 1 (b2n h.stopped), .u 6, .v 64 h.bytes] ++ airFlds s.atNow)
        let u := r.2.emit (if wbErr then .hostUndefined h.wb 24 else .hostWrite h.wb r.1)
        exec (.shuProgramEnd ch wbErr) s = .next (((u.modChan ch fun y => { ShuChan.reset with db := y.db }).complete k (if wbErr then .busErr else h.status) (BitVec.ofNat 32 (min h.bytes 0xFFFFFFFF))).stopsDone h.stopCmds))

/-- R177, R178, R474, R475, R483 to R487, R492, R494: kernels load, SOLVER_TEST runs a job on SC8, the dispatcher gives each core its next job, foreground work
preempts, a job's exit hands on its outputs, and a fault or the watchdog resets the core. -/
def Obligations.SolverJobs : Prop :=
  ∀ (s : State) (core : Fin 9), let m := s.sol.cores[core]
    (∀ (c : Cmd) (x : Slot) b, let p := x.payload
      (Served s c 0x78 x → c.data = some b → (pf p 0 0 2 = 1 ∨ pf p 0 0 2 = 2) → pf p 8 0 6 = 0 → s.kernelUsed (pf p 0 0 2) = false → s.verify b 3 (pf p 16 0 32).toNat s.tack.readOnly = none →
        exec (.solverLoad c) s = .next (((s.setKernel (pf p 0 0 2 == 2) (imageKernel b) (measure b)).putImage (if pf p 0 0 2 = 2 then 5 else 4) b (some c.ref)).finish c.ref .ok))
      ∧ (Served s c 0x7B x → c.data = some b → pf p 0 0 2 ≠ 3 → s.sol.cores[(8 : Fin 9)].st = .spare → s.sol.cores[(8 : Fin 9)].resetEnd = none → s.coreTested 8 = false → s.kernelReady (pf p 0 0 2) = true →
        let j : Job := { kind := .test c.ref (pf p 16 0 64) c.respErr, deadline := 0, budget := s.groupCycles (pf p 0 0 2) (hdr b 1 1) (hdr b 2 1), kernel := pf p 0 0 2 }
        let u := ((s.jobEntry 8 false (pf p 0 0 2)).solPuts 8 0 ((List.range 2304).map fun i => BitVec.ofNat 32 (ofLe ((b.drop (4 * i)).take 4)))).solPuts 8 2304 (List.replicate 2048 0)
        exec (.solverTest c) s = .next ((u.modCore 8 fun m => { m with fgJob := some j, prep := none, st := .testing }).setStage c.ref .running)))
    ∧ (m.st = .inService → m.resetEnd = none → m.fgJob = none → s.coreTested core = false →
      (∀ j, s.nextFg = some j → s.windowUsed core + j.budget ≤ 57344 → m.bgOn = false → let u : State := { s with sol := { s.sol with ready := s.sol.ready.erase j } }
        (∀ c ul slot grp map conf blk, j.kind = .weight c ul slot grp map conf blk →
          (u.mapUsable c map grp slot = true → exec (.solverJobDispatch core) s = .next (u.enterJob core j c ul slot grp map blk))
          ∧ (u.mapUsable c map grp slot = false → exec (.solverJobDispatch core) s = .next (u.unstageable c blk)))
        ∧ (∀ st c ul slot grp map blk, j.kind = .chain st c ul slot grp map blk → exec (.solverJobDispatch core) s = .next (u.enterJob core j c ul slot grp map blk)))
      ∧ ((s.nextFg = none ∨ ∃ j, s.nextFg = some j ∧ 57344 < s.windowUsed core + j.budget) →
        (m.bgJob ≠ none → exec (.solverJobDispatch core) s = .next (s.modCore core fun m => { m with bgOn := true }))
        ∧ (∀ j, m.bgJob = none → s.sol.ready.find? s.bgReady = some j → exec (.solverJobDispatch core) s = .next
            ((State.jobEntry { s with sol := { s.sol with ready := s.sol.ready.erase j } } core true 0).modCore core fun m => { m with bgJob := some j, bgOn := true }))))
    ∧ (m.issues true = true → m.bg.rept = 0 → s.nextFg ≠ none → exec (.foregroundPreempt core) s = .next (s.modCore core fun m => { m with bgOn := false }))
    ∧ (∀ j, m.fgJob = some j → let vendor : Bool := m.ended.isNone && j.kernel == 0 && decide (j.budget ≤ m.fgCyc + 32)
      (m.ended ≠ none ∨ vendor = true) →
      let leave (v : State) : State := v.modCore core fun m => { m with
        fgJob := none, prep := none, ended := none, fgJobs := satInc m.fgJobs, fgCycles := satAdd m.fgCycles 32, ahead := m.ahead + 32
        bgOn := m.bgJob.isSome && !(s.sol.ready.any fun k => k.fgKey.isSome), st := if m.st = .testing then .spare else m.st }
      let library (sat : Nat) : State := State.satCount { leave s with free := s.free + 1 } core sat
      (∀ c ul slot grp map conf blk, j.kind = .weight c ul slot grp map conf blk →
        let with_ (w : Option (List (Nat × BitVec 32))) : Option WSet := m.prep.bind fun p => w.map fun l => { p with words := l }
        (vendor = false → exec (.solverJobExit core) s = .next ((leave s).weightDone c blk (with_ (if m.ended = some 0 then some (s.readOut core c map) else none))))
        ∧ (vendor = true → ∃ sat, exec (.solverJobExit core) s = .next ((library sat).weightDone c blk (with_ (s.vendorSet core c map)))))
      ∧ (∀ st c ul slot grp map blk p, j.kind = .chain st c ul slot grp map blk → m.prep = some p →
        ∃ sat, exec (.solverJobExit core) s = .next ((library sat).chainDone st c ul slot grp blk (s.libIn core 0) p))
      ∧ (∀ ref out err, j.kind = .test ref out err →
        (∀ v, m.ended = some v → exec (.solverJobExit core) s = .next
          ((leave s).testEnd ref out err (s.solOut core) (leBytes 4 v.toNat ++ leBytes 4 (m.fgCyc + 32))))
        ∧ (m.ended = none → let r := s.vendorTest core
          exec (.solverJobExit core) s = .next ((leave r.1).testEnd ref out err (r.1.solOut core) (leBytes 4 r.2 ++ leBytes 4 (m.fgCyc + 32))))))
    ∧ (∀ cause : BitVec 4, m.resetEnd = none → (m.fgJob ≠ none ∨ m.bgJob ≠ none) → 1 ≤ cause.toNat → cause.toNat ≤ 7 → exec (.solverFault core cause) s = .next (s.coreFault core cause.toNat))
    ∧ (∀ j, m.fgJob = some j → m.ended = none → j.budget + 256 ≤ m.fgCyc → exec (.solverWatchdog core) s = .next (s.coreFault core 5))
    ∧ (∀ t, m.resetEnd = some t → t ≤ s.dp → (∀ f ∈ s.host.arb.held, f.code = .solver → f.res = { cls := 9, idx := 0x100 + core.val } → f.ever = true) →
        exec (.solverCoreResetEnd core) s = .next (s.modCore core fun m => { m with resetEnd := none }))

/-- R525, R526, R528 to R536, R541, R543: march tests, error correction and its consumers, logic BIST, the retirement and the restoring of paths, and the memories at
power-up. -/
def Obligations.MemoriesAndTests : Prop :=
  ∀ (s : State),
    (∀ (c : Cmd) (x : Slot), let p := x.payload
      let mem := (pf p 0 0 3).toNat
      let first := (pf p 2 0 16).toNat
      let n := (pf p 4 0 16).toNat
      let go (v : State) (n : Nat) : State :=
        let m : March := { ref := c.ref, memory := mem, first := memBase mem + first, count := n, ss := pb p 1 0, destroy := pb p 1 1, repair := pb p 1 2, waiting := true
                           todo := (List.range n).map fun i => memBase mem + first + i, run := [], failing := 0, repairs := 0, unrepaired := false }
        let u := v.setStage c.ref .running
        State.marchSweep { u with mem := { u.mem with marches := u.mem.marches ++ [m] } }
      (Served s c 0x90 x → (pb p 1 1 = true → mem ≠ 7) → s.marchRefused mem (pb p 1 1) = false → s.inTransition = false → s.conv.run = none →
        (0 < n → first + n ≤ memBanks mem → exec (.marchRun c) s = .next (go s n))
        ∧ (n = 0 → ∃ k, 1 ≤ k ∧ k ≤ memBanks mem ∧ let v : State := { s with free := s.free + 1 }
            exec (.marchRun c) s = .next (if first + k ≤ memBanks mem then go v k else v.complete c.ref .badArg)))
      ∧ (Served s c 0x91 x → let target := (pf p 0 0 2).toNat
        let index := (pf p 1 0 8).toNat
        lbistRange target index = true → (pf p 8 0 64 : BitVec 64).extractLsb' 0 3 = 0 → s.lbistRefused target index (pb p 2 0) = false →
        exec (.lbistRun c) s = .next (State.lbistSweep (let u := s.setStage c.ref .running
          { u with mem := { u.mem with lbist := u.mem.lbist ++ [{ ref := c.ref, target := target, index := index, addr := pf p 8 0 64, lend := pb p 2 0, accepted := s.ym.now, fin := none, result := none }] } })))
      ∧ (Served s c 0x94 x → pf p 8 0 8 = 1 → pf p 0 0 64 ≠ 0 → exec (.pathRetire c) s = .next (let u := s.setStage c.ref .running
          { u with mem := { u.mem with retiring := u.mem.retiring ++ [{ ref := c.ref, paths := pf p 0 0 64, due := if s.counting then s.dpOf (ceilTo subframe (s.ym.now + 98304)) else s.dp + 98304 }] } }))
      ∧ (Served s c 0x94 x → pf p 8 0 8 = 2 → let ps : List (Fin 64) := setBits (pf p 0 0 64)
        ps ≠ [] → s.mode.cur = .calibrate →
        (∀ q ∈ ps, s.radio.synths[synthOf (paddockOf q) false].st ≠ .retired ∨ s.radio.synths[synthOf (paddockOf q) true].st ≠ .retired) →
        exec (.pathRestore c) s = .next ((ps.foldl (fun (v : State) q => v.restorePath q) s).complete c.ref .ok)))
    ∧ (∀ (ring : Fin 16) (seq bank : Nat) (fails : List MarchFail) m, let r : CmdRef := { ring := ring, seq := seq }
        (s.mem.marches.find? fun m => m.ref == r && m.run.any fun x => x.bank == bank && decide (x.fin ≤ s.dp)) = some m →
        let fs := fails.filter fun f => f.bank == bank && decide (f.row.toNat < bankRows bank)
        let a := (if m.destroy then s.wipeBank bank else s).bankTested bank fs m.repair
        let u := a.1.modMarch r fun x => { x with
          run := x.run.filter fun y => y.bank != bank, failing := x.failing + (fs.map fun (f : MarchFail) => f.words).sum, repairs := x.repairs + a.2.1, unrepaired := x.unrepaired || a.2.2 }
        let u : State := if m.destroy = false ∧ u.mem.lastBank.toNat = bank then { u with mem := { u.mem with lastRow := BitVec.ofNat 8 (bankRows bank - 1) } } else u
        ∀ y, (u.mem.marches.find? fun m => m.ref == r) = some y →
          exec (.marchBankEnd ring seq bank fails) s = .next (if y.todo = [] ∧ y.run = [] then (u.marchDone y).marchSweep else u.marchSweep))
    ∧ (∀ (target index : Nat) (sig : BitVec 128) (wrErr : Bool) l,
        (s.mem.lbist.find? fun l => l.target == target && l.index == index && l.result.isNone && (match l.fin with | some t => decide (t ≤ s.dp) | none => false)) = some l →
        let w := if l.addr = 0 then s else if wrErr then s.emit (.hostUndefined l.addr 16) else s.emit (.hostWrite l.addr (leBytes 16 sig.toNat))
        let st : Status := if l.addr ≠ 0 ∧ wrErr = true then .busErr else if sig = lbistSig target then .ok else .hwFault
        let u := w.lbistReload target index
        ((target = 1 → ∀ q : Fin 64, q.val = index → u.radio.paths[q].lent = false) → exec (.lbistEnd target index sig wrErr) s = .next
          ((State.complete { u with mem := { u.mem with lbist := u.mem.lbist.filter fun x => x.ref != l.ref } } l.ref st (sig.extractLsb' 0 32)).lbistSweep))
        ∧ (∀ q : Fin 64, target = 1 → q.val = index → u.radio.paths[q].lent = true → exec (.lbistEnd target index sig wrErr) s = .next
          ((State.pathBegin { u with mem := { u.mem with lbist := u.mem.lbist.map fun (x : Lbist) => if x.ref = l.ref then { x with result := some (st, sig.extractLsb' 0 32) } else x } } q .standby none).lbistSweep)))
    ∧ (∀ (b : Nat) (row : BitVec 8), s.memLive = true → b ≤ 416 → row.toNat < bankRows b →
        (let n := (match (s.bank b).rowCorr.find? fun x => x.1 == row.toNat with | some x => x.2 | none => 0) + 1
         let mark : Bool := n == 8 && !(s.bank b).marked.contains row.toNat
         let u := s.modBank b fun x => { x with corr := satInc x.corr, rowCorr := (x.rowCorr.filter fun y => y.1 != row.toNat) ++ [(row.toNat, n)]
                                                marked := if mark then x.marked ++ [row.toNat] else x.marked }
         let u : State := { u with mem := { u.mem with corr := satInc u.mem.corr } }
         exec (.memCorrected b row) s = .next (if mark then u.postSpare 6 1 { cls := 9, idx := 0x400 + b } else u))
        ∧ (∀ what cmd, let u := s.modBank b fun x => { x with uncorr := satInc x.uncorr, bad := row }
         let u : State := { u with mem := { u.mem with uncorr := satInc u.mem.uncorr, marches := u.mem.marches.map fun (m : March) => { m with run := m.run.filter fun x => x.bank != b } } }
         exec (.memUncorr b what row cmd) s = .next (((u.uncorrConsumer b what (cmd.map fun (r : Fin 16 × Nat) => { ring := r.1, seq := r.2 })).raiseFault .memUncorr { cls := 9, idx := 0x400 + b }).marchSweep)))
    ∧ (∀ errs : List (Nat × BitVec 8), s.memLive = true → s.mem.patrolAt + 9830400000 ≤ s.dp → exec (.patrolScrub errs) s = .next
        (let u := errs.foldl (fun (v : State) e => if v.bankMarched e.1 then v else v.corrected e.1 e.2) s
         { u with mem := { u.mem with patrolAt := u.dp } }))
    ∧ exec .retirementEffect s = .next ((s.mem.retiring.filter fun r => r.due ≤ s.dp).foldl (fun (v : State) (r : Retiring) =>
        ((setBits r.paths).foldl (fun (v : State) q => v.retirePath q 0xF2) v).complete r.ref .ok) { s with mem := { s.mem with retiring := s.mem.retiring.filter fun r => !(r.due ≤ s.dp) } })
    ∧ (∀ fails : List MarchFail, s.pwr.step = .cold → s.pwr.bootStage = 2 → s.pwr.memReady = false →
        let u := s.tack.ledger.foldl (fun (v : State) r => v.loadRepair r) s
        let banks := (((fails.map fun (f : MarchFail) => f.bank) ++ ((u.mem.banks.filter fun x => !x.2.marked.isEmpty).map fun (x : Nat × BankRec) => x.1)).eraseDups).filter fun b => b ≤ 416
        let u := banks.foldl (fun (v : State) b => (v.bankTested b (fails.filter fun f => f.bank == b && decide (f.row.toNat < bankRows b)) true).1) u
        exec (.powerupMemoryReady fails) s = .next { u with
          pwr := { u.pwr with memReady := true }, mem := { u.mem with corr := 0, uncorr := 0, patrolAt := u.dp }, ofdm := { u.ofdm with beams := [] }
          sol := { u.sol with cores := u.sol.cores.map fun (m : SolCore) => { m with data := [], zeroF := 0xFF, zeroB := 0xFF } }
          shu := { u.shu with caps := (List.range 16).map fun k => (48 + k, []) } })

namespace Sys2Proof.Claims

open Sys2Proof.Machine

/-- Data that a command sends to host memory with its completion (R425). -/
def delivered (s : State) (c : Cmd) (addr : BitVec 64) (b : Bytes) : State :=
  if c.respErr then (s.emit (.hostUndefined addr b.length)).finish c.ref .busErr else (s.emit (.hostWrite addr b)).finish c.ref .ok (BitVec.ofNat 32 b.length)

end Sys2Proof.Claims

/-- R547 to R560, R569: the images and kernels are verified at boot; an image that passes its checks is stored and preferred; the floors rise; the identity and its
certificate are kept once and read; the attestation is a signed report. -/
def Obligations.BootAndIdentity : Prop :=
  ∀ (s : State),
    (s.pkg.testMode = false → s.pwr.bootStage = 3 → let u : State := { s with sec := { s.sec with rerun := false } }
      let f := u.bootPair 1 0 1 u.tack.fwPrefB
      (f.1 = none → exec .bootImageVerify s = .next { f.2 with sec := { f.2.sec with recovery := true }, pwr := { f.2.pwr with bootStage := 4 } })
      ∧ (∀ i, f.1 = some i → let v : State := { f.2 with sec := { f.2.sec with fwB := i == 1, mFw := f.2.slotMeasure i } }
        let g := v.bootPair 2 2 3 v.tack.farPrefB
        (g.1 = none → exec .bootImageVerify s = .next { g.2 with sec := { g.2.sec with recovery := true }, pwr := { g.2.pwr with bootStage := 4 } })
        ∧ (∀ j, g.1 = some j → exec .bootImageVerify s = .next (
            let w : State := { g.2 with sec := { g.2.sec with farB := j == 3, mFar := g.2.slotMeasure j, recovery := false } }
            let w := (w.bootKernel false).bootKernel true
            { w with pwr := { w.pwr with bootStage := 5 } }))))
    ∧ (∀ (c : Cmd) (x : Slot) (b : Bytes), let p := x.payload
      (s.slot? c.ref = some x → x.stage = .started → x.opcode = 0x98 → entryOk x.entry p = true → c.data = some b →
        let t := (pf p 0 0 2).toNat
        (t = 1 ∨ t = 2) → pf p 8 0 6 = 0 → s.busyOps c.ref [0x98, 0x99] = false →
        (s.verify b t (pf p 16 0 32).toNat s.tack.readOnly = none → let slot := s.loadSlot t
          let pref : TackRec := .preferred (t == 1) (slot % 2 == 1)
          exec (.secImageLoad c) s = .next (let u := (((s.putImage slot b).tackPut 3 pref).tackPut 4 pref (some c.ref)).finish c.ref .ok
            { u with sec := { u.sec with rerun := u.sec.recovery, slotBad := u.sec.slotBad &&& ~~~((1 : BitVec 6) <<< slot) } }))
        ∧ (∀ k, s.verify b t (pf p 16 0 32).toNat s.tack.readOnly = some k → exec (.secImageLoad c) s = .next (State.complete { s with sec := { s.sec with
            lastType := BitVec.ofNat 4 t, lastCause := BitVec.ofNat 4 k, fails := satInc s.sec.fails } } c.ref .authFail)))
      ∧ (Served s c 0x99 x → let i : Fin 4 := (pf p 0 0 2).toFin
        let v : BitVec 32 := pf p 4 0 32
        ¬ v < s.tack.svn[i] → (i = 3 → v.toNat ≤ 3) → s.busyOps c.ref [0x98, 0x78] = false →
        (∀ k : Fin 6, (i = 3 ∨ k.val / 2 = i.val) → ∀ y, s.tack.images[k] = some y → v.toNat ≤ (if i = 3 then y.key else y.svn)) →
        (v = s.tack.svn[i] → exec (.secRollbackCommit c) s = .next (s.finish c.ref .ok))
        ∧ (v ≠ s.tack.svn[i] → exec (.secRollbackCommit c) s = .next (((s.tackPut 3 (.rollback i.val v)).tackPut 4 (.rollback i.val v) (some c.ref)).finish c.ref .ok)))
      ∧ (Served s c 0x9C x → (pf p 8 0 64 : BitVec 64).extractLsb' 0 3 = 0 → s.tack.pub = none → (∀ w ∈ s.tack.queue, ∀ a k, w.rec_ ≠ .identity a k) →
        (s.mode.cur = .bringup ∨ s.mode.cur = .calibrate) → ∃ seed : Bytes, let k := Config.keyGen seed
          exec (.secProvision c true) s = .next (delivered ((State.tackPut { s with free := s.free + 1 } 5 (.identity k.1 k.2) (some c.ref))) c (pf p 8 0 64) k.1))
      ∧ (Served s c 0x9D x → c.data = some b → pf p 16 0 32 ≠ 0 → (pf p 16 0 32).toNat ≤ 8192 → s.tack.pub ≠ none → s.tack.cert = none → (∀ w ∈ s.tack.queue, ∀ k, w.rec_ ≠ .cert k) →
        exec (.secCertStore c) s = .next ((s.tackPut 7 (.cert b) (some c.ref)).finish c.ref .ok))
      ∧ (∀ k, Served s c 0x9B x → s.tack.pub = some k → let cert := s.tack.cert.getD []
        exec (.secIdRead c) s = .next (delivered s c (pf p 8 0 64) (k.1 ++ leBytes 4 cert.length ++ cert)))
      ∧ (∀ k, Served s c 0x9A x → s.tack.pub = some k →
        let sent (v w : State) : Prop := let r := v.report (leBytes 32 (pf p 0 0 256).toNat) k.1
          ∃ rnd : Bytes, w = delivered { r.2 with free := r.2.free + 1 } c (pf p 32 0 64) (r.1 ++ Config.mldsaSign k.2 (Config.sha3 r.1) ctxAtt rnd)
        let u : State := { s with free := s.free + 1 }
        ∃ w, exec (.secAttest c) s = .next w
          ∧ ((pf p 32 0 64 : BitVec 64).extractLsb' 0 3 = 0 → sent s w)
          ∧ ((pf p 32 0 64 : BitVec 64).extractLsb' 0 3 ≠ 0 → w = u.complete c.ref .badArg ∨ sent u w)))

/-- R569, R577: TRST_N holds the test access port in reset; each rising edge of TCK moves its controller, captures or shifts, each falling edge updates and drives
TDO. The controller's states are the model's, of IEEE 1149.1, as the log entry on the port says. -/
def Obligations.TestAccessPort : Prop :=
  ∀ (s : State) (tms tdi : Bool), let held (v : Bool) : State := { s with pkg := { s.pkg with trst := v, tap := .reset, tapInstr := .idcode, tdo := none } }
    exec .trstNAssert s = .next (held true)
    ∧ (s.pwr.vin = true → ∀ rising, exec (.tapTckEdge false rising tms tdi) s = .next (held true))
    ∧ (s.pwr.vin = true → let u : State := { s with pkg := { s.pkg with trst := false } }
      let go (v : State) : State := { v with pkg := { v.pkg with tap := s.pkg.tap.next tms, tapInstr := if s.pkg.tap.next tms = .reset then .idcode else v.pkg.tapInstr } }
      (s.pkg.tap = .shiftDr → exec (.tapTckEdge true true tms tdi) s = .next (go { u with pkg := { u.pkg with drShift := s.pkg.drShift.drop 1 ++ [tdi] } }))
      ∧ (s.pkg.tap = .shiftIr → exec (.tapTckEdge true true tms tdi) s = .next (go { u with pkg := { u.pkg with irShift := s.pkg.irShift.drop 1 ++ [tdi] } }))
      ∧ (s.pkg.tap = .capDr → s.pkg.tapInstr = .idcode → exec (.tapTckEdge true true tms tdi) s = .next (go { u with pkg := { u.pkg with drShift := (List.range 32).map fun i => (0x16464001#32).getLsbD i } }))
      ∧ (s.pkg.tap = .capDr → s.pkg.tapInstr = .bypass → exec (.tapTckEdge true true tms tdi) s = .next (go { u with pkg := { u.pkg with drShift := [false] } }))
      ∧ (s.pkg.tap ≠ .shiftDr → s.pkg.tap ≠ .shiftIr → s.pkg.tap ≠ .capDr → s.pkg.tap ≠ .capIr → exec (.tapTckEdge true true tms tdi) s = .next (go u))
      ∧ (s.pkg.tap = .updIr → exec (.tapTckEdge true false tms tdi) s = .next { u with pkg := { u.pkg with tapInstr := s.tapDecode s.pkg.irShift, tdo := none } })
      ∧ (s.pkg.tap = .shiftDr → exec (.tapTckEdge true false tms tdi) s = .next { u with pkg := { u.pkg with tdo := s.pkg.drShift.head? } })
      ∧ (s.pkg.tap = .shiftIr → exec (.tapTckEdge true false tms tdi) s = .next { u with pkg := { u.pkg with tdo := s.pkg.irShift.head? } })
      ∧ (s.pkg.tap = .updDr → (s.pkg.tapInstr = .idcode ∨ s.pkg.tapInstr = .bypass) → exec (.tapTckEdge true false tms tdi) s = .next { u with pkg := { u.pkg with tdo := none } }))
    ∧ (s.pkg.testMode = false → ∀ code, s.tapDecode code = .idcode ∨ s.tapDecode code = .bypass)

namespace Sys2Proof.Claims

open Sys2Proof.Machine

/-- The test access port (R569, R577): held in reset its controller is reset; in reset IDCODE is in force; outside board-test mode it offers BYPASS and
IDCODE alone; and with VIN absent it is held in reset. -/
def TapOk (s : State) : Prop :=
  (s.pkg.trst = true → s.pkg.tap = .reset) ∧ (s.pkg.tap = .reset → s.pkg.tapInstr = .idcode)
  ∧ (s.pkg.testMode = false → s.pkg.tapInstr = .idcode ∨ s.pkg.tapInstr = .bypass) ∧ (s.pwr.vin = false → s.pkg.trst = true)

/-- The port is closed as `TapOk` says, and the Shunter's program area is a list of words at rising indices. -/
def Kept (s : State) : Prop := TapOk s ∧ cellsWf s.shu.prog = true

end Sys2Proof.Claims

/-- A step with a command at the front of the queue is exec of that command on the state with the queue's rest; on an empty queue it is one cycle of the datapath
clock, in which nothing happens while VIN is absent (the model's choice, as the log entry on the queue says). -/
def Obligations.StepRunsFrontCommand : Prop :=
  ∀ (c : Instr) (s : State) (cs : List Instr),
    (s.pending = c :: cs → step s = exec c { s with pending := cs })
    ∧ (s.pending = [] → step s = .next s.tick)
    ∧ (s.pending = [] → s.pwr.vin = false → step s = .next s)
    ∧ s.tickTime.dp = s.dp + 1 ∧ s.tickTime.ym.now = (if s.counting then s.ym.now + 1 else s.ym.now) ∧ s.tickTime.time.tb2 = s.time.tb2 + 1

/-- Commands run in the order in which they were sent, each once: a step takes the front command off the queue, and nothing that it does adds, drops or reorders one. -/
def Obligations.QueueIsFirstInFirstOut : Prop :=
  ∀ (s t : State), step s = .next t → t.pending = s.pending.tail

/-- R569, R577: whatever command runs, the test access port stays as it must be: outside board-test mode it offers nothing but BYPASS and IDCODE; and the Shunter's
program area keeps its canonical form. -/
def Obligations.PortStaysClosed : Prop :=
  ∀ (s t : State), Kept s → step s = .next t → Kept t

/-- What reset and power-good leave (R31, R338, R472, R523, R569, R570): the invariant of the port holds; no command, no array, no carrier; every channel of the
Shunter IDLE with its flags and doorbells 0 and no word of its program area defined; the halter outputs at 0. -/
def Obligations.AfterReset : Prop :=
  Kept State.reset
  ∧ ∀ (xo fitted : BitVec 2) (test : Bool), ∃ t, exec (.powerGood xo fitted test) State.reset = .next t ∧ Kept t
    ∧ t.pkg.testMode = test ∧ t.pkg.clkreqLow = true ∧ t.clk.xoSel = xo ∧ (t.clk.xoBad = true ↔ xo = 3 ∨ xo ≠ fitted) ∧ t.pwr.vin = true ∧ t.mode.cur = .bringup
    ∧ (∀ i : Fin 16, t.shu.chans[i].st = .idle ∧ t.shu.chans[i].db = 0) ∧ t.shu.flags = 0 ∧ (∀ k, cellGet k t.shu.prog = none)
    ∧ t.hit.cfg = none ∧ t.hit.psumMiss = 0 ∧ t.hit.commitMiss = 0 ∧ t.hit.hopLate = 0 ∧ t.hit.badFrame = 0 ∧ t.hit.chainFb = 0 ∧ t.hit.kappaDev = (0, 0) ∧ t.hit.deltaDev = 0
    ∧ (∀ c : Fin 8, t.ofdm.carriers[c].cfg = none) ∧ (∀ i : Fin 80, t.sup.out[i].now = 0) ∧ (∀ n : Fin 16, t.host.rings[n].st = .disabled)
end

