-- ==== Sys2Proof/Laws/Cells.lean ====
section
/-! SUPPORT. The addressed memories (the Shunter's program area and capture slots, the beam table, the data memories of the solver cores)
are lists of cells: every operation keeps their canonical form, a read after a write gives what was written, and a write leaves every
other cell alone. -/

namespace Sys2Proof.Machine

variable {α : Type}

theorem cellsFrom_le {a b : Nat} (h : b ≤ a) : ∀ {l : List (Nat × α)}, cellsFrom a l = true → cellsFrom b l = true
  | [], _ => rfl
  | (j, _) :: _, hl => by simp only [cellsFrom, Bool.and_eq_true, decide_eq_true_eq] at hl ⊢; exact ⟨Nat.le_trans h hl.1, hl.2⟩

theorem cellPut_from (k : Nat) (x : α) : ∀ {b : Nat} {l : List (Nat × α)}, cellsFrom b l = true → b ≤ k → cellsFrom b (cellPut k x l) = true
  | b, [], _, hk => by simp [cellPut, cellsFrom, hk]
  | b, (j, y) :: r, hl, hk => by
    have h := hl
    simp only [cellsFrom, Bool.and_eq_true, decide_eq_true_eq] at h
    unfold cellPut
    split
    · simp only [cellsFrom, Bool.and_eq_true, decide_eq_true_eq]; exact ⟨hk, by omega, h.2⟩
    · split
      · subst k; simp only [cellsFrom, Bool.and_eq_true, decide_eq_true_eq]; exact h
      · simp only [cellsFrom, Bool.and_eq_true, decide_eq_true_eq]; exact ⟨h.1, cellPut_from k x h.2 (by omega)⟩

/-- Storing a value keeps the canonical form. -/
theorem cellPut_wf (k : Nat) (x : α) {l : List (Nat × α)} (h : cellsWf l = true) : cellsWf (cellPut k x l) = true := cellPut_from k x h (Nat.zero_le k)

theorem cells_filter (p : Nat × α → Bool) : ∀ {b : Nat} {l : List (Nat × α)}, cellsFrom b l = true → cellsFrom b (l.filter p) = true
  | _, [], _ => rfl
  | b, (j, y) :: r, hl => by
    simp only [cellsFrom, Bool.and_eq_true, decide_eq_true_eq] at hl
    rw [List.filter_cons]
    split
    · simp only [cellsFrom, Bool.and_eq_true, decide_eq_true_eq]; exact ⟨hl.1, cells_filter p hl.2⟩
    · exact cellsFrom_le (by omega) (cells_filter p hl.2)

/-- Taking a cell out keeps it. -/
theorem cellDel_wf (k : Nat) {l : List (Nat × α)} (h : cellsWf l = true) : cellsWf (cellDel k l) = true := cells_filter _ h

/-- Storing successive values keeps it. -/
theorem cellPuts_wf : ∀ (xs : List α) (k : Nat) {l : List (Nat × α)}, cellsWf l = true → cellsWf (cellPuts k xs l) = true
  | [], _, _, h => h
  | x :: xs, k, _, h => cellPuts_wf xs (k + 1) (cellPut_wf k x h)

/-- A read after a write of the same cell. -/
@[simp] theorem cellGet_put_same (k : Nat) (x : α) : ∀ l : List (Nat × α), cellGet k (cellPut k x l) = some x
  | [] => by simp [cellPut, cellGet]
  | (j, y) :: r => by
    unfold cellPut
    split
    · simp [cellGet]
    · split
      · simp [cellGet]
      · rename_i h; simp only [cellGet]; rw [if_neg (Ne.symm h)]; exact cellGet_put_same k x r

/-- A write leaves every other cell alone. -/
theorem cellGet_put_other {i k : Nat} (h : i ≠ k) (x : α) : ∀ l : List (Nat × α), cellGet i (cellPut k x l) = cellGet i l
  | [] => by simp [cellPut, cellGet, Ne.symm h]
  | (j, y) :: r => by
    unfold cellPut
    split
    · simp only [cellGet]; rw [if_neg (Ne.symm h)]
    · split
      · subst k; simp only [cellGet]; rw [if_neg (Ne.symm h), if_neg (Ne.symm h)]
      · simp only [cellGet]; rw [cellGet_put_other h x r]

theorem cellGet_del_same (k : Nat) : ∀ l : List (Nat × α), cellGet k (cellDel k l) = none
  | [] => rfl
  | (j, y) :: r => by
    unfold cellDel
    rw [List.filter_cons]
    split
    · rename_i h; simp only [cellGet]; rw [if_neg (by simpa using h)]; exact cellGet_del_same k r
    · exact cellGet_del_same k r

theorem cellGet_del_other {i k : Nat} (h : i ≠ k) : ∀ l : List (Nat × α), cellGet i (cellDel k l) = cellGet i l
  | [] => rfl
  | (j, y) :: r => by
    have ih := cellGet_del_other h r
    unfold cellDel at ih ⊢
    rw [List.filter_cons]
    split
    · simp only [cellGet, ih]
    · rename_i hj
      have : j = k := by simpa using hj
      subst j; simp only [cellGet, ih]; rw [if_neg (Ne.symm h)]

/-- Cells outside the range of a run of writes stay as they are. -/
theorem cellGet_puts_other : ∀ (xs : List α) {k i : Nat} (l : List (Nat × α)), (i < k ∨ k + xs.length ≤ i) → cellGet i (cellPuts k xs l) = cellGet i l
  | [], _, _, _, _ => rfl
  | x :: xs, k, i, l, h => by
    simp only [List.length_cons] at h
    unfold cellPuts
    rw [cellGet_puts_other xs _ (by omega), cellGet_put_other (by omega)]

/-- The cell at a place of a run of writes holds the value written there. -/
theorem cellGet_puts_at : ∀ (xs : List α) {k n : Nat} (l : List (Nat × α)) (h : n < xs.length), cellGet (k + n) (cellPuts k xs l) = some xs[n]
  | x :: xs, k, 0, l, _ => by
    unfold cellPuts
    rw [cellGet_puts_other xs _ (by omega)]; simp
  | x :: xs, k, n + 1, l, h => by
    unfold cellPuts
    have := cellGet_puts_at xs (k := k + 1) (n := n) (cellPut k x l) (by simpa using h)
    rw [show k + (n + 1) = k + 1 + n by omega, this]; simp

theorem cellPut_all (p : Nat × α → Bool) (k : Nat) (x : α) (hx : p (k, x) = true) : ∀ {l : List (Nat × α)}, l.all p = true → (cellPut k x l).all p = true
  | [], _ => by simp [cellPut, hx]
  | (j, y) :: r, h => by
    simp only [List.all_cons, Bool.and_eq_true] at h
    unfold cellPut
    split
    · simp only [List.all_cons, Bool.and_eq_true]; exact ⟨hx, h.1, h.2⟩
    · split
      · simp only [List.all_cons, Bool.and_eq_true]; exact ⟨hx, h.2⟩
      · simp only [List.all_cons, Bool.and_eq_true]; exact ⟨h.1, cellPut_all p k x hx h.2⟩

theorem cellDel_all (p : Nat × α → Bool) (k : Nat) {l : List (Nat × α)} (h : l.all p = true) : (cellDel k l).all p = true := by
  rw [List.all_eq_true] at h ⊢
  exact fun x hx => h x (List.mem_filter.mp hx).1

/-- A write of a beam keeps the beam table's canonical form. -/
theorem putBeam_wf (l : List (Nat × List (BitVec 32))) (n : Nat) (e : List (BitVec 32)) (h : beamsWf l = true) : beamsWf (putBeam l n e) = true := by
  simp only [beamsWf, Bool.and_eq_true] at h ⊢
  unfold putBeam
  split
  · exact ⟨cellDel_wf n h.1, cellDel_all _ n h.2⟩
  · rename_i he
    refine ⟨cellPut_wf n e h.1, cellPut_all _ n e ?_ h.2⟩
    simp only [List.all_eq_true, Classical.not_forall] at he
    obtain ⟨w, hw, hz⟩ := he
    rw [List.any_eq_true]
    exact ⟨w, hw, by simpa using hz⟩

/-- A write of data memory keeps its canonical form. -/
theorem solPut_wf (m : SolCore) (i : Nat) (v : BitVec 32) (h : m.dataWf = true) : (m.put i v).dataWf = true := by
  have hz : ∀ d : List (Nat × BitVec 32), ({ m with data := d } : SolCore).zeroAt = m.zeroAt := fun _ => rfl
  simp only [SolCore.dataWf, Bool.and_eq_true] at h
  unfold SolCore.put
  split
  · simp only [SolCore.dataWf, Bool.and_eq_true, hz]; exact ⟨cellDel_wf i h.1, cellDel_all _ i h.2⟩
  · rename_i hn
    simp only [SolCore.dataWf, Bool.and_eq_true, hz]
    refine ⟨cellPut_wf i v h.1, cellPut_all _ i v ?_ h.2⟩
    by_cases hv : v = 0
    · simp [hv] at hn ⊢; exact hn
    · simp; exact .inl hv

/-- The memories before power-good have their canonical form. -/
theorem reset_memories_wf : cellsWf State.reset.shu.prog = true ∧ cellsWf State.reset.shu.caps = true ∧ beamsWf State.reset.ofdm.beams = true
    ∧ ∀ c : Fin 9, State.reset.sol.cores[c].dataWf = true := by decide

end Sys2Proof.Machine
end

