-- ==== Sys2Proof/Laws/Frame.lean ====
section
/-! SUPPORT. What the operations leave alone: one lemma for each operation over the state. All but those of power, of the test access
port and of the Shunter's program area keep the queue, VIN, board-test mode, the port and the program area. -/

namespace Sys2Proof.Machine

/-- What most operations leave alone. -/
def State.keep (s : State) : List Instr × (Bool × Bool × Bool × TapState × TapInstr) × List (Nat × BitVec 64) :=
  (s.pending, (s.pwr.vin, s.pkg.testMode, s.pkg.trst, s.pkg.tap, s.pkg.tapInstr), s.shu.prog)

theorem State.keep_mk (a : List Instr) (b c d rc e f g h i j k l m n o p q r pw sh v w x y z pk) :
    State.keep (State.mk a b c d rc e f g h i j k l m n o p q r pw sh v w x y z pk) = (a, (pw.vin, pk.testMode, pk.trst, pk.tap, pk.tapInstr), sh.prog) := rfl

theorem State.keep_eta (s : State) : (s.pending, (s.pwr.vin, s.pkg.testMode, s.pkg.trst, s.pkg.tap, s.pkg.tapInstr), s.shu.prog) = s.keep := rfl

/-- A meaning that leaves it alone. -/
def Stays (r : Host.Outcome State Fault Refusal) (s : State) : Prop := ∀ t, r = .next t → t.keep = s.keep

theorem Stays.of_next {s t : State} (h : t.keep = s.keep) : Stays (.next t) s := by
  intro u hu; cases hu; exact h

theorem foldl_keep {α : Type} (f : State → α → State) (h : ∀ s x, (f s x).keep = s.keep) (l : List α) (s : State) : (l.foldl f s).keep = s.keep := by
  induction l generalizing s with
  | nil => rfl
  | cons x l ih => exact (ih _).trans (h s x)

theorem foldl_keep_snd {α β : Type} (f : β × State → α → β × State) (h : ∀ a x, (f a x).2.keep = a.2.keep) (l : List α) (a : β × State) : (l.foldl f a).2.keep = a.2.keep := by
  induction l generalizing a with
  | nil => rfl
  | cons x l ih => exact (ih _).trans (h a x)

theorem foldl_keep_fst {α β : Type} (f : State × β → α → State × β) (h : ∀ a x, (f a x).1.keep = a.1.keep) (l : List α) (a : State × β) : (l.foldl f a).1.keep = a.1.keep := by
  induction l generalizing a with
  | nil => rfl
  | cons x l ih => exact (ih _).trans (h a x)

-- Ops

theorem State.emit_keep (s : State) (o : Out) : (State.emit s o).keep = s.keep := by
  unfold State.emit
  try dsimp only
  repeat' simp only [State.keep_mk, State.keep_eta]

theorem State.takeFree_keep (s : State) (w : Nat) : (State.takeFree s w).2.keep = s.keep := by
  unfold State.takeFree
  try dsimp only
  repeat' simp only [State.keep_mk, State.keep_eta]

theorem State.within_keep (s : State) (lo hi n : Nat) : (State.within s lo hi n).2.keep = s.keep := by
  unfold State.within
  try dsimp only
  repeat' first
    | simp only [State.takeFree_keep]
    | split

theorem State.record_keep (s : State) (n : Nat) (fs : List Fld) : (State.record s n fs).2.keep = s.keep := by
  unfold State.record
  try dsimp only
  repeat' simp only [State.keep_mk, State.keep_eta]

theorem State.reg32_keep (s : State) (fs : List Fld) : (State.reg32 s fs).2.keep = s.keep := by
  unfold State.reg32
  try dsimp only
  repeat' simp only [State.keep_mk, State.keep_eta]

theorem State.sendMsix_keep (s : State) (v : BitVec 5) : (State.sendMsix s v).keep = s.keep := by
  unfold State.sendMsix
  try dsimp only
  repeat' first
    | simp only [State.keep_mk, State.keep_eta, State.emit_keep]
    | split

theorem State.anchorBody_keep (s : State) : (State.anchorBody s).2.keep = s.keep := by
  unfold State.anchorBody
  try dsimp only
  repeat' simp only [State.record_keep]

theorem State.postOne_keep (s : State) (type : BitVec 8) (body : Bytes) (last : Bool) : (State.postOne s type body last).keep = s.keep := by
  unfold State.postOne
  try dsimp only
  repeat' simp only [State.keep_mk, State.keep_eta]

theorem State.post_keep (s : State) (type : BitVec 8) (body : Bytes) : (State.post s type body).keep = s.keep := by
  unfold State.post
  try dsimp only
  repeat' first
    | simp only [State.anchorBody_keep, State.postOne_keep]
    | split

theorem State.postRec_keep (s : State) (type : BitVec 8) (n : Nat) (fs : List Fld) : (State.postRec s type n fs).keep = s.keep := by
  unfold State.postRec
  try dsimp only
  repeat' simp only [State.record_keep, State.post_keep]

theorem State.postRing_keep (s : State) (code ring tag index lost : Nat) : (State.postRing s code ring tag index lost).keep = s.keep := by
  unfold State.postRing
  try dsimp only
  repeat' simp only [State.postRec_keep]

theorem State.postSpare_keep (s : State) (code kind : Nat) (r : Res) : (State.postSpare s code kind r).keep = s.keep := by
  unfold State.postSpare
  try dsimp only
  repeat' simp only [State.postRec_keep]

theorem State.postSup_keep (s : State) (code index pcount : Nat) : (State.postSup s code index pcount).keep = s.keep := by
  unfold State.postSup
  try dsimp only
  repeat' simp only [State.postRec_keep]

theorem State.postSec_keep (s : State) (code type cause slot : Nat) : (State.postSec s code type cause slot).keep = s.keep := by
  unfold State.postSec
  try dsimp only
  repeat' simp only [State.postRec_keep]

theorem State.postCal_keep (s : State) (code id : Nat) (r : Res) : (State.postCal s code id r).keep = s.keep := by
  unfold State.postCal
  try dsimp only
  repeat' simp only [State.postRec_keep]

theorem State.atCycle_keep (s : State) (due : Nat) (a : Act) : (State.at_ s due a).keep = s.keep := by
  unfold State.at_
  try dsimp only
  repeat' simp only [State.keep_mk, State.keep_eta]

theorem State.tackPut_keep (s : State) (sector : Nat) (r : TackRec) (cmd : Option CmdRef) : (State.tackPut s sector r cmd).keep = s.keep := by
  unfold State.tackPut
  try dsimp only
  repeat' first
    | simp only [State.keep_mk, State.keep_eta]
    | split

theorem State.ledgerPut_keep (s : State) (kind cause : Nat) (r : Res) (detail : BitVec 64) (cmd : Option CmdRef) : (State.ledgerPut s kind cause r detail cmd).keep = s.keep := by
  unfold State.ledgerPut
  try dsimp only
  repeat' simp only [State.tackPut_keep]

theorem State.faultRec_keep (s : State) (st : FRec) (f : HeldFault) : (State.faultRec s st f).keep = s.keep := by
  unfold State.faultRec
  try dsimp only
  repeat' simp only [State.record_keep, State.post_keep, State.tackPut_keep]

theorem State.setHeld_keep (s : State) (h : List HeldFault) : (State.setHeld s h).keep = s.keep := by
  unfold State.setHeld
  try dsimp only
  repeat' simp only [State.keep_mk, State.keep_eta]

theorem State.modHeld_keep (s : State) (id : BitVec 16) (f : HeldFault → HeldFault) : (State.modHeld s id f).keep = s.keep := by
  unfold State.modHeld
  try dsimp only
  repeat' simp only [State.setHeld_keep]

theorem State.nextFaultId_keep (s : State) : (State.nextFaultId s).2.keep = s.keep := by
  unfold State.nextFaultId
  try dsimp only
  repeat' simp only [State.keep_mk, State.keep_eta]

theorem State.faultTrans_keep (s : State) : (State.faultTrans s).keep = s.keep := by
  unfold State.faultTrans
  try dsimp only
  repeat' simp only [State.keep_mk, State.keep_eta]

theorem State.enterFault_keep (s : State) (code : FCode) (res : Res) (level : Nat) : (State.enterFault s code res level).keep = s.keep := by
  unfold State.enterFault
  try dsimp only
  repeat' first
    | simp only [State.faultRec_keep, State.setHeld_keep, State.modHeld_keep, State.nextFaultId_keep, State.faultTrans_keep]
    | split

theorem State.hostFault_keep (s : State) (code : FCode) (idx : Nat) : (State.hostFault s code idx).keep = s.keep := by
  unfold State.hostFault
  try dsimp only
  repeat' simp only [State.enterFault_keep]

theorem State.modRing_keep (s : State) (n : Fin 16) (f : Ring → Ring) : (State.modRing s n f).keep = s.keep := by
  unfold State.modRing
  try dsimp only
  repeat' simp only [State.keep_mk, State.keep_eta]

theorem State.foldCfg_keep (s : State) (x : Slot) : (State.foldCfg s x).keep = s.keep := by
  unfold State.foldCfg
  try dsimp only
  repeat' simp only [State.keep_mk, State.keep_eta]

theorem State.stopRing_keep (s : State) (n : Fin 16) (fault : FCode) (idx : Nat) : (State.stopRing s n fault idx).keep = s.keep := by
  unfold State.stopRing
  try dsimp only
  repeat' simp only [State.postRing_keep, State.hostFault_keep, State.modRing_keep]

theorem State.complete_keep (s : State) (c : CmdRef) (st : Status) (result : BitVec 32) : (State.complete s c st result).keep = s.keep := by
  unfold State.complete
  try dsimp only
  repeat' first
    | simp only [State.emit_keep, State.sendMsix_keep, State.postRing_keep, State.modRing_keep, State.foldCfg_keep, State.stopRing_keep]
    | split

theorem State.setStage_keep (s : State) (c : CmdRef) (g : Stage) : (State.setStage s c g).keep = s.keep := by
  unfold State.setStage
  try dsimp only
  repeat' simp only [State.modRing_keep]

theorem State.finish_keep (s : State) (c : CmdRef) (st : Status) (result : BitVec 32) : (State.finish s c st result).keep = s.keep := by
  unfold State.finish
  try dsimp only
  repeat' simp only [State.setStage_keep]

theorem State.setFaultN_keep (s : State) : (State.setFaultN s).keep = s.keep := by
  unfold State.setFaultN
  try dsimp only
  repeat' first
    | simp only [State.keep_mk, State.keep_eta, State.emit_keep]
    | split

-- Operands

theorem State.hostCmd_keep (s : State) (c : Cmd) (op : BitVec 8) (sel : BitVec 320 → Bool) (f : Slot → State) (hf : ∀ (x0 : Slot), (f x0).keep = s.keep) : (State.hostCmd s c op sel f).keep = s.keep := by
  unfold State.hostCmd
  try dsimp only
  repeat' first
    | simp only [State.complete_keep]
    | rw [hf]
    | split

theorem State.hostPut_keep (s : State) (c : Cmd) (addr : BitVec 64) (b : Bytes) : (State.hostPut s c addr b).2.keep = s.keep := by
  unfold State.hostPut
  try dsimp only
  repeat' first
    | simp only [State.emit_keep]
    | split

theorem State.respond_keep (s : State) (c : Cmd) (x : Slot) (b : Bytes) (clear : State → State) (hclear : ∀ (x0 : State), (clear x0).keep = x0.keep) : (State.respond s c x b clear).keep = s.keep := by
  unfold State.respond
  try dsimp only
  repeat' first
    | simp only [State.emit_keep, State.complete_keep]
    | rw [hclear]
    | split

theorem State.records_keep (s : State) (idx : List Nat) (f : State → Nat → Bytes × State) (hf : ∀ (x0 : State) (x1 : Nat), (f x0 x1).2.keep = x0.keep) : (State.records s idx f).2.keep = s.keep := by
  unfold State.records
  try dsimp only
  repeat' first
    | with_reducible rfl
    | rw [hf]
    | refine (foldl_keep_snd _ ?_ _ _).trans ?_
    | intro _

-- Radio

theorem State.modPath_keep (s : State) (p : Fin 64) (f : Path → Path) : (State.modPath s p f).keep = s.keep := by
  unfold State.modPath
  try dsimp only
  repeat' simp only [State.keep_mk, State.keep_eta]

theorem State.modSynth_keep (s : State) (i : Fin 16) (f : Synth → Synth) : (State.modSynth s i f).keep = s.keep := by
  unfold State.modSynth
  try dsimp only
  repeat' simp only [State.keep_mk, State.keep_eta]

theorem State.nfRetuned_keep (s : State) (i : Fin 16) (o : SynthOp) : (State.nfRetuned s i o).keep = s.keep := by
  unfold State.nfRetuned
  try dsimp only
  repeat' first
    | simp only [State.keep_mk, State.keep_eta]
    | split

theorem State.synthBegin_keep (s : State) (i : Fin 16) (o : SynthOp) : (State.synthBegin s i o).keep = s.keep := by
  unfold State.synthBegin
  try dsimp only
  repeat' simp only [State.modSynth_keep, State.nfRetuned_keep]

theorem State.synthLater_keep (s : State) (i : Fin 16) (start : Nat) (o : SynthOp) : (State.synthLater s i start o).keep = s.keep := by
  unfold State.synthLater
  try dsimp only
  repeat' simp only [State.atCycle_keep, State.modSynth_keep]

theorem State.synthStart_keep (s : State) (i : Fin 16) : (State.synthStart s i).keep = s.keep := by
  unfold State.synthStart
  try dsimp only
  repeat' first
    | simp only [State.modSynth_keep, State.synthBegin_keep]
    | split

theorem State.pathBegin_keep (s : State) (p : Fin 64) (target : PState) (hold : Option Nat) : (State.pathBegin s p target hold).keep = s.keep := by
  unfold State.pathBegin
  try dsimp only
  repeat' simp only [State.modPath_keep]

theorem State.pathLater_keep (s : State) (p : Fin 64) (start : Nat) (target : PState) (hold : Option Nat) (due : Nat) : (State.pathLater s p start target hold due).keep = s.keep := by
  unfold State.pathLater
  try dsimp only
  repeat' simp only [State.atCycle_keep, State.modPath_keep]

theorem State.trafficPath_keep (s : State) (p : Fin 64) (need : PState) (due fin rel : Nat) : (State.trafficPath s p need due fin rel).keep = s.keep := by
  unfold State.trafficPath
  try dsimp only
  repeat' simp only [State.pathLater_keep]

theorem State.pathStart_keep (s : State) (p : Fin 64) : (State.pathStart s p).keep = s.keep := by
  unfold State.pathStart
  try dsimp only
  repeat' first
    | simp only [State.modPath_keep, State.pathBegin_keep]
    | split

theorem State.pathOff_keep (s : State) (p : Fin 64) : (State.pathOff s p).keep = s.keep := by
  unfold State.pathOff
  try dsimp only
  repeat' simp only [State.modPath_keep]

theorem State.epochInvalid_keep (s : State) : (State.epochInvalid s).keep = s.keep := by
  unfold State.epochInvalid
  try dsimp only
  repeat' simp only [State.keep_mk, State.keep_eta]

-- Late

theorem State.lateRecF_keep (s : State) (src : Source) (k : Kind) (due : Tick) (r : Res) (cause : Fld) (miss : Nat) : (State.lateRecF s src k due r cause miss).keep = s.keep := by
  unfold State.lateRecF
  try dsimp only
  repeat' first
    | simp only [State.keep_mk, State.keep_eta, State.record_keep, State.post_keep]
    | split

theorem State.lateRec_keep (s : State) (src : Source) (k : Kind) (due : Tick) (r : Res) (c : Cause) (miss : Nat) : (State.lateRec s src k due r c miss).keep = s.keep := by
  unfold State.lateRec
  try dsimp only
  repeat' simp only [State.lateRecF_keep]

theorem State.lateOpen_keep (s : State) (e : Event) : (State.lateOpen s e).keep = s.keep := by
  unfold State.lateOpen
  try dsimp only
  repeat' simp only [State.lateRecF_keep]

-- Yard

theorem State.completeSrc_keep (s : State) (src : Source) (st : Status) (result : BitVec 32) : (State.completeSrc s src st result).keep = s.keep := by
  unfold State.completeSrc
  try dsimp only
  repeat' first
    | simp only [State.complete_keep]
    | split

theorem State.accept_keep (s : State) (src : Source) (doneAt : Option Tick) (evs : List NewEv) : (State.accept s src doneAt evs).keep = s.keep := by
  unfold State.accept
  try dsimp only
  repeat' simp only [State.keep_mk, State.keep_eta]

theorem State.present_keep (s : State) (src : Source) (doneAt : Option Tick) (evs : List NewEv) : (State.present s src doneAt evs).2.keep = s.keep := by
  unfold State.present
  try dsimp only
  repeat' first
    | simp only [State.keep_mk, State.keep_eta, State.lateRec_keep, State.completeSrc_keep, State.accept_keep]
    | refine (foldl_keep _ ?_ _ _).trans ?_
    | intro _
    | split

theorem State.presentCmd_keep (s : State) (c : CmdRef) (tag : BitVec 16) (doneAt : Option Tick) (evs : List NewEv) (ok : State → State) (hok : ∀ (x0 : State), (ok x0).keep = x0.keep) : (State.presentCmd s c tag doneAt evs ok).keep = s.keep := by
  unfold State.presentCmd
  try dsimp only
  repeat' first
    | simp only [State.complete_keep, State.setStage_keep, State.present_keep]
    | rw [hok]
    | split

theorem State.removeEvent_keep (s : State) (id : Nat) : (State.removeEvent s id).keep = s.keep := by
  unfold State.removeEvent
  try dsimp only
  repeat' simp only [State.keep_mk, State.keep_eta]

theorem State.abandonOcc_keep (s : State) (id : Nat) : (State.abandonOcc s id).keep = s.keep := by
  unfold State.abandonOcc
  try dsimp only
  repeat' simp only [State.keep_mk, State.keep_eta]

theorem State.forget_keep (s : State) (e : Event) : (State.forget s e).keep = s.keep := by
  unfold State.forget
  try dsimp only
  repeat' first
    | simp only [State.keep_mk, State.keep_eta, State.abandonOcc_keep]
    | split

theorem State.dropGroup_keep (s : State) (g : Nat) (cause : Event → Cause × Res) : (State.dropGroup s g cause).keep = s.keep := by
  unfold State.dropGroup
  try dsimp only
  repeat' first
    | simp only [State.keep_mk, State.keep_eta, State.lateRec_keep, State.completeSrc_keep, State.forget_keep]
    | refine (foldl_keep _ ?_ _ _).trans ?_
    | intro _
    | split

theorem State.withdrawGroup_keep (s : State) (g : Nat) : (State.withdrawGroup s g).keep = s.keep := by
  unfold State.withdrawGroup
  try dsimp only
  repeat' first
    | simp only [State.keep_mk, State.keep_eta, State.forget_keep]
    | refine (foldl_keep _ ?_ _ _).trans ?_
    | intro _

theorem State.reissue_keep (s : State) (e : Event) : (State.reissue s e).keep = s.keep := by
  unfold State.reissue
  try dsimp only
  repeat' first
    | simp only [State.present_keep]
    | split

theorem State.restage_keep (s old : State) : (State.restage s old).keep = s.keep := by
  unfold State.restage
  try dsimp only
  repeat' simp only [State.keep_mk, State.keep_eta]

theorem State.rebase_keep (s : State) : (State.rebase s).keep = s.keep := by
  unfold State.rebase
  try dsimp only
  repeat' first
    | simp only [State.keep_mk, State.keep_eta, State.dropGroup_keep, State.withdrawGroup_keep, State.reissue_keep, State.restage_keep]
    | refine (foldl_keep _ ?_ _ _).trans ?_
    | intro _
    | split

theorem State.judge_keep (s : State) (id : Nat) : (State.judge s id).keep = s.keep := by
  unfold State.judge
  try dsimp only
  repeat' simp only [State.keep_mk, State.keep_eta]

theorem State.checkMembers_keep (chk : State → Event → Option (Cause × Res)) (y0 : List Event) (y1 : State) : (State.checkMembers chk y0 y1).1.keep = y1.keep := by
  induction y0 generalizing y1 with
  | nil => rfl
  | cons e es ih =>
    simp only [State.checkMembers]
    split
    · rfl
    · exact (ih _).trans (State.judge_keep _ _)

theorem State.release_keep (s : State) (id : Nat) (k : Kind) (chk : State → Event → Option (Cause × Res)) (eff : State → Event → State) (heff : ∀ (x0 : State) (x1 : Event), (eff x0 x1).keep = x0.keep) : (State.release s id k chk eff).keep = s.keep := by
  unfold State.release
  split
  · rfl
  · rename_i e _
    have go : ∀ u : State, (match e.doneAt, e.src with
        | some t, .cmd r _ => if (eff (u.removeEvent id) e).ym.events.any fun x => x.group == e.group then eff (u.removeEvent id) e
            else (eff (u.removeEvent id) e).at_ ((eff (u.removeEvent id) e).dpOf t) (.complete r .ok 0)
        | _, _ => eff (u.removeEvent id) e).keep = u.keep := by
      intro u
      have h : (eff (u.removeEvent id) e).keep = u.keep := (heff _ _).trans (State.removeEvent_keep _ _)
      split
      · split
        · exact h
        · exact (State.atCycle_keep _ _ _).trans h
      · exact h
    dsimp only
    split
    · exact go s
    · have hc := State.checkMembers_keep chk ((s.ym.events.filter fun x => x.group == e.group).foldl (fun l x => insertEvent x l) []) s
      split
      · rename_i s' h
        rw [h] at hc
        exact (go s').trans hc
      · exact State.dropGroup_keep _ _ _

-- Faults

theorem State.modCarrier_keep (s : State) (c : Fin 8) (f : Carrier → Carrier) : (State.modCarrier s c f).keep = s.keep := by
  unfold State.modCarrier
  try dsimp only
  repeat' simp only [State.keep_mk, State.keep_eta]

theorem State.setSiding_keep (s : State) (c : Fin 8) (ul : Bool) (x : Option Siding) : (State.setSiding s c ul x).keep = s.keep := by
  unfold State.setSiding
  try dsimp only
  repeat' first
    | simp only [State.keep_mk, State.keep_eta]
    | split

theorem State.modWcount_keep (s : State) (c : Fin 8) (f : WeightCount → WeightCount) : (State.modWcount s c f).keep = s.keep := by
  unfold State.modWcount
  try dsimp only
  repeat' simp only [State.modCarrier_keep]

theorem State.dropWork_keep (s : State) (b : Nat) : (State.dropWork s b).keep = s.keep := by
  unfold State.dropWork
  try dsimp only
  repeat' simp only [State.keep_mk, State.keep_eta]

theorem State.scrapSiding_keep (s : State) (c : Fin 8) (ul : Bool) : (State.scrapSiding s c ul).keep = s.keep := by
  unfold State.scrapSiding
  try dsimp only
  repeat' first
    | simp only [State.complete_keep, State.setSiding_keep, State.modWcount_keep, State.dropWork_keep]
    | refine (foldl_keep _ ?_ _ _).trans ?_
    | intro _
    | split

theorem State.scrapCarrier_keep (s : State) (c : Fin 8) : (State.scrapCarrier s c).keep = s.keep := by
  unfold State.scrapCarrier
  try dsimp only
  repeat' simp only [State.scrapSiding_keep]

theorem State.firstUse_keep (s : State) (c : Fin 8) : (State.firstUse s c).keep = s.keep := by
  unfold State.firstUse
  try dsimp only
  repeat' simp only [State.modCarrier_keep]

theorem State.discardBook_keep (s : State) (c : Fin 8) : (State.discardBook s c).keep = s.keep := by
  unfold State.discardBook
  try dsimp only
  repeat' simp only [State.keep_mk, State.keep_eta, State.firstUse_keep]

theorem State.dropWeights_keep (s : State) (seamless : Bool) : (State.dropWeights s seamless).keep = s.keep := by
  unfold State.dropWeights
  try dsimp only
  repeat' first
    | simp only [State.keep_mk, State.keep_eta, State.scrapCarrier_keep, State.discardBook_keep]
    | refine (foldl_keep _ ?_ _ _).trans ?_
    | intro _
    | split

theorem State.dropEvents_keep (s : State) (p : Event → Bool) : (State.dropEvents s p).keep = s.keep := by
  unfold State.dropEvents
  try dsimp only
  repeat' first
    | simp only [State.keep_mk, State.keep_eta, State.lateOpen_keep]
    | refine (foldl_keep _ ?_ _ _).trans ?_
    | intro _

theorem State.dropSection_keep (s : State) (x : Section) : (State.dropSection s x).keep = s.keep := by
  unfold State.dropSection
  try dsimp only
  repeat' simp only [State.keep_mk, State.keep_eta, State.dropEvents_keep]

theorem State.dropOccasion_keep (s : State) (x : Occasion) : (State.dropOccasion s x).keep = s.keep := by
  unfold State.dropOccasion
  try dsimp only
  repeat' simp only [State.abandonOcc_keep, State.dropEvents_keep]

theorem State.modPort_keep (s : State) (n : Fin 8) (f : Port → Port) : (State.modPort s n f).keep = s.keep := by
  unfold State.modPort
  try dsimp only
  repeat' simp only [State.keep_mk, State.keep_eta]

theorem State.countOutage_keep (s : State) (n : Nat) : (State.countOutage s n).keep = s.keep := by
  unfold State.countOutage
  try dsimp only
  repeat' first
    | simp only [State.modPort_keep]
    | split

theorem State.dropOutage_keep (s : State) (c : Fin 8) (a : Tick) (b : Option Tick) : (State.dropOutage s c a b).keep = s.keep := by
  unfold State.dropOutage
  try dsimp only
  repeat' first
    | simp only [State.keep_mk, State.keep_eta, State.dropSection_keep, State.dropOccasion_keep, State.countOutage_keep]
    | refine (foldl_keep _ ?_ _ _).trans ?_
    | intro _

theorem State.dropData_keep (s : State) (c : Fin 8) (a : Tick) (b : Option Tick) : (State.dropData s c a b).keep = s.keep := by
  unfold State.dropData
  try dsimp only
  repeat' first
    | simp only [State.keep_mk, State.keep_eta, State.countOutage_keep]
    | refine (foldl_keep _ ?_ _ _).trans ?_
    | intro _

theorem State.quiesce_keep (s : State) : (State.quiesce s).keep = s.keep := by
  unfold State.quiesce
  try dsimp only
  repeat' first
    | simp only [State.modCarrier_keep, State.dropWeights_keep, State.dropOutage_keep, State.dropData_keep]
    | refine (foldl_keep _ ?_ _ _).trans ?_
    | intro _
    | split

theorem State.postDpd_keep (s : State) (code index : Nat) : (State.postDpd s code index).keep = s.keep := by
  unfold State.postDpd
  try dsimp only
  repeat' simp only [State.postRec_keep]

theorem State.modOut_keep (s : State) (i : Fin 80) (f : OutCh → OutCh) : (State.modOut s i f).keep = s.keep := by
  unfold State.modOut
  try dsimp only
  repeat' simp only [State.keep_mk, State.keep_eta]

theorem State.modDpd_keep (s : State) (p : Fin 64) (f : Dpd → Dpd) : (State.modDpd s p f).keep = s.keep := by
  unfold State.modDpd
  try dsimp only
  repeat' simp only [State.keep_mk, State.keep_eta]

theorem State.capFail_keep (s : State) (p : Fin 64) : (State.capFail s p).keep = s.keep := by
  unfold State.capFail
  try dsimp only
  repeat' first
    | simp only [State.keep_mk, State.keep_eta, State.modDpd_keep]
    | split

theorem State.capDiscard_keep (s : State) (sel : Capture → Bool) : (State.capDiscard s sel).keep = s.keep := by
  unfold State.capDiscard
  try dsimp only
  repeat' first
    | simp only [State.keep_mk, State.keep_eta, State.complete_keep, State.capFail_keep]
    | refine (foldl_keep _ ?_ _ _).trans ?_
    | intro _
    | split

theorem State.capAbort_keep (s : State) (p : Fin 64) : (State.capAbort s p).keep = s.keep := by
  unfold State.capAbort
  try dsimp only
  repeat' simp only [State.capDiscard_keep]

theorem State.capMuted_keep (s : State) (p : Fin 64) (tx rx : Bool) : (State.capMuted s p tx rx).keep = s.keep := by
  unfold State.capMuted
  try dsimp only
  repeat' simp only [State.capDiscard_keep]

theorem State.modCalRec_keep (s : State) (k : CalKey) (f : CalRec → CalRec) : (State.modCalRec s k f).keep = s.keep := by
  unfold State.modCalRec
  try dsimp only
  repeat' first
    | simp only [State.keep_mk, State.keep_eta]
    | split

theorem State.calAborted_keep (s : State) (k : CalKey) : (State.calAborted s k).keep = s.keep := by
  unfold State.calAborted
  try dsimp only
  repeat' simp only [State.keep_mk, State.keep_eta, State.modCalRec_keep]

theorem State.retirePath_keep (s : State) (p : Fin 64) (cause : Nat) : (State.retirePath s p cause).keep = s.keep := by
  unfold State.retirePath
  try dsimp only
  repeat' first
    | simp only [State.postSpare_keep, State.ledgerPut_keep, State.modPath_keep, State.pathOff_keep, State.modOut_keep, State.capAbort_keep, State.calAborted_keep]
    | refine (foldl_keep _ ?_ _ _).trans ?_
    | intro _
    | split

theorem State.retirePaddock_keep (s : State) (k : Fin 8) (cause : Nat) : (State.retirePaddock s k cause).keep = s.keep := by
  unfold State.retirePaddock
  try dsimp only
  repeat' first
    | simp only [State.retirePath_keep]
    | refine (foldl_keep _ ?_ _ _).trans ?_
    | intro _

theorem State.retireSynth_keep (s : State) (i : Fin 16) (cause : Nat) : (State.retireSynth s i cause).keep = s.keep := by
  unfold State.retireSynth
  try dsimp only
  repeat' first
    | simp only [State.keep_mk, State.keep_eta, State.postSpare_keep, State.ledgerPut_keep, State.modSynth_keep, State.synthBegin_keep, State.retirePaddock_keep]
    | split

theorem State.obsSubstitute_keep (s : State) (k : Fin 8) (cause : Nat) : (State.obsSubstitute s k cause).keep = s.keep := by
  unfold State.obsSubstitute
  try dsimp only
  repeat' first
    | simp only [State.keep_mk, State.keep_eta, State.postSpare_keep, State.ledgerPut_keep, State.postDpd_keep, State.capAbort_keep]
    | refine (foldl_keep _ ?_ _ _).trans ?_
    | intro _

theorem State.noObserver_keep (s : State) (k : Fin 8) : (State.noObserver s k).keep = s.keep := by
  unfold State.noObserver
  try dsimp only
  repeat' first
    | simp only [State.keep_mk, State.keep_eta, State.modDpd_keep, State.capAbort_keep]
    | refine (foldl_keep _ ?_ _ _).trans ?_
    | intro _

theorem State.obsNone_keep (s : State) (k : Fin 8) : (State.obsNone s k).keep = s.keep := by
  unfold State.obsNone
  try dsimp only
  repeat' simp only [State.postDpd_keep, State.noObserver_keep]

theorem State.obsOff_keep (s : State) (k : Fin 8) (cause : Nat) : (State.obsOff s k cause).keep = s.keep := by
  unfold State.obsOff
  try dsimp only
  repeat' simp only [State.keep_mk, State.keep_eta, State.postSpare_keep, State.ledgerPut_keep, State.obsNone_keep]

theorem State.obs8Out_keep (s : State) (cause : Nat) : (State.obs8Out s cause).keep = s.keep := by
  unfold State.obs8Out
  try dsimp only
  repeat' first
    | simp only [State.keep_mk, State.keep_eta, State.postSpare_keep, State.ledgerPut_keep, State.obsNone_keep]
    | split

theorem State.coreSubstitute_keep (s : State) (c : Fin 9) (cause : Nat) : (State.coreSubstitute s c cause).keep = s.keep := by
  unfold State.coreSubstitute
  try dsimp only
  repeat' first
    | simp only [State.keep_mk, State.keep_eta, State.postSpare_keep, State.ledgerPut_keep, State.complete_keep]
    | split

theorem State.modBank_keep (s : State) (b : Nat) (f : BankRec → BankRec) : (State.modBank s b f).keep = s.keep := by
  unfold State.modBank
  try dsimp only
  repeat' simp only [State.keep_mk, State.keep_eta]

theorem State.repairRow_keep (s : State) (b : Nat) (row : BitVec 8) (cause : Nat) (t : State) (ht : State.repairRow s b row cause = some t) : t.keep = s.keep := by
  unfold State.repairRow at ht
  split at ht
  · cases ht
  · cases ht; rw [State.postSpare_keep, State.ledgerPut_keep, State.modBank_keep]

theorem State.enterSafe_keep (s : State) : (State.enterSafe s).keep = s.keep := by
  unfold State.enterSafe
  try dsimp only
  repeat' first
    | simp only [State.keep_mk, State.keep_eta, State.setFaultN_keep, State.quiesce_keep, State.capMuted_keep]
    | refine (foldl_keep _ ?_ _ _).trans ?_
    | intro _
    | split

theorem State.loseRow_keep (s : State) (b row : Nat) : (State.loseRow s b row).keep = s.keep := by
  have draw : ∀ (l : List Nat) (a : List (BitVec 32) × State), (l.foldl (fun (a : List (BitVec 32) × State) _ => let f := a.2.takeFree 32; (a.1 ++ [f.1], f.2)) a).2.keep = a.2.keep :=
    fun l a => foldl_keep_snd (fun (a : List (BitVec 32) × State) _ => let f := a.2.takeFree 32; (a.1 ++ [f.1], f.2)) (fun a _ => State.takeFree_keep a.2 32) l a
  unfold State.loseRow
  split
  · rfl
  · split
    · simp only [State.keep_mk, State.keep_eta, draw]
    · split
      · split
        · rfl
        · exact foldl_keep _ (fun u _ => by simp only [State.keep_mk, State.keep_eta, State.takeFree_keep]) _ _
      · rfl

set_option maxRecDepth 4000 in
theorem State.levelAction_keep (s : State) (f : HeldFault) : (State.levelAction s f).keep = s.keep := by
  have sp : ∀ (n : Nat) (u : State), u.keep = s.keep → (match u.repairRow n (s.bank n).bad f.code.code.toNat with | some t => t.loseRow n (s.bank n).bad.toNat | none => s).keep = s.keep := by
    intro n u hu
    split
    · rename_i t h; rw [State.loseRow_keep, State.repairRow_keep _ _ _ _ _ h, hu]
    · rfl
  unfold State.levelAction
  generalize hc : f.code.code.toNat = cause at sp ⊢
  dsimp only
  repeat' first
    | with_reducible rfl
    | exact sp _ s rfl
    | simp only [State.keep_mk, State.keep_eta, State.postSpare_keep, State.ledgerPut_keep, State.enterSafe_keep, State.retirePath_keep, State.retirePaddock_keep,
        State.retireSynth_keep, State.obs8Out_keep, State.obsSubstitute_keep, State.obsOff_keep, State.coreSubstitute_keep]
    | split

theorem State.abortOps_keep (s : State) (ops : List (BitVec 8)) : (State.abortOps s ops).keep = s.keep := by
  unfold State.abortOps
  try dsimp only
  repeat' first
    | simp only [State.complete_keep]
    | refine (foldl_keep _ ?_ _ _).trans ?_
    | intro _

theorem State.raiseFault_keep (s : State) (code : FCode) (res : Res) (level : Nat) : (State.raiseFault s code res level).keep = s.keep := by
  unfold State.raiseFault
  try dsimp only
  repeat' first
    | simp only [State.faultRec_keep, State.setHeld_keep, State.nextFaultId_keep, State.faultTrans_keep, State.enterFault_keep, State.levelAction_keep]
    | split

-- Modes

theorem State.postLink_keep (s : State) (n : Fin 8) (cause backup : Nat) : (State.postLink s n cause backup).keep = s.keep := by
  unfold State.postLink
  try dsimp only
  repeat' simp only [State.postRec_keep]

theorem State.clearNf_keep (s : State) (c : Fin 8) : (State.clearNf s c).keep = s.keep := by
  unfold State.clearNf
  try dsimp only
  repeat' simp only [State.keep_mk, State.keep_eta]

theorem State.removeCarrier_keep (s : State) (c : Fin 8) : (State.removeCarrier s c).keep = s.keep := by
  unfold State.removeCarrier
  try dsimp only
  repeat' first
    | simp only [State.keep_mk, State.keep_eta, State.modCarrier_keep, State.scrapCarrier_keep, State.discardBook_keep, State.dropSection_keep, State.dropOccasion_keep, State.clearNf_keep]
    | refine (foldl_keep _ ?_ _ _).trans ?_
    | intro _

theorem State.postRemoved_keep (s : State) (c : Fin 8) (m : Mode) : (State.postRemoved s c m).keep = s.keep := by
  unfold State.postRemoved
  try dsimp only
  repeat' simp only [State.postRec_keep]

theorem State.standbyPaths_keep (s : State) (k : Fin 8) : (State.standbyPaths s k).keep = s.keep := by
  unfold State.standbyPaths
  try dsimp only
  repeat' first
    | simp only [State.pathLater_keep]
    | refine (foldl_keep _ ?_ _ _).trans ?_
    | intro _
    | split

theorem State.preparePaddock_keep (s : State) (k : Fin 8) : (State.preparePaddock s k).keep = s.keep := by
  unfold State.preparePaddock
  try dsimp only
  repeat' first
    | simp only [State.synthBegin_keep, State.standbyPaths_keep]
    | split

theorem State.prepareCarrier_keep (s : State) (c : Fin 8) : (State.prepareCarrier s c).keep = s.keep := by
  unfold State.prepareCarrier
  try dsimp only
  repeat' first
    | simp only [State.preparePaddock_keep]
    | refine (foldl_keep _ ?_ _ _).trans ?_
    | intro _

theorem State.applyActive_keep (s : State) : (State.applyActive s).keep = s.keep := by
  unfold State.applyActive
  try dsimp only
  repeat' first
    | simp only [State.modPath_keep, State.pathBegin_keep, State.modOut_keep]
    | refine (foldl_keep _ ?_ _ _).trans ?_
    | intro _
    | split

-- LinOps

theorem State.hkCompare_keep (s : State) (ch : Fin 184) : (State.hkCompare s ch).keep = s.keep := by
  unfold State.hkCompare
  try dsimp only
  repeat' first
    | simp only [State.keep_mk, State.keep_eta, State.postSup_keep, State.capMuted_keep]
    | refine (foldl_keep _ ?_ _ _).trans ?_
    | intro _
    | split

theorem State.readPaTemp_keep (s : State) (p : Fin 64) : (State.readPaTemp s p).keep = s.keep := by
  unfold State.readPaTemp
  try dsimp only
  repeat' first
    | simp only [State.keep_mk, State.keep_eta, State.takeFree_keep, State.modDpd_keep, State.hkCompare_keep]
    | split

theorem State.touchKey_keep (s : State) (k : DpdKey) : (State.touchKey s k).keep = s.keep := by
  unfold State.touchKey
  try dsimp only
  repeat' simp only [State.keep_mk, State.keep_eta]

theorem State.coldStart_keep (s : State) (p : Fin 64) : (State.coldStart s p).keep = s.keep := by
  unfold State.coldStart
  try dsimp only
  repeat' simp only [State.modDpd_keep]

theorem State.seedDpd_keep (s : State) (p : Fin 64) : (State.seedDpd s p).keep = s.keep := by
  unfold State.seedDpd
  try dsimp only
  repeat' first
    | simp only [State.modDpd_keep, State.readPaTemp_keep, State.touchKey_keep, State.coldStart_keep]
    | split

theorem State.calDone_keep (s : State) (k : CalKey) : (State.calDone s k).keep = s.keep := by
  unfold State.calDone
  try dsimp only
  repeat' simp only [State.takeFree_keep, State.modCalRec_keep]

theorem State.calWhole_keep (s : State) (k : CalKey) (x : List Int) : (State.calWhole s k x).keep = s.keep := by
  unfold State.calWhole
  try dsimp only
  repeat' simp only [State.keep_mk, State.keep_eta]

theorem State.calMove_keep (s : State) (k : CalKey) (x : List Int) : (State.calMove s k x).keep = s.keep := by
  unfold State.calMove
  try dsimp only
  repeat' simp only [State.keep_mk, State.keep_eta]

theorem State.calSettle_keep (s : State) : (State.calSettle s).keep = s.keep := by
  unfold State.calSettle
  try dsimp only
  repeat' first
    | simp only [State.keep_mk, State.keep_eta, State.calWhole_keep, State.calMove_keep]
    | refine (foldl_keep _ ?_ _ _).trans ?_
    | intro _
    | split

theorem State.calTouch_keep (s : State) (p : Profile) (lo : BitVec 32) : (State.calTouch s p lo).keep = s.keep := by
  unfold State.calTouch
  try dsimp only
  repeat' first
    | simp only [State.keep_mk, State.keep_eta]
    | split

theorem State.calRestore_keep (s : State) (keys : List CalKey) (auto : Bool) : (State.calRestore s keys auto).keep = s.keep := by
  unfold State.calRestore
  try dsimp only
  repeat' first
    | simp only [State.keep_mk, State.keep_eta, State.takeFree_keep, State.modCalRec_keep, State.calDone_keep, State.calWhole_keep, State.calTouch_keep]
    | refine (foldl_keep _ ?_ _ _).trans ?_
    | refine (foldl_keep_snd _ ?_ _ _).trans ?_
    | intro _
    | split

theorem State.calStoreLo_keep (s : State) (lo : BitVec 32) (rs : List (CalKey × List Int)) (cmd : Option CmdRef) (bg : Bool) : (State.calStoreLo s lo rs cmd bg).keep = s.keep := by
  unfold State.calStoreLo
  try dsimp only
  repeat' first
    | simp only [State.keep_mk, State.keep_eta, State.postCal_keep, State.tackPut_keep, State.modCalRec_keep]
    | refine (foldl_keep _ ?_ _ _).trans ?_
    | intro _
    | split

theorem State.calStore_keep (s : State) (keys : List CalKey) (cmd : Option CmdRef) (bg : Bool) : (State.calStore s keys cmd bg).keep = s.keep := by
  unfold State.calStore
  try dsimp only
  repeat' first
    | simp only [State.calStoreLo_keep]
    | refine (foldl_keep _ ?_ _ _).trans ?_
    | intro _

theorem State.calStoreDev_keep (s : State) (keys : List CalKey) (cmd : CmdRef) : (State.calStoreDev s keys cmd).keep = s.keep := by
  unfold State.calStoreDev
  try dsimp only
  repeat' first
    | simp only [State.keep_mk, State.keep_eta, State.tackPut_keep]
    | split

theorem State.obsEntry_keep (s : State) (p : Fin 64) : (State.obsEntry s p).keep = s.keep := by
  unfold State.obsEntry
  try dsimp only
  repeat' first
    | simp only [State.pathBegin_keep]
    | split

theorem State.calRunBegin_keep (s : State) (r : CalRun) : (State.calRunBegin s r).keep = s.keep := by
  unfold State.calRunBegin
  try dsimp only
  repeat' first
    | simp only [State.synthBegin_keep, State.obsEntry_keep]
    | refine (foldl_keep _ ?_ _ _).trans ?_
    | intro _
    | split

theorem State.calPathDone_keep (s : State) (p : Fin 64) : (State.calPathDone s p).keep = s.keep := by
  unfold State.calPathDone
  try dsimp only
  repeat' first
    | simp only [State.pathBegin_keep]
    | split

theorem State.calStarts_keep (s : State) : (State.calStarts s).keep = s.keep := by
  unfold State.calStarts
  try dsimp only
  repeat' first
    | simp only [State.keep_mk, State.keep_eta]
    | refine (foldl_keep _ ?_ _ _).trans ?_
    | intro _
    | split

theorem State.calRunSweep_keep (s : State) : (State.calRunSweep s).keep = s.keep := by
  unfold State.calRunSweep
  try dsimp only
  repeat' first
    | simp only [State.keep_mk, State.keep_eta, State.finish_keep, State.calStore_keep, State.calStoreDev_keep, State.calRunBegin_keep, State.calStarts_keep]
    | refine (foldl_keep _ ?_ _ _).trans ?_
    | intro _
    | split

theorem State.calRunMet_keep (s : State) (k : CalKey) (ok : Bool) : (State.calRunMet s k ok).keep = s.keep := by
  unfold State.calRunMet
  try dsimp only
  repeat' first
    | simp only [State.keep_mk, State.keep_eta, State.calRunBegin_keep, State.calPathDone_keep, State.calRunSweep_keep]
    | refine (foldl_keep _ ?_ _ _).trans ?_
    | intro _
    | split

-- Flags

theorem State.rcView_keep (s : State) : (State.rcView s).keep = s.keep := by
  unfold State.rcView
  try dsimp only
  repeat' simp only [State.keep_mk, State.keep_eta]

theorem State.regClear_keep (s : State) (a : Nat) : (State.regClear s a).keep = s.keep := by
  unfold State.regClear
  try dsimp only
  repeat' first
    | simp only [State.keep_mk, State.keep_eta]
    | split

theorem State.wrVal_keep (s : State) (old v mask reserved : BitVec 32) : (State.wrVal s old v mask reserved).2.keep = s.keep := by
  unfold State.wrVal
  try dsimp only
  repeat' first
    | simp only [State.takeFree_keep]
    | split

theorem State.writeOffset_keep (s : State) (v mask : BitVec 32) : (State.writeOffset s v mask).2.keep = s.keep := by
  unfold State.writeOffset
  try dsimp only
  repeat' first
    | simp only [State.keep_mk, State.keep_eta, State.rebase_keep]
    | split

theorem State.writeWakeCfg_keep (s : State) (v mask : BitVec 32) : (State.writeWakeCfg s v mask).keep = s.keep := by
  unfold State.writeWakeCfg
  try dsimp only
  repeat' first
    | simp only [State.keep_mk, State.keep_eta, State.wrVal_keep]
    | split

theorem State.writeWakeFail_keep (s : State) (v : BitVec 32) : (State.writeWakeFail s v).keep = s.keep := by
  unfold State.writeWakeFail
  try dsimp only
  repeat' first
    | simp only [State.keep_mk, State.keep_eta, State.takeFree_keep]
    | split

theorem State.writeRetry_keep (s : State) (v : BitVec 32) : (State.writeRetry s v).keep = s.keep := by
  unfold State.writeRetry
  try dsimp only
  repeat' first
    | simp only [State.keep_mk, State.keep_eta, State.setFaultN_keep, State.wrVal_keep]
    | split

theorem State.writeDpByp_keep (s : State) (on : Bool) : (State.writeDpByp s on).keep = s.keep := by
  unfold State.writeDpByp
  try dsimp only
  repeat' first
    | simp only [State.keep_mk, State.keep_eta]
    | split

theorem State.writeMeter_keep (s : State) (v mask : BitVec 32) : (State.writeMeter s v mask).keep = s.keep := by
  unfold State.writeMeter
  try dsimp only
  repeat' simp only [State.keep_mk, State.keep_eta, State.wrVal_keep]

theorem State.writeLaneEq_keep (s : State) (l : Fin 32) (v mask : BitVec 32) : (State.writeLaneEq s l v mask).keep = s.keep := by
  unfold State.writeLaneEq
  try dsimp only
  repeat' first
    | simp only [State.keep_mk, State.keep_eta, State.takeFree_keep, State.wrVal_keep]
    | split

theorem State.regWrite_keep (s : State) (a : Nat) (v mask : BitVec 32) : (State.regWrite s a v mask).2.keep = s.keep := by
  unfold State.regWrite
  try dsimp only
  repeat' first
    | simp only [State.keep_mk, State.keep_eta, State.takeFree_keep, State.wrVal_keep, State.writeOffset_keep, State.writeWakeCfg_keep, State.writeWakeFail_keep, State.writeRetry_keep, State.writeDpByp_keep, State.writeMeter_keep, State.writeLaneEq_keep]
    | split

theorem State.regRead_keep (s : State) (a : Nat) (r : BitVec 32 × State) (h : s.regRead a = some r) : r.2.keep = s.keep := by
  unfold State.regRead at h
  cases hf : s.rcView.regFlds a with
  | none => rw [hf] at h; cases h
  | some f =>
    rw [hf] at h
    simp only [Option.map_some, Option.some.injEq] at h
    subst h
    simp only [State.regClear_keep, State.reg32_keep]

theorem State.cmdRegRead_keep (s : State) (c : CmdRef) (a : Nat) : (State.cmdRegRead s c a).keep = s.keep := by
  unfold State.cmdRegRead
  split
  · exact State.complete_keep _ _ _ _
  · split
    · exact State.complete_keep _ _ _ _
    · split
      · rename_i r h; exact (State.complete_keep _ _ _ _).trans (State.regRead_keep _ _ _ h)
      · exact State.complete_keep _ _ _ _

theorem State.cmdRegWrite_keep (s : State) (c : CmdRef) (a : Nat) (v mask : BitVec 32) : (State.cmdRegWrite s c a v mask).keep = s.keep := by
  unfold State.cmdRegWrite
  try dsimp only
  repeat' first
    | simp only [State.complete_keep, State.regWrite_keep]
    | split

-- Power

theorem State.startWake_keep (s : State) (src : Nat) : (State.startWake s src).keep = s.keep := by
  unfold State.startWake
  try dsimp only
  repeat' first
    | simp only [State.keep_mk, State.keep_eta]
    | split

theorem State.postPwr_keep (s : State) (code : Nat) (st : PwrState) (point source path : Nat) : (State.postPwr s code st point source path).keep = s.keep := by
  unfold State.postPwr
  try dsimp only
  repeat' simp only [State.postRec_keep]

theorem State.cancelAlarm_keep (s : State) : (State.cancelAlarm s).keep = s.keep := by
  unfold State.cancelAlarm
  try dsimp only
  repeat' simp only [State.keep_mk, State.keep_eta]

theorem State.abandoned_keep (s : State) (point : Nat) (src : BitVec 4) : (State.abandoned s point src).keep = s.keep := by
  unfold State.abandoned
  try dsimp only
  repeat' first
    | simp only [State.keep_mk, State.keep_eta, State.complete_keep, State.startWake_keep, State.postPwr_keep, State.cancelAlarm_keep]
    | split

theorem State.wake_keep (s : State) (src : Nat) (port : Nat) : (State.wake s src port).keep = s.keep := by
  unfold State.wake
  try dsimp only
  repeat' first
    | simp only [State.keep_mk, State.keep_eta, State.startWake_keep, State.abandoned_keep]
    | split

-- Shu

theorem State.modChan_keep (s : State) (i : Fin 16) (f : ShuChan → ShuChan) : (State.modChan s i f).keep = s.keep := by
  unfold State.modChan
  try dsimp only
  repeat' simp only [State.keep_mk, State.keep_eta]

theorem State.stopsDone_keep (s : State) (cs : List CmdRef) : (State.stopsDone s cs).keep = s.keep := by
  unfold State.stopsDone
  try dsimp only
  repeat' first
    | simp only [State.complete_keep]
    | refine (foldl_keep _ ?_ _ _).trans ?_
    | intro _
    | split

theorem State.shuReset_keep (s : State) : (State.shuReset s).keep = s.keep := by
  unfold State.shuReset
  try dsimp only
  repeat' simp only [State.keep_mk, State.keep_eta, State.stopsDone_keep]

-- FamHost

theorem State.readNamed_keep (s : State) (c : Cmd) (a : Nat) : (State.readNamed s c a).keep = s.keep := by
  unfold State.readNamed
  try dsimp only
  repeat' first
    | simp only [State.cmdRegRead_keep]
    | refine (State.hostCmd_keep _ _ _ _ _ ?_).trans ?_
    | intro _

theorem State.writeNamed_keep (s : State) (c : Cmd) (a : Nat) (sel : BitVec 32 → BitVec 32 → Bool) : (State.writeNamed s c a sel).keep = s.keep := by
  unfold State.writeNamed
  try dsimp only
  repeat' first
    | simp only [State.cmdRegWrite_keep]
    | refine (State.hostCmd_keep _ _ _ _ _ ?_).trans ?_
    | intro _

theorem State.fenceOutAll_keep (s : State) (n : Fin 16) : (State.fenceOutAll s n).keep = s.keep := by
  unfold State.fenceOutAll
  try dsimp only
  repeat' first
    | simp only [State.complete_keep]
    | refine (foldl_keep _ ?_ _ _).trans ?_
    | intro _

theorem State.badAccess_keep (s : State) : (State.badAccess s).keep = s.keep := by
  unfold State.badAccess
  try dsimp only
  repeat' simp only [State.keep_mk, State.keep_eta]

theorem State.barRead_keep (s : State) (a : Nat) : (State.barRead s a).keep = s.keep := by
  unfold State.barRead
  split
  · rename_i r h; exact (State.emit_keep _ _).trans (State.regRead_keep _ _ _ h)
  · rfl

theorem State.badDoorbell_keep (s : State) (idx : Nat) : (State.badDoorbell s idx).keep = s.keep := by
  unfold State.badDoorbell
  try dsimp only
  repeat' simp only [State.hostFault_keep, State.badAccess_keep]

theorem State.releaseDone_keep (s : State) (n : Fin 16) : (State.releaseDone s n).keep = s.keep := by
  unfold State.releaseDone
  try dsimp only
  repeat' first
    | simp only [State.postRing_keep, State.modRing_keep]
    | split

theorem State.signalEvents_keep (s : State) : (State.signalEvents s).keep = s.keep := by
  unfold State.signalEvents
  try dsimp only
  repeat' simp only [State.keep_mk, State.keep_eta, State.sendMsix_keep]

theorem State.resetFaultCore_keep (s : State) (f : HeldFault) : (State.resetFaultCore s f).keep = s.keep := by
  unfold State.resetFaultCore
  try dsimp only
  repeat' first
    | simp only [State.keep_mk, State.keep_eta]
    | split

-- FamRadio

theorem State.statusCmd_keep (s : State) (c : Cmd) (op : BitVec 8) (bits : Nat) (f : Slot → State) (hf : ∀ (x0 : Slot), (f x0).keep = s.keep) : (State.statusCmd s c op bits f).keep = s.keep := by
  unfold State.statusCmd
  try dsimp only
  repeat' first
    | simp only [State.complete_keep]
    | rw [hf]
    | refine (State.hostCmd_keep _ _ _ _ _ ?_).trans ?_
    | intro _
    | split

theorem State.synthRetuneCmd_keep (s : State) (c : Cmd) (x : Slot) (mk : State → BitVec 320 → Fin 16 → Option SynthOp) : (State.synthRetuneCmd s c x mk).keep = s.keep := by
  unfold State.synthRetuneCmd
  try dsimp only
  repeat' first
    | simp only [State.complete_keep]
    | refine (State.presentCmd_keep _ _ _ _ _ _ ?_).trans ?_
    | intro _
    | split
    | rfl

theorem State.pinCmd_keep (s : State) (c : Cmd) (x : Slot) (on : Bool) : (State.pinCmd s c x on).keep = s.keep := by
  unfold State.pinCmd
  try dsimp only
  repeat' first
    | simp only [State.tackPut_keep, State.complete_keep, State.finish_keep, State.modSynth_keep]
    | refine (foldl_keep _ ?_ _ _).trans ?_
    | intro _
    | split

theorem State.synthRecord_keep (s : State) (i : Fin 16) : (State.synthRecord s i).2.keep = s.keep := by
  unfold State.synthRecord
  try dsimp only
  repeat' simp only [State.record_keep]

theorem State.presetRecord_keep (s : State) (q : Preset) : (State.presetRecord s q).2.keep = s.keep := by
  unfold State.presetRecord
  try dsimp only
  repeat' simp only [State.record_keep]

theorem State.pathConfig_keep (s : State) (c : Cmd) (x : Slot) (mk : BitVec 64 → CfgChange) : (State.pathConfig s c x mk).keep = s.keep := by
  unfold State.pathConfig
  try dsimp only
  repeat' first
    | simp only [State.complete_keep, State.finish_keep]
    | refine (State.presentCmd_keep _ _ _ _ _ _ ?_).trans ?_
    | intro _
    | split
    | rfl

theorem State.pathRecord_keep (s : State) (detail : Bool) (p : Fin 64) : (State.pathRecord s detail p).2.keep = s.keep := by
  unfold State.pathRecord
  try dsimp only
  repeat' first
    | simp only [State.record_keep]
    | split

theorem State.synthRelease_keep (s : State) (id : Nat) (k : Kind) (chk : State → Event → Option (Cause × Res)) (eff : State → Event → State) (heff : ∀ (x0 : State) (x1 : Event), (eff x0 x1).keep = x0.keep) : (State.synthRelease s id k chk eff).keep = s.keep := by
  unfold State.synthRelease
  try dsimp only
  repeat' first
    | assumption
    | simp only [State.complete_keep, State.withdrawGroup_keep]
    | refine (State.release_keep _ _ _ _ _ ?_).trans ?_
    | split

theorem State.hopNow_keep (s : State) (k : Fin 8) (b : Bool) : (State.hopNow s k b).keep = s.keep := by
  unfold State.hopNow
  try dsimp only
  repeat' first
    | simp only [State.keep_mk, State.keep_eta, State.synthBegin_keep]
    | split

theorem State.phaseTaken_keep (s : State) (i : Fin 16) : (State.phaseTaken s i).keep = s.keep := by
  unfold State.phaseTaken
  try dsimp only
  repeat' first
    | simp only [State.calWhole_keep]
    | split

theorem State.recoverSynth_keep (s : State) (i : Fin 16) : (State.recoverSynth s i).keep = s.keep := by
  unfold State.recoverSynth
  try dsimp only
  repeat' simp only [State.synthBegin_keep]

-- FamYard

theorem State.phaseSyncNow_keep (s : State) : (State.phaseSyncNow s).keep = s.keep := by
  unfold State.phaseSyncNow
  try dsimp only
  repeat' first
    | simp only [State.keep_mk, State.keep_eta, State.synthBegin_keep]
    | refine (foldl_keep _ ?_ _ _).trans ?_
    | intro _
    | split

-- Mutes

theorem State.autoMute_keep (s : State) (p : Fin 64) (tx on : Bool) (due : Tick) : (State.autoMute s p tx on due).keep = s.keep := by
  unfold State.autoMute
  try dsimp only
  repeat' simp only [State.present_keep]

theorem State.unmuteFor_keep (s : State) (p : Fin 64) (tx : Bool) (a : Tick) : (State.unmuteFor s p tx a).keep = s.keep := by
  unfold State.unmuteFor
  try dsimp only
  repeat' first
    | simp only [State.removeEvent_keep, State.autoMute_keep]
    | split

theorem State.muteAfter_keep (s : State) (p : Fin 64) (tx : Bool) (b : Tick) : (State.muteAfter s p tx b).keep = s.keep := by
  unfold State.muteAfter
  try dsimp only
  repeat' first
    | simp only [State.removeEvent_keep, State.autoMute_keep]
    | split

theorem State.dormantNeed_keep (s : State) (p : Fin 64) (tx : Bool) (a b : Tick) : (State.dormantNeed s p tx a b).keep = s.keep := by
  unfold State.dormantNeed
  try dsimp only
  repeat' first
    | simp only [State.unmuteFor_keep, State.muteAfter_keep]
    | split

theorem State.dormantEnter_keep (s : State) : (State.dormantEnter s).keep = s.keep := by
  unfold State.dormantEnter
  try dsimp only
  repeat' first
    | simp only [State.modPath_keep, State.muteAfter_keep, State.dormantNeed_keep]
    | refine (foldl_keep _ ?_ _ _).trans ?_
    | intro _
    | split

theorem State.dormantLeave_keep (s : State) : (State.dormantLeave s).keep = s.keep := by
  unfold State.dormantLeave
  try dsimp only
  repeat' simp only [State.keep_mk, State.keep_eta]

-- FamMode

theorem State.bringupPorts_keep (s : State) : (State.bringupPorts s).keep = s.keep := by
  unfold State.bringupPorts
  try dsimp only
  repeat' first
    | simp only [State.modPort_keep, State.postLink_keep]
    | refine (foldl_keep _ ?_ _ _).trans ?_
    | intro _
    | split

theorem State.modeTake_keep (s : State) (t : Transition) (p : ModePlan) : (State.modeTake s t p).keep = s.keep := by
  unfold State.modeTake
  try dsimp only
  repeat' simp only [State.keep_mk, State.keep_eta]

theorem State.modeOutage_keep (s : State) (t : Transition) : (State.modeOutage s t).keep = s.keep := by
  unfold State.modeOutage
  try dsimp only
  repeat' first
    | simp only [State.modCarrier_keep, State.dropOutage_keep, State.dropData_keep]
    | refine (foldl_keep _ ?_ _ _).trans ?_
    | intro _
    | split

theorem State.modeArray_keep (s : State) (t : Transition) : (State.modeArray s t).keep = s.keep := by
  unfold State.modeArray
  try dsimp only
  repeat' first
    | simp only [State.keep_mk, State.keep_eta]
    | split

theorem State.modeTune_keep (s : State) (p : ModePlan) : (State.modeTune s p).keep = s.keep := by
  unfold State.modeTune
  try dsimp only
  repeat' first
    | simp only [State.synthBegin_keep, State.present_keep, State.calAborted_keep, State.prepareCarrier_keep]
    | refine (foldl_keep _ ?_ _ _).trans ?_
    | intro _
    | split

theorem State.modeStart_keep (s : State) (t : Transition) : (State.modeStart s t).keep = s.keep := by
  unfold State.modeStart
  extract_lets p out t1 s1 s2 s3 s4 s5 q s6 s7
  have h2 : s2.keep = s.keep := (foldl_keep _ (fun s c => by rw [State.postRemoved_keep, State.removeCarrier_keep]) _ _).trans (State.dropWeights_keep _ _)
  have h3 : s3.keep = s2.keep := (State.modeOutage_keep _ _).trans (State.modeTake_keep _ _ _)
  have h4 : s4.keep = s3.keep := by
    show (if _ then s3.bringupPorts else s3).keep = _
    split
    · exact State.bringupPorts_keep _
    · rfl
  have h5 : s5.keep = s4.keep := (State.applyActive_keep _).trans (State.modeArray_keep _ _)
  have h6 : s6.keep = s5.keep := by simp only [s6, State.keep_mk, State.keep_eta]
  have h7 : s7.keep = s6.keep := by
    show (if t1.target = .dormant then s6.dormantEnter else if t1.fromMode = .dormant then s6.dormantLeave else s6).keep = _
    split
    · exact State.dormantEnter_keep _
    · split
      · exact State.dormantLeave_keep _
      · rfl
  have h : s7.keep = s.keep := by rw [h7, h6, h5, h4, h3, h2]
  clear_value s7
  split
  · exact h
  · exact (State.modeTune_keep _ _).trans h

theorem State.modeStartNow_keep (s : State) : (State.modeStartNow s).keep = s.keep := by
  unfold State.modeStartNow
  try dsimp only
  repeat' first
    | simp only [State.keep_mk, State.keep_eta, State.complete_keep, State.modeStart_keep]
    | split

theorem State.postMode_keep (s : State) (t : Transition) (st : Status) (f : Fld) : (State.postMode s t st f).keep = s.keep := by
  unfold State.postMode
  try dsimp only
  repeat' simp only [State.postRec_keep]

theorem State.modeFail_keep (s : State) (t : Transition) (st : Status) : (State.modeFail s t st).keep = s.keep := by
  unfold State.modeFail
  try dsimp only
  repeat' first
    | simp only [State.keep_mk, State.keep_eta, State.complete_keep, State.modCarrier_keep, State.dropOutage_keep, State.dropData_keep, State.applyActive_keep, State.dormantLeave_keep, State.postMode_keep]
    | refine (foldl_keep _ ?_ _ _).trans ?_
    | intro _
    | split

theorem State.resumeTraffic_keep (s : State) (t : Tick) : (State.resumeTraffic s t).keep = s.keep := by
  unfold State.resumeTraffic
  try dsimp only
  repeat' first
    | simp only [State.keep_mk, State.keep_eta, State.modCarrier_keep]
    | refine (foldl_keep _ ?_ _ _).trans ?_
    | intro _
    | split

-- FamDpd

theorem State.dpdCtrl_keep (s : State) (c : Cmd) (op : Nat) (calOnly : Bool) (f : State → Fin 64 → State) (last : State → State) (hf : ∀ (x0 : State) (x1 : Fin 64), (f x0 x1).keep = x0.keep) (hlast : ∀ (x0 : State), (last x0).keep = x0.keep) : (State.dpdCtrl s c op calOnly f last).keep = s.keep := by
  unfold State.dpdCtrl
  try dsimp only
  repeat' first
    | assumption
    | simp only [State.complete_keep, State.finish_keep]
    | rw [hlast]
    | refine (State.hostCmd_keep _ _ _ _ _ ?_).trans ?_
    | refine (foldl_keep _ ?_ _ _).trans ?_
    | intro _
    | split

theorem State.eraseSets_keep (s : State) (p : Fin 64) : (State.eraseSets s p).keep = s.keep := by
  unfold State.eraseSets
  try dsimp only
  repeat' simp only [State.keep_mk, State.keep_eta]

theorem State.freeBytes_keep (s : State) (n : Nat) : (State.freeBytes s n).2.keep = s.keep := by
  unfold State.freeBytes
  try dsimp only
  repeat' simp only [State.keep_mk, State.keep_eta]

theorem State.activeSetRec_keep (s : State) (p : Fin 64) : (State.activeSetRec s p).2.keep = s.keep := by
  unfold State.activeSetRec
  try dsimp only
  repeat' first
    | simp only [State.record_keep, State.freeBytes_keep]
    | split

theorem State.storedSetRec_keep (s : State) (p : Fin 64) (k : Option DpdKey) (x : Option DpdSet) : (State.storedSetRec s p k x).2.keep = s.keep := by
  unfold State.storedSetRec
  try dsimp only
  repeat' first
    | simp only [State.record_keep, State.freeBytes_keep]
    | split

theorem State.dpdRead_keep (s : State) (c : Cmd) (op : Nat) (f : State → Fin 64 → Nat → Bytes × State) (hf : ∀ (x0 : State) (x1 : Fin 64) (x2 : Nat), (f x0 x1 x2).2.keep = x0.keep) : (State.dpdRead s c op f).keep = s.keep := by
  unfold State.dpdRead
  try dsimp only
  repeat' first
    | simp only [State.complete_keep, State.finish_keep, State.hostPut_keep]
    | rw [hf]
    | refine (State.hostCmd_keep _ _ _ _ _ ?_).trans ?_
    | refine (foldl_keep_snd _ ?_ _ _).trans ?_
    | intro _
    | split

theorem State.dpdRecord_keep (s : State) (p : Fin 64) : (State.dpdRecord s p).2.keep = s.keep := by
  unfold State.dpdRecord
  try dsimp only
  repeat' simp only [State.record_keep]

theorem State.modOwner_keep (s : State) (k : Fin 8) (f : CapOwner → CapOwner) : (State.modOwner s k f).keep = s.keep := by
  unfold State.modOwner
  try dsimp only
  repeat' simp only [State.keep_mk, State.keep_eta]

theorem State.capDecide_keep (s : State) (k : Fin 8) : (State.capDecide s k).keep = s.keep := by
  unfold State.capDecide
  try dsimp only
  repeat' first
    | simp only [State.modOwner_keep]
    | split

theorem State.capSeek_keep (s : State) (k : Fin 8) (p : Fin 64) : (State.capSeek s k p).keep = s.keep := by
  unfold State.capSeek
  try dsimp only
  repeat' first
    | simp only [State.present_keep, State.capFail_keep, State.modOwner_keep]
    | split

theorem State.captureBegin_keep (s : State) (e : Event) : (State.captureBegin s e).keep = s.keep := by
  unfold State.captureBegin
  try dsimp only
  repeat' first
    | simp only [State.keep_mk, State.keep_eta]
    | split

theorem State.storeSet_keep (s : State) (p : Fin 64) : (State.storeSet s p).keep = s.keep := by
  unfold State.storeSet
  try dsimp only
  repeat' first
    | simp only [State.keep_mk, State.keep_eta, State.tackPut_keep, State.touchKey_keep]
    | split

theorem State.capConverged_keep (s : State) (p : Fin 64) (res : BitVec 16) : (State.capConverged s p res).keep = s.keep := by
  unfold State.capConverged
  try dsimp only
  repeat' first
    | simp only [State.modDpd_keep, State.storeSet_keep]
    | split

theorem State.capNotConverged_keep (s : State) (p : Fin 64) : (State.capNotConverged s p).keep = s.keep := by
  unfold State.capNotConverged
  try dsimp only
  repeat' first
    | simp only [State.postDpd_keep, State.modDpd_keep]
    | split

theorem State.capLearn_keep (s : State) (p : Fin 64) (c : Capture) (y : List (Int × Int)) : (State.capLearn s p c y).keep = s.keep := by
  unfold State.capLearn
  try dsimp only
  repeat' first
    | simp only [State.keep_mk, State.keep_eta, State.modDpd_keep, State.capConverged_keep, State.capNotConverged_keep]
    | split

theorem State.dropAdaptJob_keep (s : State) (p : Fin 64) (fin : Nat) : (State.dropAdaptJob s p fin).keep = s.keep := by
  unfold State.dropAdaptJob
  try dsimp only
  repeat' simp only [State.keep_mk, State.keep_eta]

theorem State.adaptOver_keep (s : State) (p : Fin 64) (fin : Nat) : (State.adaptOver s p fin).keep = s.keep := by
  unfold State.adaptOver
  try dsimp only
  repeat' simp only [State.modDpd_keep, State.dropAdaptJob_keep]

theorem State.adaptDrop_keep (s : State) (p : Fin 64) (fin : Nat) : (State.adaptDrop s p fin).keep = s.keep := by
  unfold State.adaptDrop
  try dsimp only
  repeat' simp only [State.modDpd_keep, State.adaptOver_keep]

theorem State.adaptPublish_keep (s : State) (p : Fin 64) (set : CoefSet) : (State.adaptPublish s p set).keep = s.keep := by
  unfold State.adaptPublish
  try dsimp only
  repeat' simp only [State.modDpd_keep]

theorem State.blendStep_keep (s : State) (p : Fin 64) : (State.blendStep s p).keep = s.keep := by
  unfold State.blendStep
  try dsimp only
  repeat' first
    | simp only [State.keep_mk, State.keep_eta, State.modDpd_keep]
    | split

theorem State.rampStep_keep (s : State) (p : Fin 64) : (State.rampStep s p).keep = s.keep := by
  unfold State.rampStep
  try dsimp only
  repeat' first
    | simp only [State.postDpd_keep, State.modDpd_keep]
    | split

-- FamCal

theorem State.lend_keep (s : State) (p : Fin 64) : (State.lend s p).keep = s.keep := by
  unfold State.lend
  try dsimp only
  repeat' simp only [State.modPath_keep, State.obsEntry_keep]

theorem State.lbistRejoin_keep (s : State) (p : Fin 64) : (State.lbistRejoin s p).keep = s.keep := by
  unfold State.lbistRejoin
  try dsimp only
  repeat' first
    | simp only [State.keep_mk, State.keep_eta, State.complete_keep]
    | refine (foldl_keep _ ?_ _ _).trans ?_
    | intro _
    | split

theorem State.phasePreset_keep (s : State) (k : CalKey) (x : List Int) : (State.phasePreset s k x).keep = s.keep := by
  unfold State.phasePreset
  try dsimp only
  repeat' first
    | simp only [State.tackPut_keep, State.modSynth_keep]
    | split

theorem State.calInvalidates_keep (s : State) (k : CalKey) : (State.calInvalidates s k).keep = s.keep := by
  unfold State.calInvalidates
  try dsimp only
  repeat' first
    | simp only [State.keep_mk, State.keep_eta]
    | split

theorem State.calWait_keep (s : State) (k : CalKey) (x : List Int) : (State.calWait s k x).keep = s.keep := by
  unfold State.calWait
  try dsimp only
  repeat' simp only [State.keep_mk, State.keep_eta]

theorem State.calEnter_keep (s : State) (k : CalKey) (x : List Int) : (State.calEnter s k x).keep = s.keep := by
  unfold State.calEnter
  try dsimp only
  repeat' first
    | simp only [State.calWhole_keep, State.calMove_keep, State.phasePreset_keep, State.calInvalidates_keep, State.calWait_keep]
    | split

theorem State.calFailed_keep (s : State) (k : CalKey) (fore : Bool) : (State.calFailed s k fore).keep = s.keep := by
  unfold State.calFailed
  try dsimp only
  repeat' first
    | simp only [State.keep_mk, State.keep_eta, State.modCalRec_keep, State.raiseFault_keep, State.calRunMet_keep]
    | split

theorem State.calSlotUsed_keep (s : State) (k : CalKey) (ev fin : Nat) (back : PState) : (State.calSlotUsed s k ev fin back).keep = s.keep := by
  unfold State.calSlotUsed
  try dsimp only
  repeat' simp only [State.keep_mk, State.keep_eta]

theorem State.calSlotTake_keep (s : State) (e : Event) : (State.calSlotTake s e).keep = s.keep := by
  unfold State.calSlotTake
  try dsimp only
  repeat' first
    | simp only [State.keep_mk, State.keep_eta, State.synthLater_keep, State.pathLater_keep, State.calSlotUsed_keep]
    | split

theorem State.calRecord_keep (s : State) (k : CalKey) : (State.calRecord s k).2.keep = s.keep := by
  unfold State.calRecord
  try dsimp only
  repeat' simp only [State.record_keep]

theorem State.tackApply_keep (s : State) (r : TackRec) : (State.tackApply s r).keep = s.keep := by
  unfold State.tackApply
  try dsimp only
  repeat' first
    | simp only [State.keep_mk, State.keep_eta, State.postSec_keep]
    | split

theorem State.tackRetire_keep (s : State) (p : Nat) : (State.tackRetire s p).keep = s.keep := by
  unfold State.tackRetire
  try dsimp only
  repeat' first
    | simp only [State.keep_mk, State.keep_eta, State.postCal_keep, State.ledgerPut_keep, State.raiseFault_keep]
    | split

-- FamConv

theorem State.fcTake_keep (s : State) (n : BitVec 16) : (State.fcTake s n).keep = s.keep := by
  unfold State.fcTake
  try dsimp only
  repeat' first
    | simp only [State.keep_mk, State.keep_eta, State.modDpd_keep, State.coldStart_keep]
    | refine (foldl_keep _ ?_ _ _).trans ?_
    | intro _

theorem State.fcPersist_keep (s : State) (r : CmdRef) (n : BitVec 16) (on : Bool) : (State.fcPersist s r n on).keep = s.keep := by
  unfold State.fcPersist
  try dsimp only
  repeat' first
    | simp only [State.tackPut_keep]
    | split

theorem State.fcSwitch_keep (s : State) : (State.fcSwitch s).keep = s.keep := by
  unfold State.fcSwitch
  try dsimp only
  repeat' first
    | simp only [State.keep_mk, State.keep_eta, State.fcTake_keep]
    | split

theorem State.coefServe_keep (s : State) : (State.coefServe s).keep = s.keep := by
  unfold State.coefServe
  try dsimp only
  repeat' first
    | simp only [State.keep_mk, State.keep_eta]
    | refine (foldl_keep _ ?_ _ _).trans ?_
    | intro _
    | split

theorem State.convRecord_keep (s : State) (p : Fin 64) : (State.convRecord s p).2.keep = s.keep := by
  unfold State.convRecord
  try dsimp only
  repeat' simp only [State.record_keep]

theorem State.delayRecord_keep (s : State) (k : CarrierCfg) : (State.delayRecord s k).2.keep = s.keep := by
  unfold State.delayRecord
  try dsimp only
  repeat' simp only [State.record_keep]

-- FamCarrier

theorem State.carrierEvent_keep (s : State) (c : CmdRef) (x : Slot) (n : Fin 8) (ch : CfgChange) : (State.carrierEvent s c x n ch).keep = s.keep := by
  unfold State.carrierEvent
  try dsimp only
  repeat' first
    | refine (State.presentCmd_keep _ _ _ _ _ _ ?_).trans ?_
    | intro _
    | rfl

theorem State.discardWeights_keep (s : State) (c : Fin 8) : (State.discardWeights s c).keep = s.keep := by
  unfold State.discardWeights
  try dsimp only
  repeat' simp only [State.keep_mk, State.keep_eta, State.scrapCarrier_keep, State.discardBook_keep]

theorem State.forgetSeq_keep (s : State) (c : Fin 8) : (State.forgetSeq s c).keep = s.keep := by
  unfold State.forgetSeq
  try dsimp only
  repeat' simp only [State.keep_mk, State.keep_eta]

theorem State.carrierTake_keep (s : State) (c : Fin 8) (k : CarrierCfg) : (State.carrierTake s c k).keep = s.keep := by
  unfold State.carrierTake
  try dsimp only
  repeat' first
    | simp only [State.modCarrier_keep, State.clearNf_keep, State.prepareCarrier_keep, State.discardWeights_keep, State.forgetSeq_keep]
    | split

theorem State.weightTake_keep (s : State) (c : Fin 8) (w : WeightCfg) : (State.weightTake s c w).keep = s.keep := by
  unfold State.weightTake
  try dsimp only
  repeat' first
    | simp only [State.modCarrier_keep, State.scrapCarrier_keep]
    | split

theorem State.levelsTake_keep (s : State) (ps : List (Fin 64)) (rx : Option (BitVec 5)) (tx : Option (BitVec 7)) : (State.levelsTake s ps rx tx).keep = s.keep := by
  unfold State.levelsTake
  try dsimp only
  repeat' first
    | simp only [State.modPath_keep, State.modDpd_keep]
    | refine (foldl_keep _ ?_ _ _).trans ?_
    | intro _
    | split

theorem State.applyCfg_keep (s : State) (ch : CfgChange) : (State.applyCfg s ch).keep = s.keep := by
  unfold State.applyCfg
  try dsimp only
  repeat' first
    | simp only [State.keep_mk, State.keep_eta, State.modPath_keep, State.modCarrier_keep, State.scrapCarrier_keep, State.removeCarrier_keep, State.forgetSeq_keep, State.carrierTake_keep, State.weightTake_keep, State.levelsTake_keep]
    | refine (foldl_keep _ ?_ _ _).trans ?_
    | intro _
    | split

theorem State.cfgPlace_keep (s : State) (e : Event) (ch : CfgChange) : (State.cfgPlace s e ch).keep = s.keep := by
  unfold State.cfgPlace
  try dsimp only
  repeat' first
    | simp only [State.atCycle_keep]
    | split

theorem State.carrierRecord_keep (s : State) (c : Fin 8) : (State.carrierRecord s c).2.keep = s.keep := by
  unfold State.carrierRecord
  try dsimp only
  repeat' simp only [State.record_keep]

-- Signal

theorem State.darkTick_keep (s : State) : (State.darkTick s).keep = s.keep := by
  unfold State.darkTick
  try dsimp only
  repeat' simp only [State.keep_mk, State.keep_eta]

theorem State.counted_keep (s : State) (c : Fin 8) (fin : Tick) : (State.counted s c fin).keep = s.keep := by
  unfold State.counted
  try dsimp only
  repeat' simp only [State.keep_mk, State.keep_eta]

theorem State.addSats_keep (s : State) (c : Fin 8) (l : List SatCount) : (State.addSats s c l).keep = s.keep := by
  unfold State.addSats
  try dsimp only
  repeat' first
    | simp only [State.keep_mk, State.keep_eta, State.modCarrier_keep, State.modDpd_keep]
    | refine (foldl_keep _ ?_ _ _).trans ?_
    | intro _
    | split

theorem State.txBegin_keep (s : State) (x : TxSym) : (State.txBegin s x).keep = s.keep := by
  unfold State.txBegin
  try dsimp only
  repeat' simp only [State.keep_mk, State.keep_eta, State.addSats_keep]

theorem State.txJoin_keep (s : State) (x : TxSym) : (State.txJoin s x).keep = s.keep := by
  unfold State.txJoin
  try dsimp only
  repeat' first
    | simp only [State.keep_mk, State.keep_eta]
    | split

theorem State.txTick_keep (s : State) : (State.txTick s).keep = s.keep := by
  unfold State.txTick
  try dsimp only
  repeat' first
    | simp only [State.keep_mk, State.keep_eta, State.addSats_keep, State.txBegin_keep]
    | refine (foldl_keep _ ?_ _ _).trans ?_
    | intro _
    | split

-- Clocks

theorem State.modClk_keep (s : State) (f : Clk → Clk) : (State.modClk s f).keep = s.keep := by
  unfold State.modClk
  try dsimp only
  repeat' simp only [State.keep_mk, State.keep_eta]

theorem State.postClk_keep (s : State) (code index : Nat) (restart : Bool) : (State.postClk s code index restart).keep = s.keep := by
  unfold State.postClk
  try dsimp only
  repeat' simp only [State.postRec_keep]

theorem State.setMon_keep (s : State) (i : Fin 11) (m : Mon) (n : Nat) : (State.setMon s i m n).keep = s.keep := by
  unfold State.setMon
  try dsimp only
  repeat' simp only [State.modClk_keep]

theorem State.pllHold_keep (s : State) : (State.pllHold s).keep = s.keep := by
  unfold State.pllHold
  try dsimp only
  repeat' first
    | simp only [State.epochInvalid_keep, State.raiseFault_keep, State.modClk_keep, State.postClk_keep]
    | split

theorem State.pllAcquire_keep (s : State) : (State.pllAcquire s).keep = s.keep := by
  unfold State.pllAcquire
  try dsimp only
  repeat' first
    | simp only [State.epochInvalid_keep, State.raiseFault_keep, State.modClk_keep]
    | split

theorem State.beginSwitch_keep (s : State) (d : ClkDomain) (src dst : Nat) (restart : Bool) : (State.beginSwitch s d src dst restart).keep = s.keep := by
  unfold State.beginSwitch
  try dsimp only
  repeat' simp only [State.modClk_keep]

theorem State.refTo_keep (s : State) (i : Nat) : (State.refTo s i).keep = s.keep := by
  unfold State.refTo
  try dsimp only
  repeat' first
    | simp only [State.modClk_keep, State.pllAcquire_keep, State.beginSwitch_keep]
    | split

theorem State.refSelect_keep (s : State) : (State.refSelect s).keep = s.keep := by
  unfold State.refSelect
  try dsimp only
  repeat' first
    | simp only [State.refTo_keep]
    | split

theorem State.refTrip_keep (s : State) : (State.refTrip s).keep = s.keep := by
  unfold State.refTrip
  try dsimp only
  repeat' first
    | simp only [State.raiseFault_keep, State.modClk_keep, State.postClk_keep, State.pllHold_keep, State.refTo_keep]
    | split

theorem State.monTrip_keep (s : State) (i : Fin 11) (dead : Bool) : (State.monTrip s i dead).keep = s.keep := by
  unfold State.monTrip
  try dsimp only
  repeat' first
    | simp only [State.raiseFault_keep, State.modClk_keep, State.postClk_keep, State.refTrip_keep]
    | split

theorem State.monGood_keep (s : State) (i : Fin 11) : (State.monGood s i).keep = s.keep := by
  unfold State.monGood
  try dsimp only
  repeat' first
    | simp only [State.epochInvalid_keep, State.modClk_keep, State.postClk_keep, State.beginSwitch_keep, State.refSelect_keep]
    | split

theorem State.lanesDown_keep (s : State) (p : Fin 8) : (State.lanesDown s p).keep = s.keep := by
  unfold State.lanesDown
  try dsimp only
  repeat' first
    | simp only [State.setMon_keep, State.monTrip_keep]
    | refine (foldl_keep _ ?_ _ _).trans ?_
    | intro _
    | split

-- Weights

theorem State.reclaim_keep (s : State) (ul : Bool) (k : Nat) (y0 : Nat) : (State.reclaim s ul k y0).keep = s.keep := by
  induction y0 generalizing s with
  | zero => rfl
  | succ n ih =>
    unfold State.reclaim
    split
    · rfl
    · split
      · rfl
      · exact (ih _).trans (State.scrapSiding_keep _ _ _)

theorem State.newBlk_keep (s : State) : (State.newBlk s).2.keep = s.keep := by
  unfold State.newBlk
  try dsimp only
  repeat' simp only [State.keep_mk, State.keep_eta]

theorem State.chainStart_keep (s : State) (c : Fin 8) (ul : Bool) (slot : Tick) (grp : Nat) (m : List (Nat × Nat)) (blk : Nat) : (State.chainStart s c ul slot grp m blk).keep = s.keep := by
  unfold State.chainStart
  try dsimp only
  repeat' simp only [State.keep_mk, State.keep_eta]

theorem State.addJob_keep (s : State) (j : Job) : (State.addJob s j).keep = s.keep := by
  unfold State.addJob
  try dsimp only
  repeat' simp only [State.keep_mk, State.keep_eta]

theorem State.compute_keep (s : State) (c : Fin 8) (ul : Bool) (slot : Tick) (grp : Nat) (m : List (Nat × Nat)) (confirmed : Bool) (blk : Nat) (deadline : Tick) : (State.compute s c ul slot grp m confirmed blk deadline).keep = s.keep := by
  unfold State.compute
  try dsimp only
  repeat' first
    | simp only [State.chainStart_keep, State.addJob_keep]
    | split

theorem State.confirmJob_keep (s : State) (blk : Nat) (deadline : Tick) : (State.confirmJob s blk deadline).keep = s.keep := by
  unfold State.confirmJob
  try dsimp only
  repeat' simp only [State.keep_mk, State.keep_eta]

theorem State.noSiding_keep (s : State) (c : Fin 8) (cmds : List CmdRef) : (State.noSiding s c cmds).keep = s.keep := by
  unfold State.noSiding
  try dsimp only
  repeat' first
    | simp only [State.complete_keep, State.modWcount_keep]
    | refine (foldl_keep _ ?_ _ _).trans ?_
    | intro _

theorem State.sidingGroups_keep (s : State) (l : List (Nat × List (Nat × Nat))) : (State.sidingGroups s l).2.keep = s.keep := by
  unfold State.sidingGroups
  try dsimp only
  repeat' first
    | simp only [State.newBlk_keep]
    | refine (foldl_keep_snd _ ?_ _ _).trans ?_
    | intro _

theorem State.startSiding_keep (s : State) (c : Fin 8) (ul : Bool) (target : Tick) (maps : List (Nat × List (Nat × Nat))) (cmds : List CmdRef) (allowed : Bool) : (State.startSiding s c ul target maps cmds allowed).keep = s.keep := by
  unfold State.startSiding
  try dsimp only
  repeat' first
    | simp only [State.setSiding_keep, State.modWcount_keep, State.compute_keep, State.noSiding_keep, State.sidingGroups_keep]
    | refine (foldl_keep _ ?_ _ _).trans ?_
    | intro _
    | split

theorem State.sidingOnSounding_keep (s : State) (c : Fin 8) (ul : Bool) (slot : Tick) : (State.sidingOnSounding s c ul slot).keep = s.keep := by
  unfold State.sidingOnSounding
  try dsimp only
  repeat' first
    | simp only [State.scrapSiding_keep, State.startSiding_keep]
    | split

theorem State.sidingOnHint_keep (s : State) (h : Hint) (cmds : List CmdRef) : (State.sidingOnHint s h cmds).keep = s.keep := by
  unfold State.sidingOnHint
  try dsimp only
  repeat' first
    | simp only [State.keep_mk, State.keep_eta, State.setSiding_keep, State.scrapSiding_keep, State.noSiding_keep, State.startSiding_keep]
    | split

theorem State.hintAccept_keep (s : State) (h : Hint) (cmds : List CmdRef) : (State.hintAccept s h cmds).keep = s.keep := by
  unfold State.hintAccept
  try dsimp only
  repeat' simp only [State.keep_mk, State.keep_eta]

theorem State.sidingTake_keep (s : State) (c : Fin 8) (ul : Bool) (grp : Nat) : (State.sidingTake s c ul grp).keep = s.keep := by
  unfold State.sidingTake
  try dsimp only
  repeat' first
    | simp only [State.complete_keep, State.setSiding_keep]
    | refine (foldl_keep _ ?_ _ _).trans ?_
    | intro _
    | split

theorem State.setClaim_keep (s : State) (x : Claim) : (State.setClaim s x).keep = s.keep := by
  unfold State.setClaim
  try dsimp only
  repeat' simp only [State.keep_mk, State.keep_eta]

theorem State.publish_keep (s : State) (x : Claim) (w : WSet) : (State.publish s x w).keep = s.keep := by
  unfold State.publish
  try dsimp only
  repeat' simp only [State.keep_mk, State.keep_eta, State.setClaim_keep]

theorem State.fallbackClaim_keep (s : State) (x : Claim) : (State.fallbackClaim s x).keep = s.keep := by
  unfold State.fallbackClaim
  try dsimp only
  repeat' first
    | simp only [State.modWcount_keep, State.setClaim_keep]
    | split

theorem State.resolveClaim_keep (s : State) (x : Claim) : (State.resolveClaim s x).1.keep = s.keep := by
  unfold State.resolveClaim
  try dsimp only
  repeat' first
    | simp only [State.modWcount_keep, State.publish_keep, State.fallbackClaim_keep]
    | split

theorem State.confirmGroup_keep (s : State) (x : Claim) (demand : Bool) (deadline : Tick) : (State.confirmGroup s x demand deadline).keep = s.keep := by
  unfold State.confirmGroup
  try dsimp only
  repeat' first
    | simp only [State.modCarrier_keep, State.reclaim_keep, State.newBlk_keep, State.compute_keep, State.setClaim_keep]
    | split

theorem State.sidingMismatch_keep (s : State) (x : Claim) (g : SidingGroup) : (State.sidingMismatch s x g).keep = s.keep := by
  unfold State.sidingMismatch
  try dsimp only
  repeat' simp only [State.modWcount_keep, State.dropWork_keep, State.sidingTake_keep]

theorem State.claimMember_keep (s : State) (x : Claim) (deadline : Tick) : (State.claimMember s x deadline).keep = s.keep := by
  unfold State.claimMember
  try dsimp only
  repeat' first
    | simp only [State.setSiding_keep, State.sidingTake_keep, State.setClaim_keep, State.confirmGroup_keep, State.sidingMismatch_keep]
    | split

theorem State.claimGroup_keep (s : State) (x : Claim) (deadline : Tick) : (State.claimGroup s x deadline).1.keep = s.keep := by
  unfold State.claimGroup
  try dsimp only
  repeat' first
    | simp only [State.complete_keep, State.setSiding_keep, State.modWcount_keep, State.confirmJob_keep, State.sidingTake_keep, State.setClaim_keep, State.publish_keep, State.resolveClaim_keep, State.sidingMismatch_keep, State.claimMember_keep]
    | refine (foldl_keep _ ?_ _ _).trans ?_
    | intro _
    | split

theorem State.claimCmds_keep (s : State) (x : Claim) (served : Bool) : (State.claimCmds s x served).keep = s.keep := by
  unfold State.claimCmds
  try dsimp only
  repeat' first
    | simp only [State.complete_keep, State.setSiding_keep]
    | refine (foldl_keep _ ?_ _ _).trans ?_
    | intro _
    | split

theorem State.claimSection_keep (s : State) (x : Section) : (State.claimSection s x).keep = s.keep := by
  unfold State.claimSection
  try dsimp only
  repeat' first
    | simp only [State.modWcount_keep, State.setClaim_keep, State.fallbackClaim_keep, State.confirmGroup_keep, State.claimGroup_keep]
    | refine (foldl_keep _ ?_ _ _).trans ?_
    | refine (foldl_keep_fst _ ?_ _ _).trans ?_
    | intro _
    | split

theorem State.noSet_keep (s : State) (blk : Nat) : (State.noSet s blk).keep = s.keep := by
  unfold State.noSet
  try dsimp only
  repeat' first
    | simp only [State.sidingTake_keep, State.fallbackClaim_keep]
    | split

theorem State.weightDone_keep (s : State) (c : Fin 8) (blk : Nat) (w : Option WSet) : (State.weightDone s c blk w).keep = s.keep := by
  unfold State.weightDone
  try dsimp only
  repeat' first
    | simp only [State.setSiding_keep, State.modWcount_keep, State.setClaim_keep, State.noSet_keep]
    | split

theorem State.abandonClaim_keep (s : State) (x : Claim) : (State.abandonClaim s x).keep = s.keep := by
  unfold State.abandonClaim
  try dsimp only
  repeat' first
    | simp only [State.modWcount_keep, State.dropWork_keep, State.fallbackClaim_keep]
    | split

theorem State.firstUseEnds_keep (s : State) (c : Fin 8) (ul : Bool) (slot : Tick) : (State.firstUseEnds s c ul slot).keep = s.keep := by
  unfold State.firstUseEnds
  try dsimp only
  repeat' first
    | simp only [State.postRec_keep, State.modCarrier_keep]
    | split

theorem State.firstUseSweep_keep (s : State) : (State.firstUseSweep s).keep = s.keep := by
  unfold State.firstUseSweep
  try dsimp only
  repeat' first
    | simp only [State.firstUseEnds_keep]
    | refine (foldl_keep _ ?_ _ _).trans ?_
    | intro _

theorem State.weightPrune_keep (s : State) : (State.weightPrune s).keep = s.keep := by
  unfold State.weightPrune
  try dsimp only
  repeat' simp only [State.keep_mk, State.keep_eta]

-- Wire

theorem State.cnt_keep (s : State) (p : Fin 8) (f : PortCount → PortCount) : (State.cnt s p f).keep = s.keep := by
  unfold State.cnt
  try dsimp only
  repeat' simp only [State.modPort_keep]

theorem State.sendFrame_keep (s : State) (p : Fin 8) (name : String) (f : Bytes) : (State.sendFrame s p name f).keep = s.keep := by
  unfold State.sendFrame
  try dsimp only
  repeat' simp only [State.emit_keep, State.cnt_keep]

-- FamWeights

theorem State.hitFrame_keep (s : State) (port : Nat) (name : String) (b : Bytes) : (State.hitFrame s port name b).keep = s.keep := by
  unfold State.hitFrame
  try dsimp only
  repeat' first
    | simp only [State.sendFrame_keep]
    | split

theorem State.hitSend_keep (s : State) (port kind : Nat) (name : String) (dir car slot frame : Nat) (body : Bytes) : (State.hitSend s port kind name dir car slot frame body).keep = s.keep := by
  unfold State.hitSend
  try dsimp only
  repeat' simp only [State.keep_mk, State.keep_eta, State.hitFrame_keep]

theorem State.hitSlot_keep (s : State) (port kind : Nat) (name : String) (ul : Bool) (c : Fin 8) (slot : Tick) (body : Bytes) : (State.hitSlot s port kind name ul c slot body).keep = s.keep := by
  unfold State.hitSlot
  try dsimp only
  repeat' simp only [State.hitSend_keep]

theorem State.bookHeader_keep (s : State) (e : BookEntry) : (State.bookHeader s e).2.keep = s.keep := by
  unfold State.bookHeader
  try dsimp only
  repeat' simp only [State.record_keep]

theorem State.weightRecord_keep (s : State) (c : Fin 8) : (State.weightRecord s c).2.keep = s.keep := by
  unfold State.weightRecord
  try dsimp only
  repeat' simp only [State.record_keep]

theorem State.trafficBegin_keep (s : State) (e : Event) (need : PState) (len : Nat) (ps : List (Fin 64)) : (State.trafficBegin s e need len ps).keep = s.keep := by
  unfold State.trafficBegin
  try dsimp only
  repeat' first
    | simp only [State.trafficPath_keep, State.dormantNeed_keep]
    | refine (foldl_keep _ ?_ _ _).trans ?_
    | intro _

theorem State.modOccasion_keep (s : State) (id : Nat) (f : Occasion → Occasion) : (State.modOccasion s id f).keep = s.keep := by
  unfold State.modOccasion
  try dsimp only
  repeat' simp only [State.keep_mk, State.keep_eta]

theorem State.soundingDone_keep (s : State) (c : Fin 8) (slot : Tick) : (State.soundingDone s c slot).keep = s.keep := by
  unfold State.soundingDone
  try dsimp only
  repeat' first
    | simp only [State.keep_mk, State.keep_eta, State.sidingOnSounding_keep, State.hitSlot_keep]
    | split

theorem State.soundingSweep_keep (s : State) (c : Fin 8) (slot : Tick) : (State.soundingSweep s c slot).keep = s.keep := by
  unfold State.soundingSweep
  try dsimp only
  repeat' first
    | simp only [State.keep_mk, State.keep_eta]
    | split

theorem State.weightTick_keep (s : State) : (State.weightTick s).keep = s.keep := by
  unfold State.weightTick
  try dsimp only
  repeat' first
    | simp only [State.keep_mk, State.keep_eta, State.sidingOnHint_keep, State.firstUseSweep_keep, State.soundingDone_keep]
    | refine (foldl_keep _ ?_ _ _).trans ?_
    | intro _

theorem State.smoothingJob_keep (s : State) (x : Occasion) : (State.smoothingJob s x).keep = s.keep := by
  unfold State.smoothingJob
  try dsimp only
  repeat' first
    | simp only [State.addJob_keep]
    | split

theorem State.evict_keep (s : State) (port : BitVec 8) (n y0 : Nat) : (State.evict s port n y0).keep = s.keep := by
  induction y0 generalizing s with
  | zero => rfl
  | succ f ih =>
    unfold State.evict
    split
    · rfl
    · split
      · rfl
      · refine (ih _).trans ?_
        simp only [State.keep_mk, State.keep_eta, State.modWcount_keep]

theorem State.bookPut_keep (s : State) (x : Occasion) (k : CarrierCfg) (exp first : Nat) (samples : List (List (BitVec 32))) : (State.bookPut s x k exp first samples).keep = s.keep := by
  unfold State.bookPut
  try dsimp only
  repeat' simp only [State.keep_mk, State.keep_eta, State.modWcount_keep]

theorem State.soundSats_keep (s : State) (x : Occasion) (k : CarrierCfg) (raw : List AdcIn) : (State.soundSats s x k raw).keep = s.keep := by
  unfold State.soundSats
  try dsimp only
  repeat' first
    | simp only [State.counted_keep, State.addSats_keep]
    | refine (foldl_keep _ ?_ _ _).trans ?_
    | intro _

theorem State.bookEstimate_keep (s : State) (x : Occasion) (k : CarrierCfg) (raw : List AdcIn) : (State.bookEstimate s x k raw).keep = s.keep := by
  unfold State.bookEstimate
  extract_lets ls r e ws s1 s2 s3
  have h : s3.keep = s.keep := by rw [State.evict_keep, State.modOccasion_keep, State.modWcount_keep]
  clear_value s3
  split
  · exact (State.bookPut_keep _ _ _ _ _ _).trans h
  · exact ((State.modOccasion_keep _ _ _).trans (State.modWcount_keep _ _ _)).trans h

-- FamBurst

theorem State.modLane_keep (s : State) (l : Fin 2) (f : Lane → Lane) : (State.modLane s l f).keep = s.keep := by
  unfold State.modLane
  try dsimp only
  repeat' simp only [State.keep_mk, State.keep_eta]

theorem State.modBurst_keep (s : State) (f : BurstCount → BurstCount) : (State.modBurst s f).keep = s.keep := by
  unfold State.modBurst
  try dsimp only
  repeat' simp only [State.keep_mk, State.keep_eta]

theorem State.burstReport_keep (s : State) (l : Fin 2) (outcome iters : Nat) (refine : Int) (evm : BitVec 16) (meas : Option (BitVec 16)) (block : Option (BitVec 136)) : (State.burstReport s l outcome iters refine evm meas block).2.keep = s.keep := by
  unfold State.burstReport
  try dsimp only
  repeat' simp only [State.record_keep]

theorem State.captureLane_keep (s : State) (l : Fin 2) : (State.captureLane s l).keep = s.keep := by
  unfold State.captureLane
  try dsimp only
  repeat' simp only [State.post_keep, State.modLane_keep, State.modBurst_keep, State.burstReport_keep]

theorem State.holdLane_keep (s : State) (l : Fin 2) (w : BurstWindow) (tc : Nat) (level freq : Int) : (State.holdLane s l w tc level freq).keep = s.keep := by
  unfold State.holdLane
  try dsimp only
  repeat' simp only [State.modLane_keep, State.modBurst_keep]

theorem State.placeCandidate_keep (s : State) (w : BurstWindow) (tc : Nat) (level freq : Int) : (State.placeCandidate s w tc level freq).keep = s.keep := by
  unfold State.placeCandidate
  try dsimp only
  repeat' first
    | simp only [State.modBurst_keep, State.captureLane_keep, State.holdLane_keep]
    | split

theorem State.measRecord_keep (s : State) (p : Fin 64) (r : Option MeasRec) : (State.measRecord s p r).2.keep = s.keep := by
  unfold State.measRecord
  try dsimp only
  repeat' first
    | simp only [State.record_keep]
    | split

theorem State.keepMeas_keep (s : State) (m : MeasSet) (report : Bytes) : (State.keepMeas s m report).keep = s.keep := by
  unfold State.keepMeas
  try dsimp only
  repeat' first
    | simp only [State.keep_mk, State.keep_eta, State.hitSend_keep, State.measRecord_keep]
    | refine (foldl_keep_snd _ ?_ _ _).trans ?_
    | intro _
    | split

theorem State.qualityRecord_keep (s : State) (p : Fin 64) : (State.qualityRecord s p).2.keep = s.keep := by
  unfold State.qualityRecord
  try dsimp only
  repeat' simp only [State.record_keep]

theorem State.noiseTick_keep (s : State) : (State.noiseTick s).keep = s.keep := by
  unfold State.noiseTick
  try dsimp only
  repeat' first
    | simp only [State.keep_mk, State.keep_eta]
    | split

-- Front

theorem State.rx_keep (s : State) (p : Fin 8) (k : RxCount) : (State.rx s p k).keep = s.keep := by
  unfold State.rx
  try dsimp only
  repeat' simp only [State.cnt_keep]

theorem State.seqCheck_keep (s : State) (p : Fin 8) (m : Sar) : (State.seqCheck s p m).2.keep = s.keep := by
  unfold State.seqCheck
  try dsimp only
  repeat' first
    | simp only [State.keep_mk, State.keep_eta, State.rx_keep]
    | split

theorem State.allocSection_keep (s : State) (x : Section) : (State.allocSection s x).2.keep = s.keep := by
  unfold State.allocSection
  try dsimp only
  repeat' first
    | simp only [State.modCarrier_keep, State.reclaim_keep]
    | refine (foldl_keep_snd _ ?_ _ _).trans ?_
    | intro _
    | split

theorem State.rxVerdict_keep (s : State) (p : Fin 8) (v : Verdict) : (State.rxVerdict s p v).keep = s.keep := by
  unfold State.rxVerdict
  try dsimp only
  repeat' first
    | simp only [State.rx_keep]
    | split

theorem State.takeSection_keep (s : State) (p : Fin 8) (x : Section) (k : CarrierCfg) (tag : BitVec 16) : (State.takeSection s p x k tag).keep = s.keep := by
  unfold State.takeSection
  try dsimp only
  repeat' first
    | simp only [State.keep_mk, State.keep_eta, State.present_keep, State.modCarrier_keep, State.claimSection_keep, State.rx_keep, State.allocSection_keep, State.rxVerdict_keep]
    | split

theorem State.blockIn_keep (s : State) (p : Fin 8) (o : OpenSection) (k : CarrierCfg) (w : WBlock) : (State.blockIn s p o k w).2.keep = s.keep := by
  unfold State.blockIn
  try dsimp only
  repeat' first
    | simp only [State.rx_keep]
    | split

theorem State.openDone_keep (s : State) (o : OpenSection) (k : CarrierCfg) : (State.openDone s o k).keep = s.keep := by
  unfold State.openDone
  try dsimp only
  repeat' first
    | simp only [State.keep_mk, State.keep_eta, State.takeSection_keep]
    | split

theorem State.sectionIn_keep (s : State) (p : Fin 8) (x : Section) (k : CarrierCfg) (tag : BitVec 16) (ws : List WBlock) : (State.sectionIn s p x k tag ws).keep = s.keep := by
  unfold State.sectionIn
  try dsimp only
  repeat' first
    | simp only [State.keep_mk, State.keep_eta, State.takeSection_keep, State.blockIn_keep, State.openDone_keep]
    | refine (foldl_keep_snd _ ?_ _ _).trans ?_
    | intro _
    | split

theorem State.cSection_keep (s : State) (p : Fin 8) (m : Sar) (k : CarrierCfg) (wire : Wire) (b : Bytes) : (State.cSection s p m k wire b).2.keep = s.keep := by
  unfold State.cSection
  try dsimp only
  repeat' first
    | simp only [State.rx_keep, State.sectionIn_keep]
    | split

theorem State.ctlShare_keep (s : State) (p : Fin 8) (m : Sar) (r : Bool × State) (hr : r.2.keep = s.keep) : (State.ctlShare s p m r).2.keep = s.keep := by
  unfold State.ctlShare
  split
  · exact State.rx_keep _ _ _
  · exact hr

theorem State.cBlock_keep (s : State) (p : Fin 8) (m : Sar) (k : CarrierCfg) (wire : Wire) (b : Bytes) : (State.cBlock s p m k wire b).2.keep = s.keep := by
  unfold State.cBlock
  try dsimp only
  repeat' first
    | simp only [State.keep_mk, State.keep_eta, State.rx_keep, State.blockIn_keep, State.openDone_keep]
    | split

theorem State.uData_keep (s : State) (p : Fin 8) (m : Sar) (k : CarrierCfg) (wire : Wire) (items : List Bytes) : (State.uData s p m k wire items).2.keep = s.keep := by
  unfold State.uData
  try dsimp only
  repeat' first
    | simp only [State.keep_mk, State.keep_eta, State.modCarrier_keep, State.rx_keep]
    | split

theorem State.hintIn_keep (s : State) (p : Fin 8) (m : Sar) (k : CarrierCfg) (wire : Wire) (items : List Bytes) : (State.hintIn s p m k wire items).2.keep = s.keep := by
  unfold State.hintIn
  try dsimp only
  repeat' first
    | simp only [State.hintAccept_keep, State.rx_keep]
    | split

theorem State.soundingItem_keep (s : State) (p : Fin 8) (m : Sar) (k : CarrierCfg) (wire : Wire) (b : Bytes) : (State.soundingItem s p m k wire b).2.keep = s.keep := by
  unfold State.soundingItem
  try dsimp only
  repeat' first
    | simp only [State.keep_mk, State.keep_eta, State.present_keep, State.modWcount_keep, State.rx_keep, State.rxVerdict_keep]
    | split

theorem State.burstItem_keep (s : State) (p : Fin 8) (m : Sar) (b : Bytes) : (State.burstItem s p m b).keep = s.keep := by
  unfold State.burstItem
  try dsimp only
  repeat' first
    | simp only [State.present_keep, State.rx_keep, State.rxVerdict_keep]
    | split

theorem State.beamItem_keep (s : State) (b : Bytes) : (State.beamItem s b).keep = s.keep := by
  unfold State.beamItem
  try dsimp only
  repeat' simp only [State.keep_mk, State.keep_eta]

-- FamFh

theorem State.reBackup_keep (s : State) (n : Fin 8) (old new : PortCfg) : (State.reBackup s n old new).keep = s.keep := by
  unfold State.reBackup
  split
  · rfl
  · extract_lets dest u was v
    have hu : u.keep = s.keep := foldl_keep _ (fun s c => by split <;> first | rfl | exact State.modCarrier_keep _ _ _) _ _
    have hv : v.keep = s.keep := (State.modPort_keep _ _ _).trans hu
    clear_value dest u v
    split
    · exact (State.postLink_keep _ _ _ _).trans hv
    · split
      · exact (State.postLink_keep _ _ _ _).trans hv
      · exact hv

theorem State.portRecord_keep (s : State) (n : Fin 8) : (State.portRecord s n).2.keep = s.keep := by
  unfold State.portRecord
  try dsimp only
  repeat' simp only [State.record_keep]

theorem State.fwd_keep (s : State) (m : Sar) : (State.fwd s m).keep = s.keep := by
  unfold State.fwd
  try dsimp only
  repeat' first
    | simp only [State.hitSend_keep]
    | split

theorem State.sarCarrier_keep (s : State) (p : Fin 8) (m : Sar) (k : CarrierCfg) (wire : Wire) (items : List Bytes) : (State.sarCarrier s p m k wire items).2.keep = s.keep := by
  have he : ∀ f : State → Bytes → Bool × State, (∀ u b, (f u b).2.keep = u.keep) →
      (items.foldl (fun (a : Bool × State) b => let r := f a.2 b; (a.1 || r.1, r.2)) (false, s)).2.keep = s.keep := fun f h =>
    foldl_keep_snd (fun (a : Bool × State) b => let r := f a.2 b; (a.1 || r.1, r.2)) (fun a b => h a.2 b) items (false, s)
  unfold State.sarCarrier
  dsimp only
  split
  · exact State.ctlShare_keep _ _ _ _ (he _ fun u b => State.cSection_keep u p m k wire b)
  · exact State.uData_keep _ _ _ _ _ _
  · exact State.ctlShare_keep _ _ _ _ (State.hintIn_keep _ _ _ _ _ _)
  · exact State.ctlShare_keep _ _ _ _ (he _ fun u b => State.soundingItem_keep u p m k wire b)
  · exact State.ctlShare_keep _ _ _ _ (he _ fun u b => State.cBlock_keep u p m k wire b)
  · rfl

theorem State.sarBody_keep (s : State) (p : Fin 8) (m : Sar) (wire : Wire) (items : List Bytes) : (State.sarBody s p m wire items).2.keep = s.keep := by
  unfold State.sarBody
  try dsimp only
  repeat' first
    | simp only [State.wake_keep, State.rx_keep, State.burstItem_keep, State.beamItem_keep, State.sarCarrier_keep]
    | refine (foldl_keep _ ?_ _ _).trans ?_
    | intro _
    | split

theorem State.sarMessage_keep (s : State) (p : Fin 8) (wire short : Bool) (b : Bytes) : (State.sarMessage s p wire short b).2.keep = s.keep := by
  unfold State.sarMessage
  try dsimp only
  repeat' first
    | simp only [State.rx_keep, State.seqCheck_keep, State.fwd_keep, State.sarBody_keep]
    | split

theorem State.sarRow_keep (s : State) (p : Fin 8) (kind : Nat) (msg : Bytes) : (State.sarRow s p kind msg).keep = s.keep := by
  unfold State.sarRow
  try dsimp only
  repeat' first
    | simp only [State.sarMessage_keep]
    | split

theorem State.openSweep_keep (s : State) : (State.openSweep s).keep = s.keep := by
  unfold State.openSweep
  try dsimp only
  repeat' first
    | simp only [State.keep_mk, State.keep_eta, State.lateRec_keep, State.rx_keep]
    | refine (foldl_keep _ ?_ _ _).trans ?_
    | intro _
    | split

theorem State.delayResponse_keep (s : State) (p : Fin 8) (src : BitVec 48) (id : BitVec 8) (stamp : Int) : (State.delayResponse s p src id stamp).keep = s.keep := by
  unfold State.delayResponse
  try dsimp only
  repeat' simp only [State.cnt_keep, State.sendFrame_keep]

theorem State.delayMessage_keep (s : State) (p : Fin 8) (src : BitVec 48) (b : Bytes) : (State.delayMessage s p src b).2.keep = s.keep := by
  unfold State.delayMessage
  try dsimp only
  repeat' first
    | simp only [State.keep_mk, State.keep_eta, State.rx_keep, State.delayResponse_keep]
    | split

theorem State.delayRow_keep (s : State) (p : Fin 8) (src : BitVec 48) (msg : Bytes) (acts : List Nat) : (State.delayRow s p src msg acts).keep = s.keep := by
  unfold State.delayRow
  try dsimp only
  repeat' first
    | simp only [State.rx_keep, State.delayMessage_keep]
    | split

theorem State.missCommit_keep (s : State) (x : Claim) : (State.missCommit s x).keep = s.keep := by
  unfold State.missCommit
  try dsimp only
  repeat' simp only [State.keep_mk, State.keep_eta, State.setClaim_keep, State.claimCmds_keep]

theorem State.settleClaim_keep (s : State) (x : Claim) : (State.settleClaim s x).keep = s.keep := by
  unfold State.settleClaim
  try dsimp only
  repeat' first
    | simp only [State.modWcount_keep, State.publish_keep, State.abandonClaim_keep, State.missCommit_keep]
    | split

theorem State.settleSection_keep (s : State) (x : Section) (k : CarrierCfg) : (State.settleSection s x k).keep = s.keep := by
  unfold State.settleSection
  try dsimp only
  repeat' first
    | simp only [State.settleClaim_keep]
    | refine (foldl_keep _ ?_ _ _).trans ?_
    | intro _
    | split

theorem State.dataSweep_keep (s : State) : (State.dataSweep s).keep = s.keep := by
  unfold State.dataSweep
  try dsimp only
  repeat' first
    | simp only [State.keep_mk, State.keep_eta, State.modCarrier_keep]
    | refine (foldl_keep _ ?_ _ _).trans ?_
    | intro _
    | split

theorem State.egressLayer_keep (s : State) (c : Fin 8) (k : CarrierCfg) (layer : Nat) (sym : Tick) (l : Nat) (vals : List (Nat × List (Int × Int))) : (State.egressLayer s c k layer sym l vals).keep = s.keep := by
  unfold State.egressLayer
  try dsimp only
  repeat' first
    | simp only [State.keep_mk, State.keep_eta, State.cnt_keep]
    | refine (foldl_keep _ ?_ _ _).trans ?_
    | intro _
    | split

theorem State.ulTaken_keep (s : State) (xs : List (Section × Nat)) : (State.ulTaken s xs).keep = s.keep := by
  unfold State.ulTaken
  try dsimp only
  repeat' simp only [State.keep_mk, State.keep_eta]

theorem State.ulReceive_keep (s : State) (car : Fin 8) (k : CarrierCfg) (xs : List Section) (l : Nat) (sym : Tick) (raw : List AdcIn) : (State.ulReceive s car k xs l sym raw).2.keep = s.keep := by
  unfold State.ulReceive
  try dsimp only
  repeat' simp only [State.counted_keep, State.addSats_keep]

theorem State.egressTick_keep (s : State) : (State.egressTick s).keep = s.keep := by
  unfold State.egressTick
  try dsimp only
  repeat' first
    | simp only [State.keep_mk, State.keep_eta, State.sendFrame_keep]
    | refine (foldl_keep _ ?_ _ _).trans ?_
    | intro _
    | split

-- FamTime

theorem State.modTb_keep (s : State) (d : Fin 2) (f : Tb → Tb) : (State.modTb s d f).keep = s.keep := by
  unfold State.modTb
  try dsimp only
  repeat' simp only [State.keep_mk, State.keep_eta]

theorem State.postTime_keep (s : State) (code : Nat) (d : Fin 2) : (State.postTime s code d).keep = s.keep := by
  unfold State.postTime
  try dsimp only
  repeat' simp only [State.postRec_keep]

theorem State.bleedFrom_keep (s : State) (b : Int) : (State.bleedFrom s b).keep = s.keep := by
  unfold State.bleedFrom
  try dsimp only
  repeat' simp only [State.keep_mk, State.keep_eta]

theorem State.startAir_keep (s : State) : (State.startAir s).keep = s.keep := by
  unfold State.startAir
  try dsimp only
  repeat' first
    | simp only [State.keep_mk, State.keep_eta, State.restage_keep]
    | split

theorem State.switchTb_keep (s : State) : (State.switchTb s).keep = s.keep := by
  unfold State.switchTb
  try dsimp only
  repeat' simp only [State.keep_mk, State.keep_eta, State.postTime_keep, State.bleedFrom_keep, State.startAir_keep]

theorem State.autoSwitch_keep (s : State) (entry : Bool) : (State.autoSwitch s entry).keep = s.keep := by
  unfold State.autoSwitch
  try dsimp only
  repeat' first
    | simp only [State.keep_mk, State.keep_eta, State.switchTb_keep]
    | split

theorem State.enterServo_keep (s : State) (d : Fin 2) (st : Servo) : (State.enterServo s d st).keep = s.keep := by
  unfold State.enterServo
  try dsimp only
  repeat' first
    | simp only [State.keep_mk, State.keep_eta, State.raiseFault_keep, State.modTb_keep, State.postTime_keep, State.startAir_keep, State.autoSwitch_keep]
    | split

theorem State.phaseStep_keep (s : State) (d : Fin 2) (th : Q) : (State.phaseStep s d th).keep = s.keep := by
  unfold State.phaseStep
  try dsimp only
  repeat' first
    | simp only [State.keep_mk, State.keep_eta, State.rebase_keep, State.modTb_keep, State.postTime_keep]
    | split

theorem State.piLoop_keep (s : State) (d : Fin 2) (th tau : Q) : (State.piLoop s d th tau).keep = s.keep := by
  unfold State.piLoop
  try dsimp only
  repeat' simp only [State.modTb_keep]

theorem State.lockCount_keep (s : State) (d : Fin 2) (th : Q) : (State.lockCount s d th).keep = s.keep := by
  unfold State.lockCount
  try dsimp only
  repeat' first
    | simp only [State.modTb_keep, State.enterServo_keep]
    | split

theorem State.servoOffset_keep (s : State) (d : Fin 2) (th : Q) : (State.servoOffset s d th).keep = s.keep := by
  unfold State.servoOffset
  try dsimp only
  repeat' first
    | simp only [State.modTb_keep, State.enterServo_keep, State.phaseStep_keep, State.piLoop_keep, State.lockCount_keep]
    | split

theorem State.servoHold_keep (s : State) (tb : Fin 2) : (State.servoHold s tb).keep = s.keep := by
  unfold State.servoHold
  try dsimp only
  repeat' first
    | simp only [State.modTb_keep, State.enterServo_keep]
    | split

theorem State.servoExpire_keep (s : State) (tb : Fin 2) : (State.servoExpire s tb).keep = s.keep := by
  unfold State.servoExpire
  try dsimp only
  repeat' first
    | simp only [State.enterServo_keep]
    | split

theorem State.servosWake_keep (s : State) : (State.servosWake s).keep = s.keep := by
  unfold State.servosWake
  try dsimp only
  repeat' first
    | simp only [State.servoHold_keep, State.servoExpire_keep]
    | refine (foldl_keep _ ?_ _ _).trans ?_
    | intro _

theorem State.ptpIgnore_keep (s : State) : (State.ptpIgnore s).keep = s.keep := by
  unfold State.ptpIgnore
  try dsimp only
  repeat' simp only [State.keep_mk, State.keep_eta]

theorem State.ptpTake_keep (s : State) (p : Fin 8) (typ len : Nat) (b : Bytes) (f : Fin 2 → State) (hf : ∀ (x0 : Fin 2), (f x0).keep = s.keep) : (State.ptpTake s p typ len b f).keep = s.keep := by
  unfold State.ptpTake
  try dsimp only
  repeat' first
    | simp only [State.ptpIgnore_keep]
    | rw [hf]
    | split

theorem State.selectParent_keep (s : State) (d : Fin 2) : (State.selectParent s d).keep = s.keep := by
  unfold State.selectParent
  try dsimp only
  repeat' first
    | simp only [State.modTb_keep, State.postTime_keep]
    | split

theorem execPtpAnnounce_keep (port : Fin 8) (msg : Bytes) (s : State) : Stays (execPtpAnnounce port msg s) s := by
  unfold execPtpAnnounce
  refine Stays.of_next ?_
  try dsimp only
  repeat' first
    | simp only [State.modTb_keep, State.selectParent_keep]
    | refine (State.ptpTake_keep _ _ _ _ _ _ ?_).trans ?_
    | intro _

theorem State.ptpOffset_keep (s : State) (d : Fin 2) (p : Fin 8) (t2 t1 corr : Q) : (State.ptpOffset s d p t2 t1 corr).keep = s.keep := by
  unfold State.ptpOffset
  try dsimp only
  repeat' first
    | simp only [State.modTb_keep, State.servoOffset_keep]
    | split

theorem execPtpSync_keep (port : Fin 8) (dst : BitVec 48) (msg : Bytes) (at_ : Int) (s : State) : Stays (execPtpSync port dst msg at_ s) s := by
  unfold execPtpSync
  refine Stays.of_next ?_
  try dsimp only
  repeat' first
    | simp only [State.modTb_keep, State.ptpOffset_keep]
    | refine (State.ptpTake_keep _ _ _ _ _ _ ?_).trans ?_
    | intro _
    | split

theorem execPtpFollowUp_keep (port : Fin 8) (msg : Bytes) (s : State) : Stays (execPtpFollowUp port msg s) s := by
  unfold execPtpFollowUp
  refine Stays.of_next ?_
  try dsimp only
  repeat' first
    | simp only [State.modTb_keep, State.ptpOffset_keep]
    | refine (State.ptpTake_keep _ _ _ _ _ _ ?_).trans ?_
    | intro _
    | split

theorem execPtpDelayResp_keep (port : Fin 8) (msg : Bytes) (s : State) : Stays (execPtpDelayResp port msg s) s := by
  unfold execPtpDelayResp
  refine Stays.of_next ?_
  try dsimp only
  repeat' first
    | simp only [State.modTb_keep]
    | refine (State.ptpTake_keep _ _ _ _ _ _ ?_).trans ?_
    | intro _
    | split

theorem State.ppsPlan_keep (s : State) : (State.ppsPlan s).keep = s.keep := by
  unfold State.ppsPlan
  try dsimp only
  repeat' first
    | simp only [State.present_keep]
    | split

theorem State.ppsNow_keep (s : State) : (State.ppsNow s).keep = s.keep := by
  unfold State.ppsNow
  try dsimp only
  repeat' first
    | simp only [State.keep_mk, State.keep_eta, State.emit_keep]
    | split

theorem State.timeRecord_keep (s : State) (i : Nat) : (State.timeRecord s i).2.keep = s.keep := by
  unfold State.timeRecord
  try dsimp only
  repeat' simp only [State.record_keep]

-- FamClk

theorem State.meterDead_keep (s : State) (i : Nat) : (State.meterDead s i).keep = s.keep := by
  unfold State.meterDead
  try dsimp only
  repeat' first
    | simp only [State.takeFree_keep, State.modClk_keep]
    | split

theorem State.switchDead_keep (s : State) (i : Nat) : (State.switchDead s i).keep = s.keep := by
  unfold State.switchDead
  try dsimp only
  repeat' first
    | simp only [State.raiseFault_keep, State.modClk_keep, State.postClk_keep, State.pllHold_keep, State.beginSwitch_keep, State.refSelect_keep]
    | refine (foldl_keep _ ?_ _ _).trans ?_
    | intro _
    | split

theorem State.aonDead_keep (s : State) (i : Nat) : (State.aonDead s i).keep = s.keep := by
  unfold State.aonDead
  try dsimp only
  repeat' first
    | simp only [State.beginSwitch_keep]
    | split

-- FamHit

theorem State.modHit_keep (s : State) (f : Hitch → Hitch) : (State.modHit s f).keep = s.keep := by
  unfold State.modHit
  try dsimp only
  repeat' simp only [State.keep_mk, State.keep_eta]

theorem State.postArray_keep (s : State) (code dev : Nat) : (State.postArray s code dev).keep = s.keep := by
  unfold State.postArray
  try dsimp only
  repeat' simp only [State.postRec_keep]

theorem State.hitTake_keep (s : State) (p : Fin 8) (kind len : Nat) (b : Bytes) (f : HitMsg → State) (hf : ∀ (x0 : HitMsg), (f x0).keep = s.keep) : (State.hitTake s p kind len b f).keep = s.keep := by
  unfold State.hitTake
  try dsimp only
  repeat' first
    | with_reducible rfl
    | rw [hf]
    | split

theorem execHitchTime_keep (port : Fin 8) (msg : Bytes) (at_ : Int) (s : State) : Stays (execHitchTime port msg at_ s) s := by
  unfold execHitchTime
  refine Stays.of_next ?_
  try dsimp only
  repeat' first
    | simp only [State.writeOffset_keep, State.hitSend_keep]
    | refine (State.hitTake_keep _ _ _ _ _ _ ?_).trans ?_
    | intro _
    | split

theorem State.hitchOffset_keep (s : State) (th : Q) : (State.hitchOffset s th).keep = s.keep := by
  unfold State.hitchOffset
  try dsimp only
  repeat' first
    | simp only [State.enterServo_keep, State.servoOffset_keep, State.modHit_keep, State.postArray_keep]
    | split

theorem execHitchTimeEcho_keep (port : Fin 8) (msg : Bytes) (at_ : Int) (s : State) : Stays (execHitchTimeEcho port msg at_ s) s := by
  unfold execHitchTimeEcho
  refine Stays.of_next ?_
  try dsimp only
  repeat' first
    | simp only [State.hitchOffset_keep]
    | refine (State.hitTake_keep _ _ _ _ _ _ ?_).trans ?_
    | intro _
    | split

theorem State.alignTry_keep (s : State) : (State.alignTry s).keep = s.keep := by
  unfold State.alignTry
  try dsimp only
  repeat' first
    | simp only [State.takeFree_keep, State.modHit_keep, State.postArray_keep]
    | split

theorem State.devStep_keep (s : State) : (State.devStep s).keep = s.keep := by
  unfold State.devStep
  try dsimp only
  repeat' first
    | simp only [State.modHit_keep]
    | split

theorem execMeas_keep (port : Fin 8) (msg : Bytes) (s : State) : Stays (execMeas port msg s) s := by
  unfold execMeas
  refine Stays.of_next ?_
  try dsimp only
  repeat' first
    | simp only [State.hitSend_keep, State.modHit_keep, State.alignTry_keep]
    | refine (State.hitTake_keep _ _ _ _ _ _ ?_).trans ?_
    | intro _
    | split

theorem State.fwdWalk_keep (s : State) (p : Fin 8) (y0 : Nat) (y1 : Bytes) : (State.fwdWalk s p y0 y1).keep = s.keep := by
  induction y0 generalizing s y1 with
  | zero => rfl
  | succ n ih =>
    unfold State.fwdWalk
    dsimp only
    split
    · rfl
    · exact (ih _ _).trans (State.sarMessage_keep _ _ _ _ _)

theorem execHitchFwd_keep (port : Fin 8) (msg : Bytes) (s : State) : Stays (execHitchFwd port msg s) s := by
  unfold execHitchFwd
  refine Stays.of_next ?_
  try dsimp only
  repeat' first
    | simp only [State.hitSend_keep, State.fwdWalk_keep]
    | refine (State.hitTake_keep _ _ _ _ _ _ ?_).trans ?_
    | intro _
    | split

theorem execUlPsum_keep (port : Fin 8) (msg : Bytes) (s : State) : Stays (execUlPsum port msg s) s := by
  unfold execUlPsum
  refine Stays.of_next ?_
  try dsimp only
  repeat' first
    | simp only [State.modHit_keep]
    | refine (State.hitTake_keep _ _ _ _ _ _ ?_).trans ?_
    | intro _
    | split

theorem State.psumSend_keep (s : State) (p : Nat) (c : Fin 8) (sym : Tick) (l : Nat) (layer : Nat) (miss : Bool) (vals : List (Nat × List (Int × Int))) : (State.psumSend s p c sym l layer miss vals).keep = s.keep := by
  unfold State.psumSend
  try dsimp only
  repeat' first
    | simp only [State.hitSend_keep]
    | refine (foldl_keep _ ?_ _ _).trans ?_
    | intro _

theorem State.psumEgress_keep (s : State) (car : Fin 8) (k : CarrierCfg) (sym : Tick) (l : Nat) (sums : List (Nat × List (Nat × List (Int × Int)))) : (State.psumEgress s car k sym l sums).keep = s.keep := by
  unfold State.psumEgress
  try dsimp only
  repeat' first
    | simp only [State.modCarrier_keep, State.egressLayer_keep]
    | refine (foldl_keep _ ?_ _ _).trans ?_
    | intro _

theorem execSndDone_keep (port : Fin 8) (msg : Bytes) (s : State) : Stays (execSndDone port msg s) s := by
  unfold execSndDone
  refine Stays.of_next ?_
  try dsimp only
  repeat' first
    | simp only [State.keep_mk, State.keep_eta, State.modHit_keep]
    | refine (State.hitTake_keep _ _ _ _ _ _ ?_).trans ?_
    | intro _
    | split

theorem State.modGroup_keep (s : State) (g : ChainGroup) (f : ChainGroup → ChainGroup) : (State.modGroup s g f).keep = s.keep := by
  unfold State.modGroup
  try dsimp only
  repeat' simp only [State.modHit_keep]

theorem State.chainJob_keep (s : State) (g : ChainGroup) (stage : Nat) : (State.chainJob s g stage).keep = s.keep := by
  unfold State.chainJob
  try dsimp only
  repeat' simp only [State.addJob_keep]

theorem State.chainNoEstimate_keep (s : State) (g : ChainGroup) : (State.chainNoEstimate s g).keep = s.keep := by
  unfold State.chainNoEstimate
  try dsimp only
  repeat' first
    | simp only [State.modWcount_keep, State.noSet_keep]
    | split

theorem State.chainStep_keep (s : State) (c : Fin 8) (ul : Bool) (slot : Tick) (grp : Nat) : (State.chainStep s c ul slot grp).keep = s.keep := by
  unfold State.chainStep
  try dsimp only
  repeat' first
    | simp only [State.weightDone_keep, State.hitSlot_keep, State.modGroup_keep, State.chainJob_keep, State.chainNoEstimate_keep]
    | split

theorem State.chainDone_keep (s : State) (stage : Nat) (c : Fin 8) (ul : Bool) (slot : Tick) (grp blk : Nat) (w : WeightIn) (prep : WSet) : (State.chainDone s stage c ul slot grp blk w prep).keep = s.keep := by
  unfold State.chainDone
  try dsimp only
  repeat' first
    | simp only [State.dropWork_keep, State.weightDone_keep, State.hitSlot_keep, State.modGroup_keep, State.chainJob_keep, State.chainStep_keep]
    | split

theorem execGram_keep (port : Fin 8) (msg : Bytes) (s : State) : Stays (execGram port msg s) s := by
  unfold execGram
  refine Stays.of_next ?_
  try dsimp only
  repeat' first
    | simp only [State.modGroup_keep, State.chainStep_keep]
    | refine (State.hitTake_keep _ _ _ _ _ _ ?_).trans ?_
    | intro _
    | split

theorem execSolve_keep (port : Fin 8) (msg : Bytes) (s : State) : Stays (execSolve port msg s) s := by
  unfold execSolve
  refine Stays.of_next ?_
  try dsimp only
  repeat' first
    | simp only [State.hitSlot_keep, State.modGroup_keep, State.chainJob_keep]
    | refine (State.hitTake_keep _ _ _ _ _ _ ?_).trans ?_
    | intro _
    | split

theorem execReady_keep (port : Fin 8) (msg : Bytes) (s : State) : Stays (execReady port msg s) s := by
  unfold execReady
  refine Stays.of_next ?_
  try dsimp only
  repeat' first
    | simp only [State.modGroup_keep, State.chainStep_keep]
    | refine (State.hitTake_keep _ _ _ _ _ _ ?_).trans ?_
    | refine (foldl_keep _ ?_ _ _).trans ?_
    | intro _
    | split

theorem State.sendCommit_keep (s : State) (x : Claim) (code : Nat) : (State.sendCommit s x code).keep = s.keep := by
  unfold State.sendCommit
  try dsimp only
  repeat' first
    | simp only [State.hitSlot_keep, State.modHit_keep]
    | split

theorem execCommit_keep (port : Fin 8) (msg : Bytes) (s : State) : Stays (execCommit port msg s) s := by
  unfold execCommit
  refine Stays.of_next ?_
  try dsimp only
  repeat' first
    | simp only [State.setClaim_keep, State.publish_keep, State.claimCmds_keep, State.hitSlot_keep]
    | refine (State.hitTake_keep _ _ _ _ _ _ ?_).trans ?_
    | intro _
    | split

theorem execKeepalive_keep (port : Fin 8) (msg : Bytes) (s : State) : Stays (execKeepalive port msg s) s := by
  unfold execKeepalive
  refine Stays.of_next ?_
  try dsimp only
  repeat' first
    | simp only [State.modHit_keep]
    | refine (State.hitTake_keep _ _ _ _ _ _ ?_).trans ?_
    | intro _
    | split

-- FamHk

theorem State.modConv_keep (s : State) (i : Fin 2) (f : HkConv → HkConv) : (State.modConv s i f).keep = s.keep := by
  unfold State.modConv
  try dsimp only
  repeat' simp only [State.keep_mk, State.keep_eta]

theorem State.hkTrigger_keep (s : State) (i : Fin 2) (at_ : Nat) : (State.hkTrigger s i at_).2.keep = s.keep := by
  unfold State.hkTrigger
  try dsimp only
  repeat' first
    | simp only [State.modConv_keep]
    | split

theorem State.hkBegin_keep (s : State) (i : Fin 2) (ch : Nat) (fmt : BitVec 2) (samp : Nat) (sweep : Bool) (cmd : Option CmdRef) : (State.hkBegin s i ch fmt samp sweep cmd).keep = s.keep := by
  unfold State.hkBegin
  try dsimp only
  repeat' simp only [State.modConv_keep]

theorem State.hkTimedSweep_keep (s : State) (i : Fin 2) : (State.hkTimedSweep s i).keep = s.keep := by
  unfold State.hkTimedSweep
  try dsimp only
  repeat' first
    | simp only [State.complete_keep, State.modConv_keep, State.hkTrigger_keep]
    | split

theorem State.hkGo_keep (s : State) (i : Fin 2) : (State.hkGo s i).keep = s.keep := by
  unfold State.hkGo
  try dsimp only
  repeat' first
    | simp only [State.modConv_keep, State.hkBegin_keep, State.hkTimedSweep_keep]
    | split

theorem State.hkRecord_keep (s : State) (ch : Fin 184) (fmt : BitVec 2) (code : Int) (samp : Nat) : (State.hkRecord s ch fmt code samp).keep = s.keep := by
  unfold State.hkRecord
  try dsimp only
  repeat' simp only [State.keep_mk, State.keep_eta]

theorem State.hkReadRecord_keep (s : State) (ch : Fin 184) : (State.hkReadRecord s ch).2.keep = s.keep := by
  unfold State.hkReadRecord
  try dsimp only
  repeat' simp only [State.record_keep]

-- Sec

theorem State.verifyFail_keep (s : State) (t cause : Nat) : (State.verifyFail s t cause).keep = s.keep := by
  unfold State.verifyFail
  try dsimp only
  repeat' simp only [State.keep_mk, State.keep_eta]

theorem State.bootPair_keep (s : State) (t : Nat) (a b : Fin 6) (prefB : Bool) : (State.bootPair s t a b prefB).2.keep = s.keep := by
  unfold State.bootPair
  try dsimp only
  repeat' first
    | simp only [State.postSec_keep, State.verifyFail_keep]
    | split

theorem State.setKernel_keep (s : State) (two : Bool) (k : Kernel) (m : Bytes) : (State.setKernel s two k m).keep = s.keep := by
  unfold State.setKernel
  try dsimp only
  repeat' first
    | simp only [State.keep_mk, State.keep_eta]
    | split

theorem State.bootKernel_keep (s : State) (two : Bool) : (State.bootKernel s two).keep = s.keep := by
  unfold State.bootKernel
  try dsimp only
  repeat' first
    | simp only [State.postSec_keep, State.verifyFail_keep, State.setKernel_keep]
    | split

theorem State.kernelFallback_keep (s : State) : (State.kernelFallback s).keep = s.keep := by
  unfold State.kernelFallback
  try dsimp only
  repeat' first
    | simp only [State.modCarrier_keep]
    | refine (foldl_keep _ ?_ _ _).trans ?_
    | intro _

theorem State.putImage_keep (s : State) (slot : Nat) (b : Bytes) (cmd : Option CmdRef) : (State.putImage s slot b cmd).keep = s.keep := by
  unfold State.putImage
  try dsimp only
  repeat' first
    | simp only [State.tackPut_keep]
    | refine (foldl_keep _ ?_ _ _).trans ?_
    | intro _

-- FamSec

theorem State.deliver_keep (s : State) (c : Cmd) (addr : BitVec 64) (b : Bytes) : (State.deliver s c addr b).keep = s.keep := by
  unfold State.deliver
  try dsimp only
  repeat' first
    | simp only [State.emit_keep, State.finish_keep]
    | split

theorem State.takeBytes_keep (s : State) (n : Nat) : (State.takeBytes s n).2.keep = s.keep := by
  unfold State.takeBytes
  try dsimp only
  repeat' simp only [State.keep_mk, State.keep_eta]

theorem State.report_keep (s : State) (nonce pub : Bytes) : (State.report s nonce pub).2.keep = s.keep := by
  unfold State.report
  try dsimp only
  repeat' simp only [State.record_keep]

-- Solver

theorem State.modCore_keep (s : State) (c : Fin 9) (f : SolCore → SolCore) : (State.modCore s c f).keep = s.keep := by
  unfold State.modCore
  try dsimp only
  repeat' simp only [State.keep_mk, State.keep_eta]

theorem State.solPut_keep (s : State) (c : Fin 9) (i : Nat) (v : BitVec 32) : (State.solPut s c i v).keep = s.keep := by
  unfold State.solPut
  try dsimp only
  repeat' simp only [State.modCore_keep]

theorem State.solStore_keep (s : State) (c : Fin 9) (a : Nat) (v : BitVec 32) : (State.solStore s c a v).keep = s.keep := by
  unfold State.solStore
  try dsimp only
  repeat' first
    | simp only [State.solPut_keep]
    | split

theorem State.solVecPut_keep (s : State) (c : Fin 9) (a : Nat) (v : Vector (BitVec 32) 32) (mask : BitVec 32) : (State.solVecPut s c a v mask).keep = s.keep := by
  unfold State.solVecPut
  try dsimp only
  repeat' first
    | simp only [State.solStore_keep]
    | refine (foldl_keep _ ?_ _ _).trans ?_
    | intro _
    | split

theorem State.wv_keep (s : State) (c : Fin 9) (i : Fin 32) (v : Vector (BitVec 32) 32) : (State.wv s c i v).keep = s.keep := by
  unfold State.wv
  try dsimp only
  repeat' simp only [State.modCore_keep]

theorem State.xStep_keep (s : State) (b : Bank) (n : Fin 16) (d : Int) : (State.xStep s b n d).1.keep = s.keep := by
  unfold State.xStep
  try dsimp only
  repeat' first
    | simp only [State.takeFree_keep]
    | split

theorem State.satCount_keep (s : State) (c : Fin 9) (n : Nat) : (State.satCount s c n).keep = s.keep := by
  unfold State.satCount
  try dsimp only
  repeat' simp only [State.modCore_keep]

theorem State.vecSat_keep (s : State) (c : Fin 9) (d : Fin 32) (f : Fin 32 → Int × Int) : (State.vecSat s c d f).keep = s.keep := by
  unfold State.vecSat
  try dsimp only
  repeat' simp only [State.wv_keep, State.satCount_keep]

theorem State.accSat_keep (s : State) (c : Fin 9) (b : Bank) (a : Fin 4) (f : Fin 32 → Int × Int) : (State.accSat s c b a f).1.keep = s.keep := by
  unfold State.accSat
  try dsimp only
  repeat' simp only [State.satCount_keep]

theorem State.testEnd_keep (s : State) (ref : CmdRef) (out : BitVec 64) (err : Bool) (data : List (BitVec 32)) (tail : Bytes) : (State.testEnd s ref out err data tail).keep = s.keep := by
  unfold State.testEnd
  try dsimp only
  repeat' first
    | simp only [State.emit_keep, State.complete_keep]
    | split

theorem State.withdrawKernel_keep (s : State) (k : BitVec 2) : (State.withdrawKernel s k).keep = s.keep := by
  unfold State.withdrawKernel
  try dsimp only
  repeat' first
    | simp only [State.keep_mk, State.keep_eta, State.atCycle_keep]
    | refine (foldl_keep _ ?_ _ _).trans ?_
    | intro _
    | split

theorem State.bgLost_keep (s : State) (j : Option Job) : (State.bgLost s j).keep = s.keep := by
  unfold State.bgLost
  try dsimp only
  repeat' first
    | simp only [State.adaptDrop_keep, State.addJob_keep]
    | split

theorem State.coreFault_keep (s : State) (c : Fin 9) (cause : Nat) : (State.coreFault s c cause).keep = s.keep := by
  unfold State.coreFault
  try dsimp only
  repeat' first
    | simp only [State.record_keep, State.scrapSiding_keep, State.raiseFault_keep, State.modCore_keep, State.testEnd_keep, State.withdrawKernel_keep, State.bgLost_keep]
    | split

/-- What an instruction's effect on the state leaves alone. -/
def IsaKeeps (f : State → Bank → IsaRes) : Prop := ∀ s b t, f s b = .inr t → t.1.keep = s.keep

theorem pureBank_keep (f : Bank → Bank) : IsaKeeps (pureBank f) := by
  intro s b t h; simp only [pureBank, Sum.inr.injEq] at h; subst h; rfl

theorem State.isa_keep (s : State) (c : Fin 9) (bg : Bool) (w : BitVec 32) (o : IsaOp) (f : State → Bank → IsaRes) (jump : Bool) (hf : IsaKeeps f) : (State.isa s c bg w o f jump).keep = s.keep := by
  unfold State.isa
  extract_lets m b k pc here
  split
  · rfl
  · split
    · exact State.coreFault_keep _ _ _
    · split
      · exact State.coreFault_keep _ _ _
      · split
        · exact State.coreFault_keep _ _ _
        · rename_i u b' more h
          have hu : u.keep = s.keep := hf _ _ _ h
          dsimp only
          rw [State.modCore_keep]
          split
          · exact (State.takeFree_keep _ _).trans hu
          · exact hu

-- SolLib

theorem State.solPuts_keep (s : State) (c : Fin 9) (i : Nat) (l : List (BitVec 32)) : (State.solPuts s c i l).keep = s.keep := by
  unfold State.solPuts
  try dsimp only
  repeat' simp only [State.modCore_keep]

theorem State.solFree_keep (s : State) (c : Fin 9) (i n : Nat) : (State.solFree s c i n).keep = s.keep := by
  unfold State.solFree
  try dsimp only
  repeat' simp only [State.keep_mk, State.keep_eta, State.solPuts_keep]

theorem State.libGram_keep (s : State) (c : Fin 9) (x0 : Nat) : (State.libGram s c x0).keep = s.keep := by
  unfold State.libGram
  try dsimp only
  repeat' first
    | simp only [State.modCore_keep, State.solPuts_keep, State.solFree_keep]
    | refine (foldl_keep _ ?_ _ _).trans ?_
    | intro _
    | split

theorem State.libChol_keep (s : State) (c : Fin 9) (x0 : Nat) : (State.libChol s c x0).1.keep = s.keep := by
  unfold State.libChol
  try dsimp only
  repeat' first
    | simp only [State.takeFree_keep, State.modCore_keep, State.solFree_keep]
    | split

theorem State.libSolve_keep (s : State) (c : Fin 9) (x0 : Nat) : (State.libSolve s c x0).keep = s.keep := by
  unfold State.libSolve
  try dsimp only
  repeat' simp only [State.modCore_keep, State.solFree_keep]

theorem State.libNormOut_keep (s : State) (c : Fin 9) (x0 : Nat) : (State.libNormOut s c x0).keep = s.keep := by
  unfold State.libNormOut
  try dsimp only
  repeat' first
    | simp only [State.solPuts_keep, State.solFree_keep]
    | refine (foldl_keep _ ?_ _ _).trans ?_
    | intro _
    | split

-- FamIsa

theorem State.salu_keep (s : State) (core : Fin 9) (bg : Bool) (w : BitVec 32) (op : Nat) (f : BitVec 32 → BitVec 32 → BitVec 32) : (State.salu s core bg w op f).keep = s.keep := by
  unfold State.salu
  try dsimp only
  repeat' first
    | with_reducible rfl
    | refine (State.isa_keep _ _ _ _ _ _ _ ?_).trans ?_
    | exact pureBank_keep _

theorem State.simm_keep (s : State) (core : Fin 9) (bg : Bool) (w : BitVec 32) (op : Nat) (f : BitVec 32 → BitVec 16 → BitVec 32) : (State.simm s core bg w op f).keep = s.keep := by
  unfold State.simm
  try dsimp only
  repeat' first
    | with_reducible rfl
    | refine (State.isa_keep _ _ _ _ _ _ _ ?_).trans ?_
    | exact pureBank_keep _

theorem State.memOp_keep (s : State) (core : Fin 9) (bg : Bool) (w : BitVec 32) (o : IsaOp) (n : Nat) (al : Bool) (f : State → Bank → Nat → State × Bank) (hf : ∀ (x0 : State) (x1 : Bank) (x2 : Nat), (f x0 x1 x2).1.keep = x0.keep) :
    (State.memOp s core bg w o n al f).keep = s.keep := by
  refine State.isa_keep _ _ _ _ _ _ _ ?_
  intro s b t h
  dsimp only at h
  split at h
  · cases h
  · split at h
    · cases h
    · cases h; exact (State.xStep_keep _ _ _ _).trans (hf _ _ _)

theorem State.macOp_keep (s : State) (core : Fin 9) (w : BitVec 32) (b : Bank) (add : Bool) (y : Fin 32 → BitVec 32) : (State.macOp s core w b add y).1.keep = s.keep := by
  unfold State.macOp
  try dsimp only
  repeat' simp only [State.accSat_keep]

theorem State.macV_keep (s : State) (core : Fin 9) (bg : Bool) (w : BitVec 32) (op : Nat) (add : Bool) : (State.macV s core bg w op add).keep = s.keep := by
  unfold State.macV
  try dsimp only
  repeat' first
    | simp only [State.macOp_keep]
    | refine (State.isa_keep _ _ _ _ _ _ _ ?_).trans ?_
    | (intro s b t h; dsimp only at h; cases h)

theorem State.macB_keep (s : State) (core : Fin 9) (bg : Bool) (w : BitVec 32) (op : Nat) (add : Bool) : (State.macB s core bg w op add).keep = s.keep := by
  unfold State.macB
  try dsimp only
  repeat' first
    | simp only [State.macOp_keep]
    | refine (State.isa_keep _ _ _ _ _ _ _ ?_).trans ?_
    | (intro s b t h; dsimp only at h; cases h)

theorem State.valu2_keep (s : State) (core : Fin 9) (bg : Bool) (w : BitVec 32) (o : IsaOp) (f : BitVec 32 → BitVec 32 → Int × Int) : (State.valu2 s core bg w o f).keep = s.keep := by
  unfold State.valu2
  try dsimp only
  repeat' first
    | simp only [State.vecSat_keep]
    | refine (State.isa_keep _ _ _ _ _ _ _ ?_).trans ?_
    | (intro s b t h; dsimp only at h; cases h)

theorem State.vmov_keep (s : State) (core : Fin 9) (bg : Bool) (w : BitVec 32) (o : IsaOp) (f : Vector (Vector (BitVec 32) 32) 32 → Bank → Fin 32 → BitVec 32) : (State.vmov s core bg w o f).keep = s.keep := by
  unfold State.vmov
  try dsimp only
  repeat' first
    | simp only [State.wv_keep]
    | refine (State.isa_keep _ _ _ _ _ _ _ ?_).trans ?_
    | (intro s b t h; dsimp only at h; cases h)

theorem State.sfn_keep (s : State) (core : Fin 9) (bg : Bool) (w : BitVec 32) (op cost : Nat) (f : Nat → Nat) : (State.sfn s core bg w op cost f).keep = s.keep := by
  unfold State.sfn
  try dsimp only
  repeat' first
    | simp only [State.satCount_keep]
    | refine (State.isa_keep _ _ _ _ _ _ _ ?_).trans ?_
    | (intro s b t h; dsimp only at h; cases h)

-- FamLink

theorem after_keep (s : State) (y0 : R) (h : Stays y0 s) : (after s y0).keep = s.keep := by
  unfold after
  split
  · exact h _ rfl
  · rfl

theorem State.ptpFrame_keep (s : State) (p : Fin 8) (dst : BitVec 48) (b : Bytes) : (State.ptpFrame s p dst b).keep = s.keep := by
  unfold State.ptpFrame
  try dsimp only
  repeat' first
    | simp only [State.ptpIgnore_keep]
    | refine (after_keep _ _ ?_).trans ?_
    | exact execPtpAnnounce_keep _ _ _
    | exact execPtpSync_keep _ _ _ _ _
    | exact execPtpFollowUp_keep _ _ _
    | exact execPtpDelayResp_keep _ _ _
    | split

theorem State.hitBad_keep (s : State) : (State.hitBad s).keep = s.keep := by
  unfold State.hitBad
  try dsimp only
  repeat' simp only [State.modHit_keep]

theorem State.hitchFrame_keep (s : State) (p : Fin 8) (b : Bytes) : (State.hitchFrame s p b).keep = s.keep := by
  unfold State.hitchFrame
  split
  · exact State.hitBad_keep _
  · split
    · exact after_keep _ _ (execHitchTime_keep _ _ _ _)
    · exact after_keep _ _ (execHitchTimeEcho_keep _ _ _ _)
    · exact after_keep _ _ (execHitchFwd_keep _ _ _)
    · exact after_keep _ _ (execUlPsum_keep _ _ _)
    · exact after_keep _ _ (execGram_keep _ _ _)
    · exact after_keep _ _ (execSolve_keep _ _ _)
    · exact after_keep _ _ (execReady_keep _ _ _)
    · exact after_keep _ _ (execCommit_keep _ _ _)
    · exact after_keep _ _ (execSndDone_keep _ _ _)
    · exact after_keep _ _ (execMeas_keep _ _ _)
    · exact after_keep _ _ (execKeepalive_keep _ _ _)
    · exact State.hitBad_keep _

theorem State.ecpri_keep (p : Fin 8) (src : BitVec 48) (y0 : Nat) (y1 : Bytes) (y2 : State) : (State.ecpri p src y0 y1 y2).keep = y2.keep := by
  induction y0 generalizing y1 y2 with
  | zero => rfl
  | succ n ih =>
    unfold State.ecpri
    dsimp only
    split
    · exact State.rx_keep _ _ _
    · have hr : ∀ r : Bool × State, r.2.keep = y2.keep → (if r.1 && byteAt (y1.take (4 + beAt y1 2 2)) 0 % 2 == 1 then State.ecpri p src n (y1.drop (pad4 (4 + beAt y1 2 2))) r.2 else r.2).keep = y2.keep := by
        intro r h
        split
        · exact (ih _ _).trans h
        · exact h
      refine hr (if byteAt (y1.take (4 + beAt y1 2 2)) 0 / 16 ≠ 1 then (!decide (y1.length < 4 + beAt y1 2 2), y2.rx p .uncl)
        else if byteAt (y1.take (4 + beAt y1 2 2)) 1 = 5 then
          (if decide (y1.length < 4 + beAt y1 2 2) = true then (false, y2.rx p .len) else y2.delayMessage p src (y1.take (4 + beAt y1 2 2)))
        else if byteAt (y1.take (4 + beAt y1 2 2)) 1 = 0 ∨ byteAt (y1.take (4 + beAt y1 2 2)) 1 = 2 then
          y2.sarMessage p true (decide (y1.length < 4 + beAt y1 2 2)) (y1.take (4 + beAt y1 2 2))
        else (!decide (y1.length < 4 + beAt y1 2 2), y2.rx p .uncl)) ?_
      repeat' first
        | simp only [State.rx_keep, State.delayMessage_keep, State.sarMessage_keep]
        | split

theorem State.failover_keep (s : State) (p : Fin 8) : (State.failover s p).keep = s.keep := by
  unfold State.failover
  try dsimp only
  repeat' first
    | simp only [State.keep_mk, State.keep_eta, State.modCarrier_keep, State.modPort_keep, State.postLink_keep, State.cnt_keep]
    | refine (foldl_keep _ ?_ _ _).trans ?_
    | intro _
    | split

-- FamSol

theorem State.coreRecord_keep (s : State) (c : Fin 9) : (State.coreRecord s c).2.keep = s.keep := by
  unfold State.coreRecord
  try dsimp only
  repeat' simp only [State.record_keep]

theorem State.jobEntry_keep (s : State) (c : Fin 9) (bg : Bool) (kernel : BitVec 2) : (State.jobEntry s c bg kernel).keep = s.keep := by
  unfold State.jobEntry
  try dsimp only
  repeat' simp only [State.keep_mk, State.keep_eta, State.modCore_keep]

theorem State.descriptor_keep (s : State) (c : Fin 8) (ul : Bool) (grp : Nat) (m : List (Nat × Nat)) (ants : List (Fin 64)) (exp budget : Nat) : (State.descriptor s c ul grp m ants exp budget).2.keep = s.keep := by
  unfold State.descriptor
  try dsimp only
  repeat' simp only [State.record_keep]

theorem State.stageWeight_keep (s : State) (core : Fin 9) (c : Fin 8) (ul : Bool) (slot : Tick) (grp : Nat) (m : List (Nat × Nat)) (budget : Nat) : (State.stageWeight s core c ul slot grp m budget).keep = s.keep := by
  unfold State.stageWeight
  try dsimp only
  repeat' first
    | simp only [State.modCarrier_keep, State.solPuts_keep, State.descriptor_keep]
    | refine (foldl_keep _ ?_ _ _).trans ?_
    | intro _
    | split

theorem State.windowTake_keep (s : State) (c : Fin 9) (n : Nat) : (State.windowTake s c n).keep = s.keep := by
  unfold State.windowTake
  try dsimp only
  repeat' simp only [State.keep_mk, State.keep_eta]

theorem State.unstageable_keep (s : State) (c : Fin 8) (blk : Nat) : (State.unstageable s c blk).keep = s.keep := by
  unfold State.unstageable
  try dsimp only
  repeat' first
    | simp only [State.modWcount_keep, State.noSet_keep]
    | split

theorem State.enterJob_keep (s : State) (core : Fin 9) (j : Job) (c : Fin 8) (ul : Bool) (slot : Tick) (grp : Nat) (map : List (Nat × Nat)) (blk : Nat) : (State.enterJob s core j c ul slot grp map blk).keep = s.keep := by
  unfold State.enterJob
  try dsimp only
  repeat' simp only [State.modCore_keep, State.jobEntry_keep, State.stageWeight_keep, State.windowTake_keep]

theorem State.vendorTest_keep (s : State) (core : Fin 9) : (State.vendorTest s core).1.keep = s.keep := by
  unfold State.vendorTest
  try dsimp only
  repeat' first
    | simp only [State.takeFree_keep, State.satCount_keep, State.solPuts_keep, State.solFree_keep]
    | refine (foldl_keep _ ?_ _ _).trans ?_
    | intro _
    | split

-- FamMem

theorem State.repairCol_keep (s : State) (b : Nat) (bit : BitVec 9) (t : State) (ht : State.repairCol s b bit = some t) : t.keep = s.keep := by
  unfold State.repairCol at ht
  split at ht
  · cases ht
  · cases ht; rw [State.postSpare_keep, State.ledgerPut_keep, State.modBank_keep]

theorem State.marchFail_keep (s : State) (b : Nat) (row : BitVec 8) (repair : Bool) : (State.marchFail s b row repair).keep = s.keep := by
  unfold State.marchFail
  try dsimp only
  repeat' first
    | simp only [State.postSpare_keep, State.modBank_keep, State.raiseFault_keep]
    | split

theorem State.wipeBank_keep (s : State) (b : Nat) : (State.wipeBank s b).keep = s.keep := by
  unfold State.wipeBank
  try dsimp only
  repeat' first
    | simp only [State.keep_mk, State.keep_eta, State.dropWeights_keep]
    | split

theorem State.modMarch_keep (s : State) (r : CmdRef) (f : March → March) : (State.modMarch s r f).keep = s.keep := by
  unfold State.modMarch
  try dsimp only
  repeat' simp only [State.keep_mk, State.keep_eta]

theorem State.bankBegin_keep (s : State) (m : March) (b : Nat) : (State.bankBegin s m b).keep = s.keep := by
  unfold State.bankBegin
  try dsimp only
  repeat' first
    | simp only [State.keep_mk, State.keep_eta, State.wipeBank_keep, State.modMarch_keep]
    | split

theorem State.marchDone_keep (s : State) (m : March) : (State.marchDone s m).keep = s.keep := by
  unfold State.marchDone
  try dsimp only
  repeat' first
    | simp only [State.keep_mk, State.keep_eta, State.complete_keep, State.bootKernel_keep, State.kernelFallback_keep]
    | split

theorem State.marchSweep_keep (s : State) : (State.marchSweep s).keep = s.keep := by
  unfold State.marchSweep
  try dsimp only
  repeat' first
    | simp only [State.keep_mk, State.keep_eta, State.complete_keep, State.modMarch_keep, State.bankBegin_keep, State.marchDone_keep]
    | refine (foldl_keep _ ?_ _ _).trans ?_
    | intro _
    | split

theorem State.loadRepair_keep (s : State) (r : LedgerRec) : (State.loadRepair s r).keep = s.keep := by
  unfold State.loadRepair
  try dsimp only
  repeat' first
    | simp only [State.modBank_keep]
    | split

theorem State.corrected_keep (s : State) (b : Nat) (row : BitVec 8) : (State.corrected s b row).keep = s.keep := by
  unfold State.corrected
  try dsimp only
  repeat' first
    | simp only [State.keep_mk, State.keep_eta, State.postSpare_keep, State.modBank_keep]
    | split

theorem State.dropHeldMsg_keep (s : State) (n : Fin 8) (i : Nat) : (State.dropHeldMsg s n i).keep = s.keep := by
  unfold State.dropHeldMsg
  try dsimp only
  repeat' first
    | simp only [State.keep_mk, State.keep_eta, State.modPort_keep]
    | split

theorem State.uncorrConsumer_keep (s : State) (b what : Nat) (cmd : Option CmdRef) : (State.uncorrConsumer s b what cmd).keep = s.keep := by
  unfold State.uncorrConsumer
  try dsimp only
  repeat' first
    | simp only [State.keep_mk, State.keep_eta, State.complete_keep, State.modPort_keep, State.capAbort_keep, State.fallbackClaim_keep, State.coreFault_keep, State.dropHeldMsg_keep]
    | split

theorem State.memRecord_keep (s : State) (m : Nat) : (State.memRecord s m).2.keep = s.keep := by
  unfold State.memRecord
  try dsimp only
  repeat' simp only [State.record_keep]

theorem State.coreDrop_keep (s : State) (c : Fin 9) : (State.coreDrop s c).keep = s.keep := by
  unfold State.coreDrop
  try dsimp only
  repeat' simp only [State.modCore_keep, State.bgLost_keep]

theorem State.lbistBegin_keep (s : State) (l : Lbist) : (State.lbistBegin s l).keep = s.keep := by
  unfold State.lbistBegin
  try dsimp only
  repeat' first
    | simp only [State.keep_mk, State.keep_eta, State.dropWeights_keep, State.capAbort_keep, State.coreDrop_keep]
    | refine (foldl_keep _ ?_ _ _).trans ?_
    | intro _
    | split

theorem State.lbistSweep_keep (s : State) : (State.lbistSweep s).keep = s.keep := by
  unfold State.lbistSweep
  try dsimp only
  repeat' first
    | simp only [State.keep_mk, State.keep_eta, State.complete_keep, State.obsEntry_keep, State.lbistBegin_keep]
    | refine (foldl_keep _ ?_ _ _).trans ?_
    | intro _
    | split

theorem State.lbistReload_keep (s : State) (target index : Nat) : (State.lbistReload s target index).keep = s.keep := by
  unfold State.lbistReload
  try dsimp only
  repeat' first
    | simp only [State.seedDpd_keep, State.calRestore_keep, State.bootKernel_keep, State.kernelFallback_keep]
    | refine (foldl_keep _ ?_ _ _).trans ?_
    | intro _
    | split

theorem State.restorePath_keep (s : State) (p : Fin 64) : (State.restorePath s p).keep = s.keep := by
  unfold State.restorePath
  try dsimp only
  repeat' first
    | simp only [State.keep_mk, State.keep_eta, State.postSpare_keep, State.tackPut_keep, State.ledgerPut_keep, State.modPath_keep]
    | split

-- FamOut

theorem State.outputNow_keep (s : State) (idx : Nat) (range : BitVec 2) (code : BitVec 16) (safe : Bool) : (State.outputNow s idx range code safe).keep = s.keep := by
  unfold State.outputNow
  try dsimp only
  repeat' first
    | simp only [State.modOut_keep, State.capMuted_keep]
    | split

theorem State.outEvents_keep (s : State) (c : Cmd) (x : Slot) (is : List (Fin 80)) (safe : Bool) : (State.outEvents s c x is safe).keep = s.keep := by
  unfold State.outEvents
  try dsimp only
  repeat' first
    | refine (State.presentCmd_keep _ _ _ _ _ _ ?_).trans ?_
    | intro _
    | rfl

theorem State.setSlew_keep (s : State) (p : BitVec 320) (is : List (Fin 80)) : (State.setSlew s p is).keep = s.keep := by
  unfold State.setSlew
  try dsimp only
  repeat' first
    | simp only [State.within_keep, State.modOut_keep]
    | refine (foldl_keep _ ?_ _ _).trans ?_
    | intro _

theorem State.outRecord_keep (s : State) (i : Fin 80) : (State.outRecord s i).2.keep = s.keep := by
  unfold State.outRecord
  try dsimp only
  repeat' simp only [State.record_keep]

-- FamPwr

theorem State.modPwr_keep (s : State) (f : Pwr → Pwr) (h : (f s.pwr).vin = s.pwr.vin) : (State.modPwr s f).keep = s.keep := by
  simp only [State.modPwr, State.keep, h]

theorem State.muteNow_keep (s : State) (p : Fin 64) (tx rx on cmd : Bool) : (State.muteNow s p tx rx on cmd).keep = s.keep := by
  unfold State.muteNow
  try dsimp only
  repeat' first
    | simp only [State.modPath_keep, State.capMuted_keep]
    | split

theorem State.beginEntry_keep (s : State) (t : PwrState) (cmd : Option CmdRef) : (State.beginEntry s t cmd).keep = s.keep := by
  unfold State.beginEntry
  try dsimp only
  repeat' first
    | with_reducible rfl
    | refine (State.modPwr_keep _ _ ?_).trans ?_

theorem State.entryStop_keep (s : State) : (State.entryStop s).keep = s.keep := by
  unfold State.entryStop
  extract_lets idle s1 s2 s3 a b c s4 s5 tuned s6 d
  have h1 : s1.keep = s.keep := (State.capDiscard_keep _ _).trans (State.quiesce_keep s)
  have h2 : s2.keep = s1.keep := foldl_keep (fun (s : State) (x : CalKey) => s.calAborted x) (fun u x => State.calAborted_keep u x) s1.calActive s1
  have h3 : s3.keep = s2.keep := foldl_keep (fun (s : State) (r : CalRun) => s.complete r.ref .hwFault) (fun u r => State.complete_keep u r.ref .hwFault 0) s2.cal.runs s2
  have h4 : s4.keep = s3.keep := by simp only [s4, a, b, c, State.keep_mk, State.keep_eta, State.dormantLeave_keep]
  clear_value s1 s2 s3
  have h6 : s6.keep = s5.keep := by
    clear_value s5 tuned
    exact (State.epochInvalid_keep _).trans (State.modPwr_keep _ _ rfl)
  have h5 : s5.keep = s4.keep := by
    clear_value s4 idle
    clear h6 d s6
    refine foldl_keep _ (fun s p => ?_) _ _
    extract_lets u
    have hu : u.keep = s.keep := State.modPath_keep _ _ _
    clear_value u
    split
    · exact hu
    · split
      · exact hu
      · exact (State.pathBegin_keep _ _ _ _).trans hu
    · exact (State.pathBegin_keep _ _ _ _).trans hu
  have h : s5.keep = s.keep := by rw [h5, h4, h3, h2, h1]
  split
  · exact h
  · simp only [d, State.keep_mk, State.keep_eta]; exact h6.trans h

theorem State.abortPoint_keep (s : State) (point : Nat) (go : State → State) (hgo : ∀ (x0 : State), (go x0).keep = x0.keep) : (State.abortPoint s point go).keep = s.keep := by
  unfold State.abortPoint
  try dsimp only
  repeat' first
    | with_reducible rfl
    | rw [hgo]
    | refine (State.modPwr_keep _ _ ?_).trans ?_
    | split

theorem State.deepLoss_keep (s : State) : (State.deepLoss s).keep = s.keep := by
  unfold State.deepLoss
  try dsimp only
  repeat' first
    | simp only [State.keep_mk, State.keep_eta, State.complete_keep, State.setKernel_keep]
    | refine (foldl_keep _ ?_ _ _).trans ?_
    | intro _
    | split

theorem State.portsIdle_keep (s : State) : (State.portsIdle s).keep = s.keep := by
  unfold State.portsIdle
  try dsimp only
  repeat' first
    | simp only [State.modPort_keep, State.setMon_keep, State.lanesDown_keep]
    | refine (foldl_keep _ ?_ _ _).trans ?_
    | intro _
    | split

theorem State.raise_keep (s : State) (ready : Bool) : (State.raise s ready).keep = s.keep := by
  unfold State.raise
  try dsimp only
  repeat' first
    | simp only [State.synthBegin_keep, State.standbyPaths_keep]
    | refine (foldl_keep _ ?_ _ _).trans ?_
    | intro _
    | split

theorem State.wakeEnter_keep (s : State) (n : Nat) : (State.wakeEnter s n).keep = s.keep := by
  unfold State.wakeEnter
  try dsimp only
  repeat' first
    | simp only [State.raise_keep]
    | split

theorem State.wakeEffect_keep (s : State) (n : Nat) : (State.wakeEffect s n).keep = s.keep := by
  unfold State.wakeEffect
  try dsimp only
  repeat' first
    | simp only [State.keep_mk, State.keep_eta, State.takeFree_keep, State.seedDpd_keep, State.calRestore_keep, State.modClk_keep, State.refSelect_keep, State.bootKernel_keep, State.kernelFallback_keep]
    | refine (State.modPwr_keep _ _ ?_).trans ?_
    | refine (foldl_keep _ ?_ _ _).trans ?_
    | intro _
    | split

theorem State.awake_keep (s : State) : (State.awake s).keep = s.keep := by
  unfold State.awake
  try dsimp only
  repeat' first
    | simp only [State.anchorBody_keep, State.post_keep, State.complete_keep, State.postPwr_keep, State.cancelAlarm_keep, State.servosWake_keep, State.raise_keep]
    | refine (State.modPwr_keep _ _ ?_).trans ?_
    | refine (foldl_keep _ ?_ _ _).trans ?_
    | intro _
    | split

theorem State.undone_keep (s : State) : (State.undone s).keep = s.keep := by
  unfold State.undone
  extract_lets s1 s2 s3 s4
  have h1 : s1.keep = s.keep := by
    show (if s.pwr.st = .active then (s.raise true).raise false else s).keep = _
    split
    · rw [State.raise_keep, State.raise_keep]
    · rfl
  have h2 : s2.keep = s1.keep := State.modPwr_keep _ _ rfl
  have h3 : s3.keep = s2.keep := by
    show (if s2.clk.pll = .off then (s2.modClk fun c => { c with pll := .holdover }).refSelect else s2).keep = _
    split
    · rw [State.refSelect_keep, State.modClk_keep]
    · rfl
  have h4 : s4.keep = s3.keep := by
    show (if s3.pwr.st = .active then s3.modPwr _ else s3).keep = _
    split
    · exact State.modPwr_keep _ _ rfl
    · rfl
  have h : s4.keep = s.keep := by rw [h4, h3, h2, h1]
  clear_value s4
  exact (State.abandoned_keep _ _ _).trans h

theorem ite_keep {c : Prop} [Decidable c] (a b s : State) (ha : a.keep = s.keep) (hb : b.keep = s.keep) : (if c then a else b).keep = s.keep := by
  split <;> assumption

theorem State.badSector_keep (s : State) (all : List Nat) (n : Nat) : (State.badSector s all n).keep = s.keep := by
  unfold State.badSector
  extract_lets src u a nv good
  have hu : u.keep = s.keep := rfl
  have ht : (u.tackPut n .directory).keep = s.keep := State.tackPut_keep u _ _ _
  clear_value good
  repeat' first
    | refine ite_keep _ _ s ?_ ?_
    | exact hu

set_option maxRecDepth 4000 in
theorem State.applyLedger_keep (s : State) (r : LedgerRec) : (State.applyLedger s r).keep = s.keep := by
  unfold State.applyLedger
  try dsimp only
  repeat' first
    | simp only [State.keep_mk, State.keep_eta, State.modPath_keep, State.modSynth_keep, State.noObserver_keep]
    | refine (State.modPwr_keep _ _ ?_).trans ?_
    | split

-- FamShu

theorem State.shuRecord_keep (s : State) (i : Fin 16) : (State.shuRecord s i).2.keep = s.keep := by
  unfold State.shuRecord
  try dsimp only
  repeat' simp only [State.record_keep]

theorem ite_keep_snd {c : Prop} [Decidable c] {α : Type} (a b : α × State) (s : State) (ha : a.2.keep = s.keep) (hb : b.2.keep = s.keep) : (if c then a else b).2.keep = s.keep := by
  split <;> assumption

theorem State.progWord_keep (s : State) (h : ShuChan) (j : Nat) : (State.progWord s h j).2.keep = s.keep := by
  unfold State.progWord
  refine ite_keep_snd _ _ s rfl ?_
  split
  · rfl
  · exact State.takeFree_keep s 64

theorem map_pair_keep {α β : Type} (w : Option α × State) (f : α → β) (t : State) (h : w.2.keep = t.keep) : (let w := w; (w.1.map f, w.2)).2.keep = t.keep := h

theorem shuWords_fold (h : ShuChan) (l : List Nat) (a : Option (List (BitVec 64)) × State) :
    (l.foldl (fun (a : Option (List (BitVec 64)) × State) j =>
      match a.1 with
      | none => a
      | some l => let w := a.2.progWord h (h.pc + j); (w.1.map fun x => l ++ [x], w.2)) a).2.keep = a.2.keep := by
  refine foldl_keep_snd _ (fun a j => ?_) _ _
  obtain ⟨a1, t⟩ := a
  cases a1 with
  | none => rfl
  | some l => exact map_pair_keep (t.progWord h (h.pc + j)) (fun x => l ++ [x]) t (State.progWord_keep t h (h.pc + j))

theorem State.shuWords_keep (s : State) (h : ShuChan) (words : Option (List (BitVec 64))) (n : Nat) : (State.shuWords s h words n).2.2.keep = s.keep := by
  unfold State.shuWords
  by_cases hp : h.prog.getLsbD 63 = true
  · rw [if_pos hp]; exact shuWords_fold h (List.range n) (some [], s)
  · rw [if_neg hp]
    split
    · split <;> rfl
    · rfl

theorem State.shuExec_keep (s : State) (ch : Fin 16) (words : Option (List (BitVec 64))) (op : ShuOp) (bad : ShuChan → List (BitVec 64) → Bool) (f : State → ShuChan → List (BitVec 64) → State) (hf : ∀ (x0 : State) (x1 : ShuChan) (x2 : List (BitVec 64)), (f x0 x1 x2).keep = x0.keep) : (State.shuExec s ch words op bad f).keep = s.keep := by
  unfold State.shuExec
  try dsimp only
  repeat' first
    | simp only [State.modChan_keep, State.shuWords_keep]
    | rw [hf]
    | split

theorem State.devWord_keep (s : State) (o : Nat) : (State.devWord s o).2.keep = s.keep := by
  unfold State.devWord
  try dsimp only
  repeat' first
    | simp only [State.freeBytes_keep]
    | split

theorem State.devRead_keep (s : State) (o len : Nat) : (State.devRead s o len).2.keep = s.keep := by
  unfold State.devRead
  try dsimp only
  repeat' first
    | simp only [State.devWord_keep]
    | refine (foldl_keep_snd _ ?_ _ _).trans ?_
    | intro _

theorem State.moveData_keep (s : State) (a : BitVec 64) (len : Nat) (src : Option Bytes) : (State.moveData s a len src).2.keep = s.keep := by
  unfold State.moveData
  try dsimp only
  repeat' first
    | simp only [State.freeBytes_keep, State.devRead_keep]
    | split

theorem State.moveBadCount_keep (s : State) (ch : Fin 16) (code : Nat) : (State.moveBadCount s ch code).keep = s.keep := by
  unfold State.moveBadCount
  try dsimp only
  repeat' simp only [State.keep_mk, State.keep_eta, State.modChan_keep]

theorem State.waitTick_keep (s : State) (ch : Fin 16) (due : Tick) (last : Bool) : (State.waitTick s ch due last).keep = s.keep := by
  unfold State.waitTick
  try dsimp only
  repeat' first
    | simp only [State.modChan_keep]
    | split

theorem State.passFlag_keep (s : State) (ch : Fin 16) (m : Nat) (clear last : Bool) : (State.passFlag s ch m clear last).keep = s.keep := by
  unfold State.passFlag
  try dsimp only
  repeat' first
    | split
    | rfl

theorem State.signal_keep (s : State) (ch : Fin 16) (words : Option (List (BitVec 64))) (op : ShuOp) (f : State → Nat → State) (hf : ∀ (x0 : State) (x1 : Nat), (f x0 x1).keep = x0.keep) : (State.signal s ch words op f).keep = s.keep := by
  unfold State.signal
  try dsimp only
  repeat' first
    | simp only [State.modChan_keep]
    | rw [hf]
    | refine (State.shuExec_keep _ _ _ _ _ _ ?_).trans ?_
    | intro _

-- FamTap

theorem State.modPkg_keep (s : State) (f : Pkg → Pkg) (h : ((f s.pkg).testMode, (f s.pkg).trst, (f s.pkg).tap, (f s.pkg).tapInstr) = (s.pkg.testMode, s.pkg.trst, s.pkg.tap, s.pkg.tapInstr)) :
    (State.modPkg s f).keep = s.keep := by
  simp only [Prod.mk.injEq] at h
  simp only [State.modPkg, State.keep, h.1, h.2.1, h.2.2.1, h.2.2.2]

theorem State.captureDr_keep (s : State) : (State.captureDr s).keep = s.keep := by
  unfold State.captureDr
  try dsimp only
  repeat' first
    | simp only [State.keep_mk, State.keep_eta]
    | refine (State.modPkg_keep _ _ ?_).trans ?_
    | split

-- Tick

theorem State.tickTime_keep (s : State) : (State.tickTime s).keep = s.keep := by
  unfold State.tickTime
  try dsimp only
  repeat' simp only [State.keep_mk, State.keep_eta]

theorem State.timeLost_keep (s : State) : (State.timeLost s).keep = s.keep := by
  unfold State.timeLost
  try dsimp only
  repeat' first
    | simp only [State.keep_mk, State.keep_eta, State.takeFree_keep]
    | split

theorem State.act_keep (s : State) (y0 : Act) : (State.act s y0).keep = s.keep := by
  unfold State.act
  try dsimp only
  repeat' first
    | simp only [State.complete_keep, State.synthStart_keep, State.pathStart_keep, State.wake_keep, State.hopNow_keep, State.phaseSyncNow_keep, State.modeStartNow_keep, State.applyCfg_keep, State.ppsNow_keep, State.outputNow_keep, State.muteNow_keep]
    | split

theorem State.runTimed_keep (s : State) : (State.runTimed s).keep = s.keep := by
  unfold State.runTimed
  try dsimp only
  repeat' first
    | simp only [State.keep_mk, State.keep_eta, State.act_keep]
    | refine (foldl_keep _ ?_ _ _).trans ?_
    | intro _

theorem State.soundingsOver_keep (s : State) : (State.soundingsOver s).keep = s.keep := by
  unfold State.soundingsOver
  try dsimp only
  repeat' first
    | simp only [State.soundingSweep_keep]
    | refine (foldl_keep _ ?_ _ _).trans ?_
    | intro _

theorem State.engines_keep (s : State) : (State.engines s).keep = s.keep := by
  unfold State.engines
  try dsimp only
  repeat' simp only [State.keep_mk, State.keep_eta, State.calRunSweep_keep, State.fcSwitch_keep, State.coefServe_keep, State.darkTick_keep, State.txTick_keep, State.weightPrune_keep, State.noiseTick_keep, State.openSweep_keep, State.dataSweep_keep, State.egressTick_keep, State.ppsPlan_keep, State.alignTry_keep, State.devStep_keep, State.hkGo_keep, State.marchSweep_keep, State.lbistSweep_keep, State.soundingsOver_keep]

theorem State.tick_keep (s : State) : (State.tick s).keep = s.keep := by
  unfold State.tick
  try dsimp only
  repeat' first
    | simp only [State.weightTick_keep, State.tickTime_keep, State.timeLost_keep, State.runTimed_keep, State.engines_keep]
    | split

end Sys2Proof.Machine
end

