-- ==== Sys2Proof/Laws/Shared.lean ====
section
/-! SUPPORT. What the shared operations do under the conditions that the statements name. -/

namespace Sys2Proof.Laws

open Sys2Proof Sys2Proof.Machine Sys2Proof.Claims

/-- A command that is served runs its effect. -/
theorem served_cmd {s : State} {c : Cmd} {op : BitVec 8} {x : Slot} (h : Served s c op x) (sel : BitVec 320 → Bool) (f : Slot → State) (hs : sel x.payload = true) :
    s.hostCmd c op sel f = f x := by
  obtain ⟨h1, h2, h3, h4, h5⟩ := h
  simp [State.hostCmd, h1, h2, h3, h4, h5, hs]

/-- A response that fits its buffer is written, and the command completes with its length. -/
theorem respond_ok (s : State) (c : Cmd) (x : Slot) (b : Bytes) (clear : State → State) (h1 : (pf x.payload 8 0 64).extractLsb' 0 3 = 0)
    (h2 : b.length ≤ (pf x.payload 16 0 32).toNat) (h3 : c.respErr = false) :
    s.respond c x b clear = (if pb x.entry 4 0 then clear (s.emit (.hostWrite (pf x.payload 8 0 64) b)) else s.emit (.hostWrite (pf x.payload 8 0 64) b)).complete c.ref .ok (BitVec.ofNat 32 b.length) := by
  unfold State.respond
  rw [if_neg (by simp [h1]; omega)]
  simp [h3]

theorem respond_id (s : State) (c : Cmd) (x : Slot) (b : Bytes) (h1 : (pf x.payload 8 0 64).extractLsb' 0 3 = 0)
    (h2 : b.length ≤ (pf x.payload 16 0 32).toNat) (h3 : c.respErr = false) :
    s.respond c x b = (if pb x.entry 4 0 then id (s.emit (.hostWrite (pf x.payload 8 0 64) b)) else s.emit (.hostWrite (pf x.payload 8 0 64) b)).complete c.ref .ok (BitVec.ofNat 32 b.length) :=
  respond_ok s c x b id h1 h2 h3

theorem status_ok {s : State} {c : Cmd} {op : BitVec 8} {x : Slot} {n : Nat} (h : Served s c op x) (hs : someOf n s x = true) (f : Slot → State) :
    s.statusCmd c op n f = f x := by
  unfold State.statusCmd
  rw [served_cmd h _ _ rfl, if_neg]
  simpa [someOf] using hs

/-- A register write with no reserved bit set takes the bits of its mask. -/
theorem wrVal_clean (s : State) (o v m r : BitVec 32) (h : v &&& m &&& r = 0) : s.wrVal o v m r = ((o &&& ~~~m) ||| (v &&& m), s) := by
  unfold State.wrVal; simp [h]

theorem releasable_id {s : State} {ev : Nat} {k : Kind} {e : Event} (h : s.releasable ev k = some e) : e.id = ev := by
  unfold State.releasable at h
  split at h
  · cases h
  · rename_i hf
    split at h
    · cases h
      have := List.find?_some hf
      simp at this; exact this.1
    · cases h

theorem judge_remove (s : State) (i : Nat) : (s.judge i).removeEvent i = s.removeEvent i := by
  have : ∀ l : List Event, ((l.map fun e => if e.id = i then { e with judged := true } else e).filter fun e => e.id != i) = l.filter fun e => e.id != i := by
    intro l
    induction l with
    | nil => rfl
    | cons a t ih =>
      by_cases h : a.id = i
      · simp [h] at ih ⊢; exact ih
      · simp [h] at ih ⊢; exact ih
  simp only [State.judge, State.removeEvent, this]

/-- A release whose checks pass has its effect and closes its group. -/
theorem release_ok {s : State} {ev : Nat} {k : Kind} {e : Event} {chk : State → Event → Option (Cause × Res)} (h : Passes s ev k e chk) (eff : State → Event → State) :
    s.release ev k chk eff = closeGroup (eff (s.removeEvent ev) e) e := by
  obtain ⟨h1, h2, h3⟩ := h
  have hid := releasable_id h1
  unfold State.release
  simp only [h1]
  by_cases hj : e.judged = true
  · simp only [hj, if_true, h2]; rfl
  · rw [if_neg hj, h3.resolve_left hj]
    simp only [List.foldl, insertEvent, State.checkMembers, h2]
    rw [hid, judge_remove]; rfl

/-- A command whose events all fit is accepted by the Yardmaster. -/
theorem present_ok {s : State} {evs : List NewEv} (h : Fits s evs) (c : CmdRef) (t : BitVec 16) (d : Option Tick) :
    s.present (.cmd c t) d evs = (.ok, s.accept (.cmd c t) d evs) := by
  obtain ⟨h1, h2, h3, h4⟩ := h
  unfold State.present
  simp only []
  rw [if_neg h1, if_neg, if_neg, if_neg, if_neg, if_neg]
  · simp [h4]
  · simp only [List.any_eq_true, decide_eq_true_eq, not_exists, not_and]; intro e he; exact Int.not_lt.mpr (h3 e he).1
  · simp only [List.any_eq_true, not_exists, not_and]
    intro e he y hy hb
    simp only [Bool.and_eq_true, beq_iff_eq] at hb
    exact (h3 e he).2.2 y hy hb.1.1 hb.1.2 hb.2
  · simp only [List.any_eq_true, decide_eq_true_eq, not_exists, not_and]; intro e he; exact Int.not_lt.mpr (h3 e he).2.1
  · rintro ⟨ha, hb⟩
    simp only [List.any_eq_true] at hb
    obtain ⟨e, he, ht⟩ := hb
    simp [h2 ha e he] at ht

theorem presentCmd_ok {s : State} {evs : List NewEv} (h : Fits s evs) (c : Cmd) (x : Slot) (d : Option Tick) (ok : State → State) :
    s.presentCmd c.ref x.tag d evs ok = ok (taken s c x d evs) := by
  unfold State.presentCmd
  rw [present_ok h]; rfl

theorem present_sar {s : State} {evs : List NewEv} (h : Fits s evs) (p : Nat) (t : BitVec 16) (d : Option Tick) :
    s.present (.sarfaip p t) d evs = (.ok, s.accept (.sarfaip p t) d evs) := by
  obtain ⟨h1, h2, h3, h4⟩ := h
  unfold State.present
  simp only []
  rw [if_neg h1, if_neg, if_neg, if_neg, if_neg, if_neg]
  · simp [-Fin.getElem_fin, h4]
  · simp only [List.any_eq_true, decide_eq_true_eq, not_exists, not_and]; intro e he; exact Int.not_lt.mpr (h3 e he).1
  · simp only [List.any_eq_true, not_exists, not_and]
    intro e he y hy hb
    simp only [Bool.and_eq_true, beq_iff_eq] at hb
    exact (h3 e he).2.2 y hy hb.1.1 hb.1.2 hb.2
  · simp only [List.any_eq_true, decide_eq_true_eq, not_exists, not_and]; intro e he; exact Int.not_lt.mpr (h3 e he).2.1
  · rintro ⟨ha, hb⟩
    simp only [List.any_eq_true] at hb
    obtain ⟨e, he, ht⟩ := hb
    simp [-Fin.getElem_fin, h2 ha e he] at ht

/-- A message of a frame that arrives is taken as its row says. -/
theorem arr_row {s : State} {p : Fin 8} {k : Nat} {b : Bytes} {items : List Bytes} (h : Arrives s p k b items) :
    s.sarRow p k b = (let r := (heard s (sarOf b)).sarBody p (sarOf b) true items; if r.1 && ((sarOf b).msg != 2 || !(sarOf b).ul) then r.2.fwd (sarOf b) else r.2) := by
  obtain ⟨h1, h2, h3, h4, h5, h6, h7, h8, h9⟩ := h
  have ht : (byteAt b 1 == 0 || byteAt b 1 == 2) = true := by
    unfold sarClassified at h6
    simp only [Bool.and_eq_true] at h6
    have := h6.2
    unfold sarSuits at this
    split at this <;> simp_all
  have hl : ¬ b.length < 4 + beAt b 2 2 := by omega
  have htk : b.take (4 + beAt b 2 2) = b := by rw [← h3]; simp
  have h16 : ¬ b.length < 16 := by omega
  have hm : (sarOf b).msg = k := h5
  have hc : (sarOf b).count = byteAt b 12 := rfl
  have hb : (sarOf b).body = b.drop 16 := rfl
  unfold State.sarRow
  simp only [h1, h4, h5, ht, hl, htk, beq_self_eq_true, Bool.and_self, if_true, if_false]
  unfold State.sarMessage
  simp only [h16, h6, if_false, hm, hc, hb, h7]
  have hq : s.seqCheck p (sarOf b) = (true, heard s (sarOf b)) := by
    unfold State.seqCheck
    have : (sarOf b).eSub = 0x80 := h8
    simp only [this]
    cases hf : s.fh.rxSeq.find? (fun x => x.1 == ((sarOf b).typ, (sarOf b).flow)) with
    | none => simp [-Fin.getElem_fin, heard]
    | some x => have := h9 x hf; simp [-Fin.getElem_fin, this, heard]
  simp [-Fin.getElem_fin, hq]

/-- A hitch message that is heard is taken. -/
theorem hears_take {s : State} {p : Fin 8} {k n : Nat} {b : Bytes} (h : Hears s p k n b) (f : HitMsg → State) : s.hitTake p k n b f = f (hitMsgOf b) := by
  obtain ⟨h1, h2, h3, h4, h5⟩ := h
  unfold State.hitTake
  rw [if_pos]
  simp [-Fin.getElem_fin, h1, h2, h3, h4]; exact h5

theorem modc (s : State) (i : Fin 2) (f : HkConv → HkConv) : s.modConv i f = hkPut s i (f s.sup.conv[i]) := by
  simp [State.modConv, hkPut, vmod]

theorem modch (s : State) (i : Fin 16) (f : ShuChan → ShuChan) : s.modChan i f = chanPut s i (f s.shu.chans[i]) := by
  simp [State.modChan, chanPut, vmod]

theorem area_words {s : State} {h : ShuChan} {ws : List (BitVec 64)} (hb : h.prog.getLsbD 63 = true) (n m : Nat) (hn : m ≤ n) (hl : ws.length = n)
    (hk : ((h.prog.extractLsb' 0 40).toNat - 0x2000000) / 8 + h.pc + n ≤ 32768) (hw : ∀ j < n, cellGet (((h.prog.extractLsb' 0 40).toNat - 0x2000000) / 8 + h.pc + j) s.shu.prog = ws[j]?) (words) :
    s.shuWords h words m = (some (ws.take m), false, s) := by
  unfold State.shuWords
  rw [if_pos hb]
  have : ∀ m ≤ n, (List.range m).foldl (fun (a : Option (List (BitVec 64)) × State) j =>
      match a.1 with
      | none => a
      | some l => let w := a.2.progWord h (h.pc + j); (w.1.map fun x => l ++ [x], w.2)) (some [], s) = (some (ws.take m), s) := by
    intro m hm
    induction m with
    | zero => simp
    | succ m ih =>
      rw [List.range_succ, List.foldl_append, ih (by omega)]
      simp only [List.foldl_cons, List.foldl_nil]
      have hw' := hw m (by omega)
      rw [List.getElem?_eq_getElem (by omega)] at hw'
      have hp : s.progWord h (h.pc + m) = (some ws[m], s) := by
        unfold State.progWord
        rw [show ((h.prog.extractLsb' 0 40).toNat - 0x2000000) / 8 + (h.pc + m) = ((h.prog.extractLsb' 0 40).toNat - 0x2000000) / 8 + h.pc + m from (Nat.add_assoc ..).symm]
        rw [if_neg (by omega), hw']
      rw [hp, List.take_add_one, List.getElem?_eq_getElem (show m < ws.length by omega)]; rfl
  exact congrArg (fun r => (r.1, r.1.isNone, r.2)) (this m hn)

/-- An instruction of a channel that is fetched runs its effect. -/
theorem fetch_exec {s : State} {ch : Fin 16} {words} {op : ShuOp} {ws : List (BitVec 64)} (h : Fetches s ch words op ws) (bad) (f : State → ShuChan → List (BitVec 64) → State)
    (hb : bad s.shu.chans[ch] ws = false) : s.shuExec ch words op bad f = f s s.shu.chans[ch] ws := by
  obtain ⟨h1, h2, h3, h4, h5, h6, h7⟩ := h
  have hpos : 1 ≤ op.size := by cases op <;> decide
  have hw : ∀ m, m ≤ op.size → s.shuWords s.shu.chans[ch] words m = (some (ws.take m), false, s) := by
    intro m hm
    by_cases hb : s.shu.chans[ch].prog.getLsbD 63 = true
    · rw [if_pos hb] at h7
      exact area_words hb op.size m hm h3 h7.1 h7.2 words
    · rw [if_neg hb] at h7
      obtain ⟨l, hl, hl'⟩ := h7
      have hlen : op.size ≤ l.length := by have := h3; rw [hl', List.length_take] at this; omega
      unfold State.shuWords
      rw [if_neg hb, hl]
      simp only []
      rw [if_neg (by omega), hl', List.take_take, Nat.min_eq_left hm]
  unfold State.shuExec
  simp only []
  rw [if_neg (by simp [-Fin.getElem_fin, h1, h2]), hw 1 hpos]
  simp only []
  have h0 : (ws.take 1).headD 0 = ws.headD 0 := by cases ws <;> simp
  rw [h0, h4]
  simp only [ne_eq, not_true_eq_false, if_false]
  rw [hw op.size (Nat.le_refl _)]
  simp only []
  have ht : ws.take op.size = ws := by rw [← h3]; simp
  rw [ht, h5, hb]
  rw [if_neg]
  simp [-Fin.getElem_fin]
  rcases h6 with h6 | ⟨h6, h6'⟩
  · omega
  · exact ⟨fun _ => by simpa [-Fin.getElem_fin, List.head?_eq_getElem?] using h6', by omega⟩

/-- An instruction that issues runs its effect. -/
theorem isa_of_issue (s : State) (c : Fin 9) (bg : Bool) (w : BitVec 32) (o : IsaOp) (f : State → Bank → IsaRes) (j : Bool) (h : Issue s c bg w o) :
    s.isa c bg w o f j = match f s (bankOf s c bg) with
      | .inl n => s.coreFault c n
      | .inr (s', b', more) =>
        let b := bankOf s c bg
        let slow : Bool := o.accR && (b.wr1 == some (BitVec.ofFin (aA w)) || b.wr2 == some (BitVec.ofFin (aA w)))
        let h : BitVec 8 × State := if slow then s'.takeFree 8 else (0, s')
        let cyc := o.cost + more + h.1.toNat % 3
        let b' := { b' with wr2 := b.wr1, wr1 := if o.accW then some (BitVec.ofFin (aD w)) else none }
        let b' := if j then b' else if 1 < b.rept then { b' with rept := b.rept - 1 } else { b' with rept := 0, pc := b.pc + 1 }
        h.2.modCore c fun m => if bg then { m.setBank bg b' with bgCyc := m.bgCyc + cyc, ahead := m.ahead + cyc }
          else { m.setBank bg b' with fgCyc := m.fgCyc + cyc, fgCycles := satAdd m.fgCycles cyc, ahead := m.ahead + cyc } := by
  obtain ⟨h1, h2, h3, h4, h5, h6, h7, h8, h9⟩ := h
  have c1 : (o.cls != 10 && fF w 24 4 != o.op) = false := by
    rcases h3 with h3 | h3 <;> simp [-Fin.getElem_fin, h3]
  have c2 : (decide (0 < ((s.sol.cores[c]).bank bg).rept) && !o.rep) = false := by
    rcases h6 with h6 | h6
    · rw [h6]; simp
    · rw [h6]; simp
  have c3 : o.vs.any (vBad bg w) = false := by simpa [-Fin.getElem_fin] using h8
  have c4 : (o.cls == 10 && inSlot ((s.sol.cores[c]).kernel bg) ((s.sol.cores[c]).bank bg).pc.toNat) = false := by
    by_cases hc : o.cls = 10
    · rw [h9 hc]; simp
    · simp [-Fin.getElem_fin, hc]
  unfold State.isa
  simp only []
  rw [if_neg (by rw [h1, h2, c1]; rcases hx : s.codeAt ((s.sol.cores[c]).kernel bg) ((s.sol.cores[c]).bank bg).pc.toNat with _ | x <;> simp [-Fin.getElem_fin, hx] at h4 ⊢ <;> first | exact h4 | exact fun hb => h4.resolve_left (by simp [hb])), if_neg (by rw [h5]; simp), if_neg (by rw [c2, h7, c3, c4]; simp)]
  all_goals rfl

theorem next_isa (s : State) (c : Fin 9) (bg : Bool) (w : BitVec 32) (o : IsaOp) (f : State → Bank → IsaRes) (s' : State) (b' : Bank) (more : Nat)
    (h : Issue s c bg w o) (hf : f s (bankOf s c bg) = .inr (s', b', more)) (ha : o.accR = true → NoHazard s c bg w)
    (hb : b'.rept = (bankOf s c bg).rept) (hp : b'.pc = (bankOf s c bg).pc) (hw : b'.wr1 = (bankOf s c bg).wr1) :
    s.isa c bg w o f false = retire s' c bg b' (o.cost + more) (if o.accW then some (BitVec.ofFin (aD w)) else none) := by
  rw [isa_of_issue _ _ _ _ _ _ _ h, hf]
  have hs : (o.accR && ((bankOf s c bg).wr1 == some (BitVec.ofFin (aA w)) || (bankOf s c bg).wr2 == some (BitVec.ofFin (aA w)))) = false := by
    by_cases hc : o.accR = true
    · have := ha hc; simp only [NoHazard] at this; simp [-Fin.getElem_fin, hc, this.1, this.2]
    · simp [-Fin.getElem_fin, hc]
  simp only [hs, retire, hb, hp, hw]
  by_cases hr : 1 < (bankOf s c bg).rept
  · rw [if_pos hr, if_pos hr, if_pos hr]; cases bg <;> simp [-Fin.getElem_fin, SolCore.setBank]
  · rw [if_neg hr, if_neg hr, if_neg hr]; cases bg <;> simp [-Fin.getElem_fin, SolCore.setBank]

theorem next_jump (s : State) (c : Fin 9) (bg : Bool) (w : BitVec 32) (o : IsaOp) (f : State → Bank → IsaRes) (s' : State) (b' : Bank) (more : Nat)
    (h : Issue s c bg w o) (hf : f s (bankOf s c bg) = .inr (s', b', more)) (ha : o.accR = false) (haw : o.accW = false) (hw : b'.wr1 = (bankOf s c bg).wr1) :
    s.isa c bg w o f true = jump s' c bg b' (o.cost + more) := by
  rw [isa_of_issue _ _ _ _ _ _ _ h, hf]
  simp only [ha, haw, jump, hw]
  cases bg <;> simp [-Fin.getElem_fin, SolCore.setBank]

theorem ws_rept (b : Bank) (i v) : (b.ws i v).rept = b.rept := by unfold Bank.ws; split <;> rfl

theorem ws_pc (b : Bank) (i v) : (b.ws i v).pc = b.pc := by unfold Bank.ws; split <;> rfl

theorem ws_wr1 (b : Bank) (i v) : (b.ws i v).wr1 = b.wr1 := by unfold Bank.ws; split <;> rfl

end Sys2Proof.Laws
end

