-- ==== Sys2Proof/Laws/State.lean ====
section
/-! SUPPORT. What an update of the state leaves in each field, so that no proof unfolds a record update; and reads of updated vectors. -/

namespace Sys2Proof.Machine

/-- A read of the element that was written, and of another. -/
@[simp] theorem vset_same {α : Type} {n : Nat} (v : Vector α n) (i : Fin n) (x : α) : (vset v i x)[i] = x := by simp [vset]
theorem vset_other {α : Type} {n : Nat} (v : Vector α n) {i j : Fin n} (h : j ≠ i) (x : α) : (vset v i x)[j] = v[j] := by
  simp only [vset, Fin.getElem_fin]; exact Vector.getElem_set_ne _ _ (fun e => h (Fin.ext e.symm))
@[simp] theorem vmod_same {α : Type} {n : Nat} (v : Vector α n) (i : Fin n) (f : α → α) : (vmod v i f)[i] = f v[i] := vset_same ..
theorem vmod_other {α : Type} {n : Nat} (v : Vector α n) {i j : Fin n} (h : j ≠ i) (f : α → α) : (vmod v i f)[j] = v[j] := vset_other _ h _

-- State.emit
@[simp] theorem emit_pending (s : State) (o : Out) : (State.emit s o).pending = s.pending := rfl
@[simp] theorem emit_out (s : State) (o : Out) : (State.emit s o).out = s.out ++ [o] := rfl
@[simp] theorem emit_free (s : State) (o : Out) : (State.emit s o).free = s.free := rfl
@[simp] theorem emit_dp (s : State) (o : Out) : (State.emit s o).dp = s.dp := rfl
@[simp] theorem emit_host (s : State) (o : Out) : (State.emit s o).host = s.host := rfl
@[simp] theorem emit_rc (s : State) (o : Out) : (State.emit s o).rc = s.rc := rfl
@[simp] theorem emit_ym (s : State) (o : Out) : (State.emit s o).ym = s.ym := rfl
@[simp] theorem emit_mode (s : State) (o : Out) : (State.emit s o).mode = s.mode := rfl
@[simp] theorem emit_radio (s : State) (o : Out) : (State.emit s o).radio = s.radio := rfl
@[simp] theorem emit_conv (s : State) (o : Out) : (State.emit s o).conv = s.conv := rfl
@[simp] theorem emit_ofdm (s : State) (o : Out) : (State.emit s o).ofdm = s.ofdm := rfl
@[simp] theorem emit_burst (s : State) (o : Out) : (State.emit s o).burst = s.burst := rfl
@[simp] theorem emit_quality (s : State) (o : Out) : (State.emit s o).quality = s.quality := rfl
@[simp] theorem emit_lin (s : State) (o : Out) : (State.emit s o).lin = s.lin := rfl
@[simp] theorem emit_cal (s : State) (o : Out) : (State.emit s o).cal = s.cal := rfl
@[simp] theorem emit_fh (s : State) (o : Out) : (State.emit s o).fh = s.fh := rfl
@[simp] theorem emit_hit (s : State) (o : Out) : (State.emit s o).hit = s.hit := rfl
@[simp] theorem emit_time (s : State) (o : Out) : (State.emit s o).time = s.time := rfl
@[simp] theorem emit_clk (s : State) (o : Out) : (State.emit s o).clk = s.clk := rfl
@[simp] theorem emit_pwr (s : State) (o : Out) : (State.emit s o).pwr = s.pwr := rfl
@[simp] theorem emit_shu (s : State) (o : Out) : (State.emit s o).shu = s.shu := rfl
@[simp] theorem emit_sol (s : State) (o : Out) : (State.emit s o).sol = s.sol := rfl
@[simp] theorem emit_sup (s : State) (o : Out) : (State.emit s o).sup = s.sup := rfl
@[simp] theorem emit_mem (s : State) (o : Out) : (State.emit s o).mem = s.mem := rfl
@[simp] theorem emit_sec (s : State) (o : Out) : (State.emit s o).sec = s.sec := rfl
@[simp] theorem emit_tack (s : State) (o : Out) : (State.emit s o).tack = s.tack := rfl
@[simp] theorem emit_pkg (s : State) (o : Out) : (State.emit s o).pkg = s.pkg := rfl

-- State.takeFree
@[simp] theorem takeFree_pending (s : State) (w : Nat) : (State.takeFree s w).2.pending = s.pending := rfl
@[simp] theorem takeFree_out (s : State) (w : Nat) : (State.takeFree s w).2.out = s.out := rfl
@[simp] theorem takeFree_free (s : State) (w : Nat) : (State.takeFree s w).2.free = s.free + 1 := rfl
@[simp] theorem takeFree_dp (s : State) (w : Nat) : (State.takeFree s w).2.dp = s.dp := rfl
@[simp] theorem takeFree_host (s : State) (w : Nat) : (State.takeFree s w).2.host = s.host := rfl
@[simp] theorem takeFree_rc (s : State) (w : Nat) : (State.takeFree s w).2.rc = s.rc := rfl
@[simp] theorem takeFree_ym (s : State) (w : Nat) : (State.takeFree s w).2.ym = s.ym := rfl
@[simp] theorem takeFree_mode (s : State) (w : Nat) : (State.takeFree s w).2.mode = s.mode := rfl
@[simp] theorem takeFree_radio (s : State) (w : Nat) : (State.takeFree s w).2.radio = s.radio := rfl
@[simp] theorem takeFree_conv (s : State) (w : Nat) : (State.takeFree s w).2.conv = s.conv := rfl
@[simp] theorem takeFree_ofdm (s : State) (w : Nat) : (State.takeFree s w).2.ofdm = s.ofdm := rfl
@[simp] theorem takeFree_burst (s : State) (w : Nat) : (State.takeFree s w).2.burst = s.burst := rfl
@[simp] theorem takeFree_quality (s : State) (w : Nat) : (State.takeFree s w).2.quality = s.quality := rfl
@[simp] theorem takeFree_lin (s : State) (w : Nat) : (State.takeFree s w).2.lin = s.lin := rfl
@[simp] theorem takeFree_cal (s : State) (w : Nat) : (State.takeFree s w).2.cal = s.cal := rfl
@[simp] theorem takeFree_fh (s : State) (w : Nat) : (State.takeFree s w).2.fh = s.fh := rfl
@[simp] theorem takeFree_hit (s : State) (w : Nat) : (State.takeFree s w).2.hit = s.hit := rfl
@[simp] theorem takeFree_time (s : State) (w : Nat) : (State.takeFree s w).2.time = s.time := rfl
@[simp] theorem takeFree_clk (s : State) (w : Nat) : (State.takeFree s w).2.clk = s.clk := rfl
@[simp] theorem takeFree_pwr (s : State) (w : Nat) : (State.takeFree s w).2.pwr = s.pwr := rfl
@[simp] theorem takeFree_shu (s : State) (w : Nat) : (State.takeFree s w).2.shu = s.shu := rfl
@[simp] theorem takeFree_sol (s : State) (w : Nat) : (State.takeFree s w).2.sol = s.sol := rfl
@[simp] theorem takeFree_sup (s : State) (w : Nat) : (State.takeFree s w).2.sup = s.sup := rfl
@[simp] theorem takeFree_mem (s : State) (w : Nat) : (State.takeFree s w).2.mem = s.mem := rfl
@[simp] theorem takeFree_sec (s : State) (w : Nat) : (State.takeFree s w).2.sec = s.sec := rfl
@[simp] theorem takeFree_tack (s : State) (w : Nat) : (State.takeFree s w).2.tack = s.tack := rfl
@[simp] theorem takeFree_pkg (s : State) (w : Nat) : (State.takeFree s w).2.pkg = s.pkg := rfl

-- State.at_
@[simp] theorem at_pending (s : State) (due : Nat) (a : Act) : (State.at_ s due a).pending = s.pending := rfl
@[simp] theorem at_out (s : State) (due : Nat) (a : Act) : (State.at_ s due a).out = s.out := rfl
@[simp] theorem at_free (s : State) (due : Nat) (a : Act) : (State.at_ s due a).free = s.free := rfl
@[simp] theorem at_dp (s : State) (due : Nat) (a : Act) : (State.at_ s due a).dp = s.dp := rfl
@[simp] theorem at_host (s : State) (due : Nat) (a : Act) : (State.at_ s due a).host = s.host := rfl
@[simp] theorem at_rc (s : State) (due : Nat) (a : Act) : (State.at_ s due a).rc = s.rc := rfl
@[simp] theorem at_mode (s : State) (due : Nat) (a : Act) : (State.at_ s due a).mode = s.mode := rfl
@[simp] theorem at_radio (s : State) (due : Nat) (a : Act) : (State.at_ s due a).radio = s.radio := rfl
@[simp] theorem at_conv (s : State) (due : Nat) (a : Act) : (State.at_ s due a).conv = s.conv := rfl
@[simp] theorem at_ofdm (s : State) (due : Nat) (a : Act) : (State.at_ s due a).ofdm = s.ofdm := rfl
@[simp] theorem at_burst (s : State) (due : Nat) (a : Act) : (State.at_ s due a).burst = s.burst := rfl
@[simp] theorem at_quality (s : State) (due : Nat) (a : Act) : (State.at_ s due a).quality = s.quality := rfl
@[simp] theorem at_lin (s : State) (due : Nat) (a : Act) : (State.at_ s due a).lin = s.lin := rfl
@[simp] theorem at_cal (s : State) (due : Nat) (a : Act) : (State.at_ s due a).cal = s.cal := rfl
@[simp] theorem at_fh (s : State) (due : Nat) (a : Act) : (State.at_ s due a).fh = s.fh := rfl
@[simp] theorem at_hit (s : State) (due : Nat) (a : Act) : (State.at_ s due a).hit = s.hit := rfl
@[simp] theorem at_time (s : State) (due : Nat) (a : Act) : (State.at_ s due a).time = s.time := rfl
@[simp] theorem at_clk (s : State) (due : Nat) (a : Act) : (State.at_ s due a).clk = s.clk := rfl
@[simp] theorem at_pwr (s : State) (due : Nat) (a : Act) : (State.at_ s due a).pwr = s.pwr := rfl
@[simp] theorem at_shu (s : State) (due : Nat) (a : Act) : (State.at_ s due a).shu = s.shu := rfl
@[simp] theorem at_sol (s : State) (due : Nat) (a : Act) : (State.at_ s due a).sol = s.sol := rfl
@[simp] theorem at_sup (s : State) (due : Nat) (a : Act) : (State.at_ s due a).sup = s.sup := rfl
@[simp] theorem at_mem (s : State) (due : Nat) (a : Act) : (State.at_ s due a).mem = s.mem := rfl
@[simp] theorem at_sec (s : State) (due : Nat) (a : Act) : (State.at_ s due a).sec = s.sec := rfl
@[simp] theorem at_tack (s : State) (due : Nat) (a : Act) : (State.at_ s due a).tack = s.tack := rfl
@[simp] theorem at_pkg (s : State) (due : Nat) (a : Act) : (State.at_ s due a).pkg = s.pkg := rfl

-- State.setHeld
@[simp] theorem setHeld_pending (s : State) (h : List HeldFault) : (State.setHeld s h).pending = s.pending := rfl
@[simp] theorem setHeld_out (s : State) (h : List HeldFault) : (State.setHeld s h).out = s.out := rfl
@[simp] theorem setHeld_free (s : State) (h : List HeldFault) : (State.setHeld s h).free = s.free := rfl
@[simp] theorem setHeld_dp (s : State) (h : List HeldFault) : (State.setHeld s h).dp = s.dp := rfl
@[simp] theorem setHeld_ym (s : State) (h : List HeldFault) : (State.setHeld s h).ym = s.ym := rfl
@[simp] theorem setHeld_mode (s : State) (h : List HeldFault) : (State.setHeld s h).mode = s.mode := rfl
@[simp] theorem setHeld_radio (s : State) (h : List HeldFault) : (State.setHeld s h).radio = s.radio := rfl
@[simp] theorem setHeld_conv (s : State) (h : List HeldFault) : (State.setHeld s h).conv = s.conv := rfl
@[simp] theorem setHeld_ofdm (s : State) (h : List HeldFault) : (State.setHeld s h).ofdm = s.ofdm := rfl
@[simp] theorem setHeld_burst (s : State) (h : List HeldFault) : (State.setHeld s h).burst = s.burst := rfl
@[simp] theorem setHeld_quality (s : State) (h : List HeldFault) : (State.setHeld s h).quality = s.quality := rfl
@[simp] theorem setHeld_lin (s : State) (h : List HeldFault) : (State.setHeld s h).lin = s.lin := rfl
@[simp] theorem setHeld_cal (s : State) (h : List HeldFault) : (State.setHeld s h).cal = s.cal := rfl
@[simp] theorem setHeld_fh (s : State) (h : List HeldFault) : (State.setHeld s h).fh = s.fh := rfl
@[simp] theorem setHeld_hit (s : State) (h : List HeldFault) : (State.setHeld s h).hit = s.hit := rfl
@[simp] theorem setHeld_time (s : State) (h : List HeldFault) : (State.setHeld s h).time = s.time := rfl
@[simp] theorem setHeld_clk (s : State) (h : List HeldFault) : (State.setHeld s h).clk = s.clk := rfl
@[simp] theorem setHeld_pwr (s : State) (h : List HeldFault) : (State.setHeld s h).pwr = s.pwr := rfl
@[simp] theorem setHeld_shu (s : State) (h : List HeldFault) : (State.setHeld s h).shu = s.shu := rfl
@[simp] theorem setHeld_sol (s : State) (h : List HeldFault) : (State.setHeld s h).sol = s.sol := rfl
@[simp] theorem setHeld_sup (s : State) (h : List HeldFault) : (State.setHeld s h).sup = s.sup := rfl
@[simp] theorem setHeld_mem (s : State) (h : List HeldFault) : (State.setHeld s h).mem = s.mem := rfl
@[simp] theorem setHeld_sec (s : State) (h : List HeldFault) : (State.setHeld s h).sec = s.sec := rfl
@[simp] theorem setHeld_tack (s : State) (h : List HeldFault) : (State.setHeld s h).tack = s.tack := rfl
@[simp] theorem setHeld_pkg (s : State) (h : List HeldFault) : (State.setHeld s h).pkg = s.pkg := rfl

-- State.modHeld
@[simp] theorem modHeld_pending (s : State) (id : BitVec 16) (f : HeldFault → HeldFault) : (State.modHeld s id f).pending = s.pending := rfl
@[simp] theorem modHeld_out (s : State) (id : BitVec 16) (f : HeldFault → HeldFault) : (State.modHeld s id f).out = s.out := rfl
@[simp] theorem modHeld_free (s : State) (id : BitVec 16) (f : HeldFault → HeldFault) : (State.modHeld s id f).free = s.free := rfl
@[simp] theorem modHeld_dp (s : State) (id : BitVec 16) (f : HeldFault → HeldFault) : (State.modHeld s id f).dp = s.dp := rfl
@[simp] theorem modHeld_ym (s : State) (id : BitVec 16) (f : HeldFault → HeldFault) : (State.modHeld s id f).ym = s.ym := rfl
@[simp] theorem modHeld_mode (s : State) (id : BitVec 16) (f : HeldFault → HeldFault) : (State.modHeld s id f).mode = s.mode := rfl
@[simp] theorem modHeld_radio (s : State) (id : BitVec 16) (f : HeldFault → HeldFault) : (State.modHeld s id f).radio = s.radio := rfl
@[simp] theorem modHeld_conv (s : State) (id : BitVec 16) (f : HeldFault → HeldFault) : (State.modHeld s id f).conv = s.conv := rfl
@[simp] theorem modHeld_ofdm (s : State) (id : BitVec 16) (f : HeldFault → HeldFault) : (State.modHeld s id f).ofdm = s.ofdm := rfl
@[simp] theorem modHeld_burst (s : State) (id : BitVec 16) (f : HeldFault → HeldFault) : (State.modHeld s id f).burst = s.burst := rfl
@[simp] theorem modHeld_quality (s : State) (id : BitVec 16) (f : HeldFault → HeldFault) : (State.modHeld s id f).quality = s.quality := rfl
@[simp] theorem modHeld_lin (s : State) (id : BitVec 16) (f : HeldFault → HeldFault) : (State.modHeld s id f).lin = s.lin := rfl
@[simp] theorem modHeld_cal (s : State) (id : BitVec 16) (f : HeldFault → HeldFault) : (State.modHeld s id f).cal = s.cal := rfl
@[simp] theorem modHeld_fh (s : State) (id : BitVec 16) (f : HeldFault → HeldFault) : (State.modHeld s id f).fh = s.fh := rfl
@[simp] theorem modHeld_hit (s : State) (id : BitVec 16) (f : HeldFault → HeldFault) : (State.modHeld s id f).hit = s.hit := rfl
@[simp] theorem modHeld_time (s : State) (id : BitVec 16) (f : HeldFault → HeldFault) : (State.modHeld s id f).time = s.time := rfl
@[simp] theorem modHeld_clk (s : State) (id : BitVec 16) (f : HeldFault → HeldFault) : (State.modHeld s id f).clk = s.clk := rfl
@[simp] theorem modHeld_pwr (s : State) (id : BitVec 16) (f : HeldFault → HeldFault) : (State.modHeld s id f).pwr = s.pwr := rfl
@[simp] theorem modHeld_shu (s : State) (id : BitVec 16) (f : HeldFault → HeldFault) : (State.modHeld s id f).shu = s.shu := rfl
@[simp] theorem modHeld_sol (s : State) (id : BitVec 16) (f : HeldFault → HeldFault) : (State.modHeld s id f).sol = s.sol := rfl
@[simp] theorem modHeld_sup (s : State) (id : BitVec 16) (f : HeldFault → HeldFault) : (State.modHeld s id f).sup = s.sup := rfl
@[simp] theorem modHeld_mem (s : State) (id : BitVec 16) (f : HeldFault → HeldFault) : (State.modHeld s id f).mem = s.mem := rfl
@[simp] theorem modHeld_sec (s : State) (id : BitVec 16) (f : HeldFault → HeldFault) : (State.modHeld s id f).sec = s.sec := rfl
@[simp] theorem modHeld_tack (s : State) (id : BitVec 16) (f : HeldFault → HeldFault) : (State.modHeld s id f).tack = s.tack := rfl
@[simp] theorem modHeld_pkg (s : State) (id : BitVec 16) (f : HeldFault → HeldFault) : (State.modHeld s id f).pkg = s.pkg := rfl

-- State.modRing
@[simp] theorem modRing_pending (s : State) (n : Fin 16) (f : Ring → Ring) : (State.modRing s n f).pending = s.pending := rfl
@[simp] theorem modRing_out (s : State) (n : Fin 16) (f : Ring → Ring) : (State.modRing s n f).out = s.out := rfl
@[simp] theorem modRing_free (s : State) (n : Fin 16) (f : Ring → Ring) : (State.modRing s n f).free = s.free := rfl
@[simp] theorem modRing_dp (s : State) (n : Fin 16) (f : Ring → Ring) : (State.modRing s n f).dp = s.dp := rfl
@[simp] theorem modRing_ym (s : State) (n : Fin 16) (f : Ring → Ring) : (State.modRing s n f).ym = s.ym := rfl
@[simp] theorem modRing_mode (s : State) (n : Fin 16) (f : Ring → Ring) : (State.modRing s n f).mode = s.mode := rfl
@[simp] theorem modRing_radio (s : State) (n : Fin 16) (f : Ring → Ring) : (State.modRing s n f).radio = s.radio := rfl
@[simp] theorem modRing_conv (s : State) (n : Fin 16) (f : Ring → Ring) : (State.modRing s n f).conv = s.conv := rfl
@[simp] theorem modRing_ofdm (s : State) (n : Fin 16) (f : Ring → Ring) : (State.modRing s n f).ofdm = s.ofdm := rfl
@[simp] theorem modRing_burst (s : State) (n : Fin 16) (f : Ring → Ring) : (State.modRing s n f).burst = s.burst := rfl
@[simp] theorem modRing_quality (s : State) (n : Fin 16) (f : Ring → Ring) : (State.modRing s n f).quality = s.quality := rfl
@[simp] theorem modRing_lin (s : State) (n : Fin 16) (f : Ring → Ring) : (State.modRing s n f).lin = s.lin := rfl
@[simp] theorem modRing_cal (s : State) (n : Fin 16) (f : Ring → Ring) : (State.modRing s n f).cal = s.cal := rfl
@[simp] theorem modRing_fh (s : State) (n : Fin 16) (f : Ring → Ring) : (State.modRing s n f).fh = s.fh := rfl
@[simp] theorem modRing_hit (s : State) (n : Fin 16) (f : Ring → Ring) : (State.modRing s n f).hit = s.hit := rfl
@[simp] theorem modRing_time (s : State) (n : Fin 16) (f : Ring → Ring) : (State.modRing s n f).time = s.time := rfl
@[simp] theorem modRing_clk (s : State) (n : Fin 16) (f : Ring → Ring) : (State.modRing s n f).clk = s.clk := rfl
@[simp] theorem modRing_pwr (s : State) (n : Fin 16) (f : Ring → Ring) : (State.modRing s n f).pwr = s.pwr := rfl
@[simp] theorem modRing_shu (s : State) (n : Fin 16) (f : Ring → Ring) : (State.modRing s n f).shu = s.shu := rfl
@[simp] theorem modRing_sol (s : State) (n : Fin 16) (f : Ring → Ring) : (State.modRing s n f).sol = s.sol := rfl
@[simp] theorem modRing_sup (s : State) (n : Fin 16) (f : Ring → Ring) : (State.modRing s n f).sup = s.sup := rfl
@[simp] theorem modRing_mem (s : State) (n : Fin 16) (f : Ring → Ring) : (State.modRing s n f).mem = s.mem := rfl
@[simp] theorem modRing_sec (s : State) (n : Fin 16) (f : Ring → Ring) : (State.modRing s n f).sec = s.sec := rfl
@[simp] theorem modRing_tack (s : State) (n : Fin 16) (f : Ring → Ring) : (State.modRing s n f).tack = s.tack := rfl
@[simp] theorem modRing_pkg (s : State) (n : Fin 16) (f : Ring → Ring) : (State.modRing s n f).pkg = s.pkg := rfl

-- State.setStage
@[simp] theorem setStage_pending (s : State) (c : CmdRef) (g : Stage) : (State.setStage s c g).pending = s.pending := rfl
@[simp] theorem setStage_out (s : State) (c : CmdRef) (g : Stage) : (State.setStage s c g).out = s.out := rfl
@[simp] theorem setStage_free (s : State) (c : CmdRef) (g : Stage) : (State.setStage s c g).free = s.free := rfl
@[simp] theorem setStage_dp (s : State) (c : CmdRef) (g : Stage) : (State.setStage s c g).dp = s.dp := rfl
@[simp] theorem setStage_ym (s : State) (c : CmdRef) (g : Stage) : (State.setStage s c g).ym = s.ym := rfl
@[simp] theorem setStage_mode (s : State) (c : CmdRef) (g : Stage) : (State.setStage s c g).mode = s.mode := rfl
@[simp] theorem setStage_radio (s : State) (c : CmdRef) (g : Stage) : (State.setStage s c g).radio = s.radio := rfl
@[simp] theorem setStage_conv (s : State) (c : CmdRef) (g : Stage) : (State.setStage s c g).conv = s.conv := rfl
@[simp] theorem setStage_ofdm (s : State) (c : CmdRef) (g : Stage) : (State.setStage s c g).ofdm = s.ofdm := rfl
@[simp] theorem setStage_burst (s : State) (c : CmdRef) (g : Stage) : (State.setStage s c g).burst = s.burst := rfl
@[simp] theorem setStage_quality (s : State) (c : CmdRef) (g : Stage) : (State.setStage s c g).quality = s.quality := rfl
@[simp] theorem setStage_lin (s : State) (c : CmdRef) (g : Stage) : (State.setStage s c g).lin = s.lin := rfl
@[simp] theorem setStage_cal (s : State) (c : CmdRef) (g : Stage) : (State.setStage s c g).cal = s.cal := rfl
@[simp] theorem setStage_fh (s : State) (c : CmdRef) (g : Stage) : (State.setStage s c g).fh = s.fh := rfl
@[simp] theorem setStage_hit (s : State) (c : CmdRef) (g : Stage) : (State.setStage s c g).hit = s.hit := rfl
@[simp] theorem setStage_time (s : State) (c : CmdRef) (g : Stage) : (State.setStage s c g).time = s.time := rfl
@[simp] theorem setStage_clk (s : State) (c : CmdRef) (g : Stage) : (State.setStage s c g).clk = s.clk := rfl
@[simp] theorem setStage_pwr (s : State) (c : CmdRef) (g : Stage) : (State.setStage s c g).pwr = s.pwr := rfl
@[simp] theorem setStage_shu (s : State) (c : CmdRef) (g : Stage) : (State.setStage s c g).shu = s.shu := rfl
@[simp] theorem setStage_sol (s : State) (c : CmdRef) (g : Stage) : (State.setStage s c g).sol = s.sol := rfl
@[simp] theorem setStage_sup (s : State) (c : CmdRef) (g : Stage) : (State.setStage s c g).sup = s.sup := rfl
@[simp] theorem setStage_mem (s : State) (c : CmdRef) (g : Stage) : (State.setStage s c g).mem = s.mem := rfl
@[simp] theorem setStage_sec (s : State) (c : CmdRef) (g : Stage) : (State.setStage s c g).sec = s.sec := rfl
@[simp] theorem setStage_tack (s : State) (c : CmdRef) (g : Stage) : (State.setStage s c g).tack = s.tack := rfl
@[simp] theorem setStage_pkg (s : State) (c : CmdRef) (g : Stage) : (State.setStage s c g).pkg = s.pkg := rfl

-- State.modPath
@[simp] theorem modPath_pending (s : State) (p : Fin 64) (f : Path → Path) : (State.modPath s p f).pending = s.pending := rfl
@[simp] theorem modPath_out (s : State) (p : Fin 64) (f : Path → Path) : (State.modPath s p f).out = s.out := rfl
@[simp] theorem modPath_free (s : State) (p : Fin 64) (f : Path → Path) : (State.modPath s p f).free = s.free := rfl
@[simp] theorem modPath_dp (s : State) (p : Fin 64) (f : Path → Path) : (State.modPath s p f).dp = s.dp := rfl
@[simp] theorem modPath_host (s : State) (p : Fin 64) (f : Path → Path) : (State.modPath s p f).host = s.host := rfl
@[simp] theorem modPath_rc (s : State) (p : Fin 64) (f : Path → Path) : (State.modPath s p f).rc = s.rc := rfl
@[simp] theorem modPath_ym (s : State) (p : Fin 64) (f : Path → Path) : (State.modPath s p f).ym = s.ym := rfl
@[simp] theorem modPath_mode (s : State) (p : Fin 64) (f : Path → Path) : (State.modPath s p f).mode = s.mode := rfl
@[simp] theorem modPath_conv (s : State) (p : Fin 64) (f : Path → Path) : (State.modPath s p f).conv = s.conv := rfl
@[simp] theorem modPath_ofdm (s : State) (p : Fin 64) (f : Path → Path) : (State.modPath s p f).ofdm = s.ofdm := rfl
@[simp] theorem modPath_burst (s : State) (p : Fin 64) (f : Path → Path) : (State.modPath s p f).burst = s.burst := rfl
@[simp] theorem modPath_quality (s : State) (p : Fin 64) (f : Path → Path) : (State.modPath s p f).quality = s.quality := rfl
@[simp] theorem modPath_lin (s : State) (p : Fin 64) (f : Path → Path) : (State.modPath s p f).lin = s.lin := rfl
@[simp] theorem modPath_cal (s : State) (p : Fin 64) (f : Path → Path) : (State.modPath s p f).cal = s.cal := rfl
@[simp] theorem modPath_fh (s : State) (p : Fin 64) (f : Path → Path) : (State.modPath s p f).fh = s.fh := rfl
@[simp] theorem modPath_hit (s : State) (p : Fin 64) (f : Path → Path) : (State.modPath s p f).hit = s.hit := rfl
@[simp] theorem modPath_time (s : State) (p : Fin 64) (f : Path → Path) : (State.modPath s p f).time = s.time := rfl
@[simp] theorem modPath_clk (s : State) (p : Fin 64) (f : Path → Path) : (State.modPath s p f).clk = s.clk := rfl
@[simp] theorem modPath_pwr (s : State) (p : Fin 64) (f : Path → Path) : (State.modPath s p f).pwr = s.pwr := rfl
@[simp] theorem modPath_shu (s : State) (p : Fin 64) (f : Path → Path) : (State.modPath s p f).shu = s.shu := rfl
@[simp] theorem modPath_sol (s : State) (p : Fin 64) (f : Path → Path) : (State.modPath s p f).sol = s.sol := rfl
@[simp] theorem modPath_sup (s : State) (p : Fin 64) (f : Path → Path) : (State.modPath s p f).sup = s.sup := rfl
@[simp] theorem modPath_mem (s : State) (p : Fin 64) (f : Path → Path) : (State.modPath s p f).mem = s.mem := rfl
@[simp] theorem modPath_sec (s : State) (p : Fin 64) (f : Path → Path) : (State.modPath s p f).sec = s.sec := rfl
@[simp] theorem modPath_tack (s : State) (p : Fin 64) (f : Path → Path) : (State.modPath s p f).tack = s.tack := rfl
@[simp] theorem modPath_pkg (s : State) (p : Fin 64) (f : Path → Path) : (State.modPath s p f).pkg = s.pkg := rfl

-- State.modSynth
@[simp] theorem modSynth_pending (s : State) (i : Fin 16) (f : Synth → Synth) : (State.modSynth s i f).pending = s.pending := rfl
@[simp] theorem modSynth_out (s : State) (i : Fin 16) (f : Synth → Synth) : (State.modSynth s i f).out = s.out := rfl
@[simp] theorem modSynth_free (s : State) (i : Fin 16) (f : Synth → Synth) : (State.modSynth s i f).free = s.free := rfl
@[simp] theorem modSynth_dp (s : State) (i : Fin 16) (f : Synth → Synth) : (State.modSynth s i f).dp = s.dp := rfl
@[simp] theorem modSynth_host (s : State) (i : Fin 16) (f : Synth → Synth) : (State.modSynth s i f).host = s.host := rfl
@[simp] theorem modSynth_rc (s : State) (i : Fin 16) (f : Synth → Synth) : (State.modSynth s i f).rc = s.rc := rfl
@[simp] theorem modSynth_ym (s : State) (i : Fin 16) (f : Synth → Synth) : (State.modSynth s i f).ym = s.ym := rfl
@[simp] theorem modSynth_mode (s : State) (i : Fin 16) (f : Synth → Synth) : (State.modSynth s i f).mode = s.mode := rfl
@[simp] theorem modSynth_conv (s : State) (i : Fin 16) (f : Synth → Synth) : (State.modSynth s i f).conv = s.conv := rfl
@[simp] theorem modSynth_ofdm (s : State) (i : Fin 16) (f : Synth → Synth) : (State.modSynth s i f).ofdm = s.ofdm := rfl
@[simp] theorem modSynth_burst (s : State) (i : Fin 16) (f : Synth → Synth) : (State.modSynth s i f).burst = s.burst := rfl
@[simp] theorem modSynth_quality (s : State) (i : Fin 16) (f : Synth → Synth) : (State.modSynth s i f).quality = s.quality := rfl
@[simp] theorem modSynth_lin (s : State) (i : Fin 16) (f : Synth → Synth) : (State.modSynth s i f).lin = s.lin := rfl
@[simp] theorem modSynth_cal (s : State) (i : Fin 16) (f : Synth → Synth) : (State.modSynth s i f).cal = s.cal := rfl
@[simp] theorem modSynth_fh (s : State) (i : Fin 16) (f : Synth → Synth) : (State.modSynth s i f).fh = s.fh := rfl
@[simp] theorem modSynth_hit (s : State) (i : Fin 16) (f : Synth → Synth) : (State.modSynth s i f).hit = s.hit := rfl
@[simp] theorem modSynth_time (s : State) (i : Fin 16) (f : Synth → Synth) : (State.modSynth s i f).time = s.time := rfl
@[simp] theorem modSynth_clk (s : State) (i : Fin 16) (f : Synth → Synth) : (State.modSynth s i f).clk = s.clk := rfl
@[simp] theorem modSynth_pwr (s : State) (i : Fin 16) (f : Synth → Synth) : (State.modSynth s i f).pwr = s.pwr := rfl
@[simp] theorem modSynth_shu (s : State) (i : Fin 16) (f : Synth → Synth) : (State.modSynth s i f).shu = s.shu := rfl
@[simp] theorem modSynth_sol (s : State) (i : Fin 16) (f : Synth → Synth) : (State.modSynth s i f).sol = s.sol := rfl
@[simp] theorem modSynth_sup (s : State) (i : Fin 16) (f : Synth → Synth) : (State.modSynth s i f).sup = s.sup := rfl
@[simp] theorem modSynth_mem (s : State) (i : Fin 16) (f : Synth → Synth) : (State.modSynth s i f).mem = s.mem := rfl
@[simp] theorem modSynth_sec (s : State) (i : Fin 16) (f : Synth → Synth) : (State.modSynth s i f).sec = s.sec := rfl
@[simp] theorem modSynth_tack (s : State) (i : Fin 16) (f : Synth → Synth) : (State.modSynth s i f).tack = s.tack := rfl
@[simp] theorem modSynth_pkg (s : State) (i : Fin 16) (f : Synth → Synth) : (State.modSynth s i f).pkg = s.pkg := rfl

-- State.modCarrier
@[simp] theorem modCarrier_pending (s : State) (c : Fin 8) (f : Carrier → Carrier) : (State.modCarrier s c f).pending = s.pending := rfl
@[simp] theorem modCarrier_out (s : State) (c : Fin 8) (f : Carrier → Carrier) : (State.modCarrier s c f).out = s.out := rfl
@[simp] theorem modCarrier_free (s : State) (c : Fin 8) (f : Carrier → Carrier) : (State.modCarrier s c f).free = s.free := rfl
@[simp] theorem modCarrier_dp (s : State) (c : Fin 8) (f : Carrier → Carrier) : (State.modCarrier s c f).dp = s.dp := rfl
@[simp] theorem modCarrier_host (s : State) (c : Fin 8) (f : Carrier → Carrier) : (State.modCarrier s c f).host = s.host := rfl
@[simp] theorem modCarrier_rc (s : State) (c : Fin 8) (f : Carrier → Carrier) : (State.modCarrier s c f).rc = s.rc := rfl
@[simp] theorem modCarrier_ym (s : State) (c : Fin 8) (f : Carrier → Carrier) : (State.modCarrier s c f).ym = s.ym := rfl
@[simp] theorem modCarrier_mode (s : State) (c : Fin 8) (f : Carrier → Carrier) : (State.modCarrier s c f).mode = s.mode := rfl
@[simp] theorem modCarrier_radio (s : State) (c : Fin 8) (f : Carrier → Carrier) : (State.modCarrier s c f).radio = s.radio := rfl
@[simp] theorem modCarrier_conv (s : State) (c : Fin 8) (f : Carrier → Carrier) : (State.modCarrier s c f).conv = s.conv := rfl
@[simp] theorem modCarrier_burst (s : State) (c : Fin 8) (f : Carrier → Carrier) : (State.modCarrier s c f).burst = s.burst := rfl
@[simp] theorem modCarrier_quality (s : State) (c : Fin 8) (f : Carrier → Carrier) : (State.modCarrier s c f).quality = s.quality := rfl
@[simp] theorem modCarrier_lin (s : State) (c : Fin 8) (f : Carrier → Carrier) : (State.modCarrier s c f).lin = s.lin := rfl
@[simp] theorem modCarrier_cal (s : State) (c : Fin 8) (f : Carrier → Carrier) : (State.modCarrier s c f).cal = s.cal := rfl
@[simp] theorem modCarrier_fh (s : State) (c : Fin 8) (f : Carrier → Carrier) : (State.modCarrier s c f).fh = s.fh := rfl
@[simp] theorem modCarrier_hit (s : State) (c : Fin 8) (f : Carrier → Carrier) : (State.modCarrier s c f).hit = s.hit := rfl
@[simp] theorem modCarrier_time (s : State) (c : Fin 8) (f : Carrier → Carrier) : (State.modCarrier s c f).time = s.time := rfl
@[simp] theorem modCarrier_clk (s : State) (c : Fin 8) (f : Carrier → Carrier) : (State.modCarrier s c f).clk = s.clk := rfl
@[simp] theorem modCarrier_pwr (s : State) (c : Fin 8) (f : Carrier → Carrier) : (State.modCarrier s c f).pwr = s.pwr := rfl
@[simp] theorem modCarrier_shu (s : State) (c : Fin 8) (f : Carrier → Carrier) : (State.modCarrier s c f).shu = s.shu := rfl
@[simp] theorem modCarrier_sol (s : State) (c : Fin 8) (f : Carrier → Carrier) : (State.modCarrier s c f).sol = s.sol := rfl
@[simp] theorem modCarrier_sup (s : State) (c : Fin 8) (f : Carrier → Carrier) : (State.modCarrier s c f).sup = s.sup := rfl
@[simp] theorem modCarrier_mem (s : State) (c : Fin 8) (f : Carrier → Carrier) : (State.modCarrier s c f).mem = s.mem := rfl
@[simp] theorem modCarrier_sec (s : State) (c : Fin 8) (f : Carrier → Carrier) : (State.modCarrier s c f).sec = s.sec := rfl
@[simp] theorem modCarrier_tack (s : State) (c : Fin 8) (f : Carrier → Carrier) : (State.modCarrier s c f).tack = s.tack := rfl
@[simp] theorem modCarrier_pkg (s : State) (c : Fin 8) (f : Carrier → Carrier) : (State.modCarrier s c f).pkg = s.pkg := rfl

-- State.modWcount
@[simp] theorem modWcount_pending (s : State) (c : Fin 8) (f : WeightCount → WeightCount) : (State.modWcount s c f).pending = s.pending := rfl
@[simp] theorem modWcount_out (s : State) (c : Fin 8) (f : WeightCount → WeightCount) : (State.modWcount s c f).out = s.out := rfl
@[simp] theorem modWcount_free (s : State) (c : Fin 8) (f : WeightCount → WeightCount) : (State.modWcount s c f).free = s.free := rfl
@[simp] theorem modWcount_dp (s : State) (c : Fin 8) (f : WeightCount → WeightCount) : (State.modWcount s c f).dp = s.dp := rfl
@[simp] theorem modWcount_host (s : State) (c : Fin 8) (f : WeightCount → WeightCount) : (State.modWcount s c f).host = s.host := rfl
@[simp] theorem modWcount_rc (s : State) (c : Fin 8) (f : WeightCount → WeightCount) : (State.modWcount s c f).rc = s.rc := rfl
@[simp] theorem modWcount_ym (s : State) (c : Fin 8) (f : WeightCount → WeightCount) : (State.modWcount s c f).ym = s.ym := rfl
@[simp] theorem modWcount_mode (s : State) (c : Fin 8) (f : WeightCount → WeightCount) : (State.modWcount s c f).mode = s.mode := rfl
@[simp] theorem modWcount_radio (s : State) (c : Fin 8) (f : WeightCount → WeightCount) : (State.modWcount s c f).radio = s.radio := rfl
@[simp] theorem modWcount_conv (s : State) (c : Fin 8) (f : WeightCount → WeightCount) : (State.modWcount s c f).conv = s.conv := rfl
@[simp] theorem modWcount_burst (s : State) (c : Fin 8) (f : WeightCount → WeightCount) : (State.modWcount s c f).burst = s.burst := rfl
@[simp] theorem modWcount_quality (s : State) (c : Fin 8) (f : WeightCount → WeightCount) : (State.modWcount s c f).quality = s.quality := rfl
@[simp] theorem modWcount_lin (s : State) (c : Fin 8) (f : WeightCount → WeightCount) : (State.modWcount s c f).lin = s.lin := rfl
@[simp] theorem modWcount_cal (s : State) (c : Fin 8) (f : WeightCount → WeightCount) : (State.modWcount s c f).cal = s.cal := rfl
@[simp] theorem modWcount_fh (s : State) (c : Fin 8) (f : WeightCount → WeightCount) : (State.modWcount s c f).fh = s.fh := rfl
@[simp] theorem modWcount_hit (s : State) (c : Fin 8) (f : WeightCount → WeightCount) : (State.modWcount s c f).hit = s.hit := rfl
@[simp] theorem modWcount_time (s : State) (c : Fin 8) (f : WeightCount → WeightCount) : (State.modWcount s c f).time = s.time := rfl
@[simp] theorem modWcount_clk (s : State) (c : Fin 8) (f : WeightCount → WeightCount) : (State.modWcount s c f).clk = s.clk := rfl
@[simp] theorem modWcount_pwr (s : State) (c : Fin 8) (f : WeightCount → WeightCount) : (State.modWcount s c f).pwr = s.pwr := rfl
@[simp] theorem modWcount_shu (s : State) (c : Fin 8) (f : WeightCount → WeightCount) : (State.modWcount s c f).shu = s.shu := rfl
@[simp] theorem modWcount_sol (s : State) (c : Fin 8) (f : WeightCount → WeightCount) : (State.modWcount s c f).sol = s.sol := rfl
@[simp] theorem modWcount_sup (s : State) (c : Fin 8) (f : WeightCount → WeightCount) : (State.modWcount s c f).sup = s.sup := rfl
@[simp] theorem modWcount_mem (s : State) (c : Fin 8) (f : WeightCount → WeightCount) : (State.modWcount s c f).mem = s.mem := rfl
@[simp] theorem modWcount_sec (s : State) (c : Fin 8) (f : WeightCount → WeightCount) : (State.modWcount s c f).sec = s.sec := rfl
@[simp] theorem modWcount_tack (s : State) (c : Fin 8) (f : WeightCount → WeightCount) : (State.modWcount s c f).tack = s.tack := rfl
@[simp] theorem modWcount_pkg (s : State) (c : Fin 8) (f : WeightCount → WeightCount) : (State.modWcount s c f).pkg = s.pkg := rfl

-- State.modOccasion
@[simp] theorem modOccasion_pending (s : State) (id : Nat) (f : Occasion → Occasion) : (State.modOccasion s id f).pending = s.pending := rfl
@[simp] theorem modOccasion_out (s : State) (id : Nat) (f : Occasion → Occasion) : (State.modOccasion s id f).out = s.out := rfl
@[simp] theorem modOccasion_free (s : State) (id : Nat) (f : Occasion → Occasion) : (State.modOccasion s id f).free = s.free := rfl
@[simp] theorem modOccasion_dp (s : State) (id : Nat) (f : Occasion → Occasion) : (State.modOccasion s id f).dp = s.dp := rfl
@[simp] theorem modOccasion_host (s : State) (id : Nat) (f : Occasion → Occasion) : (State.modOccasion s id f).host = s.host := rfl
@[simp] theorem modOccasion_rc (s : State) (id : Nat) (f : Occasion → Occasion) : (State.modOccasion s id f).rc = s.rc := rfl
@[simp] theorem modOccasion_ym (s : State) (id : Nat) (f : Occasion → Occasion) : (State.modOccasion s id f).ym = s.ym := rfl
@[simp] theorem modOccasion_mode (s : State) (id : Nat) (f : Occasion → Occasion) : (State.modOccasion s id f).mode = s.mode := rfl
@[simp] theorem modOccasion_radio (s : State) (id : Nat) (f : Occasion → Occasion) : (State.modOccasion s id f).radio = s.radio := rfl
@[simp] theorem modOccasion_conv (s : State) (id : Nat) (f : Occasion → Occasion) : (State.modOccasion s id f).conv = s.conv := rfl
@[simp] theorem modOccasion_burst (s : State) (id : Nat) (f : Occasion → Occasion) : (State.modOccasion s id f).burst = s.burst := rfl
@[simp] theorem modOccasion_quality (s : State) (id : Nat) (f : Occasion → Occasion) : (State.modOccasion s id f).quality = s.quality := rfl
@[simp] theorem modOccasion_lin (s : State) (id : Nat) (f : Occasion → Occasion) : (State.modOccasion s id f).lin = s.lin := rfl
@[simp] theorem modOccasion_cal (s : State) (id : Nat) (f : Occasion → Occasion) : (State.modOccasion s id f).cal = s.cal := rfl
@[simp] theorem modOccasion_fh (s : State) (id : Nat) (f : Occasion → Occasion) : (State.modOccasion s id f).fh = s.fh := rfl
@[simp] theorem modOccasion_hit (s : State) (id : Nat) (f : Occasion → Occasion) : (State.modOccasion s id f).hit = s.hit := rfl
@[simp] theorem modOccasion_time (s : State) (id : Nat) (f : Occasion → Occasion) : (State.modOccasion s id f).time = s.time := rfl
@[simp] theorem modOccasion_clk (s : State) (id : Nat) (f : Occasion → Occasion) : (State.modOccasion s id f).clk = s.clk := rfl
@[simp] theorem modOccasion_pwr (s : State) (id : Nat) (f : Occasion → Occasion) : (State.modOccasion s id f).pwr = s.pwr := rfl
@[simp] theorem modOccasion_shu (s : State) (id : Nat) (f : Occasion → Occasion) : (State.modOccasion s id f).shu = s.shu := rfl
@[simp] theorem modOccasion_sol (s : State) (id : Nat) (f : Occasion → Occasion) : (State.modOccasion s id f).sol = s.sol := rfl
@[simp] theorem modOccasion_sup (s : State) (id : Nat) (f : Occasion → Occasion) : (State.modOccasion s id f).sup = s.sup := rfl
@[simp] theorem modOccasion_mem (s : State) (id : Nat) (f : Occasion → Occasion) : (State.modOccasion s id f).mem = s.mem := rfl
@[simp] theorem modOccasion_sec (s : State) (id : Nat) (f : Occasion → Occasion) : (State.modOccasion s id f).sec = s.sec := rfl
@[simp] theorem modOccasion_tack (s : State) (id : Nat) (f : Occasion → Occasion) : (State.modOccasion s id f).tack = s.tack := rfl
@[simp] theorem modOccasion_pkg (s : State) (id : Nat) (f : Occasion → Occasion) : (State.modOccasion s id f).pkg = s.pkg := rfl

-- State.modPort
@[simp] theorem modPort_pending (s : State) (n : Fin 8) (f : Port → Port) : (State.modPort s n f).pending = s.pending := rfl
@[simp] theorem modPort_out (s : State) (n : Fin 8) (f : Port → Port) : (State.modPort s n f).out = s.out := rfl
@[simp] theorem modPort_free (s : State) (n : Fin 8) (f : Port → Port) : (State.modPort s n f).free = s.free := rfl
@[simp] theorem modPort_dp (s : State) (n : Fin 8) (f : Port → Port) : (State.modPort s n f).dp = s.dp := rfl
@[simp] theorem modPort_host (s : State) (n : Fin 8) (f : Port → Port) : (State.modPort s n f).host = s.host := rfl
@[simp] theorem modPort_rc (s : State) (n : Fin 8) (f : Port → Port) : (State.modPort s n f).rc = s.rc := rfl
@[simp] theorem modPort_ym (s : State) (n : Fin 8) (f : Port → Port) : (State.modPort s n f).ym = s.ym := rfl
@[simp] theorem modPort_mode (s : State) (n : Fin 8) (f : Port → Port) : (State.modPort s n f).mode = s.mode := rfl
@[simp] theorem modPort_radio (s : State) (n : Fin 8) (f : Port → Port) : (State.modPort s n f).radio = s.radio := rfl
@[simp] theorem modPort_conv (s : State) (n : Fin 8) (f : Port → Port) : (State.modPort s n f).conv = s.conv := rfl
@[simp] theorem modPort_ofdm (s : State) (n : Fin 8) (f : Port → Port) : (State.modPort s n f).ofdm = s.ofdm := rfl
@[simp] theorem modPort_burst (s : State) (n : Fin 8) (f : Port → Port) : (State.modPort s n f).burst = s.burst := rfl
@[simp] theorem modPort_quality (s : State) (n : Fin 8) (f : Port → Port) : (State.modPort s n f).quality = s.quality := rfl
@[simp] theorem modPort_lin (s : State) (n : Fin 8) (f : Port → Port) : (State.modPort s n f).lin = s.lin := rfl
@[simp] theorem modPort_cal (s : State) (n : Fin 8) (f : Port → Port) : (State.modPort s n f).cal = s.cal := rfl
@[simp] theorem modPort_hit (s : State) (n : Fin 8) (f : Port → Port) : (State.modPort s n f).hit = s.hit := rfl
@[simp] theorem modPort_time (s : State) (n : Fin 8) (f : Port → Port) : (State.modPort s n f).time = s.time := rfl
@[simp] theorem modPort_clk (s : State) (n : Fin 8) (f : Port → Port) : (State.modPort s n f).clk = s.clk := rfl
@[simp] theorem modPort_pwr (s : State) (n : Fin 8) (f : Port → Port) : (State.modPort s n f).pwr = s.pwr := rfl
@[simp] theorem modPort_shu (s : State) (n : Fin 8) (f : Port → Port) : (State.modPort s n f).shu = s.shu := rfl
@[simp] theorem modPort_sol (s : State) (n : Fin 8) (f : Port → Port) : (State.modPort s n f).sol = s.sol := rfl
@[simp] theorem modPort_sup (s : State) (n : Fin 8) (f : Port → Port) : (State.modPort s n f).sup = s.sup := rfl
@[simp] theorem modPort_mem (s : State) (n : Fin 8) (f : Port → Port) : (State.modPort s n f).mem = s.mem := rfl
@[simp] theorem modPort_sec (s : State) (n : Fin 8) (f : Port → Port) : (State.modPort s n f).sec = s.sec := rfl
@[simp] theorem modPort_tack (s : State) (n : Fin 8) (f : Port → Port) : (State.modPort s n f).tack = s.tack := rfl
@[simp] theorem modPort_pkg (s : State) (n : Fin 8) (f : Port → Port) : (State.modPort s n f).pkg = s.pkg := rfl

-- State.cnt
@[simp] theorem cnt_pending (s : State) (p : Fin 8) (f : PortCount → PortCount) : (State.cnt s p f).pending = s.pending := rfl
@[simp] theorem cnt_out (s : State) (p : Fin 8) (f : PortCount → PortCount) : (State.cnt s p f).out = s.out := rfl
@[simp] theorem cnt_free (s : State) (p : Fin 8) (f : PortCount → PortCount) : (State.cnt s p f).free = s.free := rfl
@[simp] theorem cnt_dp (s : State) (p : Fin 8) (f : PortCount → PortCount) : (State.cnt s p f).dp = s.dp := rfl
@[simp] theorem cnt_host (s : State) (p : Fin 8) (f : PortCount → PortCount) : (State.cnt s p f).host = s.host := rfl
@[simp] theorem cnt_rc (s : State) (p : Fin 8) (f : PortCount → PortCount) : (State.cnt s p f).rc = s.rc := rfl
@[simp] theorem cnt_ym (s : State) (p : Fin 8) (f : PortCount → PortCount) : (State.cnt s p f).ym = s.ym := rfl
@[simp] theorem cnt_mode (s : State) (p : Fin 8) (f : PortCount → PortCount) : (State.cnt s p f).mode = s.mode := rfl
@[simp] theorem cnt_radio (s : State) (p : Fin 8) (f : PortCount → PortCount) : (State.cnt s p f).radio = s.radio := rfl
@[simp] theorem cnt_conv (s : State) (p : Fin 8) (f : PortCount → PortCount) : (State.cnt s p f).conv = s.conv := rfl
@[simp] theorem cnt_ofdm (s : State) (p : Fin 8) (f : PortCount → PortCount) : (State.cnt s p f).ofdm = s.ofdm := rfl
@[simp] theorem cnt_burst (s : State) (p : Fin 8) (f : PortCount → PortCount) : (State.cnt s p f).burst = s.burst := rfl
@[simp] theorem cnt_quality (s : State) (p : Fin 8) (f : PortCount → PortCount) : (State.cnt s p f).quality = s.quality := rfl
@[simp] theorem cnt_lin (s : State) (p : Fin 8) (f : PortCount → PortCount) : (State.cnt s p f).lin = s.lin := rfl
@[simp] theorem cnt_cal (s : State) (p : Fin 8) (f : PortCount → PortCount) : (State.cnt s p f).cal = s.cal := rfl
@[simp] theorem cnt_hit (s : State) (p : Fin 8) (f : PortCount → PortCount) : (State.cnt s p f).hit = s.hit := rfl
@[simp] theorem cnt_time (s : State) (p : Fin 8) (f : PortCount → PortCount) : (State.cnt s p f).time = s.time := rfl
@[simp] theorem cnt_clk (s : State) (p : Fin 8) (f : PortCount → PortCount) : (State.cnt s p f).clk = s.clk := rfl
@[simp] theorem cnt_pwr (s : State) (p : Fin 8) (f : PortCount → PortCount) : (State.cnt s p f).pwr = s.pwr := rfl
@[simp] theorem cnt_shu (s : State) (p : Fin 8) (f : PortCount → PortCount) : (State.cnt s p f).shu = s.shu := rfl
@[simp] theorem cnt_sol (s : State) (p : Fin 8) (f : PortCount → PortCount) : (State.cnt s p f).sol = s.sol := rfl
@[simp] theorem cnt_sup (s : State) (p : Fin 8) (f : PortCount → PortCount) : (State.cnt s p f).sup = s.sup := rfl
@[simp] theorem cnt_mem (s : State) (p : Fin 8) (f : PortCount → PortCount) : (State.cnt s p f).mem = s.mem := rfl
@[simp] theorem cnt_sec (s : State) (p : Fin 8) (f : PortCount → PortCount) : (State.cnt s p f).sec = s.sec := rfl
@[simp] theorem cnt_tack (s : State) (p : Fin 8) (f : PortCount → PortCount) : (State.cnt s p f).tack = s.tack := rfl
@[simp] theorem cnt_pkg (s : State) (p : Fin 8) (f : PortCount → PortCount) : (State.cnt s p f).pkg = s.pkg := rfl

-- State.modOut
@[simp] theorem modOut_pending (s : State) (i : Fin 80) (f : OutCh → OutCh) : (State.modOut s i f).pending = s.pending := rfl
@[simp] theorem modOut_out (s : State) (i : Fin 80) (f : OutCh → OutCh) : (State.modOut s i f).out = s.out := rfl
@[simp] theorem modOut_free (s : State) (i : Fin 80) (f : OutCh → OutCh) : (State.modOut s i f).free = s.free := rfl
@[simp] theorem modOut_dp (s : State) (i : Fin 80) (f : OutCh → OutCh) : (State.modOut s i f).dp = s.dp := rfl
@[simp] theorem modOut_host (s : State) (i : Fin 80) (f : OutCh → OutCh) : (State.modOut s i f).host = s.host := rfl
@[simp] theorem modOut_rc (s : State) (i : Fin 80) (f : OutCh → OutCh) : (State.modOut s i f).rc = s.rc := rfl
@[simp] theorem modOut_ym (s : State) (i : Fin 80) (f : OutCh → OutCh) : (State.modOut s i f).ym = s.ym := rfl
@[simp] theorem modOut_mode (s : State) (i : Fin 80) (f : OutCh → OutCh) : (State.modOut s i f).mode = s.mode := rfl
@[simp] theorem modOut_radio (s : State) (i : Fin 80) (f : OutCh → OutCh) : (State.modOut s i f).radio = s.radio := rfl
@[simp] theorem modOut_conv (s : State) (i : Fin 80) (f : OutCh → OutCh) : (State.modOut s i f).conv = s.conv := rfl
@[simp] theorem modOut_ofdm (s : State) (i : Fin 80) (f : OutCh → OutCh) : (State.modOut s i f).ofdm = s.ofdm := rfl
@[simp] theorem modOut_burst (s : State) (i : Fin 80) (f : OutCh → OutCh) : (State.modOut s i f).burst = s.burst := rfl
@[simp] theorem modOut_quality (s : State) (i : Fin 80) (f : OutCh → OutCh) : (State.modOut s i f).quality = s.quality := rfl
@[simp] theorem modOut_lin (s : State) (i : Fin 80) (f : OutCh → OutCh) : (State.modOut s i f).lin = s.lin := rfl
@[simp] theorem modOut_cal (s : State) (i : Fin 80) (f : OutCh → OutCh) : (State.modOut s i f).cal = s.cal := rfl
@[simp] theorem modOut_fh (s : State) (i : Fin 80) (f : OutCh → OutCh) : (State.modOut s i f).fh = s.fh := rfl
@[simp] theorem modOut_hit (s : State) (i : Fin 80) (f : OutCh → OutCh) : (State.modOut s i f).hit = s.hit := rfl
@[simp] theorem modOut_time (s : State) (i : Fin 80) (f : OutCh → OutCh) : (State.modOut s i f).time = s.time := rfl
@[simp] theorem modOut_clk (s : State) (i : Fin 80) (f : OutCh → OutCh) : (State.modOut s i f).clk = s.clk := rfl
@[simp] theorem modOut_pwr (s : State) (i : Fin 80) (f : OutCh → OutCh) : (State.modOut s i f).pwr = s.pwr := rfl
@[simp] theorem modOut_shu (s : State) (i : Fin 80) (f : OutCh → OutCh) : (State.modOut s i f).shu = s.shu := rfl
@[simp] theorem modOut_sol (s : State) (i : Fin 80) (f : OutCh → OutCh) : (State.modOut s i f).sol = s.sol := rfl
@[simp] theorem modOut_sup (s : State) (i : Fin 80) (f : OutCh → OutCh) : (State.modOut s i f).sup = { s.sup with out := vmod s.sup.out i f } := rfl
@[simp] theorem modOut_mem (s : State) (i : Fin 80) (f : OutCh → OutCh) : (State.modOut s i f).mem = s.mem := rfl
@[simp] theorem modOut_sec (s : State) (i : Fin 80) (f : OutCh → OutCh) : (State.modOut s i f).sec = s.sec := rfl
@[simp] theorem modOut_tack (s : State) (i : Fin 80) (f : OutCh → OutCh) : (State.modOut s i f).tack = s.tack := rfl
@[simp] theorem modOut_pkg (s : State) (i : Fin 80) (f : OutCh → OutCh) : (State.modOut s i f).pkg = s.pkg := rfl

-- State.modConv
@[simp] theorem modConv_pending (s : State) (i : Fin 2) (f : HkConv → HkConv) : (State.modConv s i f).pending = s.pending := rfl
@[simp] theorem modConv_out (s : State) (i : Fin 2) (f : HkConv → HkConv) : (State.modConv s i f).out = s.out := rfl
@[simp] theorem modConv_free (s : State) (i : Fin 2) (f : HkConv → HkConv) : (State.modConv s i f).free = s.free := rfl
@[simp] theorem modConv_dp (s : State) (i : Fin 2) (f : HkConv → HkConv) : (State.modConv s i f).dp = s.dp := rfl
@[simp] theorem modConv_host (s : State) (i : Fin 2) (f : HkConv → HkConv) : (State.modConv s i f).host = s.host := rfl
@[simp] theorem modConv_rc (s : State) (i : Fin 2) (f : HkConv → HkConv) : (State.modConv s i f).rc = s.rc := rfl
@[simp] theorem modConv_ym (s : State) (i : Fin 2) (f : HkConv → HkConv) : (State.modConv s i f).ym = s.ym := rfl
@[simp] theorem modConv_mode (s : State) (i : Fin 2) (f : HkConv → HkConv) : (State.modConv s i f).mode = s.mode := rfl
@[simp] theorem modConv_radio (s : State) (i : Fin 2) (f : HkConv → HkConv) : (State.modConv s i f).radio = s.radio := rfl
@[simp] theorem modConv_conv (s : State) (i : Fin 2) (f : HkConv → HkConv) : (State.modConv s i f).conv = s.conv := rfl
@[simp] theorem modConv_ofdm (s : State) (i : Fin 2) (f : HkConv → HkConv) : (State.modConv s i f).ofdm = s.ofdm := rfl
@[simp] theorem modConv_burst (s : State) (i : Fin 2) (f : HkConv → HkConv) : (State.modConv s i f).burst = s.burst := rfl
@[simp] theorem modConv_quality (s : State) (i : Fin 2) (f : HkConv → HkConv) : (State.modConv s i f).quality = s.quality := rfl
@[simp] theorem modConv_lin (s : State) (i : Fin 2) (f : HkConv → HkConv) : (State.modConv s i f).lin = s.lin := rfl
@[simp] theorem modConv_cal (s : State) (i : Fin 2) (f : HkConv → HkConv) : (State.modConv s i f).cal = s.cal := rfl
@[simp] theorem modConv_fh (s : State) (i : Fin 2) (f : HkConv → HkConv) : (State.modConv s i f).fh = s.fh := rfl
@[simp] theorem modConv_hit (s : State) (i : Fin 2) (f : HkConv → HkConv) : (State.modConv s i f).hit = s.hit := rfl
@[simp] theorem modConv_time (s : State) (i : Fin 2) (f : HkConv → HkConv) : (State.modConv s i f).time = s.time := rfl
@[simp] theorem modConv_clk (s : State) (i : Fin 2) (f : HkConv → HkConv) : (State.modConv s i f).clk = s.clk := rfl
@[simp] theorem modConv_pwr (s : State) (i : Fin 2) (f : HkConv → HkConv) : (State.modConv s i f).pwr = s.pwr := rfl
@[simp] theorem modConv_shu (s : State) (i : Fin 2) (f : HkConv → HkConv) : (State.modConv s i f).shu = s.shu := rfl
@[simp] theorem modConv_sol (s : State) (i : Fin 2) (f : HkConv → HkConv) : (State.modConv s i f).sol = s.sol := rfl
@[simp] theorem modConv_sup (s : State) (i : Fin 2) (f : HkConv → HkConv) : (State.modConv s i f).sup = { s.sup with conv := vmod s.sup.conv i f } := rfl
@[simp] theorem modConv_mem (s : State) (i : Fin 2) (f : HkConv → HkConv) : (State.modConv s i f).mem = s.mem := rfl
@[simp] theorem modConv_sec (s : State) (i : Fin 2) (f : HkConv → HkConv) : (State.modConv s i f).sec = s.sec := rfl
@[simp] theorem modConv_tack (s : State) (i : Fin 2) (f : HkConv → HkConv) : (State.modConv s i f).tack = s.tack := rfl
@[simp] theorem modConv_pkg (s : State) (i : Fin 2) (f : HkConv → HkConv) : (State.modConv s i f).pkg = s.pkg := rfl

-- State.modDpd
@[simp] theorem modDpd_pending (s : State) (p : Fin 64) (f : Dpd → Dpd) : (State.modDpd s p f).pending = s.pending := rfl
@[simp] theorem modDpd_out (s : State) (p : Fin 64) (f : Dpd → Dpd) : (State.modDpd s p f).out = s.out := rfl
@[simp] theorem modDpd_free (s : State) (p : Fin 64) (f : Dpd → Dpd) : (State.modDpd s p f).free = s.free := rfl
@[simp] theorem modDpd_dp (s : State) (p : Fin 64) (f : Dpd → Dpd) : (State.modDpd s p f).dp = s.dp := rfl
@[simp] theorem modDpd_host (s : State) (p : Fin 64) (f : Dpd → Dpd) : (State.modDpd s p f).host = s.host := rfl
@[simp] theorem modDpd_rc (s : State) (p : Fin 64) (f : Dpd → Dpd) : (State.modDpd s p f).rc = s.rc := rfl
@[simp] theorem modDpd_ym (s : State) (p : Fin 64) (f : Dpd → Dpd) : (State.modDpd s p f).ym = s.ym := rfl
@[simp] theorem modDpd_mode (s : State) (p : Fin 64) (f : Dpd → Dpd) : (State.modDpd s p f).mode = s.mode := rfl
@[simp] theorem modDpd_radio (s : State) (p : Fin 64) (f : Dpd → Dpd) : (State.modDpd s p f).radio = s.radio := rfl
@[simp] theorem modDpd_conv (s : State) (p : Fin 64) (f : Dpd → Dpd) : (State.modDpd s p f).conv = s.conv := rfl
@[simp] theorem modDpd_ofdm (s : State) (p : Fin 64) (f : Dpd → Dpd) : (State.modDpd s p f).ofdm = s.ofdm := rfl
@[simp] theorem modDpd_burst (s : State) (p : Fin 64) (f : Dpd → Dpd) : (State.modDpd s p f).burst = s.burst := rfl
@[simp] theorem modDpd_quality (s : State) (p : Fin 64) (f : Dpd → Dpd) : (State.modDpd s p f).quality = s.quality := rfl
@[simp] theorem modDpd_lin (s : State) (p : Fin 64) (f : Dpd → Dpd) : (State.modDpd s p f).lin = { s.lin with paths := vmod s.lin.paths p f } := rfl
@[simp] theorem modDpd_cal (s : State) (p : Fin 64) (f : Dpd → Dpd) : (State.modDpd s p f).cal = s.cal := rfl
@[simp] theorem modDpd_fh (s : State) (p : Fin 64) (f : Dpd → Dpd) : (State.modDpd s p f).fh = s.fh := rfl
@[simp] theorem modDpd_hit (s : State) (p : Fin 64) (f : Dpd → Dpd) : (State.modDpd s p f).hit = s.hit := rfl
@[simp] theorem modDpd_time (s : State) (p : Fin 64) (f : Dpd → Dpd) : (State.modDpd s p f).time = s.time := rfl
@[simp] theorem modDpd_clk (s : State) (p : Fin 64) (f : Dpd → Dpd) : (State.modDpd s p f).clk = s.clk := rfl
@[simp] theorem modDpd_pwr (s : State) (p : Fin 64) (f : Dpd → Dpd) : (State.modDpd s p f).pwr = s.pwr := rfl
@[simp] theorem modDpd_shu (s : State) (p : Fin 64) (f : Dpd → Dpd) : (State.modDpd s p f).shu = s.shu := rfl
@[simp] theorem modDpd_sol (s : State) (p : Fin 64) (f : Dpd → Dpd) : (State.modDpd s p f).sol = s.sol := rfl
@[simp] theorem modDpd_sup (s : State) (p : Fin 64) (f : Dpd → Dpd) : (State.modDpd s p f).sup = s.sup := rfl
@[simp] theorem modDpd_mem (s : State) (p : Fin 64) (f : Dpd → Dpd) : (State.modDpd s p f).mem = s.mem := rfl
@[simp] theorem modDpd_sec (s : State) (p : Fin 64) (f : Dpd → Dpd) : (State.modDpd s p f).sec = s.sec := rfl
@[simp] theorem modDpd_tack (s : State) (p : Fin 64) (f : Dpd → Dpd) : (State.modDpd s p f).tack = s.tack := rfl
@[simp] theorem modDpd_pkg (s : State) (p : Fin 64) (f : Dpd → Dpd) : (State.modDpd s p f).pkg = s.pkg := rfl

-- State.modBank
@[simp] theorem modBank_pending (s : State) (b : Nat) (f : BankRec → BankRec) : (State.modBank s b f).pending = s.pending := rfl
@[simp] theorem modBank_out (s : State) (b : Nat) (f : BankRec → BankRec) : (State.modBank s b f).out = s.out := rfl
@[simp] theorem modBank_free (s : State) (b : Nat) (f : BankRec → BankRec) : (State.modBank s b f).free = s.free := rfl
@[simp] theorem modBank_dp (s : State) (b : Nat) (f : BankRec → BankRec) : (State.modBank s b f).dp = s.dp := rfl
@[simp] theorem modBank_host (s : State) (b : Nat) (f : BankRec → BankRec) : (State.modBank s b f).host = s.host := rfl
@[simp] theorem modBank_rc (s : State) (b : Nat) (f : BankRec → BankRec) : (State.modBank s b f).rc = s.rc := rfl
@[simp] theorem modBank_ym (s : State) (b : Nat) (f : BankRec → BankRec) : (State.modBank s b f).ym = s.ym := rfl
@[simp] theorem modBank_mode (s : State) (b : Nat) (f : BankRec → BankRec) : (State.modBank s b f).mode = s.mode := rfl
@[simp] theorem modBank_radio (s : State) (b : Nat) (f : BankRec → BankRec) : (State.modBank s b f).radio = s.radio := rfl
@[simp] theorem modBank_conv (s : State) (b : Nat) (f : BankRec → BankRec) : (State.modBank s b f).conv = s.conv := rfl
@[simp] theorem modBank_ofdm (s : State) (b : Nat) (f : BankRec → BankRec) : (State.modBank s b f).ofdm = s.ofdm := rfl
@[simp] theorem modBank_burst (s : State) (b : Nat) (f : BankRec → BankRec) : (State.modBank s b f).burst = s.burst := rfl
@[simp] theorem modBank_quality (s : State) (b : Nat) (f : BankRec → BankRec) : (State.modBank s b f).quality = s.quality := rfl
@[simp] theorem modBank_lin (s : State) (b : Nat) (f : BankRec → BankRec) : (State.modBank s b f).lin = s.lin := rfl
@[simp] theorem modBank_cal (s : State) (b : Nat) (f : BankRec → BankRec) : (State.modBank s b f).cal = s.cal := rfl
@[simp] theorem modBank_fh (s : State) (b : Nat) (f : BankRec → BankRec) : (State.modBank s b f).fh = s.fh := rfl
@[simp] theorem modBank_hit (s : State) (b : Nat) (f : BankRec → BankRec) : (State.modBank s b f).hit = s.hit := rfl
@[simp] theorem modBank_time (s : State) (b : Nat) (f : BankRec → BankRec) : (State.modBank s b f).time = s.time := rfl
@[simp] theorem modBank_clk (s : State) (b : Nat) (f : BankRec → BankRec) : (State.modBank s b f).clk = s.clk := rfl
@[simp] theorem modBank_pwr (s : State) (b : Nat) (f : BankRec → BankRec) : (State.modBank s b f).pwr = s.pwr := rfl
@[simp] theorem modBank_shu (s : State) (b : Nat) (f : BankRec → BankRec) : (State.modBank s b f).shu = s.shu := rfl
@[simp] theorem modBank_sol (s : State) (b : Nat) (f : BankRec → BankRec) : (State.modBank s b f).sol = s.sol := rfl
@[simp] theorem modBank_sup (s : State) (b : Nat) (f : BankRec → BankRec) : (State.modBank s b f).sup = s.sup := rfl
@[simp] theorem modBank_sec (s : State) (b : Nat) (f : BankRec → BankRec) : (State.modBank s b f).sec = s.sec := rfl
@[simp] theorem modBank_tack (s : State) (b : Nat) (f : BankRec → BankRec) : (State.modBank s b f).tack = s.tack := rfl
@[simp] theorem modBank_pkg (s : State) (b : Nat) (f : BankRec → BankRec) : (State.modBank s b f).pkg = s.pkg := rfl

-- State.modMarch
@[simp] theorem modMarch_pending (s : State) (r : CmdRef) (f : March → March) : (State.modMarch s r f).pending = s.pending := rfl
@[simp] theorem modMarch_out (s : State) (r : CmdRef) (f : March → March) : (State.modMarch s r f).out = s.out := rfl
@[simp] theorem modMarch_free (s : State) (r : CmdRef) (f : March → March) : (State.modMarch s r f).free = s.free := rfl
@[simp] theorem modMarch_dp (s : State) (r : CmdRef) (f : March → March) : (State.modMarch s r f).dp = s.dp := rfl
@[simp] theorem modMarch_host (s : State) (r : CmdRef) (f : March → March) : (State.modMarch s r f).host = s.host := rfl
@[simp] theorem modMarch_rc (s : State) (r : CmdRef) (f : March → March) : (State.modMarch s r f).rc = s.rc := rfl
@[simp] theorem modMarch_ym (s : State) (r : CmdRef) (f : March → March) : (State.modMarch s r f).ym = s.ym := rfl
@[simp] theorem modMarch_mode (s : State) (r : CmdRef) (f : March → March) : (State.modMarch s r f).mode = s.mode := rfl
@[simp] theorem modMarch_radio (s : State) (r : CmdRef) (f : March → March) : (State.modMarch s r f).radio = s.radio := rfl
@[simp] theorem modMarch_conv (s : State) (r : CmdRef) (f : March → March) : (State.modMarch s r f).conv = s.conv := rfl
@[simp] theorem modMarch_ofdm (s : State) (r : CmdRef) (f : March → March) : (State.modMarch s r f).ofdm = s.ofdm := rfl
@[simp] theorem modMarch_burst (s : State) (r : CmdRef) (f : March → March) : (State.modMarch s r f).burst = s.burst := rfl
@[simp] theorem modMarch_quality (s : State) (r : CmdRef) (f : March → March) : (State.modMarch s r f).quality = s.quality := rfl
@[simp] theorem modMarch_lin (s : State) (r : CmdRef) (f : March → March) : (State.modMarch s r f).lin = s.lin := rfl
@[simp] theorem modMarch_cal (s : State) (r : CmdRef) (f : March → March) : (State.modMarch s r f).cal = s.cal := rfl
@[simp] theorem modMarch_fh (s : State) (r : CmdRef) (f : March → March) : (State.modMarch s r f).fh = s.fh := rfl
@[simp] theorem modMarch_hit (s : State) (r : CmdRef) (f : March → March) : (State.modMarch s r f).hit = s.hit := rfl
@[simp] theorem modMarch_time (s : State) (r : CmdRef) (f : March → March) : (State.modMarch s r f).time = s.time := rfl
@[simp] theorem modMarch_clk (s : State) (r : CmdRef) (f : March → March) : (State.modMarch s r f).clk = s.clk := rfl
@[simp] theorem modMarch_pwr (s : State) (r : CmdRef) (f : March → March) : (State.modMarch s r f).pwr = s.pwr := rfl
@[simp] theorem modMarch_shu (s : State) (r : CmdRef) (f : March → March) : (State.modMarch s r f).shu = s.shu := rfl
@[simp] theorem modMarch_sol (s : State) (r : CmdRef) (f : March → March) : (State.modMarch s r f).sol = s.sol := rfl
@[simp] theorem modMarch_sup (s : State) (r : CmdRef) (f : March → March) : (State.modMarch s r f).sup = s.sup := rfl
@[simp] theorem modMarch_sec (s : State) (r : CmdRef) (f : March → March) : (State.modMarch s r f).sec = s.sec := rfl
@[simp] theorem modMarch_tack (s : State) (r : CmdRef) (f : March → March) : (State.modMarch s r f).tack = s.tack := rfl
@[simp] theorem modMarch_pkg (s : State) (r : CmdRef) (f : March → March) : (State.modMarch s r f).pkg = s.pkg := rfl

-- State.modCore
@[simp] theorem modCore_pending (s : State) (c : Fin 9) (f : SolCore → SolCore) : (State.modCore s c f).pending = s.pending := rfl
@[simp] theorem modCore_out (s : State) (c : Fin 9) (f : SolCore → SolCore) : (State.modCore s c f).out = s.out := rfl
@[simp] theorem modCore_free (s : State) (c : Fin 9) (f : SolCore → SolCore) : (State.modCore s c f).free = s.free := rfl
@[simp] theorem modCore_dp (s : State) (c : Fin 9) (f : SolCore → SolCore) : (State.modCore s c f).dp = s.dp := rfl
@[simp] theorem modCore_host (s : State) (c : Fin 9) (f : SolCore → SolCore) : (State.modCore s c f).host = s.host := rfl
@[simp] theorem modCore_rc (s : State) (c : Fin 9) (f : SolCore → SolCore) : (State.modCore s c f).rc = s.rc := rfl
@[simp] theorem modCore_ym (s : State) (c : Fin 9) (f : SolCore → SolCore) : (State.modCore s c f).ym = s.ym := rfl
@[simp] theorem modCore_mode (s : State) (c : Fin 9) (f : SolCore → SolCore) : (State.modCore s c f).mode = s.mode := rfl
@[simp] theorem modCore_radio (s : State) (c : Fin 9) (f : SolCore → SolCore) : (State.modCore s c f).radio = s.radio := rfl
@[simp] theorem modCore_conv (s : State) (c : Fin 9) (f : SolCore → SolCore) : (State.modCore s c f).conv = s.conv := rfl
@[simp] theorem modCore_ofdm (s : State) (c : Fin 9) (f : SolCore → SolCore) : (State.modCore s c f).ofdm = s.ofdm := rfl
@[simp] theorem modCore_burst (s : State) (c : Fin 9) (f : SolCore → SolCore) : (State.modCore s c f).burst = s.burst := rfl
@[simp] theorem modCore_quality (s : State) (c : Fin 9) (f : SolCore → SolCore) : (State.modCore s c f).quality = s.quality := rfl
@[simp] theorem modCore_lin (s : State) (c : Fin 9) (f : SolCore → SolCore) : (State.modCore s c f).lin = s.lin := rfl
@[simp] theorem modCore_cal (s : State) (c : Fin 9) (f : SolCore → SolCore) : (State.modCore s c f).cal = s.cal := rfl
@[simp] theorem modCore_fh (s : State) (c : Fin 9) (f : SolCore → SolCore) : (State.modCore s c f).fh = s.fh := rfl
@[simp] theorem modCore_hit (s : State) (c : Fin 9) (f : SolCore → SolCore) : (State.modCore s c f).hit = s.hit := rfl
@[simp] theorem modCore_time (s : State) (c : Fin 9) (f : SolCore → SolCore) : (State.modCore s c f).time = s.time := rfl
@[simp] theorem modCore_clk (s : State) (c : Fin 9) (f : SolCore → SolCore) : (State.modCore s c f).clk = s.clk := rfl
@[simp] theorem modCore_pwr (s : State) (c : Fin 9) (f : SolCore → SolCore) : (State.modCore s c f).pwr = s.pwr := rfl
@[simp] theorem modCore_shu (s : State) (c : Fin 9) (f : SolCore → SolCore) : (State.modCore s c f).shu = s.shu := rfl
@[simp] theorem modCore_sol (s : State) (c : Fin 9) (f : SolCore → SolCore) : (State.modCore s c f).sol = { s.sol with cores := vmod s.sol.cores c f } := rfl
@[simp] theorem modCore_sup (s : State) (c : Fin 9) (f : SolCore → SolCore) : (State.modCore s c f).sup = s.sup := rfl
@[simp] theorem modCore_mem (s : State) (c : Fin 9) (f : SolCore → SolCore) : (State.modCore s c f).mem = s.mem := rfl
@[simp] theorem modCore_sec (s : State) (c : Fin 9) (f : SolCore → SolCore) : (State.modCore s c f).sec = s.sec := rfl
@[simp] theorem modCore_tack (s : State) (c : Fin 9) (f : SolCore → SolCore) : (State.modCore s c f).tack = s.tack := rfl
@[simp] theorem modCore_pkg (s : State) (c : Fin 9) (f : SolCore → SolCore) : (State.modCore s c f).pkg = s.pkg := rfl

-- State.wv
@[simp] theorem wv_pending (s : State) (c : Fin 9) (i : Fin 32) (v : Vector (BitVec 32) 32) : (State.wv s c i v).pending = s.pending := rfl
@[simp] theorem wv_out (s : State) (c : Fin 9) (i : Fin 32) (v : Vector (BitVec 32) 32) : (State.wv s c i v).out = s.out := rfl
@[simp] theorem wv_free (s : State) (c : Fin 9) (i : Fin 32) (v : Vector (BitVec 32) 32) : (State.wv s c i v).free = s.free := rfl
@[simp] theorem wv_dp (s : State) (c : Fin 9) (i : Fin 32) (v : Vector (BitVec 32) 32) : (State.wv s c i v).dp = s.dp := rfl
@[simp] theorem wv_host (s : State) (c : Fin 9) (i : Fin 32) (v : Vector (BitVec 32) 32) : (State.wv s c i v).host = s.host := rfl
@[simp] theorem wv_rc (s : State) (c : Fin 9) (i : Fin 32) (v : Vector (BitVec 32) 32) : (State.wv s c i v).rc = s.rc := rfl
@[simp] theorem wv_ym (s : State) (c : Fin 9) (i : Fin 32) (v : Vector (BitVec 32) 32) : (State.wv s c i v).ym = s.ym := rfl
@[simp] theorem wv_mode (s : State) (c : Fin 9) (i : Fin 32) (v : Vector (BitVec 32) 32) : (State.wv s c i v).mode = s.mode := rfl
@[simp] theorem wv_radio (s : State) (c : Fin 9) (i : Fin 32) (v : Vector (BitVec 32) 32) : (State.wv s c i v).radio = s.radio := rfl
@[simp] theorem wv_conv (s : State) (c : Fin 9) (i : Fin 32) (v : Vector (BitVec 32) 32) : (State.wv s c i v).conv = s.conv := rfl
@[simp] theorem wv_ofdm (s : State) (c : Fin 9) (i : Fin 32) (v : Vector (BitVec 32) 32) : (State.wv s c i v).ofdm = s.ofdm := rfl
@[simp] theorem wv_burst (s : State) (c : Fin 9) (i : Fin 32) (v : Vector (BitVec 32) 32) : (State.wv s c i v).burst = s.burst := rfl
@[simp] theorem wv_quality (s : State) (c : Fin 9) (i : Fin 32) (v : Vector (BitVec 32) 32) : (State.wv s c i v).quality = s.quality := rfl
@[simp] theorem wv_lin (s : State) (c : Fin 9) (i : Fin 32) (v : Vector (BitVec 32) 32) : (State.wv s c i v).lin = s.lin := rfl
@[simp] theorem wv_cal (s : State) (c : Fin 9) (i : Fin 32) (v : Vector (BitVec 32) 32) : (State.wv s c i v).cal = s.cal := rfl
@[simp] theorem wv_fh (s : State) (c : Fin 9) (i : Fin 32) (v : Vector (BitVec 32) 32) : (State.wv s c i v).fh = s.fh := rfl
@[simp] theorem wv_hit (s : State) (c : Fin 9) (i : Fin 32) (v : Vector (BitVec 32) 32) : (State.wv s c i v).hit = s.hit := rfl
@[simp] theorem wv_time (s : State) (c : Fin 9) (i : Fin 32) (v : Vector (BitVec 32) 32) : (State.wv s c i v).time = s.time := rfl
@[simp] theorem wv_clk (s : State) (c : Fin 9) (i : Fin 32) (v : Vector (BitVec 32) 32) : (State.wv s c i v).clk = s.clk := rfl
@[simp] theorem wv_pwr (s : State) (c : Fin 9) (i : Fin 32) (v : Vector (BitVec 32) 32) : (State.wv s c i v).pwr = s.pwr := rfl
@[simp] theorem wv_shu (s : State) (c : Fin 9) (i : Fin 32) (v : Vector (BitVec 32) 32) : (State.wv s c i v).shu = s.shu := rfl
@[simp] theorem wv_sup (s : State) (c : Fin 9) (i : Fin 32) (v : Vector (BitVec 32) 32) : (State.wv s c i v).sup = s.sup := rfl
@[simp] theorem wv_mem (s : State) (c : Fin 9) (i : Fin 32) (v : Vector (BitVec 32) 32) : (State.wv s c i v).mem = s.mem := rfl
@[simp] theorem wv_sec (s : State) (c : Fin 9) (i : Fin 32) (v : Vector (BitVec 32) 32) : (State.wv s c i v).sec = s.sec := rfl
@[simp] theorem wv_tack (s : State) (c : Fin 9) (i : Fin 32) (v : Vector (BitVec 32) 32) : (State.wv s c i v).tack = s.tack := rfl
@[simp] theorem wv_pkg (s : State) (c : Fin 9) (i : Fin 32) (v : Vector (BitVec 32) 32) : (State.wv s c i v).pkg = s.pkg := rfl

-- State.modHit
@[simp] theorem modHit_pending (s : State) (f : Hitch → Hitch) : (State.modHit s f).pending = s.pending := rfl
@[simp] theorem modHit_out (s : State) (f : Hitch → Hitch) : (State.modHit s f).out = s.out := rfl
@[simp] theorem modHit_free (s : State) (f : Hitch → Hitch) : (State.modHit s f).free = s.free := rfl
@[simp] theorem modHit_dp (s : State) (f : Hitch → Hitch) : (State.modHit s f).dp = s.dp := rfl
@[simp] theorem modHit_host (s : State) (f : Hitch → Hitch) : (State.modHit s f).host = s.host := rfl
@[simp] theorem modHit_rc (s : State) (f : Hitch → Hitch) : (State.modHit s f).rc = s.rc := rfl
@[simp] theorem modHit_ym (s : State) (f : Hitch → Hitch) : (State.modHit s f).ym = s.ym := rfl
@[simp] theorem modHit_mode (s : State) (f : Hitch → Hitch) : (State.modHit s f).mode = s.mode := rfl
@[simp] theorem modHit_radio (s : State) (f : Hitch → Hitch) : (State.modHit s f).radio = s.radio := rfl
@[simp] theorem modHit_conv (s : State) (f : Hitch → Hitch) : (State.modHit s f).conv = s.conv := rfl
@[simp] theorem modHit_ofdm (s : State) (f : Hitch → Hitch) : (State.modHit s f).ofdm = s.ofdm := rfl
@[simp] theorem modHit_burst (s : State) (f : Hitch → Hitch) : (State.modHit s f).burst = s.burst := rfl
@[simp] theorem modHit_quality (s : State) (f : Hitch → Hitch) : (State.modHit s f).quality = s.quality := rfl
@[simp] theorem modHit_lin (s : State) (f : Hitch → Hitch) : (State.modHit s f).lin = s.lin := rfl
@[simp] theorem modHit_cal (s : State) (f : Hitch → Hitch) : (State.modHit s f).cal = s.cal := rfl
@[simp] theorem modHit_fh (s : State) (f : Hitch → Hitch) : (State.modHit s f).fh = s.fh := rfl
@[simp] theorem modHit_hit (s : State) (f : Hitch → Hitch) : (State.modHit s f).hit = f s.hit := rfl
@[simp] theorem modHit_time (s : State) (f : Hitch → Hitch) : (State.modHit s f).time = s.time := rfl
@[simp] theorem modHit_clk (s : State) (f : Hitch → Hitch) : (State.modHit s f).clk = s.clk := rfl
@[simp] theorem modHit_pwr (s : State) (f : Hitch → Hitch) : (State.modHit s f).pwr = s.pwr := rfl
@[simp] theorem modHit_shu (s : State) (f : Hitch → Hitch) : (State.modHit s f).shu = s.shu := rfl
@[simp] theorem modHit_sol (s : State) (f : Hitch → Hitch) : (State.modHit s f).sol = s.sol := rfl
@[simp] theorem modHit_sup (s : State) (f : Hitch → Hitch) : (State.modHit s f).sup = s.sup := rfl
@[simp] theorem modHit_mem (s : State) (f : Hitch → Hitch) : (State.modHit s f).mem = s.mem := rfl
@[simp] theorem modHit_sec (s : State) (f : Hitch → Hitch) : (State.modHit s f).sec = s.sec := rfl
@[simp] theorem modHit_tack (s : State) (f : Hitch → Hitch) : (State.modHit s f).tack = s.tack := rfl
@[simp] theorem modHit_pkg (s : State) (f : Hitch → Hitch) : (State.modHit s f).pkg = s.pkg := rfl

-- State.modGroup
@[simp] theorem modGroup_pending (s : State) (g : ChainGroup) (f : ChainGroup → ChainGroup) : (State.modGroup s g f).pending = s.pending := rfl
@[simp] theorem modGroup_out (s : State) (g : ChainGroup) (f : ChainGroup → ChainGroup) : (State.modGroup s g f).out = s.out := rfl
@[simp] theorem modGroup_free (s : State) (g : ChainGroup) (f : ChainGroup → ChainGroup) : (State.modGroup s g f).free = s.free := rfl
@[simp] theorem modGroup_dp (s : State) (g : ChainGroup) (f : ChainGroup → ChainGroup) : (State.modGroup s g f).dp = s.dp := rfl
@[simp] theorem modGroup_host (s : State) (g : ChainGroup) (f : ChainGroup → ChainGroup) : (State.modGroup s g f).host = s.host := rfl
@[simp] theorem modGroup_rc (s : State) (g : ChainGroup) (f : ChainGroup → ChainGroup) : (State.modGroup s g f).rc = s.rc := rfl
@[simp] theorem modGroup_ym (s : State) (g : ChainGroup) (f : ChainGroup → ChainGroup) : (State.modGroup s g f).ym = s.ym := rfl
@[simp] theorem modGroup_mode (s : State) (g : ChainGroup) (f : ChainGroup → ChainGroup) : (State.modGroup s g f).mode = s.mode := rfl
@[simp] theorem modGroup_radio (s : State) (g : ChainGroup) (f : ChainGroup → ChainGroup) : (State.modGroup s g f).radio = s.radio := rfl
@[simp] theorem modGroup_conv (s : State) (g : ChainGroup) (f : ChainGroup → ChainGroup) : (State.modGroup s g f).conv = s.conv := rfl
@[simp] theorem modGroup_ofdm (s : State) (g : ChainGroup) (f : ChainGroup → ChainGroup) : (State.modGroup s g f).ofdm = s.ofdm := rfl
@[simp] theorem modGroup_burst (s : State) (g : ChainGroup) (f : ChainGroup → ChainGroup) : (State.modGroup s g f).burst = s.burst := rfl
@[simp] theorem modGroup_quality (s : State) (g : ChainGroup) (f : ChainGroup → ChainGroup) : (State.modGroup s g f).quality = s.quality := rfl
@[simp] theorem modGroup_lin (s : State) (g : ChainGroup) (f : ChainGroup → ChainGroup) : (State.modGroup s g f).lin = s.lin := rfl
@[simp] theorem modGroup_cal (s : State) (g : ChainGroup) (f : ChainGroup → ChainGroup) : (State.modGroup s g f).cal = s.cal := rfl
@[simp] theorem modGroup_fh (s : State) (g : ChainGroup) (f : ChainGroup → ChainGroup) : (State.modGroup s g f).fh = s.fh := rfl
@[simp] theorem modGroup_time (s : State) (g : ChainGroup) (f : ChainGroup → ChainGroup) : (State.modGroup s g f).time = s.time := rfl
@[simp] theorem modGroup_clk (s : State) (g : ChainGroup) (f : ChainGroup → ChainGroup) : (State.modGroup s g f).clk = s.clk := rfl
@[simp] theorem modGroup_pwr (s : State) (g : ChainGroup) (f : ChainGroup → ChainGroup) : (State.modGroup s g f).pwr = s.pwr := rfl
@[simp] theorem modGroup_shu (s : State) (g : ChainGroup) (f : ChainGroup → ChainGroup) : (State.modGroup s g f).shu = s.shu := rfl
@[simp] theorem modGroup_sol (s : State) (g : ChainGroup) (f : ChainGroup → ChainGroup) : (State.modGroup s g f).sol = s.sol := rfl
@[simp] theorem modGroup_sup (s : State) (g : ChainGroup) (f : ChainGroup → ChainGroup) : (State.modGroup s g f).sup = s.sup := rfl
@[simp] theorem modGroup_mem (s : State) (g : ChainGroup) (f : ChainGroup → ChainGroup) : (State.modGroup s g f).mem = s.mem := rfl
@[simp] theorem modGroup_sec (s : State) (g : ChainGroup) (f : ChainGroup → ChainGroup) : (State.modGroup s g f).sec = s.sec := rfl
@[simp] theorem modGroup_tack (s : State) (g : ChainGroup) (f : ChainGroup → ChainGroup) : (State.modGroup s g f).tack = s.tack := rfl
@[simp] theorem modGroup_pkg (s : State) (g : ChainGroup) (f : ChainGroup → ChainGroup) : (State.modGroup s g f).pkg = s.pkg := rfl

-- State.modTb
@[simp] theorem modTb_pending (s : State) (d : Fin 2) (f : Tb → Tb) : (State.modTb s d f).pending = s.pending := rfl
@[simp] theorem modTb_out (s : State) (d : Fin 2) (f : Tb → Tb) : (State.modTb s d f).out = s.out := rfl
@[simp] theorem modTb_free (s : State) (d : Fin 2) (f : Tb → Tb) : (State.modTb s d f).free = s.free := rfl
@[simp] theorem modTb_dp (s : State) (d : Fin 2) (f : Tb → Tb) : (State.modTb s d f).dp = s.dp := rfl
@[simp] theorem modTb_host (s : State) (d : Fin 2) (f : Tb → Tb) : (State.modTb s d f).host = s.host := rfl
@[simp] theorem modTb_rc (s : State) (d : Fin 2) (f : Tb → Tb) : (State.modTb s d f).rc = s.rc := rfl
@[simp] theorem modTb_ym (s : State) (d : Fin 2) (f : Tb → Tb) : (State.modTb s d f).ym = s.ym := rfl
@[simp] theorem modTb_mode (s : State) (d : Fin 2) (f : Tb → Tb) : (State.modTb s d f).mode = s.mode := rfl
@[simp] theorem modTb_radio (s : State) (d : Fin 2) (f : Tb → Tb) : (State.modTb s d f).radio = s.radio := rfl
@[simp] theorem modTb_conv (s : State) (d : Fin 2) (f : Tb → Tb) : (State.modTb s d f).conv = s.conv := rfl
@[simp] theorem modTb_ofdm (s : State) (d : Fin 2) (f : Tb → Tb) : (State.modTb s d f).ofdm = s.ofdm := rfl
@[simp] theorem modTb_burst (s : State) (d : Fin 2) (f : Tb → Tb) : (State.modTb s d f).burst = s.burst := rfl
@[simp] theorem modTb_quality (s : State) (d : Fin 2) (f : Tb → Tb) : (State.modTb s d f).quality = s.quality := rfl
@[simp] theorem modTb_lin (s : State) (d : Fin 2) (f : Tb → Tb) : (State.modTb s d f).lin = s.lin := rfl
@[simp] theorem modTb_cal (s : State) (d : Fin 2) (f : Tb → Tb) : (State.modTb s d f).cal = s.cal := rfl
@[simp] theorem modTb_fh (s : State) (d : Fin 2) (f : Tb → Tb) : (State.modTb s d f).fh = s.fh := rfl
@[simp] theorem modTb_hit (s : State) (d : Fin 2) (f : Tb → Tb) : (State.modTb s d f).hit = s.hit := rfl
@[simp] theorem modTb_time (s : State) (d : Fin 2) (f : Tb → Tb) : (State.modTb s d f).time = { s.time with tb := vmod s.time.tb d f } := rfl
@[simp] theorem modTb_clk (s : State) (d : Fin 2) (f : Tb → Tb) : (State.modTb s d f).clk = s.clk := rfl
@[simp] theorem modTb_pwr (s : State) (d : Fin 2) (f : Tb → Tb) : (State.modTb s d f).pwr = s.pwr := rfl
@[simp] theorem modTb_shu (s : State) (d : Fin 2) (f : Tb → Tb) : (State.modTb s d f).shu = s.shu := rfl
@[simp] theorem modTb_sol (s : State) (d : Fin 2) (f : Tb → Tb) : (State.modTb s d f).sol = s.sol := rfl
@[simp] theorem modTb_sup (s : State) (d : Fin 2) (f : Tb → Tb) : (State.modTb s d f).sup = s.sup := rfl
@[simp] theorem modTb_mem (s : State) (d : Fin 2) (f : Tb → Tb) : (State.modTb s d f).mem = s.mem := rfl
@[simp] theorem modTb_sec (s : State) (d : Fin 2) (f : Tb → Tb) : (State.modTb s d f).sec = s.sec := rfl
@[simp] theorem modTb_tack (s : State) (d : Fin 2) (f : Tb → Tb) : (State.modTb s d f).tack = s.tack := rfl
@[simp] theorem modTb_pkg (s : State) (d : Fin 2) (f : Tb → Tb) : (State.modTb s d f).pkg = s.pkg := rfl

-- State.modClk
@[simp] theorem modClk_pending (s : State) (f : Clk → Clk) : (State.modClk s f).pending = s.pending := rfl
@[simp] theorem modClk_out (s : State) (f : Clk → Clk) : (State.modClk s f).out = s.out := rfl
@[simp] theorem modClk_free (s : State) (f : Clk → Clk) : (State.modClk s f).free = s.free := rfl
@[simp] theorem modClk_dp (s : State) (f : Clk → Clk) : (State.modClk s f).dp = s.dp := rfl
@[simp] theorem modClk_host (s : State) (f : Clk → Clk) : (State.modClk s f).host = s.host := rfl
@[simp] theorem modClk_rc (s : State) (f : Clk → Clk) : (State.modClk s f).rc = s.rc := rfl
@[simp] theorem modClk_ym (s : State) (f : Clk → Clk) : (State.modClk s f).ym = s.ym := rfl
@[simp] theorem modClk_mode (s : State) (f : Clk → Clk) : (State.modClk s f).mode = s.mode := rfl
@[simp] theorem modClk_radio (s : State) (f : Clk → Clk) : (State.modClk s f).radio = s.radio := rfl
@[simp] theorem modClk_conv (s : State) (f : Clk → Clk) : (State.modClk s f).conv = s.conv := rfl
@[simp] theorem modClk_ofdm (s : State) (f : Clk → Clk) : (State.modClk s f).ofdm = s.ofdm := rfl
@[simp] theorem modClk_burst (s : State) (f : Clk → Clk) : (State.modClk s f).burst = s.burst := rfl
@[simp] theorem modClk_quality (s : State) (f : Clk → Clk) : (State.modClk s f).quality = s.quality := rfl
@[simp] theorem modClk_lin (s : State) (f : Clk → Clk) : (State.modClk s f).lin = s.lin := rfl
@[simp] theorem modClk_cal (s : State) (f : Clk → Clk) : (State.modClk s f).cal = s.cal := rfl
@[simp] theorem modClk_fh (s : State) (f : Clk → Clk) : (State.modClk s f).fh = s.fh := rfl
@[simp] theorem modClk_hit (s : State) (f : Clk → Clk) : (State.modClk s f).hit = s.hit := rfl
@[simp] theorem modClk_time (s : State) (f : Clk → Clk) : (State.modClk s f).time = s.time := rfl
@[simp] theorem modClk_clk (s : State) (f : Clk → Clk) : (State.modClk s f).clk = f s.clk := rfl
@[simp] theorem modClk_pwr (s : State) (f : Clk → Clk) : (State.modClk s f).pwr = s.pwr := rfl
@[simp] theorem modClk_shu (s : State) (f : Clk → Clk) : (State.modClk s f).shu = s.shu := rfl
@[simp] theorem modClk_sol (s : State) (f : Clk → Clk) : (State.modClk s f).sol = s.sol := rfl
@[simp] theorem modClk_sup (s : State) (f : Clk → Clk) : (State.modClk s f).sup = s.sup := rfl
@[simp] theorem modClk_mem (s : State) (f : Clk → Clk) : (State.modClk s f).mem = s.mem := rfl
@[simp] theorem modClk_sec (s : State) (f : Clk → Clk) : (State.modClk s f).sec = s.sec := rfl
@[simp] theorem modClk_tack (s : State) (f : Clk → Clk) : (State.modClk s f).tack = s.tack := rfl
@[simp] theorem modClk_pkg (s : State) (f : Clk → Clk) : (State.modClk s f).pkg = s.pkg := rfl

-- State.setMon
@[simp] theorem setMon_pending (s : State) (i : Fin 11) (m : Mon) (n : Nat) : (State.setMon s i m n).pending = s.pending := rfl
@[simp] theorem setMon_out (s : State) (i : Fin 11) (m : Mon) (n : Nat) : (State.setMon s i m n).out = s.out := rfl
@[simp] theorem setMon_free (s : State) (i : Fin 11) (m : Mon) (n : Nat) : (State.setMon s i m n).free = s.free := rfl
@[simp] theorem setMon_dp (s : State) (i : Fin 11) (m : Mon) (n : Nat) : (State.setMon s i m n).dp = s.dp := rfl
@[simp] theorem setMon_host (s : State) (i : Fin 11) (m : Mon) (n : Nat) : (State.setMon s i m n).host = s.host := rfl
@[simp] theorem setMon_rc (s : State) (i : Fin 11) (m : Mon) (n : Nat) : (State.setMon s i m n).rc = s.rc := rfl
@[simp] theorem setMon_ym (s : State) (i : Fin 11) (m : Mon) (n : Nat) : (State.setMon s i m n).ym = s.ym := rfl
@[simp] theorem setMon_mode (s : State) (i : Fin 11) (m : Mon) (n : Nat) : (State.setMon s i m n).mode = s.mode := rfl
@[simp] theorem setMon_radio (s : State) (i : Fin 11) (m : Mon) (n : Nat) : (State.setMon s i m n).radio = s.radio := rfl
@[simp] theorem setMon_conv (s : State) (i : Fin 11) (m : Mon) (n : Nat) : (State.setMon s i m n).conv = s.conv := rfl
@[simp] theorem setMon_ofdm (s : State) (i : Fin 11) (m : Mon) (n : Nat) : (State.setMon s i m n).ofdm = s.ofdm := rfl
@[simp] theorem setMon_burst (s : State) (i : Fin 11) (m : Mon) (n : Nat) : (State.setMon s i m n).burst = s.burst := rfl
@[simp] theorem setMon_quality (s : State) (i : Fin 11) (m : Mon) (n : Nat) : (State.setMon s i m n).quality = s.quality := rfl
@[simp] theorem setMon_lin (s : State) (i : Fin 11) (m : Mon) (n : Nat) : (State.setMon s i m n).lin = s.lin := rfl
@[simp] theorem setMon_cal (s : State) (i : Fin 11) (m : Mon) (n : Nat) : (State.setMon s i m n).cal = s.cal := rfl
@[simp] theorem setMon_fh (s : State) (i : Fin 11) (m : Mon) (n : Nat) : (State.setMon s i m n).fh = s.fh := rfl
@[simp] theorem setMon_hit (s : State) (i : Fin 11) (m : Mon) (n : Nat) : (State.setMon s i m n).hit = s.hit := rfl
@[simp] theorem setMon_time (s : State) (i : Fin 11) (m : Mon) (n : Nat) : (State.setMon s i m n).time = s.time := rfl
@[simp] theorem setMon_pwr (s : State) (i : Fin 11) (m : Mon) (n : Nat) : (State.setMon s i m n).pwr = s.pwr := rfl
@[simp] theorem setMon_shu (s : State) (i : Fin 11) (m : Mon) (n : Nat) : (State.setMon s i m n).shu = s.shu := rfl
@[simp] theorem setMon_sol (s : State) (i : Fin 11) (m : Mon) (n : Nat) : (State.setMon s i m n).sol = s.sol := rfl
@[simp] theorem setMon_sup (s : State) (i : Fin 11) (m : Mon) (n : Nat) : (State.setMon s i m n).sup = s.sup := rfl
@[simp] theorem setMon_mem (s : State) (i : Fin 11) (m : Mon) (n : Nat) : (State.setMon s i m n).mem = s.mem := rfl
@[simp] theorem setMon_sec (s : State) (i : Fin 11) (m : Mon) (n : Nat) : (State.setMon s i m n).sec = s.sec := rfl
@[simp] theorem setMon_tack (s : State) (i : Fin 11) (m : Mon) (n : Nat) : (State.setMon s i m n).tack = s.tack := rfl
@[simp] theorem setMon_pkg (s : State) (i : Fin 11) (m : Mon) (n : Nat) : (State.setMon s i m n).pkg = s.pkg := rfl

-- State.modPkg
@[simp] theorem modPkg_pending (s : State) (f : Pkg → Pkg) : (State.modPkg s f).pending = s.pending := rfl
@[simp] theorem modPkg_out (s : State) (f : Pkg → Pkg) : (State.modPkg s f).out = s.out := rfl
@[simp] theorem modPkg_free (s : State) (f : Pkg → Pkg) : (State.modPkg s f).free = s.free := rfl
@[simp] theorem modPkg_dp (s : State) (f : Pkg → Pkg) : (State.modPkg s f).dp = s.dp := rfl
@[simp] theorem modPkg_host (s : State) (f : Pkg → Pkg) : (State.modPkg s f).host = s.host := rfl
@[simp] theorem modPkg_rc (s : State) (f : Pkg → Pkg) : (State.modPkg s f).rc = s.rc := rfl
@[simp] theorem modPkg_ym (s : State) (f : Pkg → Pkg) : (State.modPkg s f).ym = s.ym := rfl
@[simp] theorem modPkg_mode (s : State) (f : Pkg → Pkg) : (State.modPkg s f).mode = s.mode := rfl
@[simp] theorem modPkg_radio (s : State) (f : Pkg → Pkg) : (State.modPkg s f).radio = s.radio := rfl
@[simp] theorem modPkg_conv (s : State) (f : Pkg → Pkg) : (State.modPkg s f).conv = s.conv := rfl
@[simp] theorem modPkg_ofdm (s : State) (f : Pkg → Pkg) : (State.modPkg s f).ofdm = s.ofdm := rfl
@[simp] theorem modPkg_burst (s : State) (f : Pkg → Pkg) : (State.modPkg s f).burst = s.burst := rfl
@[simp] theorem modPkg_quality (s : State) (f : Pkg → Pkg) : (State.modPkg s f).quality = s.quality := rfl
@[simp] theorem modPkg_lin (s : State) (f : Pkg → Pkg) : (State.modPkg s f).lin = s.lin := rfl
@[simp] theorem modPkg_cal (s : State) (f : Pkg → Pkg) : (State.modPkg s f).cal = s.cal := rfl
@[simp] theorem modPkg_fh (s : State) (f : Pkg → Pkg) : (State.modPkg s f).fh = s.fh := rfl
@[simp] theorem modPkg_hit (s : State) (f : Pkg → Pkg) : (State.modPkg s f).hit = s.hit := rfl
@[simp] theorem modPkg_time (s : State) (f : Pkg → Pkg) : (State.modPkg s f).time = s.time := rfl
@[simp] theorem modPkg_clk (s : State) (f : Pkg → Pkg) : (State.modPkg s f).clk = s.clk := rfl
@[simp] theorem modPkg_pwr (s : State) (f : Pkg → Pkg) : (State.modPkg s f).pwr = s.pwr := rfl
@[simp] theorem modPkg_shu (s : State) (f : Pkg → Pkg) : (State.modPkg s f).shu = s.shu := rfl
@[simp] theorem modPkg_sol (s : State) (f : Pkg → Pkg) : (State.modPkg s f).sol = s.sol := rfl
@[simp] theorem modPkg_sup (s : State) (f : Pkg → Pkg) : (State.modPkg s f).sup = s.sup := rfl
@[simp] theorem modPkg_mem (s : State) (f : Pkg → Pkg) : (State.modPkg s f).mem = s.mem := rfl
@[simp] theorem modPkg_sec (s : State) (f : Pkg → Pkg) : (State.modPkg s f).sec = s.sec := rfl
@[simp] theorem modPkg_tack (s : State) (f : Pkg → Pkg) : (State.modPkg s f).tack = s.tack := rfl
@[simp] theorem modPkg_pkg (s : State) (f : Pkg → Pkg) : (State.modPkg s f).pkg = f s.pkg := rfl

-- State.modPwr
@[simp] theorem modPwr_pending (s : State) (f : Pwr → Pwr) : (State.modPwr s f).pending = s.pending := rfl
@[simp] theorem modPwr_out (s : State) (f : Pwr → Pwr) : (State.modPwr s f).out = s.out := rfl
@[simp] theorem modPwr_free (s : State) (f : Pwr → Pwr) : (State.modPwr s f).free = s.free := rfl
@[simp] theorem modPwr_dp (s : State) (f : Pwr → Pwr) : (State.modPwr s f).dp = s.dp := rfl
@[simp] theorem modPwr_host (s : State) (f : Pwr → Pwr) : (State.modPwr s f).host = s.host := rfl
@[simp] theorem modPwr_rc (s : State) (f : Pwr → Pwr) : (State.modPwr s f).rc = s.rc := rfl
@[simp] theorem modPwr_ym (s : State) (f : Pwr → Pwr) : (State.modPwr s f).ym = s.ym := rfl
@[simp] theorem modPwr_mode (s : State) (f : Pwr → Pwr) : (State.modPwr s f).mode = s.mode := rfl
@[simp] theorem modPwr_radio (s : State) (f : Pwr → Pwr) : (State.modPwr s f).radio = s.radio := rfl
@[simp] theorem modPwr_conv (s : State) (f : Pwr → Pwr) : (State.modPwr s f).conv = s.conv := rfl
@[simp] theorem modPwr_ofdm (s : State) (f : Pwr → Pwr) : (State.modPwr s f).ofdm = s.ofdm := rfl
@[simp] theorem modPwr_burst (s : State) (f : Pwr → Pwr) : (State.modPwr s f).burst = s.burst := rfl
@[simp] theorem modPwr_quality (s : State) (f : Pwr → Pwr) : (State.modPwr s f).quality = s.quality := rfl
@[simp] theorem modPwr_lin (s : State) (f : Pwr → Pwr) : (State.modPwr s f).lin = s.lin := rfl
@[simp] theorem modPwr_cal (s : State) (f : Pwr → Pwr) : (State.modPwr s f).cal = s.cal := rfl
@[simp] theorem modPwr_fh (s : State) (f : Pwr → Pwr) : (State.modPwr s f).fh = s.fh := rfl
@[simp] theorem modPwr_hit (s : State) (f : Pwr → Pwr) : (State.modPwr s f).hit = s.hit := rfl
@[simp] theorem modPwr_time (s : State) (f : Pwr → Pwr) : (State.modPwr s f).time = s.time := rfl
@[simp] theorem modPwr_clk (s : State) (f : Pwr → Pwr) : (State.modPwr s f).clk = s.clk := rfl
@[simp] theorem modPwr_pwr (s : State) (f : Pwr → Pwr) : (State.modPwr s f).pwr = f s.pwr := rfl
@[simp] theorem modPwr_shu (s : State) (f : Pwr → Pwr) : (State.modPwr s f).shu = s.shu := rfl
@[simp] theorem modPwr_sol (s : State) (f : Pwr → Pwr) : (State.modPwr s f).sol = s.sol := rfl
@[simp] theorem modPwr_sup (s : State) (f : Pwr → Pwr) : (State.modPwr s f).sup = s.sup := rfl
@[simp] theorem modPwr_mem (s : State) (f : Pwr → Pwr) : (State.modPwr s f).mem = s.mem := rfl
@[simp] theorem modPwr_sec (s : State) (f : Pwr → Pwr) : (State.modPwr s f).sec = s.sec := rfl
@[simp] theorem modPwr_tack (s : State) (f : Pwr → Pwr) : (State.modPwr s f).tack = s.tack := rfl
@[simp] theorem modPwr_pkg (s : State) (f : Pwr → Pwr) : (State.modPwr s f).pkg = s.pkg := rfl

-- State.modLane
@[simp] theorem modLane_pending (s : State) (l : Fin 2) (f : Lane → Lane) : (State.modLane s l f).pending = s.pending := rfl
@[simp] theorem modLane_out (s : State) (l : Fin 2) (f : Lane → Lane) : (State.modLane s l f).out = s.out := rfl
@[simp] theorem modLane_free (s : State) (l : Fin 2) (f : Lane → Lane) : (State.modLane s l f).free = s.free := rfl
@[simp] theorem modLane_dp (s : State) (l : Fin 2) (f : Lane → Lane) : (State.modLane s l f).dp = s.dp := rfl
@[simp] theorem modLane_host (s : State) (l : Fin 2) (f : Lane → Lane) : (State.modLane s l f).host = s.host := rfl
@[simp] theorem modLane_rc (s : State) (l : Fin 2) (f : Lane → Lane) : (State.modLane s l f).rc = s.rc := rfl
@[simp] theorem modLane_ym (s : State) (l : Fin 2) (f : Lane → Lane) : (State.modLane s l f).ym = s.ym := rfl
@[simp] theorem modLane_mode (s : State) (l : Fin 2) (f : Lane → Lane) : (State.modLane s l f).mode = s.mode := rfl
@[simp] theorem modLane_radio (s : State) (l : Fin 2) (f : Lane → Lane) : (State.modLane s l f).radio = s.radio := rfl
@[simp] theorem modLane_conv (s : State) (l : Fin 2) (f : Lane → Lane) : (State.modLane s l f).conv = s.conv := rfl
@[simp] theorem modLane_ofdm (s : State) (l : Fin 2) (f : Lane → Lane) : (State.modLane s l f).ofdm = s.ofdm := rfl
@[simp] theorem modLane_burst (s : State) (l : Fin 2) (f : Lane → Lane) : (State.modLane s l f).burst = { s.burst with lanes := vmod s.burst.lanes l f } := rfl
@[simp] theorem modLane_quality (s : State) (l : Fin 2) (f : Lane → Lane) : (State.modLane s l f).quality = s.quality := rfl
@[simp] theorem modLane_lin (s : State) (l : Fin 2) (f : Lane → Lane) : (State.modLane s l f).lin = s.lin := rfl
@[simp] theorem modLane_cal (s : State) (l : Fin 2) (f : Lane → Lane) : (State.modLane s l f).cal = s.cal := rfl
@[simp] theorem modLane_fh (s : State) (l : Fin 2) (f : Lane → Lane) : (State.modLane s l f).fh = s.fh := rfl
@[simp] theorem modLane_hit (s : State) (l : Fin 2) (f : Lane → Lane) : (State.modLane s l f).hit = s.hit := rfl
@[simp] theorem modLane_time (s : State) (l : Fin 2) (f : Lane → Lane) : (State.modLane s l f).time = s.time := rfl
@[simp] theorem modLane_clk (s : State) (l : Fin 2) (f : Lane → Lane) : (State.modLane s l f).clk = s.clk := rfl
@[simp] theorem modLane_pwr (s : State) (l : Fin 2) (f : Lane → Lane) : (State.modLane s l f).pwr = s.pwr := rfl
@[simp] theorem modLane_shu (s : State) (l : Fin 2) (f : Lane → Lane) : (State.modLane s l f).shu = s.shu := rfl
@[simp] theorem modLane_sol (s : State) (l : Fin 2) (f : Lane → Lane) : (State.modLane s l f).sol = s.sol := rfl
@[simp] theorem modLane_sup (s : State) (l : Fin 2) (f : Lane → Lane) : (State.modLane s l f).sup = s.sup := rfl
@[simp] theorem modLane_mem (s : State) (l : Fin 2) (f : Lane → Lane) : (State.modLane s l f).mem = s.mem := rfl
@[simp] theorem modLane_sec (s : State) (l : Fin 2) (f : Lane → Lane) : (State.modLane s l f).sec = s.sec := rfl
@[simp] theorem modLane_tack (s : State) (l : Fin 2) (f : Lane → Lane) : (State.modLane s l f).tack = s.tack := rfl
@[simp] theorem modLane_pkg (s : State) (l : Fin 2) (f : Lane → Lane) : (State.modLane s l f).pkg = s.pkg := rfl

-- State.modBurst
@[simp] theorem modBurst_pending (s : State) (f : BurstCount → BurstCount) : (State.modBurst s f).pending = s.pending := rfl
@[simp] theorem modBurst_out (s : State) (f : BurstCount → BurstCount) : (State.modBurst s f).out = s.out := rfl
@[simp] theorem modBurst_free (s : State) (f : BurstCount → BurstCount) : (State.modBurst s f).free = s.free := rfl
@[simp] theorem modBurst_dp (s : State) (f : BurstCount → BurstCount) : (State.modBurst s f).dp = s.dp := rfl
@[simp] theorem modBurst_host (s : State) (f : BurstCount → BurstCount) : (State.modBurst s f).host = s.host := rfl
@[simp] theorem modBurst_rc (s : State) (f : BurstCount → BurstCount) : (State.modBurst s f).rc = s.rc := rfl
@[simp] theorem modBurst_ym (s : State) (f : BurstCount → BurstCount) : (State.modBurst s f).ym = s.ym := rfl
@[simp] theorem modBurst_mode (s : State) (f : BurstCount → BurstCount) : (State.modBurst s f).mode = s.mode := rfl
@[simp] theorem modBurst_radio (s : State) (f : BurstCount → BurstCount) : (State.modBurst s f).radio = s.radio := rfl
@[simp] theorem modBurst_conv (s : State) (f : BurstCount → BurstCount) : (State.modBurst s f).conv = s.conv := rfl
@[simp] theorem modBurst_ofdm (s : State) (f : BurstCount → BurstCount) : (State.modBurst s f).ofdm = s.ofdm := rfl
@[simp] theorem modBurst_burst (s : State) (f : BurstCount → BurstCount) : (State.modBurst s f).burst = { s.burst with count := f s.burst.count } := rfl
@[simp] theorem modBurst_quality (s : State) (f : BurstCount → BurstCount) : (State.modBurst s f).quality = s.quality := rfl
@[simp] theorem modBurst_lin (s : State) (f : BurstCount → BurstCount) : (State.modBurst s f).lin = s.lin := rfl
@[simp] theorem modBurst_cal (s : State) (f : BurstCount → BurstCount) : (State.modBurst s f).cal = s.cal := rfl
@[simp] theorem modBurst_fh (s : State) (f : BurstCount → BurstCount) : (State.modBurst s f).fh = s.fh := rfl
@[simp] theorem modBurst_hit (s : State) (f : BurstCount → BurstCount) : (State.modBurst s f).hit = s.hit := rfl
@[simp] theorem modBurst_time (s : State) (f : BurstCount → BurstCount) : (State.modBurst s f).time = s.time := rfl
@[simp] theorem modBurst_clk (s : State) (f : BurstCount → BurstCount) : (State.modBurst s f).clk = s.clk := rfl
@[simp] theorem modBurst_pwr (s : State) (f : BurstCount → BurstCount) : (State.modBurst s f).pwr = s.pwr := rfl
@[simp] theorem modBurst_shu (s : State) (f : BurstCount → BurstCount) : (State.modBurst s f).shu = s.shu := rfl
@[simp] theorem modBurst_sol (s : State) (f : BurstCount → BurstCount) : (State.modBurst s f).sol = s.sol := rfl
@[simp] theorem modBurst_sup (s : State) (f : BurstCount → BurstCount) : (State.modBurst s f).sup = s.sup := rfl
@[simp] theorem modBurst_mem (s : State) (f : BurstCount → BurstCount) : (State.modBurst s f).mem = s.mem := rfl
@[simp] theorem modBurst_sec (s : State) (f : BurstCount → BurstCount) : (State.modBurst s f).sec = s.sec := rfl
@[simp] theorem modBurst_tack (s : State) (f : BurstCount → BurstCount) : (State.modBurst s f).tack = s.tack := rfl
@[simp] theorem modBurst_pkg (s : State) (f : BurstCount → BurstCount) : (State.modBurst s f).pkg = s.pkg := rfl

-- State.modChan
@[simp] theorem modChan_pending (s : State) (i : Fin 16) (f : ShuChan → ShuChan) : (State.modChan s i f).pending = s.pending := rfl
@[simp] theorem modChan_out (s : State) (i : Fin 16) (f : ShuChan → ShuChan) : (State.modChan s i f).out = s.out := rfl
@[simp] theorem modChan_free (s : State) (i : Fin 16) (f : ShuChan → ShuChan) : (State.modChan s i f).free = s.free := rfl
@[simp] theorem modChan_dp (s : State) (i : Fin 16) (f : ShuChan → ShuChan) : (State.modChan s i f).dp = s.dp := rfl
@[simp] theorem modChan_host (s : State) (i : Fin 16) (f : ShuChan → ShuChan) : (State.modChan s i f).host = s.host := rfl
@[simp] theorem modChan_rc (s : State) (i : Fin 16) (f : ShuChan → ShuChan) : (State.modChan s i f).rc = s.rc := rfl
@[simp] theorem modChan_ym (s : State) (i : Fin 16) (f : ShuChan → ShuChan) : (State.modChan s i f).ym = s.ym := rfl
@[simp] theorem modChan_mode (s : State) (i : Fin 16) (f : ShuChan → ShuChan) : (State.modChan s i f).mode = s.mode := rfl
@[simp] theorem modChan_radio (s : State) (i : Fin 16) (f : ShuChan → ShuChan) : (State.modChan s i f).radio = s.radio := rfl
@[simp] theorem modChan_conv (s : State) (i : Fin 16) (f : ShuChan → ShuChan) : (State.modChan s i f).conv = s.conv := rfl
@[simp] theorem modChan_ofdm (s : State) (i : Fin 16) (f : ShuChan → ShuChan) : (State.modChan s i f).ofdm = s.ofdm := rfl
@[simp] theorem modChan_burst (s : State) (i : Fin 16) (f : ShuChan → ShuChan) : (State.modChan s i f).burst = s.burst := rfl
@[simp] theorem modChan_quality (s : State) (i : Fin 16) (f : ShuChan → ShuChan) : (State.modChan s i f).quality = s.quality := rfl
@[simp] theorem modChan_lin (s : State) (i : Fin 16) (f : ShuChan → ShuChan) : (State.modChan s i f).lin = s.lin := rfl
@[simp] theorem modChan_cal (s : State) (i : Fin 16) (f : ShuChan → ShuChan) : (State.modChan s i f).cal = s.cal := rfl
@[simp] theorem modChan_fh (s : State) (i : Fin 16) (f : ShuChan → ShuChan) : (State.modChan s i f).fh = s.fh := rfl
@[simp] theorem modChan_hit (s : State) (i : Fin 16) (f : ShuChan → ShuChan) : (State.modChan s i f).hit = s.hit := rfl
@[simp] theorem modChan_time (s : State) (i : Fin 16) (f : ShuChan → ShuChan) : (State.modChan s i f).time = s.time := rfl
@[simp] theorem modChan_clk (s : State) (i : Fin 16) (f : ShuChan → ShuChan) : (State.modChan s i f).clk = s.clk := rfl
@[simp] theorem modChan_pwr (s : State) (i : Fin 16) (f : ShuChan → ShuChan) : (State.modChan s i f).pwr = s.pwr := rfl
@[simp] theorem modChan_sol (s : State) (i : Fin 16) (f : ShuChan → ShuChan) : (State.modChan s i f).sol = s.sol := rfl
@[simp] theorem modChan_sup (s : State) (i : Fin 16) (f : ShuChan → ShuChan) : (State.modChan s i f).sup = s.sup := rfl
@[simp] theorem modChan_mem (s : State) (i : Fin 16) (f : ShuChan → ShuChan) : (State.modChan s i f).mem = s.mem := rfl
@[simp] theorem modChan_sec (s : State) (i : Fin 16) (f : ShuChan → ShuChan) : (State.modChan s i f).sec = s.sec := rfl
@[simp] theorem modChan_tack (s : State) (i : Fin 16) (f : ShuChan → ShuChan) : (State.modChan s i f).tack = s.tack := rfl
@[simp] theorem modChan_pkg (s : State) (i : Fin 16) (f : ShuChan → ShuChan) : (State.modChan s i f).pkg = s.pkg := rfl

end Sys2Proof.Machine
end

