-- ==== Sys2Proof/Machine/Pins.lean ====
section
/-! DEFINITION. The balls of the package (R566, R567) and what each of them presents (R577). -/

namespace Sys2Proof.Machine

/-- What a ball carries (Tables 21-2 and 21-3). -/
inductive Ball where
  | tx (p : Fin 64)
  | obs (p : Fin 64)
  | rx (p : Fin 64)
  | ps (p : Fin 64)
  | hb (p : Fin 64)
  | det (i : Fin 16)
  | th (i : Fin 8) (pos : Bool)
  | ax (i : Fin 16)
  /-- A serial lane's transmitter or receiver, and which side of the pair. -/
  | lane (l : Fin 32) (txSide pos : Bool)
  | pcie (i : Fin 4) (txSide pos : Bool)
  | refclk (pos : Bool)
  | xo (pos : Bool)
  | wakeIn (i : Fin 4)
  | hkTrig (i : Fin 2)
  | ppsIn | ppsOut
  | xoSel (i : Fin 2)
  | perst | faultN | clkreq | testEn | tck | tms | tdi | tdo | trst
  | vin | gnd | reserved
  deriving DecidableEq, Repr

/-- The signals of row 34 from column 22 on (Table 21-3). -/
def controlRow : List Ball :=
  [.wakeIn 0, .wakeIn 1, .wakeIn 2, .wakeIn 3, .hkTrig 0, .hkTrig 1, .ppsIn, .ppsOut, .xoSel 0, .xoSel 1, .perst, .faultN, .clkreq, .testEn,
   .tck, .tms, .tdi, .tdo, .trst]

/-- A signal with an index, at a ball whose index lies in range. -/
def ballIdx (n : Nat) [NeZero n] (i : Nat) (f : Fin n → Ball) : Ball := if i < n then f (Fin.ofNat n i) else .gnd

/-- The signals of a path's edge (Table 21-2), by the row counted from that edge. -/
def edgeBall (depth : Nat) (p : Fin 64) : Ball :=
  match depth with
  | 1 => .tx p | 3 => .obs p | 5 => .rx p | 8 => .ps p | 9 => .hb p | _ => .gnd

/-- One side of a differential pair at a place counted from the package's edge: transmitter, GND, receiver. -/
def pairBall (f : Bool → Bool → Ball) (k : Nat) : Ball :=
  match k with | 0 => f true true | 1 => f true false | 3 => f false true | 4 => f false false | _ => .gnd

/-- The signal of the ball at a row and column (R566); every ball that the tables do not name is GND. -/
def ballAt (row col : Nat) : Ball :=
  if 6 ≤ col ∧ col ≤ 37 ∧ row ≤ 9 then edgeBall row (Fin.ofNat 64 (col - 6))
  else if 6 ≤ col ∧ col ≤ 37 ∧ 35 ≤ row then edgeBall (44 - row) (Fin.ofNat 64 (32 + (col - 6)))
  else if row = 10 ∧ 6 ≤ col ∧ col ≤ 21 then ballIdx 16 (col - 6) .det
  else if row = 10 ∧ 22 ≤ col ∧ col ≤ 37 then ballIdx 8 ((col - 22) / 2) fun i => .th i (col % 2 == 0)
  else if row = 11 ∧ 6 ≤ col ∧ col ≤ 31 then .reserved
  else if 12 ≤ row ∧ row ≤ 27 ∧ 39 ≤ col then pairBall (fun t p => ballIdx 32 (row - 12) fun l => .lane l t p) (col - 39)
  else if 12 ≤ row ∧ row ≤ 27 ∧ 1 ≤ col ∧ col ≤ 5 then pairBall (fun t p => ballIdx 32 (row + 4) fun l => .lane l t p) (5 - col)
  else if 29 ≤ row ∧ row ≤ 32 ∧ 1 ≤ col ∧ col ≤ 5 then pairBall (fun t p => ballIdx 4 (row - 29) fun i => .pcie i t p) (5 - col)
  else if row = 33 then (match col with | 1 => .refclk false | 2 => .refclk true | 4 => .xo false | 5 => .xo true | _ => .gnd)
  else if row = 34 ∧ 6 ≤ col ∧ col ≤ 21 then ballIdx 16 (col - 6) .ax
  else if row = 34 ∧ 22 ≤ col ∧ col ≤ 40 then (controlRow[col - 22]?).getD .gnd
  else if 18 ≤ row ∧ row ≤ 25 ∧ 16 ≤ col ∧ col ≤ 27 then .vin
  else .gnd

/-- What a ball presents (Table 21-12). -/
inductive PinState where
  | highZ
  /-- 50 Ω: passive or terminated, and no signal driven. -/
  | term
  /-- A TX ball whose driver carries the chain's signal; an RX or OBS input. -/
  | rf
  /-- A halter output's current: range and code. -/
  | current (range : BitVec 2) (code : BitVec 16)
  /-- A rein output's modulator at a mean duty. -/
  | duty (code : BitVec 16)
  | low | high
  /-- An open-drain output that is not driven. -/
  | released
  | input | pullDown | pullUp
  /-- A serial lane in electrical idle, or in use; the PCI Express lanes as the link has them. -/
  | idle | serial | link
  /-- An output that boundary scan drives (R569). -/
  | scan
  /-- What a reserved or supply ball gives is no signal. -/
  | none_
  deriving DecidableEq, Repr

/-- A lane is driven: a port that is not DISABLED uses it, and the state keeps that port (R315, R397, R575). -/
def State.laneDriven (s : State) (l : Fin 32) : Bool :=
  (List.finRange 8).any fun n =>
    s.fh.ports[n].hasLane (BitVec.ofFin l) &&
    !(s.pwr.st == .deep || s.pwr.st == .off || (s.pwr.st == .nap && !s.pwr.wakeCfg.getLsbD (16 + n.val)))

/-- What a ball presents outside board-test mode's boundary scan (R104, R510, R514, R570, R577): a brown-out takes the powered device to the
column of VIN absent. -/
def State.pinState (s : State) (b : Ball) : PinState :=
  match b with
  | .tx p => if s.pwr.vin && s.dacOn p then .rf else .term
  | .rx p => if s.pwr.vin && !s.rxBlanked p && (s.radio.paths[p].st == .rx) then .rf else .term
  | .obs p => if s.pwr.vin && (s.radio.paths[p].st == .tx || s.radio.paths[p].st == .obs) then .rf else .term
  | .ps _ | .det _ | .th _ _ => .highZ
  | .hb p => if s.pwr.vin then (let o := s.sup.out[hbOf p]; .current o.range o.now) else .highZ
  | .ax i => if !s.pwr.vin then .highZ else if s.reinDuty i = 0 then .low else .duty (s.reinDuty i)
  | .lane l t _ => if !s.pwr.vin then .highZ else if !s.laneDriven l then (if t then .idle else .input) else .serial
  | .pcie _ _ _ => if s.pwr.vin then .link else .highZ
  | .wakeIn _ | .hkTrig _ | .ppsIn | .testEn | .tck | .trst => if s.pwr.vin then .pullDown else .highZ
  | .tms | .tdi => if s.pwr.vin then .pullUp else .highZ
  | .xoSel _ | .xo _ | .refclk _ | .perst => if s.pwr.vin then .input else .highZ
  | .ppsOut => if !s.pwr.vin then .highZ else if s.time.ppsOut then .high else .low
  | .tdo => if !s.pwr.vin then .highZ else match s.pkg.tdo with | some true => .high | some false => .low | none => .highZ
  | .faultN => if !s.pwr.vin then .highZ else if s.pkg.faultN then .low else .released
  | .clkreq => if s.pwr.vin && s.pkg.clkreqLow then .low else .released
  | .vin | .gnd | .reserved => .none_

/-- CMOS balls, which boundary scan covers (Table 21-4). -/
def Ball.cmos (b : Ball) : Bool :=
  match b with | .ax _ | .wakeIn _ | .hkTrig _ | .ppsIn | .ppsOut | .xoSel _ | .faultN => true | _ => false

/-- What a ball presents: in board-test mode EXTEST takes the CMOS outputs, and EXTEST_PULSE and EXTEST_TRAIN the lanes (R569, R577). -/
def State.ballState (s : State) (b : Ball) : PinState :=
  let out : Bool := match b with | .ax _ | .ppsOut | .faultN => true | _ => false
  let pair : Bool := match b with | .lane _ t _ | .pcie _ t _ => t | _ => false
  if s.pwr.vin && s.pkg.testMode && ((s.pkg.tapInstr == .extest && out && b.cmos) || ((s.pkg.tapInstr == .extestPulse || s.pkg.tapInstr == .extestTrain) && pair))
  then .scan else s.pinState b

end Sys2Proof.Machine
end

