-- ==== Sys2Proof/Tests/Slice0.lean ====
section
/-! SUPPORT. Tests: ill-formed commands are refused; each clause of a statement that has hypotheses has a state and operands that meet them; a few commands
are run for one step on small states. Expected values come from the manual's tables and equations. -/

namespace Sys2Proof.Tests

open Sys2Proof Sys2Proof.Machine Sys2Proof.Claims

-- One theorem at a time: each thread of the elaborator reserves a stack, and together they pass the check's memory limit.
set_option Elab.async false

/-- A payload of fields (byte, bit, value). -/
def pay (l : List (Nat × Nat × Nat)) : BitVec 320 := BitVec.ofNat 320 (l.foldl (fun a f => a + f.2.2 * 2 ^ (8 * f.1 + f.2.1)) 0)

/-- A started slot of opcode `op`, the flag bits `fl` of byte 1 and options `opt` of byte 4, with its time and payload. -/
def slotOf (op : Nat) (p : List (Nat × Nat × Nat)) (fl : Nat := 0) (at_ : Nat := 0) (opt : Nat := 0) : Slot :=
  { seq := 0, index := 0, payload := pay p, stage := .started, cplErr := false
    entry := BitVec.ofNat 512 (op + fl * 2 ^ 8 + 7 * 2 ^ 16 + opt * 2 ^ 32 + at_ * 2 ^ 64 + (pay p).toNat * 2 ^ 192) }

/-- The device in ACTIVE after its power-up, air time RELEASED, in a mode. -/
def live (m : Mode := .full) : State :=
  { State.reset with
    dp := 20000000
    pwr := { Pwr.reset with vin := true, st := .active, target := .active, bootStage := 6, rails := 0x1FF, memReady := true }
    ym := { Ym.reset with air := .released, now := 9830400 }
    mode := { ModeCtl.reset with cur := m }
    tack := { Tack.reset with read := true } }

/-- A command of ring 0 with that slot. -/
def put (s : State) (x : Slot) : State :=
  { s with host := { s.host with rings := vmod s.host.rings 0 fun r => { r with st := .running, head := 1, tail := 1, nextSeq := 1, slots := [x] } } }

/-- The command of the slot; `d` is what host memory answers. -/
def cmd (d : Option Bytes := none) : Cmd := { ring := 0, seq := 0, data := d, respErr := false }


-- Ill-formed commands are refused

/-- A failure that a march reports. -/
def failAt (b : Nat) : MarchFail := { bank := b, row := 0, words := 1, bits := [] }

theorem smoke_registers : Instr.wellFormed (.registerWrite 0x0806 0) = false ∧ Instr.wellFormed (.registerWrite 0x0808 0) = true := by decide
theorem smoke_powerup_memory : Instr.wellFormed (.powerupMemoryReady [failAt 417]) = false ∧ Instr.wellFormed (.powerupMemoryReady [failAt 416]) = true := by decide
theorem smoke_tack_boot : Instr.wellFormed (.tackStoreBootRead [1925]) = false ∧ Instr.wellFormed (.tackStoreBootRead [1924]) = true := by decide
/-- One sample of a path. -/
def adcOne (p : Nat) (v : Int) : List AdcIn := [{ path := p, first := 0, vals := [(v, 0)] }]
theorem smoke_adc : ([fun r => Instr.channelBookPublish 0 r, fun r => .ulEgress 0 0 r, fun r => .ulPsumSend 0 0 r, fun r => .burstDetection 0 r, fun r => .syncHypothesisFail 0 r,
    fun r => .syncAccepted 0 r, fun r => .decoderStop 0 r, fun r => .noiseFloorBlock 0 0 r].all fun f =>
    !(f (adcOne 64 0)).wellFormed && !(f (adcOne 0 8192)).wellFormed && !(f (adcOne 0 (-8193))).wellFormed && (f (adcOne 63 (-8192))).wellFormed) = true := by decide
theorem smoke_solver_fault : Instr.wellFormed (.solverFault 0 0) = false ∧ Instr.wellFormed (.solverFault 0 8) = false ∧ Instr.wellFormed (.solverFault 0 7) = true := by decide
theorem smoke_move : Instr.wellFormed (.shuMove 0 (some [0, 0, 0]) none false false) = false ∧ Instr.wellFormed (.shuMove 0 (some [0, 0, 0, 0]) none false false) = true := by decide
theorem smoke_words : ([Instr.shuLoop, .shuWaitAtAbs, .shuWaitAtRel, .shuWaitFlag, .shuWaitDoorbell, .signalEvent, .signalMsix, .signalSetFlag, .signalClearFlag].all fun f =>
    !(f 0 (some [])).wellFormed && !(f 0 (some [0, 0])).wellFormed && (f 0 (some [0])).wellFormed && (f 0 none).wellFormed) = true := by decide
theorem smoke_capture : Instr.wellFormed (.shuCaptureComplete 47 []) = false ∧ Instr.wellFormed (.shuCaptureComplete 64 []) = false ∧ Instr.wellFormed (.shuCaptureComplete 63 []) = true := by decide
theorem smoke_conversion : Instr.wellFormed (.hkConversionEnd 0 (-2049)) = false ∧ Instr.wellFormed (.hkConversionEnd 0 4096) = false ∧ Instr.wellFormed (.hkConversionEnd 0 (-2048)) = true := by decide
theorem smoke_observed : Instr.wellFormed (.dpdCaptureEnd 0 [(8192, 0)]) = false ∧ Instr.wellFormed (.dpdCaptureEnd 0 [(8191, -8192)]) = true := by decide
theorem smoke_subjects : ([fun a b c => Instr.backgroundCalDecision a b c 0, fun a b c => .calibrationComplete a b c true [], Instr.calStepBoundary, Instr.partialResultExpiry].all fun f =>
    !(f 0 1 0).wellFormed && !(f 12 1 0).wellFormed && !(f 1 1 64).wellFormed && !(f 1 2 8).wellFormed && !(f 1 3 16).wellFormed && !(f 1 4 0).wellFormed && !(f 1 9 1).wellFormed
    && (f 11 1 63).wellFormed && (f 1 2 7).wellFormed && (f 1 3 15).wellFormed && (f 1 9 0).wellFormed) = true := by decide
theorem smoke_banks : Instr.wellFormed (.memUncorr 417 0 0 none) = false ∧ Instr.wellFormed (.memCorrected 417 0) = false ∧ Instr.wellFormed (.patrolScrub [(417, 0)]) = false
    ∧ Instr.wellFormed (.memUncorr 416 0 0 none) = true ∧ Instr.wellFormed (.memCorrected 416 0) = true ∧ Instr.wellFormed (.patrolScrub [(416, 0)]) = true := by decide
theorem smoke_bank_end : Instr.wellFormed (.marchBankEnd 0 0 417 []) = false ∧ Instr.wellFormed (.marchBankEnd 0 0 3 [failAt 4]) = false ∧ Instr.wellFormed (.marchBankEnd 0 0 3 [failAt 3]) = true := by decide
theorem smoke_lbist : Instr.wellFormed (.lbistEnd 0 1 0 false) = false ∧ Instr.wellFormed (.lbistEnd 1 64 0 false) = false ∧ Instr.wellFormed (.lbistEnd 2 9 0 false) = false
    ∧ Instr.wellFormed (.lbistEnd 3 8 0 false) = false ∧ Instr.wellFormed (.lbistEnd 4 0 0 false) = false ∧ Instr.wellFormed (.lbistEnd 2 8 0 false) = true := by decide

-- Witnesses: solver instructions

/-- A weight job of user kernel 1. -/
def wjob : Job := { kind := .weight 0 false 0 0 [(0, 0)] true 0, deadline := 0, budget := 100, kernel := 1 }

/-- Core 0 issues in a context whose bank is `b`: in the foreground the word `w`, the first of kernel 1. -/
def issuing (bg : Bool) (b : Bank) (w : BitVec 32 := 0) : State :=
  let s := (live).modCore 0 fun m => if bg then { m with bgJob := some wjob, bgOn := true, bg := b } else { m with fgJob := some wjob, fg := { b with pc := 0x2000 } }
  { s with sol := { s.sol with k1 := { Kernel.empty with loaded := true, code := [w] } } }

/-- The word of CLASS and OP with the other bits `w`. -/
def word (o : IsaOp) (w : BitVec 32 := 0) : BitVec 32 := BitVec.ofNat 32 (o.cls * 2 ^ 28 + o.op * 2 ^ 24) ||| w

/-- The encodings that the statements on the solver name. -/
def encodings : List IsaOp :=
  (List.range 13).map (fun n => { cls := 1, op := n, zero := 0x008421FF }) ++ (List.range 4).map (fun n => { cls := 2, op := n, zero := 0x00870000 })
  ++ [{ cls := 4, op := 0, zero := 0x00843FFF }, { cls := 4, op := 1, zero := 0x00843FFF }, { cls := 4, op := 2, zero := 0x00843FFF },
      { cls := 4, op := 3, zero := 0x00843FFF }, { cls := 4, op := 4, zero := 0x00FC3FFF }, { cls := 4, op := 5, zero := 0x00803FFF },
      { cls := 4, op := 6, zero := 0x00843FFF }, { cls := 3, op := 0, zero := 0x0080007F }, { cls := 3, op := 1, zero := 0x0080007F },
      { cls := 5, op := 2, zero := 0x7F, vs := [19], rep := true }, { cls := 5, op := 0, zero := 0x7F, vs := [19], rep := true },
      { cls := 5, op := 1, zero := 0x7F, vs := [19], rep := true }, { cls := 5, op := 3, zero := 0x7F, vs := [19], rep := true }]
  ++ [{ cls := 6, op := 0, zero := 0x00E0003F, vs := [14, 9], rep := true }, { cls := 6, op := 1, zero := 0x00E0003F, vs := [14, 9], rep := true },
      { cls := 6, op := 2, zero := 0x00E00020, vs := [14, 9], rep := true }, { cls := 6, op := 3, zero := 0x00E00020, vs := [14, 9], rep := true },
      { cls := 6, op := 4, zero := 0x00E0203F, vs := [14], rep := true }, { cls := 6, op := 5, zero := 0x00E0203F, vs := [14], rep := true },
      { cls := 7, op := 0, zero := 0x00073FC0, vs := [19], rep := true }, { cls := 7, op := 1, zero := 0x000721FF, vs := [19], rep := true },
      { cls := 7, op := 3, zero := 0x00E73FFF, rep := true }, { cls := 7, op := 5, zero := 0x008721C0 }, { cls := 7, op := 2, zero := 0x00E7FFFF, rep := true },
      { cls := 7, op := 4, zero := 0x00E03FC0, vs := [14], rep := true }]
  ++ [{ cls := 8, op := 0, zero := 0x1FF, vs := [19, 14, 9], rep := true }, { cls := 8, op := 1, zero := 0x1FF, vs := [19, 14, 9], rep := true },
      { cls := 8, op := 2, zero := 0x3FFF, vs := [19, 14], rep := true }, { cls := 8, op := 3, zero := 0x3FFF, vs := [19, 14], rep := true },
      { cls := 8, op := 4, zero := 0x1FF, vs := [19, 14, 9], rep := true }, { cls := 8, op := 5, zero := 0x1FF, vs := [19, 14, 9], rep := true },
      { cls := 8, op := 6, zero := 0x00043FFF, vs := [19], rep := true }, { cls := 8, op := 7, zero := 0x00043FE0, vs := [19], rep := true },
      { cls := 8, op := 8, zero := 0x00803FE0, vs := [14], rep := true }, { cls := 8, op := 9, zero := 0x3FF0, vs := [19, 14], rep := true }]
  ++ [{ cls := 0, op := 0, zero := 0x00FFFFFF }, { cls := 0, op := 1, zero := 0 }, { cls := 0, op := 2, zero := 0x00FFC000 }, { cls := 0, op := 3, zero := 0x00FFFFFF },
      { cls := 0, op := 4, zero := 0 }, { cls := 0, op := 5, zero := 0x00FFFFFF }, { cls := 0, op := 6, zero := 0x00FFFF00 }, { cls := 9, op := 0, zero := 0x00843FFF },
      { cls := 9, op := 1, zero := 0x00843FFF }, { cls := 9, op := 2, zero := 0x00843FFF }, { cls := 10, op := 0, zero := 0 }]

/-- All unreserved fields ones, but for the high bit of V registers. -/
def ones (o : IsaOp) : BitVec 32 := word o (0x00FFFFFF &&& ~~~o.zero &&& ~~~(o.vs.foldl (fun a v => a ||| ((16 : BitVec 32) <<< v)) 0))

/-- In the foreground every encoding issues, but the transfer, which only vendor kernels hold; in the background each, with the high bit of V registers. -/
theorem wit_issue : ∀ o ∈ encodings.filter fun o => o.cls != 10, Issue (issuing false Bank.reset (ones o)) 0 false (ones o) o := by
  unfold Issue; decide +kernel
theorem wit_issue_bg : ∀ o ∈ encodings, Issue (issuing true Bank.reset) 0 true (word o (o.vs.foldl (fun a v => a ||| ((16 : BitVec 32) <<< v)) 0)) o := by
  unfold Issue; decide +kernel
theorem wit_no_hazard : ∀ w, NoHazard (issuing false Bank.reset) 0 false w := by intro w; exact ⟨nofun, nofun⟩
theorem wit_hazard : let w := word { cls := 7, op := 0, zero := 0 }
    ¬ NoHazard (issuing false { Bank.reset with wr2 := some 0 } w) 0 false w
    ∧ Issue (issuing false { Bank.reset with wr2 := some 0 } w) 0 false w { cls := 7, op := 0, zero := 0x00073FC0, vs := [19], rep := true } := by
  unfold NoHazard Issue; decide +kernel

/-- Accesses at the last place of each region, with an update of Xn that wraps (R477, R479). -/
theorem wit_access : ∀ bg, let a : BitVec 18 := if bg then 0x3FFFC else 0x1FFFC
    inRegion bg a.toNat 4 = true ∧ a.toNat % 4 = 0 ∧ inRegion bg (a - 124).toNat 128 = true ∧ xNext 0x3FFFC 0 4 = some 0 := by decide +kernel
theorem wit_access_fault : inRegion false 0x1FFFD 4 = false ∧ inRegion false 0x1FFF9 4 = true ∧ 0x1FFF9 % 4 ≠ 0 ∧ inRegion true 0x1FFFC 4 = false := by decide +kernel
/-- ILLEGAL: a reserved bit alone makes the word illegal. -/
theorem wit_illegal : let w := word { cls := 1, op := 0, zero := 0 } 0x00800000
    Issue (issuing true Bank.reset) 0 true (w &&& 0xFF7BDE00) { cls := 1, op := 0, zero := 0x008421FF } ∧ w &&& 0x008421FF ≠ 0
    ∧ (issuing true Bank.reset).codeAt (((issuing true Bank.reset).sol.cores[(0 : Fin 9)]).kernel true) 0 = none := by unfold Issue; decide +kernel

/-- Branches taken and not taken, the last word of vendor memory and of a slot, a CALL of the library, RET, REPT from a register at its limits, END with S1 of 1 and of 2. -/
theorem wit_branch : condOf 0 0 = some true ∧ condOf 2 0 = some false ∧ pcOk 0 0x1FFF = true ∧ pcOk 0 0x2000 = false ∧ pcOk 1 0x2FFF = true ∧ pcOk 1 0x40 = false
    ∧ libEntry 0x40 = true ∧ libEntry 0x41 = false ∧ inRegion false 0x400 64 = true := by decide +kernel
theorem wit_rept : let b : Bank := { Bank.reset with s := vset (vset Bank.reset.s 1 1) 2 4096 }
    (b.rs 1).toNat < 2 ∧ 0 < (b.rs 2).toNat ∧ (b.rs 2).toNat ≤ 4096 ∧ fF (word { cls := 0, op := 4, zero := 0 } 0x00120000) 20 4 = 1
    ∧ fF (word { cls := 0, op := 4, zero := 0 } 0x00120000) 0 16 = 0 ∧ fF (word { cls := 0, op := 4, zero := 0 } 0xFFF) 12 12 = 0
    ∧ 2 ≤ (({ Bank.reset with s := vset Bank.reset.s 1 2 } : Bank).rs 1).toNat := by decide +kernel

-- One step (Table 17-4)

/-- ADD wraps, and its destination may be its source. -/
theorem test_sol_add : (let w := word { cls := 1, op := 0, zero := 0 } 0x00084400
    match exec (.solAdd 0 false w) (issuing false { Bank.reset with s := vset (vset Bank.reset.s 1 0xFFFFFFFF) 2 2 } w) with
    | .next t => ((bankOf t 0 false).s[1], (bankOf t 0 false).pc) | _ => (0, 0)) = (1, 0x2001) := by decide +kernel
theorem test_sol_movi : (let w := word { cls := 2, op := 0, zero := 0 } 0x00188000
    match exec (.solMovi 0 false w) (issuing false Bank.reset w) with | .next t => (bankOf t 0 false).s[3] | _ => 0) = 0xFFFF8000 := by decide +kernel
/-- VRND rounds half to even and saturates to 16 bits. -/
theorem test_sol_round : rshift 5 1 = 2 ∧ rshift 7 1 = 4 ∧ rshift (-5) 1 = -2 ∧ satC16 40000 = 32767 ∧ overC16 40000 = 1 := by decide +kernel

-- Witnesses: host interface

/-- The state with one command, whose payload passes the entry check. -/
abbrev with_ (op : Nat) (p : List (Nat × Nat × Nat)) (fl : Nat := 0) (at_ : Nat := 0) (s : State := live) : State := put s (slotOf op p fl at_)

/-- One ring changes. -/
def ring (f : Ring → Ring) (s : State := live) : State := { s with host := { s.host with rings := vmod s.host.rings 3 f } }

theorem wit_read_clear : ∀ q ∈ namedReads, Served (with_ 2 [(0, 0, q.2.1)]) cmd 2 (slotOf 2 [(0, 0, q.2.1)]) ∧ regAddr (slotOf 2 [(0, 0, q.2.1)]).payload = q.2.1
    ∧ (with_ 2 [(0, 0, q.2.1)]).gatedReg q.2.1 = false := by unfold Served; decide +kernel

theorem wit_basic : Served (with_ 1 []) cmd 1 (slotOf 1 [])
    ∧ (Served (with_ 2 [(0, 0, 0x1000)]) cmd 2 (slotOf 2 [(0, 0, 0x1000)]) ∧ (with_ 2 []).gatedReg 0x1000 = false ∧ ((with_ 2 []).regFlds 0x1000).isSome = true
        ∧ ((with_ 2 []).rcView.regFlds 0x1000).isSome = true)
    ∧ (Served (with_ 3 [(0, 0, 0x810), (4, 0, 5), (8, 0, 0xFF)]) cmd 3 (slotOf 3 [(0, 0, 0x810), (4, 0, 5), (8, 0, 0xFF)]) ∧ (with_ 3 []).gatedReg 0x0810 = false ∧ (with_ 3 []).busLost = false
        ∧ regAddr (slotOf 3 [(0, 0, 0x810), (4, 0, 5), (8, 0, 0xFF)]).payload = 0x0810)
    ∧ (∃ s : State, s.ym.air = .noTime ∧ s.busLost = false ∧ s.gatedReg 0x1004 = false ∧ Served s cmd 3 (slotOf 3 [(0, 0, 0x1004), (8, 0, 1)]) ∧ regAddr (slotOf 3 [(0, 0, 0x1004), (8, 0, 1)]).payload = 0x1004)
    ∧ ∃ s : State, s.ym.air = .running ∧ s.tbUsable s.tbS = true ∧ Served s cmd 0x11 (slotOf 0x11 []) := by
  refine ⟨?_, ?_, ?_, ⟨with_ 3 [(0, 0, 0x1004), (8, 0, 1)] 0 0 { (live) with ym := Ym.reset }, ?_⟩,
    ⟨with_ 0x11 [] 0 0 { (live) with ym := { Ym.reset with air := .running }, time := { Time.reset with tb := Time.reset.tb.map fun b => { b with st := .locked } } }, ?_⟩⟩
  all_goals (try unfold Served); decide +kernel

theorem wit_completion : ∃ (s : State) (c : CmdRef) (x : Slot), s.slot? c = some x ∧ s.host.rings[c.ring].st ≠ .stopped ∧ x.cplErr = false ∧ x.irq = false :=
  ⟨with_ 1 [], ⟨0, 0⟩, slotOf 1 [], by decide +kernel⟩

theorem wit_fault_control :
    (∃ s x, Served s cmd 0x04 x ∧ pf x.payload 0 0 8 = 1 ∧ s.host.top.safe = true ∧ s.host.arb.held = [])
    ∧ (∃ s x, Served s cmd 0x04 x ∧ pf x.payload 0 0 8 = 2) ∧ (∃ s x, Served s cmd 0x05 x ∧ s.tack.read = true ∧ x.select = 0) := by
  refine ⟨⟨with_ 4 [(0, 0, 1)] 0 0 { (live) with host := { HostIf.reset with top := { HostIf.reset.top with safe := true } } }, slotOf 4 [(0, 0, 1)], ?_⟩,
    ⟨with_ 4 [(0, 0, 2)], slotOf 4 [(0, 0, 2)], ?_⟩, ⟨with_ 5 [(24, 0, 1)], slotOf 5 [(24, 0, 1)], ?_⟩⟩
  all_goals unfold Served; decide +kernel

/-- Sizes at both limits; the clause of a disabled ring and that of a running one exclude each other. -/
theorem wit_ring_setup : (live).host.rings[(3 : Fin 16)].st = .disabled
    ∧ [(0x80000004 : BitVec 32), 0xFE00000C].all (fun v => v.getLsbD 31 && v &&& 0x01FFFFF0 == 0 && decide (4 ≤ (v.extractLsb' 0 4).toNat) && decide ((v.extractLsb' 0 4).toNat ≤ 12)) = true
    ∧ (ring fun r => { r with st := .running }).host.rings[(3 : Fin 16)].st = .running
    ∧ (ring fun r => { r with st := .draining }).host.rings[(3 : Fin 16)].st = .draining ∧ (ring fun r => { r with st := .draining }).host.rings[(3 : Fin 16)].outstanding = 0
    ∧ (live).host.evt.en = false ∧ { (live) with host := { HostIf.reset with evt := { EvtRing.reset with en := true } } }.host.evt.en = true
    ∧ [(0x80000006 : BitVec 32), 0x81FF0010].all (fun v => v.getLsbD 31 && v &&& 0x4000FFE0 == 0 && decide (6 ≤ (v.extractLsb' 0 5).toNat) && decide ((v.extractLsb' 0 5).toNat ≤ 16)) = true := by
  decide +kernel

theorem wit_command_flow :
    (∃ s : State, s.ringsServed = true ∧ s.host.rings[(3 : Fin 16)].head ≠ s.host.rings[(3 : Fin 16)].tail
      ∧ s.host.rings[(3 : Fin 16)].outstanding < s.host.rings[(3 : Fin 16)].size ∧ s.host.rings[(3 : Fin 16)].st = .running ∧ s.host.rings[(3 : Fin 16)].release = none)
    ∧ (∃ (s : State) (x : Slot), s.slot? { ring := 0, seq := 0 } = some x ∧ s.ringsServed = true ∧ (s.host.rings[(0 : Fin 16)]).mayStart x = true ∧ x.indirect = false
      ∧ entryOk x.entry x.payload = true)
    ∧ ∃ (s : State) (x : Slot) (st : Status) (res : BitVec 32), s.slot? { ring := 0, seq := 0 } = some x ∧ x.stage = .finishing st res
      ∧ (s.tack.queue.any fun w => w.cmd == some { ring := 0, seq := 0 }) = false := by
  refine ⟨⟨ring fun r => { r with st := .running, tail := 1, unread := 15 }, ?_⟩, ⟨put live { slotOf 1 [] with stage := .fetched }, { slotOf 1 [] with stage := .fetched }, ?_⟩,
    ⟨put live { slotOf 1 [] with stage := .finishing .ok 3 }, { slotOf 1 [] with stage := .finishing .ok 3 }, .ok, 3, ?_⟩⟩
  all_goals decide +kernel

theorem wit_doorbells : let r := fun (s : State) => s.host.rings[(3 : Fin 16)]
    let i := fun (s : State) => ((s.wrVal 0 15 0xFFFFFFFF 0xFFFFF000).1.extractLsb' 0 12).toNat
    Awake live
    ∧ (∃ s : State, (r s).st ≠ .disabled ∧ i s < (r s).size ∧ ((r s).tail + (r s).size - (r s).head) % (r s).size ≤ (i s + (r s).size - (r s).head) % (r s).size
      ∧ i s ≠ (r s).hostHead ∧ (i s + (r s).size - (r s).hostHead) % (r s).size ≤ (r s).unread)
    ∧ (∃ s : State, (r s).st = .held ∧ (r s).release = none ∧ 0 < ((r s).tail + (r s).size - (r s).head) % (r s).size)
    ∧ (∃ (s : State) (q : Release) (x : Slot), (r s).release = some q ∧ ((r s).slots.find? fun x => x.stage == .fetched) = some x)
    ∧ ∃ (s : State) (h k : Nat), s.host.evt.en = true ∧ h = ((s.wrVal 0 63 0xFFFFFFFF 0xFFFF0000).1.extractLsb' 0 16).toNat ∧ h < 2 ^ s.host.evt.log2.toNat ∧ h ≠ s.host.evt.hostHead
      ∧ k = (h + 2 ^ s.host.evt.log2.toNat - s.host.evt.hostHead) % 2 ^ s.host.evt.log2.toNat ∧ k ≤ s.host.evt.unread := by
  refine ⟨?_, ⟨ring fun r => { r with st := .running, tail := 14, unread := 15 }, ?_⟩, ⟨ring fun r => { r with st := .held, tail := 1 }, ?_⟩,
    ⟨ring fun r => { r with st := .held, tail := 1, release := some ⟨1, 0⟩, slots := [{ slotOf 1 [] with stage := .fetched }] }, ⟨1, 0⟩, { slotOf 1 [] with stage := .fetched }, ?_⟩,
    ⟨{ (live) with host := { HostIf.reset with evt := { EvtRing.reset with en := true, unread := 63 } } }, 63, 63, ?_⟩⟩
  · exact ⟨rfl, rfl⟩
  all_goals decide +kernel

theorem wit_events :
    (∃ (s : State) (t : Nat) (e : EvtEntry) (q : List QItem), let r := s.host.evt
      r.en = true ∧ r.stopped = false ∧ r.unread < 2 ^ r.log2.toNat ∧ r.queue = .ev t e :: q ∧ e.type ≠ 0x0D ∧ e.type ≠ 0x0E ∧ r.sinceMsg + 1 < r.coal.toNat)
    ∧ ∃ (s : State) (t : Nat), s.host.evt.oldest = some t ∧ t + 19661 ≤ s.dp := by
  refine ⟨⟨{ (live) with host := { HostIf.reset with evt := { EvtRing.reset with en := true, unread := 63, coal := 2, queue := [.ev 0 ⟨1, 0, []⟩] } } }, 0, ⟨1, 0, []⟩, [], ?_⟩,
    ⟨{ (live) with dp := 19661, host := { HostIf.reset with evt := { EvtRing.reset with oldest := some 0 } } }, 0, ?_⟩⟩
  all_goals decide +kernel

/-- A state with one held fault. -/
def faulted (f : HeldFault) (s : State := live) : State := { s with host := { s.host with arb := { s.host.arb with held := [f] } } }

theorem wit_recovery : let f : HeldFault := { code := .gateTo, res := ⟨9, 0⟩, level := 1, id := 1, refId := 1, hold := .queued, ever := false, started := 0, raised := 0 }
    ((faulted f).nextFault = some f ∧ 0 < f.level ∧ f.ever = false)
    ∧ (let s := { faulted { f with hold := .running } with dp := 98304000 }
       (s.host.arb.held.find? fun h => h.hold == .running) = some { f with hold := .running } ∧ ({ f with hold := .running } : HeldFault).started + 98304000 ≤ s.dp
         ∧ s.recovered { f with hold := .running } = true) := by decide +kernel
theorem wit_link : ∃ s : State, s.pwr.vin = true ∧ s.host.top.perstHigh = true ∧ s.host.top.linkUp = true ∧ s.host.top.l12 = false :=
  ⟨{ (live) with host := { HostIf.reset with top := { HostIf.reset.top with linkUp := true, perstHigh := true } } }, rfl, rfl, rfl, rfl⟩
theorem wit_l12 : ∃ s : State, s.host.top.l12 = true := ⟨{ (live) with host := { HostIf.reset with top := { HostIf.reset.top with l12 := true } } }, rfl⟩

-- One step (R427, R432)

/-- NOP completes at index 0 with its TAG and status 0. -/
theorem test_nop : (match exec (.nop cmd) (with_ 1 []) with
    | .next t => (match t.out with | [.cpl 0 e] => e.tag == 7 && e.status == .ok && e.phase | _ => false) && decide (t.host.rings[(0 : Fin 16)].slots = []) | _ => false) = true := by decide +kernel
/-- An option that the opcode does not have gives BAD_ARG (R420). -/
theorem test_entry_check : (match exec (.nop cmd) (put live (slotOf 1 [] 0 0 1)) with
    | .next t => (match t.out with | [.cpl 0 e] => e.status == .badArg | _ => false) | _ => false) = true := by decide +kernel
/-- The counter of corrected die-to-die errors saturates (R22). -/
theorem test_d2d_count : (match exec .d2dCorrectedError { (live) with host := { HostIf.reset with arb := { HostIf.reset.arb with d2dErr := 0xFFFF } } } with | .next t => t.host.arb.d2dErr | _ => 0) = 0xFFFF := by decide +kernel

-- Witnesses: status commands and releases

/-- `Served` as a Bool. -/
def servedB (s : State) (c : Cmd) (op : BitVec 8) (x : Slot) : Bool :=
  s.slot? c.ref == some x && x.stage == .started && x.opcode == op && entryOk x.entry x.payload && !s.sec.recovery

/-- A payload that each status command answers. -/
def statusPay (op : BitVec 8) : List (Nat × Nat × Nat) :=
  (16, 0, 1024) :: (if op ∈ [0x3C, 0x4B, 0x59, 0x93] then [] else if op = 0x84 then [(21, 0, 2)] else [(0, 0, 1)])

/-- A device with one measurement set. -/
def measured : State := { (live) with burst := { Burst.reset with sets := [{ id := 0, ok := true, unitId := 0, dev := 0, txPath := 0, arrived := 0, recs := [] }] } }

theorem wit_status : (statusTable.all fun p =>
    let x := slotOf p.op.toNat (statusPay p.op)
    let s := put measured x
    servedB s cmd p.op x && p.ok s x && (pf x.payload 8 0 64 : BitVec 64).extractLsb' 0 3 == 0 && decide ((p.recs x s).1.length ≤ (pf x.payload 16 0 32).toNat)) = true := by decide +kernel

/-- An event of number 0 and group 0 that is alone in the table, at its release tick. -/
def oneEvent (k : Kind) (b : EvBody) (s : State := live) (res : Res := ⟨9, 0⟩) (src : Source := .cmd ⟨0, 0⟩ 7) : State :=
  { s with ym := { s.ym with events := [{ id := 0, group := 0, kind := k, due := s.ym.now + k.latency, src := src, res := res, body := b, doneAt := some (s.ym.now + k.latency), judged := false }], nextId := 1 } }
def theEvent (s : State) : Event := s.ym.events.headD { id := 0, group := 0, kind := .alarm, due := 0, src := .internal .time, res := ⟨9, 0⟩, body := .alarm, doneAt := none, judged := false }

/-- The first synthesiser is LOCKED and the interlock of path 0 closed; path 0 is in a state. -/
def tuned (p : PState) (s : State := live) : State :=
  ((s.modSynth 0 fun y => { y with st := .locked, aligned := true }).modOut (hbOf 0) fun o => { o with valued := true }).modPath 0 fun y => { y with st := p }

/-- A state and a body for each kind of the table of releases. Path 0 is in a state that its event wants. -/
def releaseCase : Kind → State
  | .phaseSync => oneEvent .phaseSync .phaseSync
  | .pathState => oneEvent .pathState (.pathState 0 .standby) (tuned .sleep) ⟨1, 0⟩
  | .mute => oneEvent .mute (.mute 0 true true true true) (tuned .standby) ⟨1, 0⟩
  | .alarm => oneEvent .alarm .alarm
  | .outputSet => oneEvent .outputSet (.output 0 0 1 false) live ⟨8, 0⟩
  | .hkTrigger => oneEvent .hkTrigger (.hkSpot 0 0 0) live (hkRes 0)
  | .pinEdge => oneEvent .pinEdge (.pinEdge 1)
  | .burstTx => oneEvent .burstTx (.burstTx { path := 0, nsym := 1, att := 0, pwr := 0, off := 0, user := 0 }) (tuned .tx) ⟨1, 0⟩
  | .burstRx => oneEvent .burstRx (.burstRx 1 1 64 0 0) (tuned .rx)
  | .obsCapture => oneEvent .obsCapture (.capture 0 0 16384) (tuned .tx) ⟨5, 0⟩
  | _ => live

theorem wit_releases : (releaseTable.all fun p => let s := releaseCase p.kind
    s.releasable 0 p.kind == some (theEvent s) && p.chk s (theEvent s) == none && (s.ym.events.filter fun x => x.group == (theEvent s).group) == [theEvent s]) = true := by decide +kernel

theorem wit_synth_releases :
    (let s := oneEvent .synthRetune (.retune 1 (.retune 0)) live ⟨3, 1⟩
     s.releasable 0 .synthRetune = some (theEvent s) ∧ s.retuneCheck (theEvent s) = none ∧ (s.ym.events.filter fun x => x.group == (theEvent s).group) = [theEvent s]
       ∧ s.groupConflict 0 = false)
    ∧ (let s := oneEvent .synthHop (.hop 0 true) ((tuned .rx).modSynth 1 fun y => { y with st := .locked }) ⟨2, 0⟩
       s.releasable 0 .synthHop = some (theEvent s) ∧ State.hopCheck s (theEvent s) = none ∧ (s.ym.events.filter fun x => x.group == (theEvent s).group) = [theEvent s]
       ∧ s.groupConflict 0 = false)
    ∧ (let s := oneEvent .synthHop (.hop 0 false) (tuned .rx) ⟨2, 0⟩
       s.releasable 0 .synthHop = some (theEvent s) ∧ (theEvent s).judged = false ∧ s.groupConflict 0 = true ∧ ∃ r t, (theEvent s).src = .cmd r t) := by
  refine ⟨?_, ?_, ?_, ?_, ?_, ⟨0, 0⟩, 7, ?_⟩ <;> decide +kernel

/-- Every path but 0 is retired: the one antenna is path 0. -/
def onePath (p : PState) (m : Mode := .full) : State :=
  (tuned p { live m with radio := { Radio.reset with paths := Vector.replicate 64 { Path.reset with retired := true } } }).modPath 0 fun y => { y with retired := false }

/-- A carrier of 5 MHz at 15 kHz. -/
def cell : CarrierCfg :=
  { scs30 := false, bw := 5, group := 2, derotOn := false, fbPrev := false, srcMask := 7, centre := 0, dlLayers := 1, ulLayers := 1, fbBeam := 0, preShift := 0
    combShift := 0, fftAdjTx := 0, fftAdjRx := 0, fftAdv := 0, txAtt := 0 }
/-- Carrier 0 is configured. -/
def celled (s : State) : State := s.modCarrier 0 fun y => { y with cfg := some cell }
/-- A section of two PRBs in one symbol of carrier 0. -/
def sec (ul : Bool) : Section :=
  { id := 0, carrier := 0, ul := ul, slot := 9830400, symFirst := 0, symNum := 1, prbFirst := 0, prbNum := 2, layers := [0], source := .codebook [0], fallback := false
    fbGroups := [], secId := 0, port := 0, group := 0, released := [] }
def sectioned (ul : Bool) (s : State) : State := { s with ofdm := { s.ofdm with sections := [sec ul] } }
/-- A sounding occasion of carrier 0. -/
def occ : Occasion :=
  { id := 0, port := 0, carrier := 0, slot := 9830400, sym0 := 0, nsym := 1, ktc := 2, combOff := 0, ncs := 0, u := 0, v := 0, prbStart := 0, prbNum := 4, group := 0
    abandoned := false, smooth := 0, published := false, done := false, lastEnd := 9830400 }

/-- The event is the next to be released, alone in its group. -/
def isNext (s : State) (k : Kind) : Bool := s.releasable 0 k == some (theEvent s) && (s.ym.events.filter fun x => x.group == (theEvent s).group) == [theEvent s]

theorem wit_traffic :
    (let s := oneEvent .config (.config (.carrierRemove 0)) (celled live) ⟨4, 0⟩; isNext s .config = true)
    ∧ (let s := oneEvent .config (.config (.pathReturn 1 .sleep false)) (tuned .standby) ⟨1, 0⟩
       isNext s .config = true ∧ ∀ p ∈ setBits (1 : BitVec 64), (s.pathBefore p (s.dpOf (theEvent s).due)).st = .standby)
    ∧ (let s := sectioned false (oneEvent .dlSymbol (.symbol 0 0 65536) (celled (onePath .tx)) ⟨4, 0⟩)
       isNext s .dlSymbol = true ∧ (∀ p ∈ s.antennas 0, s.burstBefore 0 p (s.dpOf (theEvent s).due) (s.dpOf (theEvent s).due + 65536) = false)
         ∧ Serves s (theEvent s) .tx 65536 ((s.antennas 0).filter s.interlock) ∧ s.symbolOf (theEvent s) = some (sec false, 0, 65536)
         ∧ s.ofdm.carriers[(sec false).carrier].cfg = some cell ∧ s.antennas 0 = [0] ∧ s.interlock 0 = true)
    ∧ (let s := sectioned true (oneEvent .ulSymbol (.symbol 0 0 65536) (celled (onePath .rx)) ⟨4, 0⟩)
       isNext s .ulSymbol = true ∧ Serves s (theEvent s) .rx 65536 (s.antennas 0) ∧ s.symbolOf (theEvent s) = some (sec true, 0, 65536))
    ∧ (let s := oneEvent .sounding (.sounding 0 0 65536) (celled (onePath .rx)) ⟨4, 0⟩
       let s := { s with ofdm := { s.ofdm with occasions := [occ] } }
       isNext s .sounding = true ∧ s.ofdm.occasions.find? (fun y => y.id == 0) = some occ ∧ Serves s (theEvent s) .rx 65536 (s.antennas 0)) := by
  unfold Serves; refine ⟨?_, ?_, ?_, ?_, ?_⟩ <;> decide +kernel

-- Witnesses: paths and synthesisers

/-- The low half of an air word (R51), as the entry's AT holds it. -/
def atOf (t : Tick) : Nat := (airWord t).toNat

theorem wit_phase_sync :
    (∃ (s : State) (x : Slot) (d : Tick), Served s cmd 0x12 x ∧ x.atBad = false ∧ s.dueOf x = some d ∧ d % 32 ≠ 0)
    ∧ (∃ (s : State) (x : Slot) (d : Tick), Served s cmd 0x12 x ∧ x.atBad = false ∧ d % 32 = 0
      ∧ Fits s [{ kind := .phaseSync, due := d, res := { cls := 9, idx := 0 }, body := .phaseSync }]
      ∧ s.mode.cur ≠ .array ∧ (s.dueOf x).getD (ceilTo 32 (s.ym.now + 2048)) = d ∧ s.ym.now + 2048 ≤ d)
    ∧ (∃ (s : State) (x : Slot) (d : Tick) (h : HitCfg), Served s cmd 0x12 x ∧ x.atBad = false ∧ d % 32 = 0
      ∧ Fits s [{ kind := .phaseSync, due := d, res := { cls := 9, idx := 0 }, body := .phaseSync }]
      ∧ s.mode.cur = .array ∧ s.hit.cfg = some h ∧ h.dev = 0 ∧ s.dueOf x = some d ∧ s.ym.now + 2048 + 1180 * ((h.ndev : Int) - 1) ≤ d) := by
  refine ⟨⟨with_ 0x12 [] 0x40 (atOf 9840001), slotOf 0x12 [] 0x40 (atOf 9840001), 9840001, ?_⟩, ⟨with_ 0x12 [], slotOf 0x12 [], 9832448, ?_⟩,
    ⟨with_ 0x12 [] 0x40 (atOf 9840000) { live .array with hit := { Hitch.reset with cfg := some ⟨0, 2, false, 0, true, 1⟩ } }, slotOf 0x12 [] 0x40 (atOf 9840000), 9840000, ⟨0, 2, false, 0, true, 1⟩, ?_⟩⟩
  all_goals unfold Served; try unfold Fits
  all_goals decide +kernel

/-- A SYNTH_SET of the paddock K0, synthesiser B, by frequency where `op` needs one. -/
def synthSet (op : Nat) (f : Bool) : List (Nat × Nat × Nat) := [(0, 0, 1), (1, 0, op), (1, 4, 1)] ++ if f then [(2, 7, 1), (4, 0, 2000000)] else []

theorem wit_synth_set :
    (∀ q ∈ retuneTable, ∃ (s : State) (x : Slot) (o : Fin 8 → SynthOp), let p := x.payload
      synthBadArg x = false ∧ Served s cmd 0x18 x ∧ (pf p 1 0 4).toNat = q.2.1 ∧ s.pwr.st = .active ∧ s.transitionBlocks (s.dueOf x) = false
      ∧ (synthByFreq p = false → ∀ k ∈ synthNamed p, s.radio.synths[synthTarget p k].presets[synthSlot p].valid = true)
      ∧ SynthFree s x (s.eventDue x .synthRetune) ∧ (∀ k ∈ synthNamed p, q.2.2 s p (synthTarget p k) = some (o k))
      ∧ Fits s ((synthNamed p).map fun k => { kind := .synthRetune, due := s.eventDue x .synthRetune, res := { cls := 3, idx := (synthTarget p k).val }, body := .retune (synthTarget p k) (o k) }))
    ∧ (∃ (s : State) (x : Slot), synthBadArg x = false ∧ Served s cmd 0x18 x ∧ (pf x.payload 1 0 4).toNat = 2 ∧ s.pwr.st = .active ∧ SynthFree s x (s.eventDue x .synthHop)
      ∧ Fits s ((synthNamed x.payload).map fun k => { kind := .synthHop, due := s.eventDue x .synthHop, res := { cls := 2, idx := k.val }, body := .hop k (pb x.payload 1 4) }))
    ∧ (∃ (s : State) (x : Slot), let p := x.payload
      synthBadArg x = false ∧ Served s cmd 0x18 x ∧ (pf p 1 0 4).toNat = 4
      ∧ ∀ k ∈ synthNamed p, s.radio.synths[synthTarget p k].st ≠ .retired ∧ s.inUse k = false ∧ s.active k ≠ synthTarget p k)
    ∧ (∀ q ∈ pinTable, ∃ (s : State) (x : Slot), let p := x.payload
      synthBadArg x = false ∧ Served s cmd 0x18 x ∧ (pf p 1 0 4).toNat = q.2.1 ∧ (∀ k ∈ synthNamed p, s.radio.synths[synthTarget p k].st ≠ .retired)
      ∧ ∀ k ∈ synthNamed p, s.pinSlot p (synthTarget p k) = some (synthSlot p)) := by
  refine ⟨?_, ⟨with_ 0x18 (synthSet 2 false), slotOf 0x18 (synthSet 2 false), ?_⟩, ⟨with_ 0x18 (synthSet 4 false), slotOf 0x18 (synthSet 4 false), ?_⟩, ?_⟩
  · intro q hq
    refine ⟨with_ 0x18 (synthSet q.2.1 true), slotOf 0x18 (synthSet q.2.1 true), fun _ => .calibrate 2000000 false, ?_⟩
    simp only [retuneTable, List.mem_cons, List.not_mem_nil, or_false] at hq
    rcases hq with rfl | rfl <;> unfold Served Fits SynthFree <;> intro p <;> and_intros <;> decide +kernel
  · unfold Served Fits SynthFree; decide +kernel
  · unfold Served; decide +kernel
  · intro q hq
    refine ⟨with_ 0x18 (synthSet q.2.1 false), slotOf 0x18 (synthSet q.2.1 false), ?_⟩
    simp only [pinTable, List.mem_cons, List.not_mem_nil, or_false] at hq
    rcases hq with rfl | rfl <;> unfold Served <;> decide +kernel

/-- PATH_SETs of path 0: RX, TX, RETURN, LEVELS. -/
def pathSets : List Slot := [slotOf 0x1A [(0, 0, 1), (8, 0, 1), (9, 0, 3)], slotOf 0x1A [(0, 0, 1), (8, 0, 1), (9, 0, 4)], slotOf 0x1A [(0, 0, 1), (8, 0, 2), (10, 0, 1)],
  slotOf 0x1A [(0, 0, 1), (8, 0, 3), (11, 0, 30), (13, 0, 3)]]

theorem wit_path_set : ∀ x ∈ pathSets, Served (put (tuned .standby) x) cmd 0x1A x ∧ x.atBad = false ∧ pathNamed x.payload = [0] := by
  unfold Served; decide +kernel
/-- The same with no path named. -/
theorem wit_path_set_none : ∀ x ∈ [slotOf 0x1A [(8, 0, 1), (9, 0, 3)], slotOf 0x1A [(8, 0, 2), (10, 0, 1)], slotOf 0x1A [(8, 0, 3), (11, 0, 31), (12, 0, 255), (13, 0, 3)]],
    Served (put live x) cmd 0x1A x ∧ x.atBad = false ∧ pathNamed x.payload = [] := by
  unfold Served; decide +kernel
theorem wit_path_set_state : let s := tuned .standby
    s.inActive 0 = true ∧ s.pwr.st ≠ .doze ∧ s.trafficGate = none ∧ s.conv.run = none ∧ s.interlock 0 = true
    ∧ Fits s [{ kind := .pathState, due := 9832448, res := { cls := 1, idx := 0 }, body := .pathState 0 .tx }]
    ∧ Fits s [{ kind := .config, due := 9928704, res := { cls := 1, idx := 0 }, body := .config (.pathReturn 1 .sleep false) }] := by unfold Fits; decide +kernel

theorem wit_radio_progress :
    (∃ (s : State) (t : Transit), s.radio.paths[(0 : Fin 64)].transit = some t ∧ t.fin ≤ s.dp ∧ t.dst = t.target ∧ t.hold = none)
    ∧ (∃ (s : State) (r : Run), let y := s.radio.paths[(0 : Fin 64)]
      y.run = some r ∧ y.transit = none ∧ r.fin ≤ s.dp ∧ y.ret r.isTx ≠ y.st ∧ y.retired = false ∧ y.jobs = [] ∧ s.keepsPath 0 r.fin (s.dp + chainTime y.st (y.ret r.isTx)) = false
      ∧ s.mayEnter 0 (y.ret r.isTx) (s.dp + chainTime y.st (y.ret r.isTx)) = true)
    ∧ (∃ (s : State) (o : SynthOp), s.radio.synths[(0 : Fin 16)].op = some o ∧ (∀ f n, o ≠ .calibrate f n) ∧ s.radio.synths[(0 : Fin 16)].opEnd ≤ s.dp)
    ∧ (∃ (s : State) (f : BitVec 23) (j : Fin 32), s.radio.synths[(0 : Fin 16)].op = some (.calibrate f false) ∧ s.radio.synths[(0 : Fin 16)].opEnd ≤ s.dp ∧ s.radio.synths[(0 : Fin 16)].calSlot f = some j)
    ∧ ∃ s : State, s.radio.synths[(1 : Fin 16)].st = .locked ∧ s.radio.synths[(1 : Fin 16)].lastLoss = none ∧ s.active (synthPaddock 1) ≠ 1 ∧ s.calActive = [] := by
  refine ⟨⟨(live).modPath 0 fun y => { y with transit := some ⟨.off, .sleep, 0, 20000000, .sleep, none⟩ }, ⟨.off, .sleep, 0, 20000000, .sleep, none⟩, ?_⟩,
    ⟨(tuned .tx).modPath 0 fun y => { y with run := some ⟨true, 20000000⟩ }, ⟨true, 20000000⟩, ?_⟩,
    ⟨(live).modSynth 0 fun y => { y with op := some .realign }, .realign, ?_, nofun, ?_⟩,
    ⟨(live).modSynth 0 fun y => { y with op := some (.calibrate 2000000 false) }, 2000000, 0, ?_⟩, ⟨(live).modSynth 1 fun y => { y with st := .locked }, ?_⟩⟩
  all_goals decide +kernel

-- One step

/-- PHASE_SYNC at a tick that is no multiple of 32 completes with BAD_ARG (R61). -/
theorem test_phase_sync : (match exec (.phaseSync cmd) (with_ 0x12 [] 0x40 (atOf 9840001)) with
    | .next t => (match t.out with | [.cpl 0 e] => e.status == .badArg | _ => false) | _ => false) = true := by decide +kernel

/-- What the table takes does not depend on the rings. -/
theorem fits_put (s : State) (x : Slot) (l : List NewEv) : Fits (put s x) l = Fits s l := rfl

-- Witnesses: converters, carriers, beams, sounding, weights

/-- The ROM-like coefficient set whose two middle taps are 1/2 (R121). -/
def phaseBytes : Bytes := List.replicate 28 0 ++ [0, 0, 1, 0, 0, 0, 1, 0] ++ List.replicate 28 0
def halfTaps : Bytes := (List.replicate 32 phaseBytes).flatten
/-- One phase of `halfTaps`, and the whole set. -/
def phase : List (BitVec 18) := [0, 0, 0, 0, 0, 0, 0, 65536, 65536, 0, 0, 0, 0, 0, 0, 0]
theorem phase_get : ∀ (k p t : Nat), p < k → t < 16 → ((List.replicate k phase).flatten)[16 * p + t]? = phase[t]?
  | 0, _, _, h, _ => absurd h (Nat.not_lt_zero _)
  | k + 1, 0, t, _, ht => by
    rw [List.replicate_succ, List.flatten_cons, List.getElem?_append_left (by simpa [phase] using ht)]; simp
  | k + 1, p + 1, t, h, ht => by
    have hl : phase.length = 16 := rfl
    rw [List.replicate_succ, List.flatten_cons, List.getElem?_append_right (by omega), hl, show 16 * (p + 1) + t - 16 = 16 * p + t by omega]
    exact phase_get k p t (by omega) ht
theorem phase_coef (n : Nat) (h : n < 512) : coefH (List.replicate 32 phase).flatten n = ((phase[n / 32]?).getD 0).toInt := by
  unfold coefH; rw [phase_get 32 _ _ (Nat.mod_lt _ (by decide)) (by omega)]
theorem words_of_halfTaps : ∀ (k : Nat), (List.range (16 * k)).map (fun i => BitVec.ofNat 18 (ofLe (((List.replicate k phaseBytes).flatten.drop (4 * i)).take 4)))
    = (List.replicate k phase).flatten
  | 0 => rfl
  | k + 1 => by
    have ih := words_of_halfTaps k
    have hl : phaseBytes.length = 64 := rfl
    rw [show 16 * (k + 1) = 16 + 16 * k by omega, List.range_add, List.map_append, List.map_map, List.replicate_succ, List.replicate_succ, List.flatten_cons, List.flatten_cons]
    refine (congrArg (· ++ _) ?_).trans (congrArg (_ ++ ·) (Eq.trans (List.map_congr_left fun i _ => ?_) ih))
    · refine Eq.trans (List.map_congr_left (g := fun i => BitVec.ofNat 18 (ofLe ((phaseBytes.drop (4 * i)).take 4))) fun i hi => ?_) (by decide +kernel)
      have := List.mem_range.1 hi
      rw [List.drop_append_of_le_length (by omega), List.take_append_of_le_length (by rw [List.length_drop]; omega)]
    · simp only [Function.comp]
      rw [List.drop_append, List.drop_of_length_le (by omega)]
      simp [hl, show 4 * (16 + i) - 64 = 4 * i by omega]
theorem halfTaps_words : coefWords halfTaps = (List.replicate 32 phase).flatten := words_of_halfTaps 32
theorem halfTaps_valid : coefValid (coefWords halfTaps) = true := by
  rw [halfTaps_words]; unfold coefValid
  rw [Bool.and_eq_true]; constructor
  · rw [List.all_eq_true]; intro n hn
    have := List.mem_range.1 hn
    rw [phase_coef n (by omega), phase_coef (511 - n) (by omega)]
    revert n; decide +kernel
  · decide +kernel


theorem wit_fc_set : ∀ n ∈ [30000, 35000], ∃ (s : State) (x : Slot), Served s cmd 0x20 x ∧ (pf x.payload 2 0 16 : BitVec 16) = BitVec.ofNat 16 n ∧ s.fcConflict = false
    ∧ BitVec.ofNat 16 n ≠ s.conv.fcN ∧ pb x.payload 0 1 = true := by
  intro n hn
  refine ⟨with_ 0x20 [(0, 1, 1), (2, 0, n)] 0 0 (live .calibrate), slotOf 0x20 [(0, 1, 1), (2, 0, n)], ?_⟩
  simp only [List.mem_cons, List.not_mem_nil, or_false] at hn
  rcases hn with rfl | rfl <;> unfold Served <;> and_intros <;> decide +kernel
theorem wit_fc_same : let x := slotOf 0x20 [(2, 0, 32768)]; let s := put (live .calibrate) x
    Served s cmd 0x20 x ∧ (pf x.payload 2 0 16 : BitVec 16) = s.conv.fcN ∧ s.fcConflict = false := by unfold Served; decide +kernel
theorem wit_fc_end : ∃ (s : State) (r : FcRun), s.conv.run = some r ∧ r.fin ≤ s.dp ∧ r.switched = true :=
  ⟨{ (live) with conv := { Conv.reset with run := some ⟨⟨0, 0⟩, 30000, 20000000, 20000000, true, false, false⟩ } }, ⟨⟨0, 0⟩, 30000, 20000000, 20000000, true, false, false⟩, by decide +kernel⟩
theorem wit_coef_load : ∃ (s : State) (c : Cmd) (x : Slot) (b : Bytes), Served s c 0x21 x ∧ pf x.payload 0 0 8 ≠ (0 : BitVec 8) ∧ (pf x.payload 8 0 64 : BitVec 64).extractLsb' 0 6 = 0
    ∧ s.fcConflict = false ∧ pb x.payload 1 0 = false ∧ c.data = some b ∧ coefValid (coefWords b) = true ∧ s.counting = true := by
  refine ⟨with_ 0x21 [(0, 0, 255)] 0 0 (live .calibrate), cmd (some halfTaps), slotOf 0x21 [(0, 0, 255)], halfTaps, ?_⟩
  refine ⟨by unfold Served; decide +kernel, by decide +kernel, by decide +kernel, by decide +kernel, by decide +kernel, rfl, halfTaps_valid, rfl⟩
theorem wit_coef_rom : let x := slotOf 0x21 [(0, 0, 255), (1, 0, 1)]; let s := put { live .calibrate with ym := Ym.reset } x
    Served s cmd 0x21 x ∧ pf x.payload 0 0 8 ≠ (0 : BitVec 8) ∧ s.fcConflict = false ∧ pb x.payload 1 0 = true ∧ s.counting = false := by unfold Served; decide +kernel

/-- CARRIER_SET CONFIGURE of `cell`, REMOVE, WEIGHT_SET, FH_FLOW_SET, SOLVER_SELECT, CFR_SET. -/
theorem wit_carrier_configure : let x := slotOf 0x28 [(0, 3, 1), (1, 0, 5), (2, 2, 2), (3, 0, 7), (8, 0, 1), (9, 0, 1)]; let s := put live x
    Served s cmd 0x28 x ∧ x.atBad = false ∧ (pf x.payload 0 3 2).toNat = 1 ∧ carrierOf x.payload = cell ∧ cell.bad = false ∧ s.bandOverlap 0 cell = false
    ∧ s.transitionBlocks (s.dueOf x) = false ∧ fits s.mode.cur s.mode.bandA s.mode.bandB 0 cell = true ∧ Fits s (carrierEvents s x 0 (.carrier 0 cell)) := by
  unfold Served Fits; intro x s; and_intros <;> decide +kernel
theorem wit_carrier_changes : let s := celled live
    s.ofdm.carriers[(0 : Fin 8)].cfg.isSome = true ∧ s.transitionBlocks none = false ∧ s.fh.ports[(7 : Fin 8)].cfg.role = 0 ∧ s.kernelReady 0 = true
    ∧ (∀ q ∈ [(0x28, [(0, 3, 2)]), (0x30, [(1, 0, 4), (1, 5, 7), (3, 0, 1)]), (0x52, [(1, 0, 7), (2, 0, 6)]), (0x79, []), (0x40, [(1, 0, 4), (2, 0, 70), (4, 0, 65136)]), (0x40, [(2, 0, 100)])],
        let x := slotOf q.1 q.2; Served (put s x) cmd (BitVec.ofNat 8 q.1) x ∧ x.atBad = false)
    ∧ (65136 : BitVec 16).toInt = -400
    ∧ Fits s (carrierEvents s (slotOf 0x28 [(0, 3, 2)]) 0 (.carrierRemove 0))
    ∧ Fits s [{ kind := .config, due := 9928704, res := { cls := 9, idx := 0 }, body := .config (.cfr 0 { passes := 4, target := 70, ref := -400 }) }] := by
  unfold Served Fits; intro s; and_intros <;> decide +kernel

theorem wit_beam_load : ∀ n ∈ [1, 4096], let p := [(0, 0, 4096 - n), (2, 0, n)]
    Served (with_ 0x29 p) (cmd (some [])) 0x29 (slotOf 0x29 p) ∧ 0 < n ∧ (4096 - n) + n ≤ 4096 ∧ (pf (pay p) 0 0 12 : BitVec 12).toNat = 4096 - n ∧ (pf (pay p) 2 0 13 : BitVec 13).toNat = n := by
  unfold Served; decide +kernel
theorem wit_beam_switch : ∃ (s : State) (t : BeamStage) (r : CmdRef), s.counting = true ∧ s.ofdm.stages = [t] ∧ t.boundary ≤ s.ym.now ∧ t.cmd = some r :=
  ⟨{ (live) with ofdm := { Ofdm.reset with stages := [⟨9830400, 0, [], some ⟨0, 0⟩⟩] } }, ⟨9830400, 0, [], some ⟨0, 0⟩⟩, ⟨0, 0⟩, by decide +kernel⟩

/-- The smoothing of the occasion is in the background of core 0; every path is retired. -/
def smoothed : State :=
  let s := celled { live with radio := { Radio.reset with paths := Vector.replicate 64 { Path.reset with retired := true } } }
  { s with
    ofdm := { s.ofdm with occasions := [occ] }
    sol := { s.sol with cores := vmod s.sol.cores 0 fun (m : SolCore) => { m with bgJob := some { kind := .smoothing 0, deadline := 9830400, budget := 0, kernel := 0 } } } }
theorem wit_publish : let s := smoothed
    s.ofdm.occasions.find? (fun y => y.id == 0) = some occ ∧ s.smoothingCore 0 = some 0 ∧ s.ofdm.carriers[occ.carrier].cfg = some cell ∧ occ.abandoned = false ∧ occ.published = false
    ∧ occ.lastEnd ≤ s.ym.now ∧ (occ.estimate cell.groupPrbs false (s.soundRows occ cell []).1).2.1.length ≤ (s.soundSats occ cell []).bookFree := by decide +kernel

theorem wit_hint : let x := slotOf 0x31 [(4, 0, 1), (8, 0, 5)] 0x40 (atOf 10813440); let s := put (celled live) x
    Served s cmd 0x31 x ∧ s.ofdm.carriers[(0 : Fin 8)].cfg = some cell ∧ s.counting = true ∧ x.atBad = false ∧ s.ofAirWord x.at_ % s.carrierSlot 0 = 0
    ∧ hintMap x.payload = [(0, 5)] ∧ 0 < cell.dlLayers.toNat ∧ distinct [5] = true ∧ s.ym.now < s.ofAirWord x.at_ := by
  unfold Served; intro x s; and_intros <;> decide +kernel
/-- A siding, a set and a claim of carrier 0. -/
def wset : WSet := { carrier := 0, ul := false, grp := 0, slot := 9830400, map := [(0, 0)], sigE := 0, sigM := 0, derot := false, kernel := 0, seqs := [], fresh := 0, words := [], blk := 0 }
def sided (ready : Bool) : State := (celled live).setSiding 0 false (some { target := 8847360, ready := ready, maps := [], groups := [{ grp := 0, map := [(0, 0)], blk := 0, set := some wset }], cmds := [] })
def claimed (how : Resolve) (s : State := celled live) : State := { s with ofdm := { s.ofdm with claims := [{ carrier := 0, ul := false, slot := 9830400, grp := 0, map := [(0, 0)], how := how, cmds := [] }] } }
theorem wit_siding : ∃ x, (sided false).siding 0 false = some x ∧ x.ready = false ∧ (x.groups.all fun g => g.set.isSome) = true ∧ (sided false).counting = true
    ∧ (sided false).slotEnd 0 x.target ≤ (sided false).ym.now := ⟨_, rfl, by decide +kernel⟩
theorem wit_claims : ∃ x d, (claimed (.waiting true 9830400 0 (some wset))).claim? 0 false 9830400 0 = some x ∧ x.how = .waiting true d 0 (some wset)
    ∧ (claimed (.waiting true 9830400 0 (some wset))).chain.isSome = false ∧ d = (claimed (.waiting true 9830400 0 (some wset))).ym.now := ⟨_, 9830400, rfl, by decide +kernel⟩

-- Witnesses: pre-distortion, calibrations, the tack store, bursts

theorem wit_dpd_set : ∀ x ∈ [slotOf 0x41 [(0, 0, 10), (1, 0, 1), (2, 0, 156)], slotOf 0x41 [(1, 0, 255), (2, 0, 226)]],
    Served (put live x) cmd 0x41 x ∧ (pf x.payload 0 0 4 : BitVec 4).toNat ≤ 10 ∧ (pf x.payload 1 0 8 : BitVec 8) ≠ 0 ∧ -100 ≤ (pf x.payload 2 0 8 : BitVec 8).toInt
    ∧ (pf x.payload 2 0 8 : BitVec 8).toInt ≤ -30 := by unfold Served; decide +kernel
theorem wit_dpd_ctrl : ∀ o ∈ [1, 2, 3, 4, 5, 6], let x := slotOf 0x42 [(0, 0, 1), (8, 0, o)]
    Served (put (live .calibrate) x) cmd 0x42 x ∧ (pf x.payload 8 0 4 : BitVec 4).toNat = o ∧ dpdNamed x.payload = [0] ∧ (pf x.payload 16 0 64 : BitVec 64).extractLsb' 0 6 = 0 := by
  unfold Served; decide +kernel
theorem wit_dpd_adj : Served (with_ 0x43 [] 0 0 (live .calibrate)) (cmd (some [0x81, 0x82])) 0x43 (slotOf 0x43 []) ∧ ∀ q : Fin 64, adjBad q (adjEntry [0x81, 0x82] q) = false := by
  unfold Served; decide +kernel

/-- A DL symbol of one subframe ahead, whose path transmits. -/
def dlAhead : State :=
  let s := sectioned false (celled (onePath .tx))
  { s with ym := { s.ym with events := [{ id := 0, group := 0, kind := .dlSymbol, due := 10813440, src := .internal .time, res := ⟨4, 0⟩, body := .symbol 0 0 70656, doneAt := none, judged := false }] } }
theorem wit_capture_decision : let s := dlAhead
    let t := s.modOwner 0 fun y => { y with cfg := s.lin.cfg, lastAt := s.dp }
    let u := t.modOwner 0 fun y => { y with want := some 0 }
    s.counting = true ∧ s.lin.owners[(0 : Fin 8)].want = none ∧ s.capOut 0 = false ∧ s.lin.cfg.adaptEn = true ∧ s.mode.cur ≠ .calibrate ∧ s.mode.cur ≠ .bringup
    ∧ s.lin.owners[(0 : Fin 8)].lastAt + s.lin.owners[(0 : Fin 8)].cfg.capPeriod.toNat * 491520 ≤ s.dp
    ∧ t.capPick 0 = some 0 ∧ u.capEligible 0 = true ∧ u.capSymbol 0 (u.airOf s.dp) = some 10818560 ∧ u.obsOf 0 = some 0
    ∧ (u.present (.internal .dpd) none [{ kind := .obsCapture, due := 10818560, res := { cls := 5, idx := 0 }, body := .capture 0 0 s.captureTicks }]).1 = .ok := by decide +kernel
theorem wit_capture_none : let s := (live).modOwner 0 fun y => { y with want := some 0, lastAt := 0 }
    s.counting = true ∧ s.lin.owners[(0 : Fin 8)].want = some 0 ∧ s.capModes 0 = true ∧ s.capEligible 0 = true ∧ s.capSymbol 0 (s.airOf s.lin.owners[(0 : Fin 8)].lastAt) = none
    ∧ s.lin.owners[(0 : Fin 8)].lastAt + 9830400 < s.dp := by decide +kernel
def aCapture (gen : BitVec 16) : Capture :=
  { path := 0, obs := 0, start := 19000000, fin := 19008192, gen := gen, clean := true, shu := none, u := [], x := [], z := [], v0 := [], v1 := [] }
def capturing (g : BitVec 16) : State := { (live) with lin := { Linear.reset with caps := [aCapture g] } }
theorem wit_capture_end : let found (g : BitVec 16) := (capturing g).lin.caps.find? (fun c => c.path == 0 && c.shu.isNone && c.fin ≤ (capturing g).dp)
    found 0 = some (aCapture 0) ∧ found 1 = some (aCapture 1) ∧ (capturing 0).mode.cur = .full ∧ (capturing 0).lin.paths[(0 : Fin 64)].gen = 0 ∧ (capturing 1).lin.paths[(0 : Fin 64)].gen = 0 := by
  decide +kernel
/-- Path 0's adaptation of a capture of one sample that ended at 0, in the background of core 0. -/
def anAdapt : Adapting := { fin := 0, gen := 0, deep := false, use0 := false, use1 := false, y := List.replicate 7 (Q.zero, Q.zero) ++ List.replicate 3 (Q.ofInt 16384, Q.zero), z := [], v0 := [], v1 := [] }
def adapting (s : State := live) : State :=
  { s.modDpd 0 (fun d => { d with adapting := [anAdapt] }) with
    sol := { s.sol with cores := vmod s.sol.cores 0 fun (m : SolCore) => { m with bgJob := some { kind := .adapt 0 0, deadline := 98304000, budget := 1760000, kernel := 0 } } } }
theorem wit_adapt : let s := adapting
    s.lin.paths[(0 : Fin 64)].adapting.find? (fun a => s.sol.cores.toList.any fun x => match x.bgJob with | some j => j.adapts 0 a.fin | none => false) = some anAdapt
    ∧ anAdapt.gen = s.lin.paths[(0 : Fin 64)].gen ∧ s.dp ≤ anAdapt.fin + 98304000 ∧ s.mode.cur = .full ∧ s.lin.paths[(0 : Fin 64)].blend = none := by decide +kernel
theorem wit_adapt_late : let s := { adapting with dp := 98304001 }
    s.lin.paths[(0 : Fin 64)].adapting.find? (fun a => s.sol.cores.toList.any fun x => match x.bgJob with | some j => j.adapts 0 a.fin | none => false) = some anAdapt
    ∧ s.lin.paths[(0 : Fin 64)].adapting.find? (fun a => decide (a.fin + 98304000 < s.dp)) = some anAdapt ∧ anAdapt.fin + 98304000 < s.dp := by decide +kernel

theorem wit_cal_run : ∀ m ∈ [0xFE, 0x7F0], ∃ (s : State) (x : Slot), let ps : List (Fin 64) := setBits (pf x.payload 0 0 64)
    let mask := (pf x.payload 8 0 16 : BitVec 16).toNat
    Served s cmd 0x48 x ∧ ps = [0] ∧ mask = m ∧ s.trafficGate = none ∧ s.inActive 0 = true ∧ s.inTraffic 0 = false ∧ (mask &&& 14 = 0 ∨ s.mode.cur = .calibrate)
    ∧ s.inTransition = false ∧ s.conv.run = none ∧ (s.obsOf 0).isSome = true := by
  intro m hm
  refine ⟨with_ 0x48 [(0, 0, 1), (8, 0, m)] 0 0 (live .calibrate), slotOf 0x48 [(0, 0, 1), (8, 0, m)], ?_⟩
  simp only [List.mem_cons, List.not_mem_nil, or_false] at hm
  rcases hm with rfl | rfl <;> unfold Served <;> intro _ _ <;> and_intros <;> decide +kernel

/-- A running CAL_RUN of path 0 with lending, whose calibration 0x05 is left. -/
def aRun : CalRun := { ref := ⟨0, 0⟩, paths := 1, mask := 0x20, lend := true, store := false, waiting := false, accepted := 8000000, all := [⟨5, 1, 0⟩], left := [⟨5, 1, 0⟩], busy := [(⟨5, 1, 0⟩, 1000)], failed := false, lentNow := 0 }
def running (s : State) : State := { s with cal := { Cal.reset with runs := [aRun] } }
theorem wit_lend : let s := running (celled live)
    s.cal.runs.find? (fun r => !r.waiting && r.lend && r.paths.getLsbD 0 && r.left.any fun k => k.path? == some 0 || (k.cls == 2 && k.idx == 0)) = some aRun
    ∧ s.radio.paths[(0 : Fin 64)].lent = false ∧ s.inTraffic 0 = true ∧ s.ym.now % subframe = 0 ∧ ceilTo subframe (aRun.accepted + 98304) ≤ s.ym.now := by decide +kernel
theorem wit_lend_lbist : let l : Lbist := { ref := ⟨0, 0⟩, target := 1, index := 0, addr := 0, lend := true, accepted := 8000000, fin := none, result := none }
    let s : State := { celled live with mem := { (live).mem with lbist := [l] } }
    s.cal.runs = [] ∧ s.radio.paths[(0 : Fin 64)].lent = false ∧ s.inTraffic 0 = true ∧ s.ym.now % subframe = 0 ∧ s.mem.lbist = [l] ∧ ceilTo subframe (l.accepted + 98304) ≤ s.ym.now := by
  decide +kernel
theorem wit_rejoin : let s := (live).modPath 0 fun y => { y with lent := true, st := .standby }
    s.radio.paths[(0 : Fin 64)].lent = true ∧ s.radio.paths[(0 : Fin 64)].st = .standby ∧ s.radio.paths[(0 : Fin 64)].transit = none ∧ s.ym.now % subframe = 0 ∧ s.cal.runs = []
    ∧ s.mem.lbist = [] := by decide +kernel

def aVal : CalVal := { key := ⟨5, 1, 0⟩, valid := true, now := [0], old := [0], target := [5], moving := true, step := 0, fromDp := 0, b := 0, waiting := none }
theorem wit_cal_complete : let k : CalKey := ⟨5, 1, 0⟩
    ((running { live with dp := 245761000 }).calForeground k (calTime 5) = true ∧ (running live).calForeground k 0 = true)
    ∧ (let s : State := { (live) with cal := { Cal.reset with partials := [⟨k, 400, 20000000⟩], vals := [aVal] } }
       s.calForeground k (calTime 5) = false ∧ s.calForeground k 0 = false ∧ s.calBackground k = true ∧ s.calVal? k = some aVal ∧ aVal.valid = true
         ∧ outlier 5 aVal.target [100] = false ∧ outlier 5 aVal.target [7000] = true) := by decide +kernel
theorem wit_cal_step : ({ (live) with cal := { Cal.reset with vals := [aVal] } } : State).calVal? ⟨5, 1, 0⟩ = some aVal ∧ aVal.waiting = none
    ∧ (let v : CalVal := { aVal with key := ⟨4, 1, 0⟩, waiting := some [7] }; let s : State := { (live) with cal := { Cal.reset with vals := [v] } }
       s.calVal? ⟨4, 1, 0⟩ = some v ∧ (⟨4, 1, 0⟩ : CalKey).path? = some 0 ∧ s.obsCapturing 0 = false) := by decide +kernel
theorem wit_cal_decision : let s := onePath .rx; let k : CalKey := ⟨4, 1, 0⟩; let t := s.modCalRec k fun r => { r with cfg := some s.cal.cfg }
    s.calDue k = true ∧ s.ym.events = [] ∧ s.cal.slots = [] ∧ s.cal.partials = [] ∧ t.calSubjectOk k = true ∧ t.calClash k (t.dpOf 9846784) (t.dpOf 9846784 + calLen 4) = false
    ∧ t.ym.now + 16384 ≤ 9846784 := by decide +kernel
/-- Synthesiser 1 is locked, its preset calibrated at 0 °C; its die is at 50 °C. -/
def tempered (s : State) : State :=
  let s := s.modSynth 1 fun y => { y with st := .locked, freq := 2000000, slot := 0, noPreset := false, presets := vmod y.presets 0 fun q => { q with valid := true, calTemp := 0 } }
  let hot (h : HkChan) : HkChan := { h with valid := true, code := 2000 }
  { s with sup := { s.sup with chan := vmod (vmod s.sup.chan 88 hot) 89 hot } }
theorem wit_cal_slot_path : let s := oneEvent .calSlot (.calSlot ⟨5, 1, 0⟩ 8192) (onePath .rx) ⟨1, 0⟩ (.internal .farrier)
    isNext s .calSlot = true ∧ s.calSubjectOk ⟨5, 1, 0⟩ = true ∧ s.calSlotFree (theEvent s) ⟨5, 1, 0⟩ 8192 = true ∧ s.calSlotCause 0 (s.dpOf (theEvent s).due) 8192 = none := by decide +kernel
theorem wit_cal_slot_paddock : let s := oneEvent .calSlot (.calSlot ⟨9, 2, 0⟩ 16384) (onePath .rx) ⟨2, 0⟩ (.internal .farrier)
    isNext s .calSlot = true ∧ s.calSubjectOk ⟨9, 2, 0⟩ = true ∧ s.calSlotFree (theEvent s) ⟨9, 2, 0⟩ 16384 = true := by decide +kernel
theorem wit_cal_slot_synth : let s := oneEvent .calSlot (.calSlot ⟨3, 3, 1⟩ 16384) (tempered (onePath .rx)) ⟨3, 1⟩ (.internal .farrier)
    isNext s .calSlot = true ∧ s.calSubjectOk ⟨3, 3, 1⟩ = true ∧ s.calSlotFree (theEvent s) ⟨3, 3, 1⟩ 16384 = true := by decide +kernel
theorem wit_cal_store : let r : CalRec := { key := ⟨5, 1, 0⟩, last := .ok, halted := false, stored := false, count := 1, atLast := none, tb0s := 0, tb0ns := 0, outRun := 0, failRun := 0, doneAt := 0, temp := 0, cfg := none }
    let s : State := { (live) with cal := { Cal.reset with recs := [r] } }
    (s.cal.recs.filter fun r => !r.stored && r.count != 0 && (s.calCfg r.key).autoStore) = [r] ∧ s.mode.cur ≠ .calibrate := by decide +kernel
theorem wit_cal_set : ∀ x ∈ [slotOf 0x49 [(0, 0, 0x0FF8), (2, 4, 10), (3, 0, 1), (4, 0, 63)]], Served (put live x) cmd 0x49 x ∧ (pf x.payload 2 4 4 : BitVec 4).toNat ≤ 10
    ∧ (pf x.payload 3 0 8 : BitVec 8) ≠ 0 ∧ (pf x.payload 0 0 16 : BitVec 16) &&& 0xF007 = 0 := by unfold Served; decide +kernel

theorem wit_tack : let w : TackWrite := { sector := 1, rec_ := .presets, cmd := some ⟨0, 0⟩, retried := true }
    ({ Tack.reset with queue := [w] } : Tack).pick 1 none = some 1545 ∧ w.retried = true ∧ w.cmd = some ⟨0, 0⟩ := by decide +kernel

theorem wit_burst_cfg : let x := slotOf 0x38 [(0, 0, 1), (8, 0, 6), (9, 0, 30), (11, 0, 10), (11, 4, 12)]
    Served (put live x) cmd 0x38 x ∧ (pf x.payload 0 0 32 : BitVec 32) = 1 ∧ (pf x.payload 8 0 3 : BitVec 3) = 6 ∧ (pf x.payload 11 4 4 : BitVec 4) = 12 ∧ (pf x.payload 11 0 4 : BitVec 4) = 10
    ∧ (pf x.payload 9 0 8 : BitVec 8) = 30 ∧ (put live x).ym.events = [] ∧ ∀ l : Fin 2, (put live x).burst.lanes[l].st = .search := by unfold Served; decide +kernel
theorem wit_burst_tx : let x := slotOf 0x39 [(1, 0, 3)] 0x40 (atOf 9850880); let s := put live x
    let b : BurstTxPar := { path := 0, nsym := 4, att := 0, pwr := 0, off := 0, user := 0 }
    Served s cmd 0x39 x ∧ x.atBad = false ∧ s.burstTxRefusal b = none ∧ Fits s [burstTxEvent b (s.eventDue x .burstTx)] := by unfold Served Fits; decide +kernel
theorem wit_burst_rx : let x := slotOf 0x3A [(0, 0, 1), (10, 0, 1)] 0x40 (atOf 9834496); let s := put live x
    Served s cmd 0x3A x ∧ x.atBad = false ∧ s.burstRxRefusal 1 1 0 = none ∧ Fits s [burstRxEvent 1 1 1 0 x.tag (s.eventDue x .burstRx)] := by unfold Served Fits; decide +kernel

/-- Lane 0 is in a state, with a window of path 0 open since cycle 10,000,000. Every sample is a detection. -/
def searched : State :=
  { (live) with burst := { Burst.reset with cfg := { BurstCfg.reset with detThr := 0 }, window := some ⟨1, 1, 9830400, 10000000, 10002048, 0, 0⟩ } }
def laneIn (st : LaneState) (trained : Bool := false) : State :=
  { searched with burst := { searched.burst with lanes := #v[{ Lane.idle with st := st, base := 10000000, trained := trained }, Lane.idle] } }
/-- Streams are what the configuration makes of the samples: the lanes do not matter. -/
theorem streams_lanes (s : State) (l : Vector Lane 2) (ps : BitVec 64) (off : BitVec 32) (t : Tick) (raw : List AdcIn) :
    ({ s with burst := { s.burst with lanes := l } } : State).burstStreams ps off t raw = s.burstStreams ps off t raw := rfl
theorem square_nonneg (a : Int) : 0 ≤ a * a := by
  rcases Int.le_total 0 a with h | h
  · exact Int.mul_nonneg h h
  · exact Int.mul_nonneg_of_nonpos_of_nonpos h h
theorem squares_nonneg (l : List (Int × Int)) : 0 ≤ (l.map power2).sum := by
  induction l with
  | nil => decide
  | cons z l ih => simp only [List.map_cons, List.sum_cons, power2]; have := square_nonneg z.1; have := square_nonneg z.2; omega
/-- With a threshold of 0 the first sample of a window is a detection, whatever was received. -/
theorem detects_zero (s : State) (h : s.burst.cfg.detThr = 0) (rs : List Sig) : s.detectsAt rs 0 = true := by
  have e := squares_nonneg (rs.map fun r => burstCorr r 0)
  rw [List.map_map] at e
  have e : 0 ≤ (burstMetric rs 0).1 := e
  simp only [State.detectsAt, State.detects, h]
  simp
  omega

/-- The two lanes hold candidates; timing and level of the candidate that is detected. -/
def inLanes (a b : Lane) : State := { searched with burst := { searched.burst with lanes := #v[a, b] } }
def candTime : Nat := burstTiming (searched.burstStreams 1 0 9830400 []) 0
def candLevel : Int := candidateLevel (searched.burstStreams 1 0 9830400 []) candTime
/-- A candidate ten samples later, in a state and of a level. -/
def another (st : LaneState) (level : Int) : Lane := { Lane.idle with st := st, base := 10000000, tc := candTime + 10, level := level }
theorem another_same (st : LaneState) (v : Int) : (another st v).same (10000000 + 32 * candTime) = false := by
  have h : (((10000000 + 32 * candTime : Nat) : Int) - ((another st v).at_ 0 : Nat)) / 32 % 64 = 54 := by simp only [another, Lane.at_]; omega
  simp only [Lane.same, h]; cases st <;> rfl
theorem wit_detection (a b : Lane) : let s := inLanes a b; let w : BurstWindow := ⟨1, 1, 9830400, 10000000, 10002048, 0, 0⟩; let rs := s.burstStreams w.paths w.off w.first []
    s.burst.window = some w ∧ w.openAt + 32 * (0 + 64) ≤ s.dp ∧ w.openAt + 32 * 0 < w.close ∧ s.detectsAt rs 0 = true ∧ burstTiming rs 0 = candTime ∧ candidateLevel rs candTime = candLevel :=
  ⟨rfl, by show 10002048 ≤ 20000000; decide, by decide, detects_zero _ rfl _, rfl, rfl⟩
/-- The five cases of a detection: both lanes free; one in HOLD; both in HOLD; a receiving lane with a stronger and with a weaker burst. -/
theorem wit_detection_lanes :
    (∀ k : Fin 2, (inLanes Lane.idle Lane.idle).burst.lanes[k].st = .search ∧ (Lane.idle).same (10000000 + 32 * candTime) = false)
    ∧ ((inLanes (another .hold 0) Lane.idle).burst.lanes[(0 : Fin 2)].st = .hold ∧ (inLanes (another .hold 0) Lane.idle).burst.lanes[(1 : Fin 2)].st = .search)
    ∧ (∀ k : Fin 2, (inLanes (another .hold 0) (another .hold 0)).burst.lanes[k].st = .hold)
    ∧ (let s := inLanes (another .sync candLevel) Lane.idle
       s.burst.lanes[(0 : Fin 2)].receiving = true ∧ s.burst.lanes[(1 : Fin 2)].st = .search ∧ candLevel < s.burst.lanes[(0 : Fin 2)].level + 2 * s.burst.cfg.capture.toNat)
    ∧ (let s := inLanes (another .train (candLevel - 60)) Lane.idle
       s.burst.lanes[(0 : Fin 2)].receiving = true ∧ s.burst.lanes[(1 : Fin 2)].st = .search ∧ s.burst.lanes[(0 : Fin 2)].level + 2 * s.burst.cfg.capture.toNat ≤ candLevel) := by
  have c : searched.burst.cfg.capture.toNat = 12 := by decide +kernel
  refine ⟨?_, ⟨rfl, rfl⟩, ?_, ⟨rfl, rfl, ?_⟩, ⟨rfl, rfl, ?_⟩⟩
  · intro k; exact ⟨by match k with | 0 => rfl | 1 => rfl, rfl⟩
  · intro k; match k with | 0 => rfl | 1 => rfl
  · show candLevel < candLevel + 2 * ((searched.burst.cfg.capture.toNat : Nat) : Int); rw [c]; omega
  · show candLevel - 60 + 2 * ((searched.burst.cfg.capture.toNat : Nat) : Int) ≤ candLevel; rw [c]; omega

/-- A sync word of three inverted chips, which a lane without paths, whose chips all read as sent, takes within three errors. -/
theorem wit_sync : let s (tol : BitVec 3) : State := { laneIn .hold with burst := { (laneIn .hold).burst with cfg := { (laneIn .hold).burst.cfg with syncWord := 7, syncTol := tol } } }
    let x (tol : BitVec 3) : Lane := (s tol).burst.lanes[(0 : Fin 2)]
    ((x 3).st = .hold ∧ (s 3).syncHypothesis ((s 3).laneStreams (x 3) []) (x 3).tc = some 0 ∧ (x 3).at_ (513 + 64 * 0) ≤ (s 3).dp)
    ∧ (s 2).syncHypothesis ((s 2).laneStreams (x 2) []) (x 2).tc = none ∧ (x 2).at_ 1281 ≤ (s 2).dp := by decide +kernel
theorem wit_lane :
    (((laneIn .sync).burst.lanes[(0 : Fin 2)]).st = .sync ∧ ((laneIn .sync).burst.lanes[(0 : Fin 2)]).at_ 513 ≤ (laneIn .sync).dp)
    ∧ (((laneIn .train).burst.lanes[(0 : Fin 2)]).st = .train ∧ ((laneIn .train).burst.lanes[(0 : Fin 2)]).at_ 1089 ≤ (laneIn .train).dp)
    ∧ ((laneIn .train true).burst.lanes[(0 : Fin 2)].trained = true ∧ ((laneIn .train true).burst.lanes[(0 : Fin 2)]).at_ (1089 + 288) ≤ (laneIn .train).dp)
    ∧ ((laneIn .decode).burst.lanes[(0 : Fin 2)].st = .decode ∧ 10002048 ≤ (laneIn .search).dp)
    ∧ (let s := celled live; let s : State := { s with burst := { s.burst with cfg := { s.burst.cfg with nfAvg := 0 } }, quality := vmod s.quality 0 fun q => { q with idle := vset q.idle 0 [9830400] } }
       s.ofdm.carriers[(0 : Fin 8)].cfg = some cell ∧ 2 ^ s.burst.cfg.nfAvg.toNat = 1 ∧ (s.quality[(0 : Fin 64)].idle[(0 : Fin 8)]).length = 1) := by decide +kernel

-- Witnesses: modes, power, clocks

/-- The transition from FULL to CALIBRATE that an untimed MODE_SET asks for. -/
def aMode : Transition :=
  { ref := ⟨0, 0⟩, target := .calibrate, parent := .bringup, drop := false, autoCal := false, bandA := 0, bandB := 0, start := 19660800, started := false, seamless := false, endDp := 0
    resume := 19660800, fromMode := .calibrate, removed := 0, faulted := false, redo := [], reseed := 0, calFree := 0 }
theorem wit_mode_set : let x := slotOf 0x10 [(0, 0, 7)]; let s := put live x
    let start := (s.dueOf x).getD (ceilTo (s.startGrid aMode.target) (s.ym.now + 491520))
    Served s cmd 0x10 x ∧ x.modeAsk (cmd).ref 0 = some { aMode with start := 0, resume := 0 } ∧ start = aMode.start ∧ x.atBad = false ∧ aMode.badArg = false ∧ start % s.startGrid aMode.target = 0 ∧ aMode.autoCal = false
    ∧ s.modeBusy = false ∧ s.pwr.st = .active ∧ s.counting = true ∧ (s.modePlan aMode).allowed = true
    ∧ Fits s [{ kind := .modeChange, due := start, res := { cls := 9, idx := 0 }, body := .modeChange }] := by
  unfold Served Fits; intro x s start; and_intros <;> decide +kernel
def changing (t : Transition) (s : State := live) : State := { s with mode := { s.mode with trans := some t } }
theorem wit_mode_release : let s := changing aMode (oneEvent .modeChange .modeChange { (live) with ym := { (live).ym with now := 0 } }); let s : State := { s with ym := { s.ym with now := 491520 } }; let u := s.removeEvent 0
    s.releasable 0 .modeChange = some (theEvent s) ∧ u.startRefusal aMode = none ∧ ({ u with pwr := { u.pwr with st := .idle } } : State).startRefusal aMode = some .notReady := by decide +kernel
theorem wit_mode_end : let t : Transition := { aMode with started := true, resume := 9830400, endDp := 20000000 }
    ({ t with faulted := true }.faulted = true ∧ t.started = true ∧ t.faulted = false ∧ t.resume ≤ (changing t).ym.now ∧ t.endDp ≤ (changing t).dp ∧ t.target ≠ .array)
    ∧ (let u : Transition := { t with target := .array, start := 9830400 }; let s : State := { changing u with ym := { (live).ym with now := 49152000 } }
       u.start + 4 * frameTicks ≤ s.ym.now ∧ s.arrayReady = false) := by decide +kernel
theorem wit_resume : let s : State := { (live) with pwr := { (live).pwr with resumeAt := some 9830400 } }
    s.pwr.resumeAt = some 9830400 ∧ s.pwr.resumeWake = false ∧ (9830400 : Int) ≤ s.ym.now ∧ s.host.top.safe = false ∧ s.pwr.st = .active ∧ s.pwr.step = .steady ∧ s.mode.cur ≠ .calibrate := by decide +kernel
theorem wit_mute : let x := slotOf 0x14 [(0, 0, 1), (8, 0, 6)]; let s := put live x
    Served s cmd 0x14 x ∧ x.atBad = false ∧ (setBits (pf x.payload 0 0 64) : List (Fin 64)) = [0] ∧ pb x.payload 8 2 = true ∧ s.radio.paths[(0 : Fin 64)].retired = false ∧ s.host.top.safe = false
    ∧ Fits s [muteEvent 0 true true false true (s.eventDue x .mute)] := by
  unfold Served Fits; intro x s; and_intros <;> decide +kernel

theorem wit_supply : (railsNeeded (live).pwr.st).getLsbD 8 = true ∧ (live).pwr.rails.getLsbD 8 = true ∧ 0 < phasesOf 1 ∧ (live).pwr.phasesOut = [] ∧ (live).pwr.spared = []
    ∧ (∃ x ∈ ({ (live).pwr with spared := [(1, 1)] } : Pwr).spared, x.1 = 1)
    ∧ (live).pwr.thermalMute = false ∧ (live).pwr.vin = true ∧ (live).pwr.thermalDeep = false ∧ (live).pwr.step = .steady := by decide +kernel
theorem wit_thermal_deep : let f (s : State) : State := let u := s.raiseFault .thermalDeep { cls := 9, idx := 0x3C0 }
      let t := u.postPwr 5 u.pwr.st 0 0 0
      { t with pwr := { t.pwr with thermalDeep := true, thermalSelf := !(t.wakeArmed .deep t.pwr.alarm.isSome) } }
    ((f live).pwr.st = .active ∧ (f live).pwr.step = .steady ∧ (f live).pwr.cmd = none) ∧ (f { (live) with pwr := { (live).pwr with st := .deep } }).pwr.st = .deep := by decide +kernel
/-- The power state and step. -/
def powered (f : Pwr → Pwr) (s : State := live) : State := { s with pwr := f s.pwr }
theorem wit_thermal_recovery : let s := powered fun p => { p with st := .deep, thermalDeep := true, thermalSelf := true }
    s.pwr.thermalDeep = true ∧ s.pwr.st = .deep ∧ s.pwr.step = .steady ∧ s.pwr.latch = none ∧ s.pwr.thermalSelf = true := by decide +kernel

/-- POWER_STATE into IDLE, DOZE, NAP and DEEP, the last two with an ALARM source armed by TRST-free wake pins. -/
theorem wit_power_state : ∀ q ∈ [(1, PwrState.idle), (2, .doze), (3, .nap), (4, .deep)], let x := slotOf 0x13 [(0, 0, q.1)]
    let s := put { powered (fun p => { p with wakeCfg := 8 }) with clk := { Clk.reset with aonXo := true } } x
    Served s cmd 0x13 x ∧ pb x.payload 1 0 = false ∧ pwrTarget (pf x.payload 0 0 3 : BitVec 3).toNat = some q.2 ∧ q.2 ≠ s.pwr.st ∧ q.2 ≠ .active ∧ s.mode.cur ≠ .array ∧ s.inTransition = false
    ∧ s.conv.run = none ∧ s.cal.runs = [] ∧ s.host.top.safe = false ∧ s.pwr.st.code ≤ q.2.code ∧ s.pwrNotReady q.2 false = false := by unfold Served; decide +kernel
theorem wit_power_active : let x := slotOf 0x13 []; let s := put (powered fun p => { p with st := .idle }) x
    Served s cmd 0x13 x ∧ (pf x.payload 0 0 3 : BitVec 3).toNat = 0 ∧ s.pwr.st ≠ .active ∧ s.inTransition = false ∧ s.pwrNotReady .active false = false := by unfold Served; decide +kernel
theorem wit_entry :
    (let s := powered fun p => { p with step := .beforeQ, target := .deep, qAt := 9830400 }
     s.pwr.step = .beforeQ ∧ (if s.counting then decide (s.pwr.qAt ≤ s.ym.now) else decide (s.pwr.stepDue ≤ s.dp)) = true)
    ∧ (let s := powered fun p => { p with step := .e1, target := .deep, stepDue := 20000000 }
       s.pwr.step = .e1 ∧ s.pwr.stepDue ≤ s.dp ∧ s.pwr.latch = none ∧ s.pwr.wakeCfgNext = none)
    ∧ (let s := powered fun p => { p with step := .e2, target := .deep }; s.tack.queue = [] ∧ s.shuIdle = true ∧ s.pwr.latch = none)
    ∧ (let s := powered fun p => { p with step := .e3, target := .nap }; s.pwr.keeper = false ∧ s.ym.now % 32 = 0 ∧ s.time.ppsOut = false)
    ∧ (let s := powered fun p => { p with step := .e3, target := .nap, keeper := true, stepDue := 20000000 }
       s.pwr.stepDue ≤ s.dp ∧ s.pwr.keeper = true ∧ s.pwr.latch = none ∧ s.pwr.wakeCfgNext = none)
    ∧ (let s := powered fun p => { p with step := .e4, target := .doze, cmd := some ⟨0, 0⟩ }; s.pwr.stepDue ≤ s.dp ∧ s.pwr.latch = none ∧ s.pwr.wakeCfgNext = none ∧ s.pwr.thermalSelf = false) := by
  decide +kernel
theorem wit_wake_pin : let s := powered fun p => { p with st := .deep, wakeCfg := 8 }
    true ≠ s.pwr.wakeCfg.getLsbD (4 * 0 + 1) ∧ s.wakeOk 1 = true ∧ s.pwr.step = .steady ∧ s.pwr.thermalDeep = false := by decide +kernel
theorem wit_wake_steps : (wakePlan .deep).map (fun x => x.1) = [1, 2, 3, 4, 5, 6, 7, 8]
    ∧ (let s := powered fun p => { p with st := .deep, step := .wake 2, stepDue := 20000000 }
       s.pwr.stepDue ≤ s.dp ∧ (wakePlan (s.wakeEffect 2).pwr.st).find? (fun x => 2 < x.1) = some (3, 1600) ∧ s.pwr.attempts < 4)
    ∧ (let s := powered fun p => { p with st := .idle, step := .wake 8, stepDue := 20000000 }
       s.pwr.stepDue ≤ s.dp ∧ s.pwr.st = .idle ∧ (wakePlan (s.wakeEffect 8).pwr.st).find? (fun x => 8 < x.1) = none) := by decide +kernel
theorem wit_wake_timeout : let s (n : Nat) := { powered (fun p => { p with st := .deep, step := .wake 3, attempts := n }) with dp := 200000000 }
    let t (n : Nat) := (List.finRange 64).foldl (fun (u : State) p => u.pathOff p) (State.deepLoss { s n with clk := { (s n).clk with pll := .off } })
    (s 3).pwr.step = .wake 3 ∧ (s 3).wakeLimit 3 ≤ (s 3).dp ∧ (t 3).pwr.attempts < 4 ∧ 4 ≤ (t 4).pwr.attempts := by decide +kernel
theorem wit_undo : let s := powered fun p => { p with step := .undo, stepDue := 20000000 }; s.pwr.step = .undo ∧ s.pwr.stepDue ≤ s.dp := by decide +kernel
theorem wit_wake_resume : let s := powered fun p => { p with resumeAt := some 9830400, resumeWake := true }
    s.pwr.resumeAt = some 9830400 ∧ s.pwr.resumeWake = true ∧ (9830400 : Int) ≤ s.ym.now ∧ s.host.top.safe = false ∧ s.mode.cur ≠ .calibrate ∧ s.pwr.st = .active ∧ s.pwr.step = .steady := by decide +kernel

theorem wit_cold : State.reset.pwr.vin = false
    ∧ (let s := powered (fun p => { p with step := .cold, bootStage := 1, attempts := 2 }) { (live) with clk := { Clk.reset with aonXo := true } }
       s.pwr.vin = true ∧ s.pwr.step = .cold ∧ s.clk.aonXo = true ∧ s.sec.recovery = false ∧ s.pwr.attempts < 3)
    ∧ (let s := powered fun p => { p with step := .cold, bootStage := 2 }; s.pwr.step = .cold ∧ s.pwr.bootStage = 2 ∧ s.pwr.memReady = true ∧ s.tack.queue = [])
    ∧ (let s := powered fun p => { p with step := .cold, bootStage := 5 }; s.pwr.bootStage = 5 ∧ ∀ i : Fin 2, (s.sup.conv[i]).cal = none ∧ (s.sup.conv[i]).calWait = []) := by decide +kernel

/-- Writes of the clock registers and of lane equalisation. -/
theorem wit_clock_writes : ∀ q ∈ [(0x080C, 0x80000000, 0x80000000), (0x080C, 0x20000000, 0x20000000), (0x0808, 4, 4), (0x0808, 3, 3), (0x1C04, 5, 31), (0x1C80, 5, 31)],
    let x := slotOf 3 [(0, 0, q.1), (4, 0, q.2.1), (8, 0, q.2.2)]
    Served (put live x) cmd 3 x ∧ (put live x).gatedReg (regAddr x.payload) = false ∧ regAddr x.payload = q.1 := by unfold Served; decide +kernel
/-- A clock monitor, a switch, the meter. -/
def clocked (f : Clk → Clk) : State := { (live) with clk := f Clk.reset }
theorem wit_monitors : (clocked id).windowCounts 4 = true ∧ (clocked id).clk.mon[(4 : Fin 11)] = (.unqualified, 0)
    ∧ (clocked fun k => { k with mon := vset k.mon 4 (.unqualified, 4095) }).windowCounts 4 = true ∧ (clocked fun k => { k with mon := vset k.mon 4 (.dead, 7) }).windowCounts 4 = true
    ∧ ((clocked id).monAt 9 ≠ .dead ∧ (clocked id).clk.busy = false ∧ (clocked id).clk.sw = []) := by decide +kernel
theorem wit_switch_ref : let y : ClkSwitch := ⟨.refIn, 2, 3, false⟩; let s := clocked fun k => { k with sw := [y], mon := vset k.mon 3 (.qualified, 0) }
    let t : State := { s with clk := { s.clk with sw := [], active := BitVec.ofNat 2 (y.dst - 1), switches := satInc s.clk.switches } }
    s.clk.sw = [y] ∧ s.monAt y.dst = .qualified ∧ (t.postClk 1 y.dst y.restart).pllAcquire.monAt y.dst = .qualified := by decide +kernel
theorem wit_switches : ∀ d ∈ [ClkDomain.dp, .cb, .aon], ((clocked fun k => { k with sw := [⟨d, 0, 1, false⟩] }).clk.sw.map fun y => y.domain) = [d] := by decide +kernel
theorem wit_pll : (clocked fun k => { k with pll := .acquire }).clk.pll = .acquire
    ∧ (let s : State := { clocked (fun k => { k with revertAt := some 0, mon := vset k.mon 2 (.qualified, 0), active := 2 }) with dp := 58982400000 }
       s.clk.revertAt = some 0 ∧ 0 + s.clk.cfg.hold.toNat * 983040000 ≤ s.dp ∧ s.monAt 2 = .qualified ∧ s.activeRef = 3 ∧ s.switching .refIn = false) := by decide +kernel
theorem wit_gates : (clocked id).clk.gated.contains 3 = false ∧ (clocked id).clk.gateReq.contains 3 = false ∧ (clocked fun k => { k with gateReq := [3] }).clk.gateReq.contains 3 = true
    ∧ (clocked fun k => { k with gateReq := [3] }).clk.gated.contains 3 = false
    ∧ (let s := clocked fun k => { k with busy := true, gateSel := 10, testSel := 10 }; s.clk.busy = true ∧ s.clk.gateSel.toNat ≤ 10 ∧ s.clk.testSel.toNat ≤ 10) := by decide +kernel

-- One step

/-- A clock that was clean in 4,095 windows is qualified by the next (R372). -/
theorem test_qualified : (match exec (.clockMonitorWindowEnd 4 true) (clocked fun k => { k with mon := vset k.mon 4 (.unqualified, 4095) }) with
    | .next t => t.clk.mon[(4 : Fin 11)].1 == .qualified | _ => false) = true := by decide +kernel
/-- Power-good leaves BRINGUP to come and pulls PCIE_CLKREQ_N low (R410, R570). -/
theorem test_power_good : (match exec (.powerGood 1 1 false) State.reset with | .next t => t.pwr.vin && t.pwr.step == .cold && t.pkg.clkreqLow | _ => false) = true := by decide +kernel

-- Witnesses: time

theorem wit_ref_cfg : let x := slotOf 0x68 [(0, 2, 2), (1, 7, 1), (3, 0, 1), (4, 0, 3600)]; let s := put live x; let k := refCfgOf x.payload
    Served s cmd 0x68 x ∧ s.refKnown k.pri = true ∧ s.refKnown k.sec = true ∧ k.pri ≠ k.sec ∧ k.fineTh ≠ 0 ∧ k.hold ≠ 0 ∧ k.hold.toNat ≤ 3600 ∧ s.switching .refIn = false
    ∧ s.clk.revertAt = none ∧ s.activeRef = 0 := by unfold Served; intro x s k; and_intros <;> decide +kernel
/-- TB0 takes its time from PPS_IN. -/
def pps (f : Time → Time := id) : State := { (live) with time := f { Time.reset with tb := vmod Time.reset.tb 0 fun b => { b with cfg := { b.cfg with source := 2 } } } }
theorem wit_tod : let x := slotOf 0x62 [(0, 0, 5)]; let s := put pps x
    Served s cmd 0x62 x ∧ s.time.tb[(0 : Fin 2)].cfg.source = 2 ∧ s.hitchMember = false := by unfold Served; decide +kernel
theorem wit_time_cfg : ∀ q ∈ [(0, 100, 1000, 3600), (1, 1, 10, 1)], let x := slotOf 0x60 [(0, 0, q.1), (0, 1, 1), (1, 0, 43), (2, 0, 255), (3, 0, q.2.1), (4, 0, q.2.2.1), (6, 0, 100), (8, 0, 50), (10, 0, q.2.2.2)]
    let s := put { (live) with ym := { (live).ym with air := .running } } x; let d : Fin 2 := if pb x.payload 0 0 then 1 else 0
    Served s cmd 0x60 x ∧ s.timeCfgBad d (timeCfgOf x.payload) = false ∧ s.ym.air ≠ .released ∧ s.hitchMember = false := by unfold Served; decide +kernel
theorem wit_time_dev : ∀ sel ∈ [0, 1], let x := slotOf 0x61 [(0, 0, sel), (1, 0, 100), (2, 0, 50000), (4, 0, 1000000)]
    let s := put { (live) with ym := Ym.reset } x; let p := x.payload
    Served s cmd 0x61 x ∧ (pf p 1 0 8 : BitVec 8).toNat = 100 ∧ (pf p 2 0 16 : BitVec 16).toNat = 50000 ∧ (pf p 4 0 32 : BitVec 32).toNat = 1000000 ∧ s.switchFits 1000000 = true
    ∧ s.ym.air ≠ .released ∧ (pb p 0 0 = s.time.sel ↔ sel = 0) := by unfold Served; decide +kernel

/-- Port 0 is UP and domain 0 takes PTP from it; its parent is the master of `b`. -/
def ptp (b : Bytes) (f : Tb → Tb := id) : State :=
  let s := (live).modPort 0 fun p => { p with st := .up }
  { s with time := { Time.reset with tb := vmod Time.reset.tb 0 fun y => f { y with
      cfg := { y.cfg with source := 1, ports := 1 }, parent := some 0, masters := [{ port := 0, data := b, heard := 0 }] } } }
/-- A PTP message of a type, of domain 24, of 64 bytes. -/
def ptpMsg (t : Byte) : Bytes := [t, 2, 0, 64, 24] ++ List.replicate 59 0
theorem wit_ptp : (∀ t ∈ [(0 : Byte), 8, 9, 11], let s := ptp (ptpMsg 11)
      s.receiving 0 = true ∧ s.fh.ports[(0 : Fin 8)].cfg.role ≠ 1 ∧ ptpVersion (ptpMsg t) = 2 ∧ s.ptpTb 0 (ptpMsg t) = some 0 ∧ ptpType (ptpMsg t) = t.toNat ∧ 64 ≤ (ptpMsg t).length
        ∧ s.time.tb[(0 : Fin 2)].fromParent 0 (ptpMsg t) = true)
    ∧ (ptp (ptpMsg 11) fun y => { y with sync := some (ptpSeq (ptpMsg 8), Q.zero, Q.zero) }).time.tb[(0 : Fin 2)].sync = some (0, Q.zero, Q.zero)
    ∧ (ptp (ptpMsg 11) fun y => { y with delayReq := some (0, Q.zero) }).time.tb[(0 : Fin 2)].delayReq = some (ptpSeq (ptpMsg 9), Q.zero)
    ∧ (let b := (ptpMsg 9).take 44 ++ [0, 0, 0, 0xFF, 0xFE, 0, 0, 0, 0, 1]; (b.drop 44).take 10 = beBytes 3 0 ++ [0xFF, 0xFE] ++ beBytes 3 0 ++ beBytes 2 1 ∧ 54 ≤ b.length) := by decide +kernel

theorem wit_time_progress :
    (let s : State := { ptp (ptpMsg 11) with dp := 29491200000 }; ∃ m ∈ s.time.tb[(0 : Fin 2)].masters, m.heard + 3 * ptpInterval (ptpLogInterval m.data) ≤ s.dp ∧ BitVec.ofNat 3 m.port = 0)
    ∧ (let b := (ptp (ptpMsg 11) fun y => { y with syncDst := some 0 }).time.tb[(0 : Fin 2)]
       b.parent = some 0 ∧ b.syncDst = some 0 ∧ b.reqAt = none ∧ (ptp []).receiving 0 = true)
    ∧ (let s : State := { ptp [] fun y => { y with st := .locked } with dp := 2 * tickHz }; s.time.tb[(0 : Fin 2)].st = .locked ∧ s.time.tb[(0 : Fin 2)].lastAt + 2 * tickHz ≤ s.dp ∧ s.hitchMember = false ∧ s.asleep = false)
    ∧ (let s : State := { ptp [] fun y => { y with st := .holdover } with dp := 300 * tickHz }; s.time.tb[(0 : Fin 2)].holdAt + s.time.tb[(0 : Fin 2)].cfg.holdMax.toNat * tickHz ≤ s.dp ∧ s.asleep = false)
    ∧ (let s := pps fun t => { t with bleed := some (0, 0) }; s.time.bleed.isSome = true ∧ s.bleedNow = 0)
    ∧ (let s := pps fun t => { t with anchorSec := -1 }; s.time.anchorSec < (if s.counting then (secNs s.tau3).1 else 0) ∧ s.asleep = false)
    ∧ (let s := pps fun t => { t with tod := some 5 }; s.time.tb[(0 : Fin 2)].cfg.source = 2 ∧ s.hitchMember = false ∧ s.time.ppsLast = none ∧ s.time.tod = some 5)
    ∧ (pps fun t => { t with ppsFall := some 20000000 }).time.ppsFall = some (live).dp := by
  refine ⟨⟨_, List.mem_cons_self .., ?_⟩, ?_, ?_, ?_, ?_, ?_, ?_, ?_⟩ <;> decide +kernel

-- Witnesses: fronthaul

/-- Port 0 is UP; carrier 0 of the one path is configured. -/
def aired (s : State := celled (tuned .tx)) : State := s.modPort 0 fun p => { p with st := .up }
/-- A Sarfaip message of a type, class and kind for frame 1, of slot `slot` and symbol `sym`, with its items. -/
def sar (typ cls kind slot sym : Nat) (items : List Bytes) : Bytes :=
  let body := items.flatten
  [0x10, BitVec.ofNat 8 typ] ++ beBytes 2 (12 + body.length) ++ beBytes 2 (1024 * cls) ++ [0, 0x80, BitVec.ofNat 8 (0x10 + kind), 1, BitVec.ofNat 8 (8 * slot), BitVec.ofNat 8 (16 * sym),
    BitVec.ofNat 8 items.length, 0, 0, 0] ++ body
def beamIt : Bytes := beBytes 2 3 ++ List.replicate 258 1
def burstIt (rx : Bool) : Bytes := [if rx then 0x80 else 0, 0] ++ beBytes 3 491520 ++ List.replicate 7 0 ++ beBytes 2 64 ++ [0, 0] ++ beBytes 8 1 ++ List.replicate 8 0
def secIt : Bytes := beBytes 2 9 ++ beBytes 2 0 ++ beBytes 2 (2 * 128 + 8) ++ [8, 0] ++ beBytes 4 1 ++ [0, 5, 0, 0]
def occIt : Bytes := [3, 0, 0, 0] ++ beBytes 2 0 ++ beBytes 2 (4 * 128)
def blkIt : Bytes := beBytes 2 9 ++ [0, 0] ++ beBytes 2 128 ++ [1, 0] ++ List.replicate 256 7
def hintIt : Bytes := beBytes 2 0 ++ beBytes 2 (2 * 128) ++ beBytes 4 1 ++ [6, 0, 0, 0]
def dataIt : Bytes := beBytes 2 0 ++ beBytes 2 (128 + 8 * 8) ++ List.replicate 28 0x11
/-- Just before slot `slot` of frame 1 by that many ticks. -/
def ahead (slot d : Nat) (s : State := aired) : State := { s with ym := { s.ym with now := 9830400 + 983040 * slot - d } }
/-- `Arrives` as a Bool, for a port that has received nothing yet. -/
def arrivesB (s : State) (p : Fin 8) (kind : Nat) (b : Bytes) (items : List Bytes) : Bool :=
  s.takesSar p && decide (16 ≤ b.length ∧ b.length = 4 + beAt b 2 2 ∧ byteAt b 0 / 16 = 1 ∧ byteAt b 8 % 16 = kind ∧ byteAt b 7 = 0x80) && sarClassified b
  && sarItems kind (byteAt b 12) (b.drop 16) == some items && s.fh.rxSeq == []
theorem arrives_of_arrivesB {s : State} {p : Fin 8} {kind : Nat} {b : Bytes} {items : List Bytes} (h : arrivesB s p kind b items = true) : Arrives s p kind b items := by
  simp only [arrivesB, Bool.and_eq_true, decide_eq_true_eq, beq_iff_eq] at h
  obtain ⟨⟨⟨⟨h1, h2, h3, h4, h5, h6⟩, h7⟩, h8⟩, h9⟩ := h
  exact ⟨h1, h2, h3, h4, h5, h7, h8, h6, fun x hx => by rw [h9] at hx; cases hx⟩

theorem wit_arrives : ([(8, sar 2 2 8 0 0 [], []), (7, sar 2 2 7 0 0 [beamIt], [beamIt]), (5, sar 2 2 5 0 0 [burstIt false], [burstIt false]), (1, sar 2 1 1 1 0 [secIt], [secIt]),
    (4, sar 2 2 4 1 0 [occIt], [occIt]), (6, sar 2 1 6 1 0 [blkIt], [blkIt]), (3, sar 2 2 3 1 0 [hintIt], [hintIt]), (2, sar 0 0 2 1 0 [dataIt], [dataIt])].all
      fun (q : Nat × Bytes × List Bytes) => arrivesB aired 0 q.1 q.2.1 q.2.2) = true
    ∧ (aired).counting = true ∧ (aired).fh.ports[(0 : Fin 8)].cfg.role = 0 := by decide +kernel
theorem wit_directive : (let m := sarOf (sar 2 2 5 0 0 [burstIt false]); let s := ahead 0 100000; let it := burstIt false
      let due : Tick := s.fullFrame m.frame * frameTicks + (beAt it 2 3 : Nat)
      let tx : BurstTxPar := { path := ⟨byteAt it 5 % 64, by omega⟩, nsym := byteAt it 0 % 4 + 1, att := BitVec.ofNat 8 (byteAt it 6), pwr := BitVec.ofNat 8 (byteAt it 7)
                               off := BitVec.ofNat 32 (beAt it 8 4), user := BitVec.ofNat 16 (beAt it 12 2) }
      beAt it 2 3 < 9830400 ∧ s.window 5 due = none ∧ byteAt it 0 < 128 ∧ s.burstTxRefusal tx = none ∧ Fits s [burstTxEvent tx due])
    ∧ (let m := sarOf (sar 2 2 5 0 0 [burstIt true]); let s := ahead 0 100000; let it := burstIt true
       let due : Tick := s.fullFrame m.frame * frameTicks + (beAt it 2 3 : Nat); let ps : BitVec 64 := BitVec.ofNat 64 (beAt it 16 8); let off : BitVec 32 := BitVec.ofNat 32 (beAt it 8 4)
       beAt it 2 3 < 9830400 ∧ s.window 5 due = none ∧ 128 ≤ byteAt it 0 ∧ s.burstRxRefusal ps (beAt it 12 2) off = none
         ∧ Fits s [burstRxEvent ps (byteAt it 0 % 4 + 1) (beAt it 12 2) off m.tag due]) := by
  unfold Fits; decide +kernel
theorem wit_slot_messages : let s := ahead 1 400000; let m := sarOf (sar 2 1 1 1 0 [secIt])
    s.counting = true ∧ s.ofdm.carriers[m.car].cfg = some cell ∧ (heard s m).outageAt m.car (s.slotTick m cell) = false ∧ m.slot < cell.slots ∧ s.slotTick m cell = 9830400 + 983040 := by decide +kernel
theorem wit_hint_message : let s := ahead 1 400000; let m := sarOf (sar 2 2 3 1 0 [hintIt]); let rs := [hintIt].map hintRange; let t := s.slotTick m cell
    s.ym.now < t ∧ rs = [(0, 2, [(0, 6)])] ∧ cell.dlLayers = 1 ∧ 2 ≤ cell.nRb ∧ s.window 3 t = none := by decide +kernel
theorem wit_data : let s := ahead 1 100000; let m := sarOf (sar 0 0 2 1 0 [dataIt]); let sym := s.slotTick m cell + symStart cell.scs30 m.sym; let us := [dataIt].map usecOf
    m.ul = false ∧ m.layer < cell.dlLayers.toNat ∧ m.sym < 14 ∧ (us.map fun v => (v.1, v.2.1.length)) = [(0, 1)] ∧ 1 ≤ cell.nRb ∧ s.delivered m.car m.layer sym = [] ∧ s.window 0 sym = none
    ∧ (s.fh.dlData.map fun (d : DlData) => d.size).sum + m.raw.length ≤ s.dlShare := by decide +kernel
theorem wit_section : let s := ahead 1 400000; let m := sarOf (sar 2 1 1 1 0 [secIt]); let x := s.sectionOf 0 m cell secIt
    s.sectionFits x cell = true ∧ s.ym.air = .released ∧ s.window 1 (x.slot + symStart cell.scs30 x.symFirst) = none ∧ x.source = .codebook [5] ∧ x.fallback = false ∧ Fits s (x.events cell) := by
  unfold Fits; decide +kernel
theorem wit_occasion : let s := ahead 1 400000; let m := sarOf (sar 2 2 4 1 0 [occIt]); let x := s.occasionOf m cell occIt
    x.valid cell = true ∧ s.ofdm.occasions = [] ∧ s.window 4 (x.slot + symStart cell.scs30 x.sym0) = none
    ∧ Fits s ((List.range x.nsym).map fun i => { kind := .sounding, due := x.slot + symStart cell.scs30 (x.sym0 + i), res := { cls := 4, idx := m.car.val }
                                                 body := .sounding x.id (x.sym0 + i) (symLen cell.scs30 (x.sym0 + i)) }) := by
  unfold Fits; decide +kernel
theorem wit_block : let s := ahead 1 400000; let m := sarOf (sar 2 1 6 1 0 [blkIt]); let w := wblockOf (blkIt.drop 4); let slot := s.slotTick m cell
    w.grp < cell.groups ∧ s.ym.air = .released ∧ s.heldBytes + blkIt.length ≤ 1048576 ∧ w.layer0 + w.layers.length ≤ cell.dlLayers.toNat ∧ s.fh.openSecs = [] ∧ s.ofdm.sections = [] ∧ s.window 1 slot ≠ some .early
    ∧ s.window 1 (slot + symStart cell.scs30 13) ≠ some .late ∧ s.fh.held = [] := by decide +kernel

/-- The C-plane and control share is full (R306): a message with a good item is dropped, one with none has nothing to store. -/
def full (s : State) : State :=
  { s with fh := { s.fh with held := [{ carrier := 1, ul := false, slot := 0, secId := 0, port := 0, block := { wblockOf (blkIt.drop 4) with layers := List.replicate 4096 [] } }] } }
theorem full_bytes (s : State) : (full s).heldBytes = 8 + 256 * 4096 := by
  simp only [full, State.heldBytes, List.map_cons, List.map_nil, List.sum_cons, List.sum_nil, List.length_replicate, Nat.add_zero]
theorem wit_share : let s := full (ahead 1 400000); let b := sar 2 2 4 1 0 [occIt]; let none_ := sar 2 2 4 1 0 []; let f (m : Sar) := fun (v : State) it => v.soundingItem 0 m cell true it
    Arrives s 0 4 b [occIt] ∧ (itemwise (f (sarOf b)) [occIt] (heard s (sarOf b))).1 = true ∧ Arrives s 0 4 none_ [] ∧ (itemwise (f (sarOf none_)) [] (heard s (sarOf none_))).1 = false
    ∧ 1048576 < (heard s (sarOf b)).heldBytes := by
  intro s b none_ f
  refine ⟨arrives_of_arrivesB (by decide +kernel), by decide +kernel, arrives_of_arrivesB (by decide +kernel), rfl, ?_⟩
  show 1048576 < (full (ahead 1 400000)).heldBytes
  rw [full_bytes]; decide

/-- FH_PORT_SET of port 1 at a speed on lane 3. -/
def portPay (speed fec : Nat) (maxFrame : Nat := 1518) : List (Nat × Nat × Nat) := [(0, 0, 1), (1, 0, speed), (2, 4, fec), (18, 0, maxFrame), (20, 0, 1), (21, 0, 1), (22, 0, 3)]
theorem wit_ports : (let x := slotOf 0x50 (portPay 1 0); let s := put live x; let k := portCfgOf x.payload
      Served s cmd 0x50 x ∧ (pf x.payload 0 0 3).toFin = (1 : Fin 8) ∧ s.portBad 1 k = false ∧ s.isUlPort 1 = false ∧ s.mode.cur ≠ .bringup ∧ k.speed ≠ 0 ∧ k.speed ≠ s.fh.ports[(1 : Fin 8)].cfg.speed)
    ∧ (let x := slotOf 0x50 (portPay 0 0); let s := (put live x).modPort 1 fun p => { p with cfg := { portCfgOf x.payload with speed := 1 }, st := .up }
       s.portBad 1 (portCfgOf x.payload) = false ∧ (portCfgOf x.payload).speed = 0 ∧ s.fh.ports[(1 : Fin 8)].st ≠ .disabled ∧ s.isUlPort 1 = false)
    ∧ (let x := slotOf 0x50 (portPay 1 0 9618); let s := (put live x).modPort 1 fun p => { p with cfg := { portCfgOf x.payload with maxFrame := 1518 }, st := .up }; let k := portCfgOf x.payload
       s.portBad 1 k = false ∧ k.speed = s.fh.ports[(1 : Fin 8)].cfg.speed ∧ k.fec = s.fh.ports[(1 : Fin 8)].cfg.fec ∧ k.lanes = s.fh.ports[(1 : Fin 8)].cfg.lanes) := by
  unfold Served; decide +kernel
theorem wit_port_again : let x := slotOf 0x50 (portPay 1 0); let s := (put live x).modPort 1 fun p => { p with st := .training, cfg := { portCfgOf x.payload with fec := 1 } }; let k := portCfgOf x.payload
    let u := ((s.lanesDown 1).modPort 1 fun p => { p with cfg := k }).reBackup 1 s.fh.ports[(1 : Fin 8)].cfg k
    s.portBad 1 k = false ∧ k.fec ≠ s.fh.ports[(1 : Fin 8)].cfg.fec ∧ u.fh.ports[(1 : Fin 8)].st = .training := by decide +kernel
theorem wit_window_set : ∀ o ∈ [10000, 1001], let x := slotOf 0x51 [(2, 0, o), (4, 0, 1000)]; let s := put live x
    Served s cmd 0x51 x ∧ toFin 6 (pf x.payload 0 0 3).toNat = some 0 ∧ (pf x.payload 2 0 16 : BitVec 16) ≠ 0 ∧ (pf x.payload 2 0 16 : BitVec 16).toNat ≤ 10000
    ∧ closeMin 0 s.hops ≤ (pf x.payload 4 0 16 : BitVec 16).toNat ∧ (pf x.payload 4 0 16 : BitVec 16).toNat < (pf x.payload 2 0 16 : BitVec 16).toNat := by unfold Served; decide +kernel
/-- A frame to the PTP address with an EtherType. -/
def frame (t : Nat) : Bytes := let b := beBytes 6 0x011B19000000 ++ beBytes 6 7 ++ beBytes 2 t ++ List.replicate 46 0; b ++ leBytes 4 (crc32 b).toNat
theorem wit_frames : ∀ t ∈ [0x88F7, 0xAEFE, 0x0800], let s := (aired).modPort 0 fun p => { p with cfg := { p.cfg with maxFrame := 1518 } }
    s.receiving 0 = true ∧ leBytes 4 (crc32 ((frame t).take ((frame t).length - 4))).toNat = (frame t).drop ((frame t).length - 4)
    ∧ (frame t).length ≤ s.fh.ports[(0 : Fin 8)].cfg.maxFrame.toNat ∧ s.fh.ports[(0 : Fin 8)].cfg.accepts (frame t) = some 12 ∧ beAt (frame t) 12 2 = t := by decide +kernel
/-- A delay measurement message of an action. -/
def dly (a : Byte) : Bytes := [0x10, 5, 0, 20, 9, a] ++ List.replicate 18 0
theorem wit_hitch_frame : let s := (aired).modPort 0 fun p => { p with cfg := { p.cfg with maxFrame := 1518, role := 1 } }
    s.receiving 0 = true ∧ s.fh.ports[(0 : Fin 8)].cfg.role = 1 ∧ s.fh.ports[(0 : Fin 8)].cfg.accepts (frame 0xAEFE) = some 12 := by decide +kernel
theorem wit_delay : ∀ a ∈ [(0 : Byte), 1, 5], let s : State := { aired with fh := { (aired).fh with delays := [{ port := 0, id := 9, stamp := 0, fin := 20000000 }] } }
    s.takesSar 0 = true ∧ byteAt (dly a) 0 / 16 = 1 ∧ byteAt (dly a) 1 = 5 ∧ 20 ≤ beAt (dly a) 2 2 ∧ (dly a).length = 4 + beAt (dly a) 2 2 ∧ byteAt (dly a) 5 = a.toNat
    ∧ (s.fh.delays.find? fun d => d.port == 0 && d.id == BitVec.ofNat 8 (byteAt (dly a) 4) && decide (s.dp ≤ d.fin)) = some { port := 0, id := 9, stamp := 0, fin := 20000000 } := by decide +kernel
theorem wit_orphan : let h : HeldBlock := { carrier := 0, ul := false, slot := 9830400, secId := 0, port := 0, block := wblockOf (blkIt.drop 4) }
    let s := ahead 0 0; let s : State := { s with fh := { s.fh with held := [h] }, ym := { s.ym with now := 11000000 } }
    s.fh.held[0]? = some h ∧ s.ofdm.carriers[h.carrier].cfg = some cell ∧ toFin 8 h.port = some (0 : Fin 8) ∧ s.counting = true ∧ s.window 1 (h.slot + symStart cell.scs30 13) = some .late
    ∧ (s.modCarrier 0 fun y => { y with cfg := none }).ofdm.carriers[h.carrier].cfg = none := by decide +kernel
theorem wit_egress : let s := sectioned true (aired); let s : State := { s with ym := { s.ym with now := 11000000 }, ofdm := { s.ofdm with sections := [{ sec true with released := [0] }] } }
    s.ofdm.carriers[(0 : Fin 8)].cfg = some cell ∧ (s.ulSections 0 cell 9830400).length = 1 ∧ s.chain = none ∧ 9830400 + symLen cell.scs30 0 ≤ s.ym.now := by decide +kernel
theorem wit_port_states : ((aired).modPort 0 fun p => { p with st := .training }).fh.ports[(0 : Fin 8)].st = .training ∧ (aired).pwr.st = .active ∧ (aired).fh.lanesRetired = 0
    ∧ (aired).fh.ports[(0 : Fin 8)].st = .up
    ∧ (let s := ((aired).modPort 0 fun p => { p with cfg := { p.cfg with revert := true }, onBackup := true }).modCarrier 0 fun y => { y with flow := { y.flow with port := 0, moved := some 1 } }
       s.fh.ports[(0 : Fin 8)].upSince + s.fh.ports[(0 : Fin 8)].cfg.holdoff.toNat * 98304000 ≤ s.dp
       ∧ ((List.finRange 8).filter fun c => (s.ofdm.carriers[c].flow.port == 0 && s.ofdm.carriers[c].flow.moved.isSome) && !(s.fh.egress.any fun (m : EgressMsg) => m.carrier == c.val)) = [0]) := by decide +kernel

-- Witnesses: the hitch

/-- Device `dev` of three in a chain: port 1 toward D0, port 2 away from it; both are UP. -/
def chained (dev : Nat) (f : Hitch → Hitch := id) (s : State := live .array) : State :=
  let up (p : Port) : Port := { p with st := .up, cfg := { p.cfg with role := 1, speed := 6 } }
  let s : State := { s with hit := f { Hitch.reset with members := 7, cfg := some { dev := dev, ndev := 3, upEn := dev != 0, upPort := 1, downEn := dev != 2, downPort := 2 } } }
  (s.modPort 1 up).modPort 2 up
/-- A hitch message of a kind for slot `slot` of frame 1. -/
def hop (kind : Nat) (body : Bytes) (slot : Nat := 0) : Bytes := [BitVec.ofNat 8 (0x10 + kind), 0, 0, 0] ++ beBytes 4 (slot * 8388608 + 1) ++ body
def zeros (n : Nat) : Bytes := List.replicate n 0

theorem wit_hit_set : ∀ n ∈ [2, 8], let x := slotOf 0x58 [(0, 0, 0), (1, 0, n), (3, 0, 2), (3, 7, 1)]
    let s := put { chained 0 id live with hit := Hitch.reset } x
    let p := x.payload; let k : HitCfg := { dev := (pf p 0 0 3 : BitVec 3).toNat, ndev := (pf p 1 0 4 : BitVec 4).toNat, upEn := pb p 2 7, upPort := pf p 2 0 3, downEn := pb p 3 7, downPort := pf p 3 0 3 }
    Served s cmd 0x58 x ∧ k.ndev = n ∧ k.dev = 0 ∧ k.upEn = false ∧ k.downEn = true ∧ s.fh.ports[k.downPort.toFin].cfg.role = 1 ∧ s.fh.ports[k.downPort.toFin].cfg.speed = 6
    ∧ s.mode.cur ≠ .array ∧ s.inTransition = false := by unfold Served; decide +kernel
theorem wit_from_above : ∀ q ∈ [(1, 12), (2, 28), (3, 4), (6, 4), (8, 4), (10, 40)], FromAbove (chained 1) 1 q.1 q.2 (hop q.1 (zeros q.2)) := by
  unfold FromAbove Hears; decide +kernel
theorem wit_from_below : ∀ q ∈ [(4, 8), (5, 4), (7, 35), (9, 0)], FromBelow (chained 1) 2 q.1 q.2 (hop q.1 (zeros q.2)) := by
  unfold FromBelow Hears; decide +kernel
theorem wit_keepalive : Hears (chained 1) 1 11 1 (hop 11 (zeros 1)) ∧ (chained 1).isUp 1 = true ∧ Hears (chained 1) 2 11 1 (hop 11 (zeros 1)) ∧ (chained 1).isUp 2 = false
    ∧ (chained 1).fh.ports[(1 : Fin 8)].st = .up ∧ (chained 1).fh.ports[(1 : Fin 8)].cfg.role = 1 ∧ (chained 1).hit.aliveOut[(1 : Fin 8)] = none := by unfold Hears; decide +kernel
theorem wit_hitch_time : ((chained 0).downPort = some 2 ∧ (chained 0).mode.cur = .array ∧ (chained 0).counting = true ∧ (chained 0).hit.timeOut = none)
    ∧ (let s := chained 1 fun h => { h with timeLock := true, timeAt := 20000000 - 9830400 }; s.isUp 1 = true ∧ s.hit.timeLock = true ∧ s.hit.timeAt + 9830400 ≤ s.dp)
    ∧ (let m := hitMsgOf (hop 10 (zeros 40)); byteAt m.body 0 / 16 = 0 ∧ (blk (BitVec.ofNat 136 (beAt m.body 20 17)) 28 3).toNat = 0) := by decide +kernel
theorem wit_member_lost : (let s := chained 1 fun h => { h with upMap := some 1 }; s.mode.cur = .array ∧ s.dev = 1 ∧ s.hit.cutOff = false ∧ s.isCutOff = true)
    ∧ (∀ d ∈ [0, 1], let s := chained d fun h => { h with belowMap := some 3 }; s.dev < 2 ∧ s.seenMembers.getLsbD 2 = true ∧ s.isLost 2 = true)
    ∧ (let s := chained 0 fun h => { h with leaving := some (4, 9830400) }; s.hit.leaving = some (4, 9830400) ∧ (9830400 : Int) ≤ s.ym.now) := by decide +kernel

theorem wit_psum : (∀ t ∈ [(9830400 : Tick), 19660800], let b := hop 4 (zeros 8); let s := celled (chained 1); let s : State := { s with ym := { s.ym with now := t } }; let m := hitMsgOf b
      FromBelow s 2 4 8 b ∧ s.ofdm.carriers[m.car].cfg = some cell ∧ psumPrbs (m.body.drop 8) (beAt m.body 4 2 / 128) = some [] ∧ (t = 9830400 ↔ t ≤ s.psumTime s.dev (s.psumSym m cell).2)) := by
  unfold FromBelow Hears; decide +kernel
/-- A group of the chain. -/
def agroup (solved : Option (Int × List (BitVec 32)) := none) (set : Option WSet := none) : ChainGroup :=
  { carrier := 0, ul := false, slot := 9830400, grp := 0, map := [(0, 0)], blk := 0, own := none, below := none, gramOut := false, solved := solved, set := set, readyBelow := false, readyOut := false }
theorem wit_gram_solve : let s := celled (chained 1 fun h => { h with groups := [agroup] })
    (let b := hop 5 ([0, 0, 1, 0] ++ zeros 6); let m := hitMsgOf b
     FromBelow s 2 5 4 b ∧ s.chainGroup? m.car m.ul (s.hitSlotOf m) (beAt m.body 0 2) = some agroup ∧ (agroup).map.length = byteAt m.body 2 ∧ 4 + 6 * byteAt m.body 2 * byteAt m.body 2 ≤ m.body.length)
    ∧ (let b := hop 6 ([0, 0, 1, 0] ++ zeros 4); let m := hitMsgOf b; let u := onward s fun d => s.hitSlot d 6 "SOLVE" m.ul m.car (s.hitSlotOf m) m.body
       FromAbove s 1 6 4 b ∧ 4 + 4 * byteAt m.body 2 * byteAt m.body 2 ≤ m.body.length ∧ u.chainGroup? m.car m.ul (s.hitSlotOf m) (beAt m.body 0 2) = some agroup ∧ (agroup).solved = none)
    ∧ (let b := hop 6 ([0, 1, 1, 0] ++ zeros 4); let m := hitMsgOf b; let u := onward s fun d => s.hitSlot d 6 "SOLVE" m.ul m.car (s.hitSlotOf m) m.body
       FromAbove s 1 6 4 b ∧ u.chainGroup? m.car m.ul (s.hitSlotOf m) (beAt m.body 0 2) = none)
    ∧ (s.hit.groups.filter fun (g : ChainGroup) => (ofBe (((hitMsgOf (hop 7 (zeros 34 ++ [1]))).body).take 35)).testBit g.grp) = [agroup] := by
  unfold FromBelow FromAbove Hears; decide +kernel
theorem wit_commit : ∀ k ∈ [(0 : Byte), 1, 2],
    let s := claimed (.waiting true 9830400 0 none) (celled (chained 1 fun h => { h with groups := [agroup none (some wset)] })); let s : State := { s with ofdm := { s.ofdm with confirmed := [wset] } }
    let b := hop 8 [0, 0, k, 0]; let m := hitMsgOf b; let u := onward s fun d => s.hitSlot d 8 "COMMIT" m.ul m.car (s.hitSlotOf m) m.body
    FromAbove s 1 8 4 b ∧ byteAt m.body 2 = k.toNat ∧ ((u.claim? m.car m.ul (s.hitSlotOf m) 0).map fun x => x.how) = some (.waiting true 9830400 0 none)
    ∧ ((u.chainGroup? m.car m.ul (s.hitSlotOf m) 0).bind fun g => g.set) = some wset ∧ u.newest m.car m.ul 0 none = some wset := by
  unfold FromAbove Hears; decide +kernel
theorem wit_psum_send : ∀ d ∈ [0, 1], let s := celled (chained d)
    let s : State := { s with ym := { s.ym with now := 19660800 }, ofdm := { s.ofdm with sections := [{ sec true with released := [0] }] } }
    s.ofdm.carriers[(0 : Fin 8)].cfg = some cell ∧ (s.ulSections 0 cell 9830400).length = 1 ∧ s.chain ≠ none ∧ s.psumTime s.dev (9830400 + symLen cell.scs30 0) ≤ s.ym.now := by decide +kernel
theorem wit_commit_send : (let s := claimed (.waiting true 9900000 0 (some wset)) (celled (chained 0))
      s.chain = some (0, 3) ∧ ((s.claim? 0 false 9830400 0).map fun x => x.how) = some (.waiting true 9900000 0 (some wset)) ∧ s.hit.committed = [] ∧ s.ym.now ≤ 9900000 - ((s.members : Int) - 1) * 1180)
    ∧ (let s := claimed (.waiting true 9832000 0 (some wset)) (celled (chained 0))
       s.chain = some (0, 3) ∧ ((s.claim? 0 false 9830400 0).map fun x => x.how) = some (.waiting true 9832000 0 (some wset)) ∧ 9832000 - ((s.members : Int) - 1) * 1180 < s.ym.now)
    ∧ (let s := claimed (.waiting true 9832000 0 none) (celled (chained 0))
       ((s.claim? 0 false 9830400 0).map fun x => x.how) = some (.waiting true 9832000 0 none) ∧ 9832000 - ((s.members : Int) - 1) * 1180 ≤ s.ym.now)
    ∧ (let s := claimed (.served wset) (celled (chained 0)); s.chain = some (0, 3) ∧ ((s.claim? 0 false 9830400 0).map fun x => x.how) = some (.served wset) ∧ s.hit.committed = [])
    ∧ (let s := claimed .beam (celled (chained 0)); s.chain = some (0, 3) ∧ ((s.claim? 0 false 9830400 0).map fun x => x.how) = some .beam ∧ s.hit.committed = [])
    ∧ (let s := claimed (.waiting true 9830400 0 none) (celled (chained 1)); s.isMember = true ∧ (9830400 : Int) ≤ s.ym.now
       ∧ ((s.claim? 0 false 9830400 0).map fun x => x.how) = some (.waiting true 9830400 0 none)) := by decide +kernel

-- Witnesses: supervision

/-- Converter 0 changes. -/
def conv0 (f : HkConv → HkConv) (s : State := live) : State := s.modConv 0 f
def chan0 (f : HkChan → HkChan) : State := { (live) with sup := { (live).sup with chan := vmod (live).sup.chan 0 f } }
theorem wit_conversion : (let s := conv0 fun k => { k with op := some { ch := 0, fmt := 0, samp := 0, fin := 20000000, sweep := true, cmd := none } }
      (∃ o, s.sup.conv[(0 : Fin 2)].op = some o ∧ o.fin ≤ s.dp ∧ o.ch = 0) ∧ s.sup.conv[(0 : Fin 2)].stop = [])
    ∧ ((chan0 id).sup.chan[(0 : Fin 184)].en = false)
    ∧ (∀ q ∈ [(0, true), (1, false), (2, false)], let s := chan0 fun h => { h with en := true, persist := 2, lo := 0, hi := 100, value := if q.2 then 50 else 200, code := if q.2 then 50 else 200, count := BitVec.ofNat 4 (q.1 - 1) }
       let h := s.sup.chan[(0 : Fin 184)]; h.en = true ∧ h.inside 0 = q.2 ∧ h.tripped = false ∧ (q.1 = 2 ↔ satInc h.count = h.persist)) := by
  refine ⟨⟨⟨_, rfl, ?_⟩, ?_⟩, ?_, ?_⟩ <;> decide +kernel
theorem wit_sweep_end : ∀ l ∈ [true, false], let k := (conv0 fun k => { k with run := true, loop := l, list := [(0, 0)], pos := 1 }).sup.conv[(0 : Fin 2)]
    k.run = true ∧ k.op = none ∧ k.cal = none ∧ k.list.length ≤ k.pos ∧ k.loop = l := by decide +kernel
theorem wit_converter : (let s := conv0 fun k => { k with powered := true }; let k := s.sup.conv[(0 : Fin 2)]; k.powered = true ∧ k.op = none ∧ k.run = false ∧ k.queue = [] ∧ k.cal = none ∧ k.idleAt + 394 < s.dp)
    ∧ (let s := conv0 fun k => { k with calWait := [some ⟨0, 0⟩] }; s.sup.conv[(0 : Fin 2)].calWait = [some ⟨0, 0⟩] ∧ s.hkCalReady 0 = true)
    ∧ (let s := conv0 fun k => { k with cal := some (some ⟨0, 0⟩, 20000000) }; s.sup.conv[(0 : Fin 2)].cal = some (some ⟨0, 0⟩, 20000000) ∧ 20000000 ≤ s.dp ∧ s.sup.conv[(0 : Fin 2)].calWait = []
       ∧ s.sup.conv[(1 : Fin 2)].calWait = [] ∧ s.sup.conv[(1 : Fin 2)].cal = none)
    ∧ (let s := conv0 fun k => { k with pin0 := true }; s.sup.conv[(0 : Fin 2)].powered = false ∧ s.sup.conv[(1 : Fin 2)].pin0 = false)
    ∧ (let s := conv0 fun k => { k with pin0 := true, powered := true }; (∀ j : Fin 2, s.sup.conv[j].pin0 = true ↔ j = 0) ∧ s.sup.conv[(0 : Fin 2)].powered = true) := by decide +kernel
theorem wit_seq_set : ∀ n ∈ [1, 64], let x := slotOf 0x80 [(1, 0, n)]; let s := put live x; let b := zeros (4 * n)
    Served s (cmd (some b)) 0x80 x ∧ 1 ≤ (pf x.payload 1 0 7 : BitVec 7).toNat ∧ (pf x.payload 1 0 7 : BitVec 7).toNat ≤ 64 ∧ (pf x.payload 8 0 6 : BitVec 6) = 0 ∧ s.sup.conv[(0 : Fin 2)].run = false
    ∧ ∀ e ∈ (List.range (pf x.payload 1 0 7 : BitVec 7).toNat).map (fun j => seqEntry b j), e < 1024 ∧ hkSuits 0 (e % 256) (BitVec.ofNat 2 (e / 256)) = true := by unfold Served; decide +kernel
theorem wit_cmp_set : ∀ ch ∈ [0, 63, 112, 175, 183], let x := slotOf 0x81 [(0, 0, ch), (1, 0, 15), (1, 6, 1), (1, 7, 1), (4, 0, 4095), (6, 0, 1)]; let s := put live x; let p := x.payload
    Served s cmd 0x81 x ∧ (pf p 0 0 8 : BitVec 8).toNat = ch ∧ hkSigned ch = false ∧ (pf p 2 0 16 : BitVec 16) ≤ pf p 4 0 16 ∧ (pf p 1 0 4 : BitVec 4) ≠ 0 ∧ (pf p 6 0 8 : BitVec 8) ≠ 0 := by
  unfold Served; decide +kernel
theorem wit_trigger : (let x := slotOf 0x82 [(0, 2, 1)]; let s := put (conv0 fun k => { k with list := [(0, 0)] }) x
      Served s cmd 0x82 x ∧ (pf x.payload 0 2 2 : BitVec 2) = 1 ∧ x.atBad = false ∧ s.sup.conv[(0 : Fin 2)].list ≠ [] ∧ x.timed = false ∧ s.sup.conv[(0 : Fin 2)].run = false ∧ s.sup.conv[(0 : Fin 2)].cal = none)
    ∧ (let x := slotOf 0x82 [(0, 2, 1)] 0x40 (atOf 10813440); let s := put (conv0 fun k => { k with list := [(0, 0)] }) x
       Served s cmd 0x82 x ∧ x.atBad = false ∧ x.timed = true ∧ Fits s [{ kind := .hkTrigger, due := s.eventDue x .hkTrigger, res := hkRes 0, body := .hkSweep 0 }])
    ∧ (let x := slotOf 0x82 [(0, 2, 2), (1, 0, 5)]; let s := put live x
       Served s cmd 0x82 x ∧ (pf x.payload 0 2 2 : BitVec 2) = 2 ∧ x.atBad = false ∧ hkSuits 0 (pf x.payload 1 0 8 : BitVec 8).toNat (pf x.payload 2 0 2) = true ∧ x.timed = false ∧ s.sup.conv[(0 : Fin 2)].hasPlace = true)
    ∧ (let x := slotOf 0x82 [(0, 2, 2), (1, 0, 5)] 0x40 (atOf 10813440); let s := put live x
       Served s cmd 0x82 x ∧ x.atBad = false ∧ x.timed = true
         ∧ Fits s [{ kind := .hkTrigger, due := s.eventDue x .hkTrigger, res := hkRes 0, body := .hkSpot 0 (pf x.payload 1 0 8 : BitVec 8).toNat (pf x.payload 2 0 2) }])
    ∧ (let x := slotOf 0x82 [(0, 2, 3)]; let s := put live x; Served s cmd 0x82 x ∧ (pf x.payload 0 2 2 : BitVec 2) = 3 ∧ s.sup.conv[(0 : Fin 2)].run = false)
    ∧ (let s := conv0 fun k => { k with run := true, op := some { ch := 0, fmt := 0, samp := 0, fin := 0, sweep := true, cmd := none } }; s.sup.conv[(0 : Fin 2)].run = true ∧ s.sup.conv[(0 : Fin 2)].op ≠ none) := by
  unfold Served Fits; and_intros <;> decide +kernel
theorem wit_hk_cal : ∀ m ∈ [1, 3], let x := slotOf 0x83 [(0, 0, m)]; let s := put live x
    Served s cmd 0x83 x ∧ (setBits (pf x.payload 0 0 2 : BitVec 2) : List (Fin 2)) ≠ [] ∧ ∀ ch : Fin 184, s.sup.chan[ch].en = false := by unfold Served; decide +kernel
theorem wit_clear_trips : (let x := slotOf 0x86 [(0, 0, 1), (8, 0, 1)]; let s := put (chan0 fun h => { h with tripped := true, hi := 100 }) x
      Served s cmd 0x86 x ∧ (pf x.payload 0 0 8 : BitVec 8) = 1 ∧ (pf x.payload 8 0 184 : BitVec 184) = 1 <<< 0 ∧ s.sup.chan[(0 : Fin 184)].tripped = true ∧ s.sup.chan[(0 : Fin 184)].inside 0 = true)
    ∧ (let x := slotOf 0x86 [(0, 0, 1), (8, 0, 1)]; let s := put live x
       Served s cmd 0x86 x ∧ (pf x.payload 8 0 184 : BitVec 184) ≠ 0 ∧ ∀ ch : Fin 184, (pf x.payload 8 0 184 : BitVec 184).getLsbD ch.val = true → s.sup.chan[ch].tripped = false) := by unfold Served; decide +kernel

theorem wit_out_set : ∀ op ∈ [1, 2, 3, 4], let x := slotOf 0x85 [(0, 0, 1), (8, 0, op), (10, 0, 5), (12, 0, 4095), (16, 0, 1023), (18, 0, 1)]; let s := put (live .calibrate) x; let p := x.payload
    Served s cmd 0x85 x ∧ outNamed p = some [0] ∧ (pf p 8 0 3 : BitVec 3) = BitVec.ofNat 3 op ∧ x.atBad = false ∧ s.outRetired 0 = false ∧ (pf p 10 0 16 : BitVec 16) ≤ pf p 12 0 16 ∧ (pf p 18 0 2 : BitVec 2) ≠ 0
    ∧ s.mode.cur = .calibrate := by unfold Served; decide +kernel
theorem wit_out_events : ∀ safe ∈ [true, false], let x := slotOf 0x85 [(0, 0, 1), (8, 0, 1), (10, 0, 5)]; let s := put (live .calibrate) x
    Fits s [{ kind := .outputSet, due := s.eventDue x .outputSet, res := outRes 0, body := .output 0 (if safe then 0 else pf x.payload 9 0 2) (if safe then 0 else pf x.payload 10 0 16) safe }] := by
  unfold Fits; intro b hb x s; cases b <;> and_intros <;> decide +kernel
theorem wit_clear_compliance : let x := slotOf 0x86 [(0, 0, 2), (8, 0, 1)]; let s := put live x
    Served s cmd 0x86 x ∧ (pf x.payload 0 0 8 : BitVec 8) = 2 ∧ (pf x.payload 8 0 64 : BitVec 64) ≠ 0 ∧ (pf x.payload 16 0 120 : BitVec 120) = 0 := by unfold Served; decide +kernel
theorem wit_outputs : Served (put live (slotOf 0x88 [(0, 7, 1)])) cmd 0x88 (slotOf 0x88 [(0, 7, 1)])
    ∧ (let s := (live).modOut (hbOf 0) fun o => { o with dwell := some 20000000 }; s.sup.out[hbOf 0].dwell = some 20000000 ∧ 20000000 ≤ s.dp)
    ∧ (let s := (live).modOut (hbOf 0) fun o => { o with now := 1 }; s.sup.out[hbOf 0].now ≠ 0 ∧ s.sup.out[hbOf 0].compliance = false)
    ∧ ((if (live).counting then (live).ym.now else ((live).dp : Int)) % 32 = 0 ∧ (live).sup.updAt ≠ some (live).dp)
    ∧ (∀ step ∈ [0, 1], let o : OutCh := { OutCh.reset true with valued := true, step := BitVec.ofNat 16 step }
       o.held = false ∧ o.compliance = false ∧ o.opSafe = false ∧ o.dwell = none ∧ o.valued = true ∧ o.gen = none ∧ (0 : Int) % ((o.period.toNat + 1 : Nat) * 32 : Int) = 0) := by
  unfold Served; and_intros <;> decide +kernel

-- Witnesses: the Shunter

/-- Channel 0 runs a program in host memory. -/
def runner (f : ShuChan → ShuChan := id) (s : State := live) : State :=
  s.modChan 0 fun _ => f { ShuChan.reset with st := .running, prog := 0x1000, wb := 0x2000, cmd := some ⟨0, 0⟩ }
theorem wit_shu_commands :
    (let x := slotOf 0x70 [(8, 0, 0x1000), (16, 0, 0x2000)]; let s := put live x
     Served s cmd 0x70 x ∧ (pf x.payload 8 0 64 : BitVec 64).extractLsb' 0 3 = 0 ∧ (pf x.payload 8 0 64 : BitVec 64).getLsbD 63 = false ∧ (pf x.payload 16 0 64 : BitVec 64).extractLsb' 0 3 = 0
       ∧ (pf x.payload 16 0 64 : BitVec 64).getLsbD 63 = false ∧ s.shu.chans[(0 : Fin 16)].st = .idle)
    ∧ (inProgArea 0x8000000002000000 = true ∧ inProgArea 0x800000000203FFF8 = true)
    ∧ (let x := slotOf 0x71 [(0, 0, 1)]; let s := put live x; Served s cmd 0x71 x ∧ ((setBits (pf x.payload 0 0 16 : BitVec 16) : List (Fin 16)).filter fun i => s.shu.chans[i].st != .idle) = [])
    ∧ (let x := slotOf 0x71 [(0, 0, 1)]; let s := put runner x; Served s cmd 0x71 x ∧ ((setBits (pf x.payload 0 0 16 : BitVec 16) : List (Fin 16)).filter fun i => s.shu.chans[i].st != .idle) = [0])
    ∧ (let x := slotOf 0x73 [(3, 0, 15), (4, 0, 1)] 0x40 (atOf 10813440); let s := put (onePath .tx) x
       Served s cmd 0x73 x ∧ (pf x.payload 3 0 4 : BitVec 4).toNat + (pf x.payload 4 0 5 : BitVec 5).toNat ≤ 16 ∧ 0 < (pf x.payload 4 0 5 : BitVec 5).toNat ∧ x.atBad = false ∧ s.inActive 0 = true
         ∧ s.obsOf 0 = some 0)
    ∧ Served (put live (slotOf 0x75 [(0, 0, 1)])) cmd 0x75 (slotOf 0x75 [(0, 0, 1)]) := by unfold Served; and_intros <;> decide +kernel
theorem wit_shu_load : ∀ q ∈ [(0, 8), (262136, 8)], let x := slotOf 0x72 [(0, 0, q.1), (4, 0, q.2)]; let s := put runner x
    Served s (cmd (some (zeros q.2))) 0x72 x ∧ (pf x.payload 0 0 32 : BitVec 32).toNat % 8 = 0 ∧ (pf x.payload 4 0 32 : BitVec 32).toNat % 8 = 0 ∧ (pf x.payload 8 0 3 : BitVec 3) = 0
    ∧ 0 < (pf x.payload 4 0 32 : BitVec 32).toNat ∧ (pf x.payload 0 0 32 : BitVec 32).toNat + (pf x.payload 4 0 32 : BitVec 32).toNat ≤ 262144
    ∧ ∀ i : Fin 16, s.shu.chans[i].st = .idle ∨ inProgArea s.shu.chans[i].prog = false := by unfold Served; decide +kernel
theorem wit_shu_capture : let x := slotOf 0x73 [(3, 0, 15), (4, 0, 1)] 0x40 (atOf 10813440); let s := put (onePath .tx) x
    Fits s [{ kind := .obsCapture, due := s.eventDue x .obsCapture, res := { cls := 5, idx := 0 }, body := .shuCapture 0 0 15 1 8192 0 }]
    ∧ (cdiv ((1 : Int) * 268435456) s.conv.fcN.toNat).toNat = 8192 := by unfold Fits; and_intros <;> decide +kernel
theorem wit_shu_captured : let u : ShuCap := { src := 0, first := 15, nslot := 1, flag := 3, ref := ⟨0, 0⟩ }
    let k : Capture := { path := 0, obs := 0, start := 19000000, fin := 19008192, gen := 0, clean := false, shu := some u, u := [], x := [], z := [], v0 := [], v1 := [] }
    let s : State := { (live) with lin := { (live).lin with caps := [k] } }
    (s.lin.caps.find? fun k => decide (k.fin ≤ s.dp) && (match k.shu with | some u => 48 + u.first == 63 | none => false)) = some k ∧ k.shu = some u
    ∧ (List.replicate 16384 (0 : BitVec 32)).length = 16384 * u.nslot := by
  intro u k s; exact ⟨by decide +kernel, rfl, List.length_replicate ..⟩

/-- Word 0 of an instruction. -/
def word0 (op sub : Nat) (v : Nat := 0) (last : Bool := false) : BitVec 64 := BitVec.ofNat 64 (op * 2 ^ 60 + b2n last * 2 ^ 59 + sub * 2 ^ 57 + v)
theorem wit_fetches : ([(ShuOp.waitAbs, word0 3 0), (.waitRel, word0 3 1 5), (.waitFlag, word0 3 2 63), (.waitDb, word0 3 3), (.sigEvent, word0 4 0 9), (.sigMsix, word0 4 1 31), (.sigSet, word0 4 2 63),
    (.sigClear, word0 4 3 63), (.loop, word0 2 0 (3 * 2 ^ 32 + 5))].all fun q => shuOpOf q.2 == some q.1 && q.2 &&& q.1.reserved == 0 && q.1.size == 1) = true
    ∧ ((runner).shu.chans[(0 : Fin 16)].st = .running ∧ (runner).shu.chans[(0 : Fin 16)].ending = none ∧ (runner).shu.chans[(0 : Fin 16)].pc = 0 ∧ (runner).shu.chans[(0 : Fin 16)].prog.getLsbD 63 = false
      ∧ (runner).shu.chans[(0 : Fin 16)].loops = [] ∧ 0 < loopTarget (word0 2 0 (3 * 2 ^ 32 + 5))) := by decide +kernel
theorem wit_fetch_host : ∀ last ∈ [true, false], Fetches (runner fun h => { h with pc := if last then 32767 else 32766 }) 0 (some [word0 4 2 63 last]) .sigSet [word0 4 2 63 last] := by
  unfold Fetches; intro l hl; refine ⟨?_, ?_, ?_, ?_, ?_, ?_, ?_⟩
  all_goals cases l <;> decide +kernel
theorem wit_fetch_area : let w := word0 3 3; let s := runner fun h => { h with prog := 0x8000000002000008 }; let s : State := { s with shu := { s.shu with prog := [(1, w)] } }
    Fetches s 0 none .waitDb [w] := by
  unfold Fetches; intro w s; refine ⟨?_, ?_, ?_, ?_, ?_, ?_, ?_⟩
  all_goals decide +kernel
/-- A MOVE of four bytes from host address 0x40 to 0x80. -/
def moveWords : List (BitVec 64) := [word0 1 0 4, 0x40, 0x80, 0]
theorem wit_move : Fetches runner 0 (some moveWords) .move moveWords ∧ moveBad ShuChan.reset moveWords = false
    ∧ (runner).moveData (moveSrc moveWords 0) (moveLen moveWords) (some [1, 2, 3, 4]) = (.inl [1, 2, 3, 4], runner) ∧ ((runner).moveData (moveSrc moveWords 0) (moveLen moveWords) none).1 = .inr 1 := by
  refine ⟨?_, ?_, rfl, rfl⟩
  · unfold Fetches; refine ⟨?_, ?_, ?_, ?_, ?_, ?_, ?_⟩
    all_goals decide +kernel
  · decide +kernel
theorem wit_flags_doorbells : ((runner).flagFor 0 3 false = false ∧ ({ runner with shu := { (runner).shu with flags := 8 } } : State).flagFor 0 3 false = true)
    ∧ (runner).shu.chans[(0 : Fin 16)].db = 0 ∧ (runner fun h => { h with db := 255 }).shu.chans[(0 : Fin 16)].db ≠ 0 ∧ (runner).counting = true := by decide +kernel
theorem wit_waits : (let h := (runner fun h => { h with st := .waiting, wait := some (.at_ 9830400) }).shu.chans[(0 : Fin 16)]
      h.st = .waiting ∧ h.waitEnd = none ∧ h.wait = some (.at_ 9830400) ∧ (9830400 : Int) ≤ (live).ym.now)
    ∧ (let s := runner fun h => { h with st := .waiting, wait := some (.flag 3 true), waitEnd := some 20000000 }; let s : State := { s with shu := { s.shu with flags := 8 } }
       s.shu.chans[(0 : Fin 16)].st = .waiting ∧ s.shu.chans[(0 : Fin 16)].waitEnd = some s.dp ∧ s.flagFor 0 3 true = true)
    ∧ (let h := (runner fun h => { h with st := .waiting, wait := some .doorbell, db := 1 }).shu.chans[(0 : Fin 16)]; h.wait = some .doorbell ∧ h.db ≠ 0)
    ∧ (let h := (runner fun h => { h with ending := some .ok }).shu.chans[(0 : Fin 16)]; h.st ≠ .idle ∧ h.ending ≠ none ∧ h.cmd = some ⟨0, 0⟩) := by decide +kernel

/-- Flag SET and then CLEAR in one tick: the flag stays 1 (R458). -/
theorem test_set_beats_clear : (match exec (.signalSetFlag 0 (some [word0 4 2 5])) runner with
    | .next t => (match exec (.signalClearFlag 0 (some [word0 4 3 5])) t with | .next u => u.shu.flags == 32 && u.shu.chans[(0 : Fin 16)].pc == 2 | _ => false) | _ => false) = true := by decide +kernel

-- Witnesses: solver jobs and images

/-- The key, payload and signature by which the images of these tests verify: what SHA3-384 and ML-DSA answer is not the model's (log entry on cryptography). -/
def Signed (b : Bytes) : Prop :=
  Config.sha3 ((b.drop 128).take 1952) = Config.romDigest 0 ∧ Config.sha3 (b.drop 5440) = (b.drop 32).take 48 ∧ Config.mldsaVerify ((b.drop 128).take 1952) (measure b) ctxImg ((b.drop 2080).take 3309) = true
/-- An image of a type with a payload of four bytes. -/
def image (t : Nat) : Bytes := leBytes 4 0x594E5031 ++ [1, BitVec.ofNat 8 t, 0, 0] ++ zeros 4 ++ leBytes 4 4 ++ [0xA1, 0] ++ leBytes 2 0x6464 ++ zeros 4 ++ leBytes 2 1 ++ zeros 5414 ++ zeros 4
theorem wit_verify : ∀ s : State, s.tack.svn = Vector.replicate 4 0 → ∀ t ∈ [1, 2, 3], Signed (image t) → s.verify (image t) t 5444 false = none := by
  intro s hs t ht ⟨h1, h2, h3⟩
  have hf : formatBad (image t) t 5444 = false := by clear h1 h2 h3; revert t; decide +kernel
  have hc : (hdr (image t) 18 2 != 0x6464 || !(hdr (image t) 16 1 == 0xA1 || hdr (image t) 16 1 == 0)) = false := by clear h1 h2 h3; revert t; decide +kernel
  have hk : hdr (image t) 6 1 % 4 = 0 := by clear h1 h2 h3; revert t; decide +kernel
  have hv : hdr (image t) 8 4 = 0 := by clear h1 h2 h3; revert t; decide +kernel
  have e1 : (Config.sha3 ((image t).drop 128 |>.take 1952) != Config.romDigest 0) = false := by rw [h1]; exact bne_self_eq_false _
  have e2 : (Config.sha3 ((image t).drop 5440) != ((image t).drop 32).take 48) = false := by rw [h2]; exact bne_self_eq_false _
  have e3 : (!Config.mldsaVerify (((image t).drop 128).take 1952) (measure (image t)) ctxImg (((image t).drop 2080).take 3309)) = false := by rw [h3]; rfl
  unfold State.verify
  rw [hs]
  simp only [hf, hc, hk, hv, e1, e2, e3, if_false, Bool.false_eq_true]
  clear h1 h2 h3 hf hc hk hv e1 e2 e3 hs; revert t; decide +kernel
theorem wit_solver_load : let x := slotOf 0x78 [(0, 0, 1), (16, 0, 5444)]; let s := put live x
    Served s (cmd (some (image 3))) 0x78 x ∧ (pf x.payload 0 0 2 : BitVec 2) = 1 ∧ (pf x.payload 8 0 6 : BitVec 6) = 0 ∧ s.kernelUsed 1 = false ∧ (pf x.payload 16 0 32 : BitVec 32).toNat = 5444 ∧ s.tack.readOnly = false
    ∧ s.tack.svn = Vector.replicate 4 0 := by
  unfold Served; decide +kernel
theorem wit_solver_test : let x := slotOf 0x7B [(0, 0, 0)]; let s := put ((live).modCore 8 fun m => { m with st := .spare }) x
    Served s (cmd (some (zeros 9216))) 0x7B x ∧ (pf x.payload 0 0 2 : BitVec 2) ≠ 3 ∧ s.sol.cores[(8 : Fin 9)].st = .spare ∧ s.sol.cores[(8 : Fin 9)].resetEnd = none ∧ s.coreTested 8 = false
    ∧ s.kernelReady (pf x.payload 0 0 2) = true := by unfold Served; decide +kernel
/-- A job waits. -/
def queued (k : JobKind) (bgt : Nat := 57344) (s : State := live) : State := { s with sol := { s.sol with ready := [{ kind := k, deadline := 0, budget := bgt, kernel := 0 }] } }
theorem wit_dispatch : (let s := queued (.weight 0 false 0 0 [] true 0); let m := s.sol.cores[(0 : Fin 9)]
      m.st = .inService ∧ m.resetEnd = none ∧ m.fgJob = none ∧ m.bgOn = false ∧ s.coreTested 0 = false ∧ s.nextFg = s.sol.ready.head? ∧ s.windowUsed 0 + 57344 ≤ 57344 ∧ s.mapUsable 0 [] 0 0 = true
        ∧ s.mapUsable 0 [(0, 0)] 0 0 = false)
    ∧ (let s := queued (.chain 0 0 false 0 0 [] 0); s.nextFg = s.sol.ready.head? ∧ s.sol.ready ≠ [])
    ∧ (let s := queued (.smoothing 0); s.nextFg = none ∧ s.sol.cores[(0 : Fin 9)].bgJob = none ∧ s.sol.ready.find? s.bgReady = s.sol.ready.head? ∧ s.sol.ready ≠ [])
    ∧ (let s := queued (.weight 0 false 0 0 [] true 0) 57345; ∃ j, s.nextFg = some j ∧ 57344 < s.windowUsed 0 + j.budget)
    ∧ ((live).modCore 0 fun m => { m with bgJob := some wjob }).sol.cores[(0 : Fin 9)].bgJob ≠ none := by
  refine ⟨?_, ?_, ?_, ⟨_, rfl, ?_⟩, ?_⟩ <;> decide +kernel
theorem wit_preempt : let s := queued (.weight 0 false 0 0 [] true 0) 100 (issuing true Bank.reset); s.sol.cores[(0 : Fin 9)].issues true = true ∧ s.sol.cores[(0 : Fin 9)].bg.rept = 0 ∧ s.nextFg ≠ none := by decide +kernel
/-- Core 0 holds a job that the vendor kernel may have ended. -/
def holding (j : Job) (ended : Option (BitVec 32)) : SolCore := ((live).modCore 0 fun m => { m with fgJob := some j, fgCyc := 68, ended := ended, prep := some wset }).sol.cores[(0 : Fin 9)]
theorem wit_exit : (let m := holding wjob (some 0); m.fgJob = some wjob ∧ m.ended = some 0)
    ∧ (let j : Job := { wjob with kernel := 0 }; let m := holding j none; m.fgJob = some j ∧ (m.ended.isNone && j.kernel == 0 && decide (j.budget ≤ m.fgCyc + 32)) = true)
    ∧ (let j : Job := { kind := .chain 0 0 false 0 0 [] 0, deadline := 0, budget := 100, kernel := 0 }; let m := holding j none
       m.fgJob = some j ∧ m.prep = some wset ∧ (m.ended.isNone && j.kernel == 0 && decide (j.budget ≤ m.fgCyc + 32)) = true) := by decide +kernel
theorem wit_exit_test : let j : Job := { kind := .test ⟨0, 0⟩ 0 false, deadline := 0, budget := 100, kernel := 0 }
    let m := ((live).modCore 8 fun m => { m with fgJob := some j, ended := some 0 }).sol.cores[(8 : Fin 9)]; m.fgJob = some j ∧ m.ended = some 0
    ∧ (let m := holding j none; m.fgJob = some j ∧ (m.ended.isNone && j.kernel == 0 && decide (j.budget ≤ m.fgCyc + 32)) = true) := by decide +kernel
theorem wit_core_faults : (let m := (issuing false Bank.reset).sol.cores[(0 : Fin 9)]; m.resetEnd = none ∧ m.fgJob ≠ none)
    ∧ (let m := ((live).modCore 0 fun m => { m with fgJob := some wjob, fgCyc := 356 }).sol.cores[(0 : Fin 9)]; m.fgJob = some wjob ∧ m.ended = none ∧ wjob.budget + 256 ≤ m.fgCyc)
    ∧ (let s := (live).modCore 0 fun m => { m with resetEnd := some 20000000 }; s.sol.cores[(0 : Fin 9)].resetEnd = some s.dp ∧ s.host.arb.held = []) := by decide +kernel

-- Witnesses: memories and tests

theorem wit_march_run : ∀ q ∈ [(0, 0, 128), (7, 15, 1), (5, 0, 9)], let x := slotOf 0x90 [(0, 0, q.1), (2, 0, q.2.1), (4, 0, q.2.2)]; let s := put (live .calibrate) x; let p := x.payload
    Served s cmd 0x90 x ∧ (pf p 2 0 16 : BitVec 16).toNat + (pf p 4 0 16 : BitVec 16).toNat ≤ memBanks (pf p 0 0 3 : BitVec 3).toNat ∧ 0 < (pf p 4 0 16 : BitVec 16).toNat ∧ pb p 1 1 = false
    ∧ s.marchRefused (pf p 0 0 3 : BitVec 3).toNat false = false ∧ s.inTransition = false ∧ s.conv.run = none := by unfold Served; decide +kernel
theorem wit_march_free : let x := slotOf 0x90 []; let s := put (live .calibrate) x; Served s cmd 0x90 x ∧ (pf x.payload 4 0 16 : BitVec 16).toNat = 0 := by unfold Served; decide +kernel
theorem wit_lbist_run : ∀ q ∈ [(0, 0), (1, 63), (3, 7)], let x := slotOf 0x91 [(0, 0, q.1), (1, 0, q.2), (8, 0, 8)]; let s := put (live .calibrate) x
    Served s cmd 0x91 x ∧ lbistRange q.1 q.2 = true ∧ (pf x.payload 0 0 2 : BitVec 2).toNat = q.1 ∧ (pf x.payload 1 0 8 : BitVec 8).toNat = q.2 ∧ (pf x.payload 8 0 64 : BitVec 64).extractLsb' 0 3 = 0
    ∧ s.lbistRefused q.1 q.2 (pb x.payload 2 0) = false := by unfold Served; decide +kernel
theorem wit_path_retire : (let x := slotOf 0x94 [(0, 0, 1), (8, 0, 1)]; Served (put live x) cmd 0x94 x ∧ (pf x.payload 8 0 8 : BitVec 8) = 1 ∧ (pf x.payload 0 0 64 : BitVec 64) ≠ 0)
    ∧ (let x := slotOf 0x94 [(0, 0, 1), (8, 0, 2)]; let s := put (live .calibrate) x
       Served s cmd 0x94 x ∧ (pf x.payload 8 0 8 : BitVec 8) = 2 ∧ (setBits (pf x.payload 0 0 64 : BitVec 64) : List (Fin 64)) = [0] ∧ s.mode.cur = .calibrate ∧ s.radio.synths[synthOf (paddockOf 0) false].st ≠ .retired) := by
  unfold Served; decide +kernel
/-- A march of bank 3 whose last bank ends now. -/
def aMarch : March :=
  { ref := ⟨0, 0⟩, memory := 0, first := 3, count := 1, ss := false, destroy := false, repair := true, waiting := false, todo := [], run := [{ bank := 3, start := 0, fin := 20000000 }], failing := 0, repairs := 0, unrepaired := false }
def marching : State := { (live) with mem := { (live).mem with marches := [aMarch] } }
theorem wit_bank_end : (marching.mem.marches.find? fun m => m.ref == (⟨0, 0⟩ : CmdRef) && m.run.any fun x => x.bank == 3 && decide (x.fin ≤ marching.dp)) = some aMarch
    ∧ ((marching.bankTested 3 [] true).1.mem.marches.find? fun m => m.ref == (⟨0, 0⟩ : CmdRef)) = some aMarch := by decide +kernel
theorem wit_lbist_end : ∀ lent ∈ [true, false],
    let l : Lbist := { ref := ⟨0, 0⟩, target := 1, index := 1, addr := 0, lend := lent, accepted := 0, fin := some 20000000, result := none }
    let s : State := { (live .lean).modPath 1 (fun y => { y with lent := lent }) with mem := { (live).mem with lbist := [l] } }
    (s.mem.lbist.find? fun l => l.target == 1 && l.index == 1 && l.result.isNone && (match l.fin with | some t => decide (t ≤ s.dp) | none => false)) = some l
    ∧ (s.lbistReload 1 1).radio.paths[(1 : Fin 64)].lent = lent := by decide +kernel
theorem wit_mem_live : (live).memLive = true ∧ 255 < bankRows 0 ∧ (live).mem.patrolAt + 9830400000 ≤ ({ (live) with dp := 9830400000 } : State).dp
    ∧ (powered fun p => { p with step := .cold, bootStage := 2, memReady := false }).pwr.memReady = false := by decide +kernel

-- Witnesses: boot, identity, the test access port

theorem wit_boot : let s := powered fun p => { p with step := .cold, bootStage := 3 }
    s.pkg.testMode = false ∧ s.pwr.bootStage = 3 ∧ (s.bootPair 1 0 1 s.tack.fwPrefB).1 = none := by decide +kernel
/-- The device at verification of its images, with the image of a type in a slot. -/
def stored (l : List (Fin 6 × Nat)) : State :=
  let s := powered fun p => { p with step := .cold, bootStage := 3 }
  { s with tack := { s.tack with images := l.foldl (fun v q => vset v q.1 (some { bytes := image q.2 })) s.tack.images } }
theorem wit_boot_images : Signed (image 1) → Signed (image 2) → (stored [(0, 1), (2, 2)]).verifySlot 0 1 = none ∧ (stored [(0, 1), (2, 2)]).verifySlot 2 2 = none := by
  intro h1 h2
  have e1 := wit_verify (stored [(0, 1), (2, 2)]) (by decide +kernel) 1 (by decide) h1
  have e2 := wit_verify (stored [(0, 1), (2, 2)]) (by decide +kernel) 2 (by decide) h2
  have k1 : (stored [(0, 1), (2, 2)]).tack.images[(0 : Fin 6)] = some { bytes := image 1 } := rfl
  have k2 : (stored [(0, 1), (2, 2)]).tack.images[(2 : Fin 6)] = some { bytes := image 2 } := rfl
  have l1 : (image 1).length = 5444 := by decide +kernel
  have l2 : (image 2).length = 5444 := by decide +kernel
  have b : (stored [(0, 1), (2, 2)]).sec.slotBad = 0 := by decide +kernel
  unfold State.verifySlot
  rw [k1, k2, b]
  exact ⟨by rw [← e1]; simp only [l1]; rfl, by rw [← e2]; simp only [l2]; rfl⟩
theorem wit_image_load : ∀ t ∈ [1, 2], let x := slotOf 0x98 [(0, 0, t), (16, 0, 5444)]; let s := put live x; let p := x.payload
    s.slot? (cmd).ref = some x ∧ x.stage = .started ∧ x.opcode = 0x98 ∧ entryOk x.entry p = true ∧ (pf p 0 0 2 : BitVec 2).toNat = t ∧ (pf p 8 0 6 : BitVec 6) = 0
    ∧ s.busyOps (cmd).ref [0x98, 0x99] = false ∧ s.tack.svn = Vector.replicate 4 0 ∧ s.tack.readOnly = false ∧ s.verify (zeros 5444) t (pf p 16 0 32 : BitVec 32).toNat s.tack.readOnly = some 1 := by decide +kernel
theorem wit_rollback : ∀ q ∈ [(0, 0), (0, 1), (3, 3)], let x := slotOf 0x99 [(0, 0, q.1), (4, 0, q.2)]; let s := put live x
    Served s cmd 0x99 x ∧ ¬ (pf x.payload 4 0 32 : BitVec 32) < s.tack.svn[((pf x.payload 0 0 2 : BitVec 2).toFin : Fin 4)] ∧ (pf x.payload 4 0 32 : BitVec 32).toNat = q.2 ∧ s.busyOps (cmd).ref [0x98, 0x78] = false
    ∧ (∀ k : Fin 6, s.tack.images[k] = none) := by unfold Served; decide +kernel
/-- The device has an identity. -/
def identified : State := { (live) with tack := { (live).tack with pub := some ([], []) } }
theorem wit_identity : (let x := slotOf 0x9C [(8, 0, 8)]; let s := put (live .calibrate) x
      Served s cmd 0x9C x ∧ (pf x.payload 8 0 64 : BitVec 64).extractLsb' 0 3 = 0 ∧ s.tack.pub = none ∧ s.tack.queue = [] ∧ s.mode.cur = .calibrate)
    ∧ (∀ n ∈ [1, 8192], let x := slotOf 0x9D [(16, 0, n)]; let s := put identified x
       Served s (cmd (some [])) 0x9D x ∧ (pf x.payload 16 0 32 : BitVec 32) ≠ 0 ∧ (pf x.payload 16 0 32 : BitVec 32).toNat ≤ 8192 ∧ s.tack.pub ≠ none ∧ s.tack.cert = none ∧ s.tack.queue = [])
    ∧ (let x := slotOf 0x9B [(8, 0, 8)]; let s := put identified x; Served s cmd 0x9B x ∧ (pf x.payload 8 0 64 : BitVec 64).extractLsb' 0 3 = 0 ∧ s.tack.pub = some ([], []))
    ∧ (let x := slotOf 0x9A [(32, 0, 8)]; let s := put identified x; Served s cmd 0x9A x ∧ (pf x.payload 32 0 64 : BitVec 64).extractLsb' 0 3 = 0 ∧ s.tack.pub = some ([], []))
    ∧ (let x := slotOf 0x9A [(32, 0, 4)]; let s := put identified x; Served s cmd 0x9A x ∧ (pf x.payload 32 0 64 : BitVec 64).extractLsb' 0 3 ≠ 0 ∧ s.tack.pub = some ([], [])) := by
  unfold Served; and_intros <;> decide +kernel

/-- The test access port in a controller state. -/
def tapAt (t : TapState) (i : TapInstr := .idcode) : State := { (live) with pkg := { (live).pkg with tap := t, tapInstr := i } }
theorem wit_tap : (∀ t ∈ [TapState.shiftDr, .shiftIr, .capDr, .updIr, .updDr, .idle], (tapAt t).pkg.tap = t ∧ (tapAt t).pwr.vin = true ∧ (tapAt t).pkg.tapInstr = .idcode ∧ (tapAt t).pkg.testMode = false)
    ∧ (tapAt .capDr .bypass).pkg.tapInstr = .bypass := by decide +kernel
/-- Capture-DR under IDCODE takes the 32 bits of R569's code, its bit 0 next to TDO. -/
theorem test_idcode : (match exec (.tapTckEdge true true false false) (tapAt .capDr) with
    | .next t => t.pkg.drShift.length == 32 && t.pkg.drShift.head? == some true && t.pkg.tap == .shiftDr | _ => false) = true := by decide +kernel

-- Witnesses: the queue and the invariant

theorem wit_front : ({ (live) with pending := [.trstNAssert, .slewUpdate] } : State).pending = [.trstNAssert, .slewUpdate] ∧ (live).pending = [] ∧ State.reset.pending = [] ∧ State.reset.pwr.vin = false := by decide +kernel
theorem wit_kept : Kept { (live) with pending := [.trstNAssert] } ∧ step { (live) with pending := [.trstNAssert] } = exec .trstNAssert live := by
  refine ⟨?_, rfl⟩; unfold Kept TapOk; decide +kernel

-- The sample datapath

/-- At the default Fc an offset of 15 kHz is exact: 1/131,072 of Fc/2 (R116). -/
theorem test_nco_word : ncoWord 150 32768 = 0x80000000 ∧ ncoWord (-150) 32768 = 0xFFFF80000000 := by decide +kernel
/-- The worked example of chapter 04: at FC_N 33,408 the stage loads 0.0866 tick in TX and the whole ticks are 193. -/
theorem test_tx_delay : (delayQ 110 158 33408 4 0).floor = 193 ∧ (delayFraction 110 158 33408 4).le (Q.make 867 10000) = true ∧ (Q.make 865 10000).le (delayFraction 110 158 33408 4) = true := by decide +kernel
/-- Converters: extreme codes beyond full scale (R106), halves to even and saturation (R107). -/
theorem test_converters : adcWord 9000 = (0x7FFC, true) ∧ adcWord (-8192) = (0x8000, false) ∧ dacCode 32767 = (8191, true) ∧ dacCode 6 = (2, false) ∧ dacCode 2 = (0, false) := by decide +kernel
/-- Basis functions of Table 8-2 at both depths, and the shift of R223: 2(k_j − k_p) at the default Fc. -/
theorem test_dpd_terms : ownTerm false 52 = ⟨0, -2, 2⟩ ∧ ownTerm true 47 = ⟨5, 5, 4⟩ ∧ ownTerm true 63 = ⟨1, 3, 2⟩ ∧ neighbourShift 0 7 32768 = 14 := by decide +kernel
/-- A burst of four payload symbols has 3,264 samples (Table 7-1); the guard repeats the symbol's end (R193). -/
theorem test_burst_fields : burstSamples 4 = 3264 ∧ burstField 1 1536 = some (.long, 0) ∧ longIndex 0 = 192 ∧ payloadIndex 288 = (1, 224) ∧ longSign 0 = -1 := by decide +kernel

end Sys2Proof.Tests
end

section
/-! What PHASE_SYNC does in each of its cases (R60, R61, R323), and the statement assembled from them. -/

namespace Sys2Proof.Laws

open Sys2Proof Sys2Proof.Machine Sys2Proof.Claims

/-- The one event of a PHASE_SYNC that is due at `d` (R60). -/
def phaseEvs (d : Tick) : List NewEv := [{ kind := .phaseSync, due := d, res := { cls := 9, idx := 0 }, body := .phaseSync }]

/-- Where a PHASE_SYNC lies: at the air time it names, or at the first grid point in reach (R60, R61). -/
def phaseDue (s : State) (x : Slot) : Tick :=
  match s.dueOf x with | some d => d | none => ceilTo 32 (s.ym.now + 2048 + s.phaseReach)

/-- D0 of an array sends an accepted PHASE_SYNC down its chain (R323). -/
def forwardPhase (d : Tick) (s : State) : State :=
  match s.mode.cur, s.hit.cfg with
  | .array, some h => s.emit (.fhSend h.downPort.toNat "PHASE_SYNC" (beBytes 8 (airWord d).toNat))
  | _, _ => s

variable {s : State} {c : Cmd} {x : Slot} {d : Tick} {h : HitCfg}

-- Outside an array

theorem phaseReach_of_not_array (hm : s.mode.cur ≠ .array) : s.phaseReach = 0 := if_neg hm

theorem phaseDue_of_not_array (hm : s.mode.cur ≠ .array) : phaseDue s x = (s.dueOf x).getD (ceilTo 32 (s.ym.now + 2048)) := by
  rw [phaseDue, phaseReach_of_not_array hm, Int.add_zero]
  cases s.dueOf x <;> rfl

theorem hitchMember_of_not_array (hm : s.mode.cur ≠ .array) : s.hitchMember = false := by simp [State.hitchMember, hm]

theorem forwardPhase_of_not_array (hm : s.mode.cur ≠ .array) : forwardPhase d s = s := by
  unfold forwardPhase
  split
  next ha _ => exact absurd ha hm
  next => rfl

-- In an array

theorem phaseReach_of_array (hm : s.mode.cur = .array) (hc : s.hit.cfg = some h) : s.phaseReach = 1180 * ((h.ndev : Int) - 1) := by
  simp [State.phaseReach, hm, hc]

theorem phaseDue_of_timed (hd : s.dueOf x = some d) : phaseDue s x = d := by simp [phaseDue, hd]

theorem hitchMember_of_d0 (hc : s.hit.cfg = some h) (h0 : h.dev = 0) : s.hitchMember = false := by simp [State.hitchMember, hc, h0]

theorem forwardPhase_of_array (hm : s.mode.cur = .array) (hc : s.hit.cfg = some h) :
    forwardPhase d s = s.emit (.fhSend h.downPort.toNat "PHASE_SYNC" (beBytes 8 (airWord d).toNat)) := by
  simp [forwardPhase, hm, hc]

-- The command

/-- In whole ticks: a due time that lies the latency and the reach ahead is not late. -/
theorem not_late_of_in_reach {now reach due : Int} (hr : now + 2048 + reach ≤ due) : ¬ due - 2048 - reach < now := by omega

theorem exec_phaseSync (c : Cmd) (s : State) : exec (.phaseSync c) s = execPhaseSync c s := rfl

/-- R61: off the grid of 32 ticks a PHASE_SYNC is refused. -/
theorem phaseSync_off_grid (hs : Served s c 0x12 x) (hg : phaseDue s x % 32 ≠ 0) : exec (.phaseSync c) s = .next (s.complete c.ref .badArg) := by
  rw [exec_phaseSync, execPhaseSync, served_cmd hs _ _ rfl]
  exact congrArg Host.Outcome.next (if_pos (.inr hg))

/-- On the grid and in reach, on a device that is no further member of an array, a PHASE_SYNC that fits the table enters it and is forwarded. -/
theorem phaseSync_taken (hs : Served s c 0x12 x) (ha : x.atBad = false) (hd : phaseDue s x = d) (hg : d % 32 = 0) (hm : s.hitchMember = false)
    (hr : s.ym.now + 2048 + s.phaseReach ≤ d) (hf : Fits s (phaseEvs d)) :
    exec (.phaseSync c) s = .next (forwardPhase d (taken s c x (some d) (phaseEvs d))) := by
  subst hd
  have hbad : ¬ (x.atBad = true ∨ phaseDue s x % 32 ≠ 0) := by simp [ha, hg]
  have hmember : ¬ s.hitchMember = true := by simp [hm]
  have hlate : ¬ (s.counting = true ∧ phaseDue s x - 2048 - s.phaseReach < s.ym.now ∧ s.ym.now ≤ phaseDue s x - 2048) :=
    fun ⟨_, hl, _⟩ => not_late_of_in_reach hr hl
  have htaken := presentCmd_ok hf c x (some (phaseDue s x)) (forwardPhase (phaseDue s x))
  rw [exec_phaseSync, execPhaseSync, served_cmd hs _ _ rfl]
  exact congrArg Host.Outcome.next ((if_neg hbad).trans ((if_neg hmember).trans ((if_neg hlate).trans htaken)))

end Sys2Proof.Laws

open Sys2Proof.Machine Sys2Proof.Claims Sys2Proof.Laws

/-- Settles O21: outside an array nothing is added to the 2,048 ticks and nothing is sent; D0 of an array adds the way to its last member and forwards. -/
theorem phaseSyncAccepted : Obligations.PhaseSyncAccepted := by
  intro s c x d hs ha
  refine ⟨fun hd hg => phaseSync_off_grid hs (by rwa [phaseDue_of_timed hd]), ?_⟩
  intro hg evs hf
  constructor
  · intro hm hd hr
    have hreach : s.ym.now + 2048 + s.phaseReach ≤ d := by rwa [phaseReach_of_not_array hm, Int.add_zero]
    rw [phaseSync_taken hs ha ((phaseDue_of_not_array hm).trans hd) hg (hitchMember_of_not_array hm) hreach hf]
    exact congrArg _ (forwardPhase_of_not_array hm)
  · intro h hm hc h0 hd hr
    have hreach : s.ym.now + 2048 + s.phaseReach ≤ d := by rwa [phaseReach_of_array hm hc]
    rw [phaseSync_taken hs ha (phaseDue_of_timed hd) hg (hitchMember_of_d0 hc h0) hreach hf]
    exact congrArg _ (forwardPhase_of_array hm hc)

end

section
/-! What the Shunter's commands, doorbells and captures do when nothing refuses them (R457, R462 to R466), and the statement assembled from them. -/

namespace Sys2Proof.Laws

open Sys2Proof Sys2Proof.Machine Sys2Proof.Claims

variable {s : State} {c : Cmd} {x : Slot}

-- SHU_START

/-- The acceptance tick of a SHU_START, a free value in NO_TIME (R457). -/
def acceptTick (s : State) : Tick := if s.counting then s.ym.now else (s.takeFree 64).1.toInt

/-- A channel that starts the program at `prog` with its end record at `wb`, for the command `r` (R462). -/
def startedChan (prog wb : BitVec 64) (tick : Tick) (r : CmdRef) : ShuChan :=
  { ShuChan.reset with st := .running, prog := prog, wb := wb, tick := tick, cmd := some r }

theorem acceptTick_of_counting (hc : s.counting = true) : acceptTick s = s.ym.now := if_pos hc

theorem exec_shuStart (c : Cmd) (s : State) : exec (.shuStart c) s = execShuStart c s := rfl

/-- R462: an aligned program in host memory or in the program area, with an aligned record in host memory, starts on a channel that is IDLE. -/
theorem shuStart_idle {prog wb : BitVec 64} {i : Fin 16} (hs : Served s c 0x70 x)
    (hi : (pf x.payload 0 0 4).toFin = i) (hp : pf x.payload 8 0 64 = prog) (hw : pf x.payload 16 0 64 = wb)
    (hprog : prog.extractLsb' 0 3 = 0) (harea : prog.getLsbD 63 = true → inProgArea prog = true)
    (hwb : wb.extractLsb' 0 3 = 0) (hhost : wb.getLsbD 63 = false) (hidle : s.shu.chans[i].st = .idle) :
    exec (.shuStart c) s = .next ((chanPut (s.takeFree 64).2 i (startedChan prog wb (acceptTick s) c.ref)).setStage c.ref .running) := by
  subst hi hp hw
  have harea' : ((pf x.payload 8 0 64).getLsbD 63 && !inProgArea (pf x.payload 8 0 64)) = false := by
    cases hd : (pf x.payload 8 0 64).getLsbD 63
    · rfl
    · rw [harea hd]; rfl
  have hok : ¬ ((pf x.payload 8 0 64).extractLsb' 0 3 != 0 || ((pf x.payload 8 0 64).getLsbD 63 && !inProgArea (pf x.payload 8 0 64))
      || (pf x.payload 16 0 64).extractLsb' 0 3 != 0 || (pf x.payload 16 0 64).getLsbD 63) = true := by
    rw [hprog, harea', hwb, hhost]; decide
  rw [exec_shuStart, execShuStart, served_cmd hs _ _ rfl, ← modch _ _ fun _ => startedChan _ _ _ _]
  exact congrArg Host.Outcome.next ((if_neg hok).trans (if_neg (not_not_intro hidle)))

-- SHU_STOP

/-- The named channels that are not IDLE (R463). -/
def busyChans (s : State) (x : Slot) : List (Fin 16) := (setBits (pf x.payload 0 0 16)).filter fun i => s.shu.chans[i].st != .idle

theorem exec_shuStop (c : Cmd) (s : State) : exec (.shuStop c) s = execShuStop c s := rfl

/-- R463: where every named channel is IDLE, SHU_STOP has no effect and completes. -/
theorem shuStop_idle (hs : Served s c 0x71 x) (hb : busyChans s x = []) : exec (.shuStop c) s = .next (s.finish c.ref .ok) := by
  rw [exec_shuStop, execShuStop, served_cmd hs _ _ rfl]
  exact congrArg Host.Outcome.next (if_pos (List.isEmpty_iff.mpr hb))

/-- R463: SHU_STOP halts the channels that are not IDLE and waits for them. -/
theorem shuStop_busy (hs : Served s c 0x71 x) (hb : busyChans s x ≠ []) :
    exec (.shuStop c) s = .next (((busyChans s x).foldl (fun (v : State) i => v.modChan i fun h => { h.halt with stopCmds := c.ref :: h.stopCmds }) s).setStage
      c.ref .running) := by
  rw [exec_shuStop, execShuStop, served_cmd hs _ _ rfl]
  exact congrArg Host.Outcome.next (if_neg fun he => hb (List.isEmpty_iff.mp he))

-- SHU_PROG_LOAD

/-- The offset of a channel's PROG_ADDR in the program area. -/
def progOffset (h : ShuChan) : Nat := (h.prog.extractLsb' 0 40).toNat - 0x2000000

/-- A channel's program runs from the range of `len` bytes at `off` of the program area (R464). -/
def runsIn (off len : Nat) (h : ShuChan) : Bool :=
  h.st != .idle && inProgArea h.prog && (decide (off ≤ progOffset h) && decide (progOffset h < off + len))

theorem runsIn_eq_false {off len : Nat} {h : ShuChan}
    (hc : h.st = .idle ∨ inProgArea h.prog = false ∨ progOffset h < off ∨ off + len ≤ progOffset h) : runsIn off len h = false := by
  unfold runsIn
  rcases hc with hidle | hhost | hbelow | habove
  · simp [hidle]
  · simp [hhost]
  · simp [Nat.not_le.mpr hbelow]
  · simp [Nat.not_lt.mpr habove]

theorem no_channel_runsIn {off len : Nat} (h : ∀ i : Fin 16, runsIn off len s.shu.chans[i] = false) :
    ¬ s.shu.chans.toList.any (runsIn off len) = true := by
  rw [Vector.any_toList, Bool.not_eq_true, Vector.any_eq_false]
  exact fun i hi => Bool.eq_false_iff.mp (h ⟨i, hi⟩)

theorem exec_shuProgLoad (c : Cmd) (s : State) : exec (.shuProgLoad c) s = execShuProgLoad c s := rfl

/-- R464: a load of whole words into a range that no running program starts in stores its words. -/
theorem shuProgLoad_free {b : Bytes} {off len : Nat} (hs : Served s c 0x72 x) (hd : c.data = some b)
    (hoff : (pf x.payload 0 0 32).toNat = off) (hlen : (pf x.payload 4 0 32).toNat = len)
    (ho : off % 8 = 0) (hl : len % 8 = 0) (ha : pf x.payload 8 0 3 = 0) (hpos : 0 < len) (hend : off + len ≤ 262144)
    (hfree : ∀ i : Fin 16, runsIn off len s.shu.chans[i] = false) :
    exec (.shuProgLoad c) s =
      .next (State.finish { s with shu := { s.shu with prog := cellPuts (off / 8) (words64 (b.take len)) s.shu.prog } } c.ref .ok) := by
  subst hoff hlen
  have hok : ¬ ((pf x.payload 0 0 32).toNat % 8 ≠ 0 ∨ (pf x.payload 4 0 32).toNat % 8 ≠ 0 ∨ pf x.payload 8 0 3 ≠ 0 ∨ (pf x.payload 4 0 32).toNat = 0
      ∨ (pf x.payload 0 0 32).toNat + (pf x.payload 4 0 32).toNat > 262144) := by
    rintro (h | h | h | h | h)
    · exact h ho
    · exact h hl
    · exact h ha
    · exact Nat.ne_of_gt hpos h
    · exact Nat.not_le_of_gt h hend
  rw [exec_shuProgLoad, execShuProgLoad, served_cmd hs _ _ rfl, hd]
  exact congrArg Host.Outcome.next ((if_neg hok).trans (if_neg (no_channel_runsIn hfree)))

-- SHU_CAPTURE

/-- The resource of a capture: the observation receiver for SOURCE 0, else the path (R465). -/
def captureRes (s : State) (q : Fin 64) (src : Nat) : Res := if src = 0 then { cls := 5, idx := (s.obsOf q).getD 0 } else { cls := 1, idx := q.val }

/-- Ticks that `n` slots last: `n` × 268,435,456/FC_N (R465). -/
def captureTicks (s : State) (n : Nat) : Nat := (cdiv ((n : Int) * 268435456) s.conv.fcN.toNat).toNat

/-- The one event of a SHU_CAPTURE (R465). -/
def captureEvs (s : State) (x : Slot) (q : Fin 64) (src first n : Nat) : List NewEv :=
  [{ kind := .obsCapture, due := s.eventDue x .obsCapture, res := captureRes s q src
     body := .shuCapture q src first n (captureTicks s n) (pf x.payload 2 0 6).toNat }]

theorem exec_shuCapture (c : Cmd) (s : State) : exec (.shuCapture c) s = execShuCapture c s := rfl

/-- R465: a capture of slots that there are, from a path in the active set and a receiver that serves it, enters the table. -/
theorem shuCapture_taken {q : Fin 64} {src first n : Nat} (hs : Served s c 0x73 x) (hq : (pf x.payload 0 0 6).toFin = q)
    (hsrc : (pf x.payload 1 0 1).toNat = src) (hfirst : (pf x.payload 3 0 4).toNat = first) (hn : (pf x.payload 4 0 5).toNat = n)
    (hslots : first + n ≤ 16) (hpos : 0 < n) (ha : x.atBad = false) (hact : s.inActive q = true) (hobs : src = 0 → s.obsOf q ≠ none)
    (hf : Fits s (captureEvs s x q src first n)) :
    exec (.shuCapture c) s = .next (taken s c x none (captureEvs s x q src first n)) := by
  subst hq hsrc hfirst hn
  have hok : ¬ (decide ((pf x.payload 3 0 4).toNat + (pf x.payload 4 0 5).toNat > 16) || (pf x.payload 4 0 5).toNat == 0 || x.atBad) = true := by
    rw [decide_eq_false (Nat.not_lt_of_le hslots), beq_false_of_ne (Nat.ne_of_gt hpos), ha]; decide
  have hactive : ¬ (!s.inActive (pf x.payload 0 0 6).toFin) = true := by rw [hact]; decide
  have hserved : ¬ ((pf x.payload 1 0 1).toNat = 0 ∧ s.obsOf (pf x.payload 0 0 6).toFin = none) := fun h => hobs h.1 h.2
  rw [exec_shuCapture, execShuCapture, served_cmd hs _ _ rfl]
  exact congrArg Host.Outcome.next ((if_neg hok).trans ((if_neg hactive).trans ((if_neg hserved).trans (presentCmd_ok hf c x none id))))

-- Flags

/-- R458: a set alone. -/
theorem flagOp_set (u : Shu) (m : BitVec 64) :
    u.flagOp 0 m = { u with flags := u.flags ||| m, setNow := u.setNow ||| m, rose := u.rose ||| (m &&& ~~~u.flags) } := by
  have hkeep : ~~~((0 : BitVec 64) &&& ~~~u.setNow) = BitVec.allOnes 64 := by rw [BitVec.ofNat_eq_ofNat, BitVec.zero_and, BitVec.not_zero]
  rw [Shu.flagOp, hkeep, BitVec.and_allOnes]

theorem exec_shuFlag (c : Cmd) (s : State) : exec (.shuFlag c) s = execShuFlag c s := rfl

/-- R466: SHU_FLAG clears the flags of bytes 8 to 15 and sets those of bytes 0 to 7. -/
theorem shuFlag_served (hs : Served s c 0x75 x) :
    exec (.shuFlag c) s = .next (State.finish { s with shu := s.shu.flagOp (pf x.payload 8 0 64) (pf x.payload 0 0 64) } c.ref .ok) := by
  rw [exec_shuFlag, execShuFlag, served_cmd hs _ _ rfl]

-- Doorbells

theorem exec_shuDb (ch : Fin 16) (s : State) : exec (.shuDb ch) s = execShuDb ch s := rfl

/-- R457: a doorbell adds one to the count of its channel and is a host access. -/
theorem shuDb_counts (s : State) (ch : Fin 16) :
    exec (.shuDb ch) s = .next ((chanPut s ch { s.shu.chans[ch] with db := satInc s.shu.chans[ch].db }).wake 7) := by
  rw [exec_shuDb, execShuDb, modch]

-- Captures

/-- A SHU_CAPTURE from the capture slot `slot` on has taken its last sample (R465). -/
def captureDone (s : State) (slot : Nat) (k : Capture) : Bool :=
  decide (k.fin ≤ s.dp) && (match k.shu with | some u => 48 + u.first == slot | none => false)

/-- The samples of `n` slots, 16,384 for each (R465). -/
def captureSlots (samples : List (BitVec 32)) (n : Nat) : List (List (BitVec 32)) :=
  (List.range n).map fun j => (samples.drop (16384 * j)).take 16384

theorem exec_shuCaptureComplete (slot : Nat) (samples : List (BitVec 32)) (s : State) :
    exec (.shuCaptureComplete slot samples) s = execShuCaptureComplete slot samples s := rfl

/-- R465: a capture that is done fills its slots, sets its flag and completes its command. -/
theorem shuCaptureComplete_found {slot : Nat} {samples : List (BitVec 32)} {k : Capture} {u : ShuCap}
    (hk : s.lin.caps.find? (captureDone s slot) = some k) (hu : k.shu = some u) (hn : samples.length = 16384 * u.nslot) :
    exec (.shuCaptureComplete slot samples) s = .next (State.complete { s with
      lin := { s.lin with caps := s.lin.caps.erase k }
      shu := { s.shu with caps := cellPuts slot (captureSlots samples u.nslot) s.shu.caps }.flagOp 0 (BitVec.twoPow 64 u.flag) } u.ref .ok) := by
  rw [exec_shuCaptureComplete, execShuCaptureComplete]
  split
  next hnone => exact absurd (hk.symm.trans hnone) (Option.some_ne_none k)
  next k' hsome =>
    obtain rfl : k = k' := Option.some.inj (hk.symm.trans hsome)
    rw [hu]
    exact congrArg Host.Outcome.next (if_neg (not_not_intro hn))

end Sys2Proof.Laws

open Sys2Proof.Machine Sys2Proof.Claims Sys2Proof.Laws

/-- Settles O51: each command that nothing refuses, the doorbell and the end of a capture, by its own lemma. -/
theorem shunterCommands : Obligations.ShunterCommands := by
  intro s
  refine ⟨fun c x => ⟨?start, ?stop, ?load, ?capture, ?flag⟩, shuDb_counts s, ?captured⟩
  case start =>
    intro hs i prog wb hprog harea hwb hhost hidle
    exact ⟨acceptTick s, acceptTick_of_counting, shuStart_idle hs rfl rfl rfl hprog harea hwb hhost hidle⟩
  case stop => exact fun hs => ⟨shuStop_idle hs, shuStop_busy hs⟩
  case load =>
    intro b hs hd off len ho hl ha hpos hend hfree
    exact shuProgLoad_free hs hd rfl rfl ho hl ha hpos hend fun i => runsIn_eq_false (hfree i)
  case capture =>
    intro hs q src first n hslots hpos ha hact hobs len e hf
    exact shuCapture_taken hs rfl rfl rfl rfl hslots hpos ha hact hobs hf
  case flag => exact fun hs => shuFlag_served hs
  case captured =>
    intro slot samples k u hk hu hn
    rw [shuCaptureComplete_found hk hu hn, flagOp_set]
    rfl

end

section
/-! No command and no cycle of the clock touches the queue, and none opens the test access port or spoils the Shunter's program area (R569, R577). One lemma
for each command that says what it leaves alone, in the order of the model; then the commands that write the program area, those of the supply and
of the port; and the two invariants assembled from them. -/

namespace Sys2Proof.Laws

open Sys2Proof Sys2Proof.Machine Sys2Proof.Claims

/-- Records gathered one after the other leave it alone where each does. -/
theorem gather_keep {α : Type} {f : State → α → Bytes × State} (hf : ∀ s i, (f s i).2.keep = s.keep) (l : List α) (s : State) :
    (gather l f s).2.keep = s.keep :=
  foldl_keep_snd (fun (a : Bytes × State) i => (a.1 ++ (f a.2 i).1, (f a.2 i).2)) (fun a i => hf a.2 i) l ([], s)

/-- A response that clears nothing. -/
theorem respond_keep_of {s t : State} (h : t.keep = s.keep) (c : Cmd) (x : Slot) (b : Bytes) : (t.respond c x b).keep = s.keep :=
  (State.respond_keep _ _ _ _ _ fun _ => rfl).trans h

/-- Events presented with nothing to do at their acceptance. -/
theorem presentCmd_only_keep (s : State) (c : CmdRef) (tag : BitVec 16) (done : Option Tick) (evs : List NewEv) : (s.presentCmd c tag done evs).keep = s.keep :=
  State.presentCmd_keep _ _ _ _ _ _ fun _ => rfl

-- FamHost

theorem execNop_keep (c : Cmd) (s : State) : Stays (execNop c s) s := Stays.of_next (State.hostCmd_keep _ _ _ _ _ fun _ => State.complete_keep ..)

theorem execRegRead_keep (c : Cmd) (s : State) : Stays (execRegRead c s) s := Stays.of_next (State.hostCmd_keep _ _ _ _ _ fun _ => State.cmdRegRead_keep ..)

theorem execRegWrite_keep (c : Cmd) (s : State) : Stays (execRegWrite c s) s := Stays.of_next (State.hostCmd_keep _ _ _ _ _ fun _ => State.cmdRegWrite_keep ..)

theorem execClearSafe_keep (c : Cmd) (s : State) : Stays (execClearSafe c s) s := by
  refine Stays.of_next (State.hostCmd_keep _ _ _ _ _ fun x => ?_)
  extract_lets _ _ s1 at_ _ s2 s3
  have h1 : s1.keep = s.keep := State.setFaultN_keep _
  clear_value s1
  have h3 : s3.keep = s.keep := by
    refine (foldl_keep _ (fun t k => ?_) _ s2).trans h1
    split
    · exact State.firstUse_keep ..
    · rfl
  clear_value s3
  repeat' split
  · exact State.complete_keep ..
  · exact State.complete_keep ..
  · exact (State.complete_keep ..).trans h3

theorem execClearQueue_keep (c : Cmd) (s : State) : Stays (execClearQueue c s) s := Stays.of_next (State.hostCmd_keep _ _ _ _ _ fun _ => State.complete_keep ..)

theorem execFaultRead_keep (c : Cmd) (s : State) : Stays (execFaultRead c s) s := by
  refine Stays.of_next (State.hostCmd_keep _ _ _ _ _ fun _ => ?_)
  repeat' split
  · exact State.complete_keep ..
  · exact State.complete_keep ..
  · exact respond_keep_of rfl c _ _

theorem execRingCmdEnable_keep (n : Fin 16) (v : BitVec 32) (s : State) : Stays (execRingCmdEnable n v s) s := by
  refine Stays.of_next ?_
  repeat' first
    | simp only [State.wrVal_keep, State.modRing_keep]
    | split

theorem execRingCmdDisable_keep (n : Fin 16) (v : BitVec 32) (s : State) : Stays (execRingCmdDisable n v s) s := by
  refine Stays.of_next ?_
  repeat' first
    | simp only [State.modRing_keep, State.fenceOutAll_keep]
    | split

theorem execRingDrainEnd_keep (n : Fin 16) (s : State) : Stays (execRingDrainEnd n s) s := by
  refine Stays.of_next ?_
  split <;> rfl

theorem execRingEvtEnable_keep (v : BitVec 32) (s : State) : Stays (execRingEvtEnable v s) s := by
  refine Stays.of_next ?_
  split
  · rfl
  · exact State.wrVal_keep ..

theorem execRingEvtDisable_keep (v : BitVec 32) (s : State) : Stays (execRingEvtDisable v s) s := by
  refine Stays.of_next ?_
  split <;> rfl

/-- A write of a register of a command ring that is DISABLED, at the offset `o` of its registers. -/
theorem execRegisterWrite_keep (addr : BitVec 16) (v : BitVec 32) (s : State) : Stays (execRegisterWrite addr v s) s := by
  refine Stays.of_next ?_
  generalize addr.toNat = a
  have hw (m r : BitVec 32) : (s.wrVal 0 v m r).2.keep = s.keep := State.wrVal_keep ..
  repeat' split
  all_goals first
    | exact rfl
    | exact hw _ _
    | exact (State.modRing_keep ..).trans (hw _ _)
    | (dsimp only; split <;> rfl)

theorem execBarBadAccess_keep (bar2 : Bool) (addr len : Nat) (write : Bool) (s : State) : Stays (execBarBadAccess bar2 addr len write s) s := by
  refine Stays.of_next ?_
  (repeat' split) <;> rfl

theorem execTopStatusRead_keep (s : State) : Stays (execTopStatusRead s) s := Stays.of_next rfl

theorem execRingEvtStatusRead_keep (s : State) : Stays (execRingEvtStatusRead s) s := Stays.of_next rfl

theorem execCommandFetch_keep (n : Fin 16) (entry : Option (BitVec 512)) (cplErr : Bool) (s : State) : Stays (execCommandFetch n entry cplErr s) s := by
  refine Stays.of_next ?_
  repeat' first
    | simp only [State.stopRing_keep, State.modRing_keep]
    | split

theorem execCommandStart_keep (n : Fin 16) (seq : Nat) (payload : Option (BitVec 320)) (s : State) : Stays (execCommandStart n seq payload s) s := by
  refine Stays.of_next ?_
  dsimp only
  (repeat' split) <;> simp only [State.complete_keep, State.modRing_keep]

theorem execUntimedCommandComplete_keep (n : Fin 16) (seq : Nat) (s : State) : Stays (execUntimedCommandComplete n seq s) s := by
  refine Stays.of_next ?_
  (repeat' split) <;> simp only [State.complete_keep]

theorem execTail_keep (n : Fin 16) (v : BitVec 32) (s : State) : Stays (execTail n v s) s := by
  refine Stays.of_next ?_
  (repeat' split) <;> simp only [State.wrVal_keep, State.wake_keep, State.badAccess_keep, State.badDoorbell_keep, State.modRing_keep]

theorem execCplHead_keep (n : Fin 16) (v : BitVec 32) (s : State) : Stays (execCplHead n v s) s := by
  refine Stays.of_next ?_
  (repeat' split) <;> simp only [State.wrVal_keep, State.wake_keep, State.badAccess_keep, State.badDoorbell_keep, State.modRing_keep]

theorem execRelease_keep (n : Fin 16) (v : BitVec 32) (s : State) : Stays (execRelease n v s) s := by
  refine Stays.of_next ?_
  repeat' first
    | simp only [State.takeFree_keep, State.wake_keep, State.badAccess_keep, State.modRing_keep, State.releaseDone_keep]
    | split

theorem execReleaseFenceOut_keep (n : Fin 16) (s : State) : Stays (execReleaseFenceOut n s) s := by
  refine Stays.of_next ?_
  repeat' first
    | simp only [State.complete_keep, State.modRing_keep, State.releaseDone_keep]
    | split

theorem execEvtHead_keep (v : BitVec 32) (s : State) : Stays (execEvtHead v s) s := by
  refine Stays.of_next ?_
  (repeat' split) <;> simp only [State.wrVal_keep, State.wake_keep, State.badAccess_keep, State.badDoorbell_keep, State.keep_mk, State.keep_eta]

theorem execEventEntryWrite_keep (busErr : Bool) (s : State) : Stays (execEventEntryWrite busErr s) s := by
  refine Stays.of_next ?_
  dsimp only
  (repeat' split) <;> simp only [State.emit_keep, State.hostFault_keep, State.record_keep, State.signalEvents_keep, State.keep_mk, State.keep_eta]

theorem execEventCoalesceTimeout_keep (s : State) : Stays (execEventCoalesceTimeout s) s := by
  refine Stays.of_next ?_
  (repeat' split) <;> simp only [State.signalEvents_keep]

theorem execRecoveryStart_keep (s : State) : Stays (execRecoveryStart s) s := by
  refine Stays.of_next ?_
  dsimp only
  (repeat' split) <;> simp only [State.modHeld_keep, State.faultRec_keep, State.levelAction_keep, State.abortOps_keep, State.shuReset_keep, State.resetFaultCore_keep, State.keep_mk, State.keep_eta]

theorem execRecoveryComplete_keep (s : State) : Stays (execRecoveryComplete s) s := by
  refine Stays.of_next ?_
  (repeat' split) <;> simp only [State.setHeld_keep, State.faultRec_keep]

theorem execD2dUncorr_keep (s : State) : Stays (execD2dUncorr s) s := Stays.of_next (State.raiseFault_keep ..)

theorem execD2dCorrectedError_keep (s : State) : Stays (execD2dCorrectedError s) s := Stays.of_next rfl

theorem execPerstNAssert_keep (s : State) : Stays (execPerstNAssert s) s := by
  refine Stays.of_next ?_
  split <;> rfl

theorem execPerstNRelease_keep (s : State) : Stays (execPerstNRelease s) s := Stays.of_next rfl

theorem execPcieLinkUp_keep (s : State) : Stays (execPcieLinkUp s) s := by
  refine Stays.of_next ?_
  split <;> rfl

theorem execL12Entry_keep (s : State) : Stays (execL12Entry s) s := by
  refine Stays.of_next ?_
  split <;> rfl

theorem execL12Exit_keep (s : State) : Stays (execL12Exit s) s := by
  refine Stays.of_next ?_
  split <;> rfl

-- FamRadio

theorem execSynthRetune_keep (c : Cmd) (s : State) : Stays (execSynthRetune c s) s := Stays.of_next (State.hostCmd_keep _ _ _ _ _ fun _ => State.synthRetuneCmd_keep ..)

theorem execSynthCalibrate_keep (c : Cmd) (s : State) : Stays (execSynthCalibrate c s) s := Stays.of_next (State.hostCmd_keep _ _ _ _ _ fun _ => State.synthRetuneCmd_keep ..)

theorem execSynthHop_keep (c : Cmd) (s : State) : Stays (execSynthHop c s) s := by
  refine Stays.of_next (State.hostCmd_keep _ _ _ _ _ fun _ => ?_)
  extract_lets p ks due evs
  (repeat' split) <;> simp only [State.complete_keep, presentCmd_only_keep]

theorem execSynthPowerOff_keep (c : Cmd) (s : State) : Stays (execSynthPowerOff c s) s := by
  refine Stays.of_next (State.hostCmd_keep _ _ _ _ _ fun _ => ?_)
  repeat' first
    | simp only [State.complete_keep, State.modSynth_keep, State.finish_keep]
    | refine (foldl_keep _ ?_ _ _).trans ?_
    | intro _
    | split

theorem execSynthPin_keep (c : Cmd) (s : State) : Stays (execSynthPin c s) s := Stays.of_next (State.hostCmd_keep _ _ _ _ _ fun _ => State.pinCmd_keep ..)

theorem execSynthUnpin_keep (c : Cmd) (s : State) : Stays (execSynthUnpin c s) s := Stays.of_next (State.hostCmd_keep _ _ _ _ _ fun _ => State.pinCmd_keep ..)

theorem presetRecords_keep (s : State) (i : Fin 16) :
    (s.records (List.range 32) fun s j => match toFin 32 j with | some j => s.presetRecord s.radio.synths[i].presets[j] | none => ([], s)).2.keep = s.keep := by
  refine State.records_keep _ _ _ fun t j => ?_
  split
  · exact State.presetRecord_keep ..
  · rfl

theorem execSynthStatus_keep (c : Cmd) (s : State) : Stays (execSynthStatus c s) s := by
  refine Stays.of_next (State.statusCmd_keep _ _ _ _ _ fun x => respond_keep_of (State.records_keep _ _ _ fun t n => ?_) c x _)
  split
  next => rfl
  next i _ =>
    extract_lets a b
    split
    · exact (presetRecords_keep a.2 i).trans (State.synthRecord_keep t i)
    · exact State.synthRecord_keep t i

theorem execPathSetState_keep (c : Cmd) (s : State) : Stays (execPathSetState c s) s := by
  refine Stays.of_next (State.hostCmd_keep _ _ _ _ _ fun _ => ?_)
  extract_lets ps t live due evs done
  (repeat' split) <;> simp only [State.complete_keep, State.finish_keep, presentCmd_only_keep]

theorem execPathSetReturn_keep (c : Cmd) (s : State) : Stays (execPathSetReturn c s) s := Stays.of_next (State.hostCmd_keep _ _ _ _ _ fun _ => State.pathConfig_keep ..)

theorem execPathSetLevels_keep (c : Cmd) (s : State) : Stays (execPathSetLevels c s) s := by
  refine Stays.of_next (State.hostCmd_keep _ _ _ _ _ fun _ => ?_)
  dsimp only
  (repeat' split) <;> simp only [State.takeFree_keep, State.pathConfig_keep]

theorem execPathStatus_keep (c : Cmd) (s : State) : Stays (execPathStatus c s) s := by
  refine Stays.of_next (State.statusCmd_keep _ _ _ _ _ fun x => respond_keep_of (State.records_keep _ _ _ fun t n => ?_) c x _)
  split
  · exact State.pathRecord_keep ..
  · rfl

theorem execSynthRetuneRelease_keep (ev : Nat) (s : State) : Stays (execSynthRetuneRelease ev s) s := by
  refine Stays.of_next (State.synthRelease_keep _ _ _ _ _ fun _ _ => ?_)
  split <;> simp only [State.synthLater_keep]

theorem execSynthHopRelease_keep (ev : Nat) (s : State) : Stays (execSynthHopRelease ev s) s := by
  refine Stays.of_next (State.synthRelease_keep _ _ _ _ _ fun _ _ => ?_)
  split <;> simp only [State.atCycle_keep]

theorem execPathStateRelease_keep (ev : Nat) (s : State) : Stays (execPathStateRelease ev s) s := by
  refine Stays.of_next (State.release_keep _ _ _ _ _ fun _ _ => ?_)
  split <;> simp only [State.pathLater_keep]

theorem execPathTransitionEnd_keep (p : Fin 64) (s : State) : Stays (execPathTransitionEnd p s) s := by
  refine Stays.of_next ?_
  (repeat' split) <;> simp only [State.modPath_keep, State.pathBegin_keep, State.pathStart_keep]

theorem execAutomaticReturn_keep (p : Fin 64) (s : State) : Stays (execAutomaticReturn p s) s := by
  refine Stays.of_next ?_
  dsimp only
  (repeat' split) <;> simp only [State.modPath_keep, State.pathBegin_keep]

theorem execSynthOperationEnd_keep (i : Fin 16) (s : State) : Stays (execSynthOperationEnd i s) s := by
  refine Stays.of_next ?_
  dsimp only
  (repeat' split) <;> simp only [State.modSynth_keep, State.phaseTaken_keep, State.synthStart_keep]

theorem execSynthCalibrationEnd_keep (i : Fin 16) (m : SynthMeas) (s : State) : Stays (execSynthCalibrationEnd i m s) s := by
  refine Stays.of_next ?_
  dsimp only
  (repeat' split) <;> simp only [State.modSynth_keep, State.tackPut_keep, State.calDone_keep, State.synthStart_keep, State.calRunMet_keep]

theorem execSynthLockLoss_keep (i : Fin 16) (s : State) : Stays (execSynthLockLoss i s) s := by
  refine Stays.of_next ?_
  extract_lets y twice s1 k s2 lost s3 s4
  have h2 : s2.keep = s.keep := by
    unfold s2
    split
    · exact foldl_keep _ (fun t p => State.capAbort_keep t p) _ _
    · rfl
  have h4 : s4.keep = s.keep := (State.raiseFault_keep ..).trans ((foldl_keep _ (fun t x => State.calAborted_keep t x) _ _).trans h2)
  clear_value s4
  repeat' split
  · rfl
  · exact (State.retireSynth_keep ..).trans h4
  · exact h4
  · exact (State.recoverSynth_keep ..).trans h4

-- FamYard

theorem execAirRelease_keep (c : Cmd) (s : State) : Stays (execAirRelease c s) s := by
  refine Stays.of_next (State.hostCmd_keep _ _ _ _ _ fun _ => ?_)
  (repeat' split) <;> simp only [State.complete_keep, State.keep_mk, State.keep_eta]

theorem execPhaseSync_keep (c : Cmd) (s : State) : Stays (execPhaseSync c s) s := by
  refine Stays.of_next (State.hostCmd_keep _ _ _ _ _ fun _ => ?_)
  repeat' first
    | simp only [State.complete_keep, State.lateRec_keep, State.emit_keep]
    | refine (State.presentCmd_keep _ _ _ _ _ _ ?_).trans ?_
    | intro _
    | split

theorem execPhaseSyncRelease_keep (ev : Nat) (s : State) : Stays (execPhaseSyncRelease ev s) s := Stays.of_next (State.release_keep _ _ _ _ _ fun _ _ => rfl)

theorem execYmAirOffsetWrite_keep (c : Cmd) (s : State) : Stays (execYmAirOffsetWrite c s) s := Stays.of_next (State.writeNamed_keep ..)

theorem execYmPendHwmRead_keep (c : Cmd) (s : State) : Stays (execYmPendHwmRead c s) s := Stays.of_next (State.readNamed_keep ..)

theorem execYmLateCountRead_keep (c : Cmd) (s : State) : Stays (execYmLateCountRead c s) s := Stays.of_next (State.readNamed_keep ..)

theorem execYmFullCountRead_keep (c : Cmd) (s : State) : Stays (execYmFullCountRead c s) s := Stays.of_next (State.readNamed_keep ..)

-- FamMode

theorem execModeSet_keep (c : Cmd) (s : State) : Stays (execModeSet c s) s := by
  refine Stays.of_next (State.hostCmd_keep _ _ _ _ _ fun _ => ?_)
  repeat' first
    | simp only [State.complete_keep, State.takeFree_keep, State.keep_mk, State.keep_eta]
    | refine (State.presentCmd_keep _ _ _ _ _ _ ?_).trans ?_
    | intro _
    | split

theorem execModeChangeRelease_keep (ev : Nat) (s : State) : Stays (execModeChangeRelease ev s) s := by
  refine Stays.of_next ?_
  dsimp only
  (repeat' split) <;> simp only [State.removeEvent_keep, State.complete_keep, State.atCycle_keep, State.keep_mk, State.keep_eta]

theorem execModeTransitionEnd_keep (ok others : Bool) (s : State) : Stays (execModeTransitionEnd ok others s) s := by
  refine Stays.of_next ?_
  repeat' first
    | simp only [State.modeFail_keep, State.calSettle_keep, State.calRestore_keep, State.seedDpd_keep, State.complete_keep, State.postMode_keep, State.keep_mk, State.keep_eta]
    | refine (foldl_keep _ ?_ _ _).trans ?_
    | intro _
    | split

theorem execArrayStartTimeout_keep (others : Bool) (s : State) : Stays (execArrayStartTimeout others s) s := by
  refine Stays.of_next ?_
  (repeat' split) <;> simp only [State.modeFail_keep]

theorem execTrafficResume_keep (s : State) : Stays (execTrafficResume s) s := by
  refine Stays.of_next ?_
  (repeat' split) <;> simp only [State.resumeTraffic_keep]

-- FamDpd

theorem execCfrSet_keep (c : Cmd) (s : State) : Stays (execCfrSet c s) s := by
  refine Stays.of_next (State.hostCmd_keep _ _ _ _ _ fun _ => ?_)
  extract_lets
  split
  · exact State.complete_keep ..
  · exact presentCmd_only_keep ..

theorem execDpdSet_keep (c : Cmd) (s : State) : Stays (execDpdSet c s) s := by
  refine Stays.of_next (State.hostCmd_keep _ _ _ _ _ fun _ => ?_)
  dsimp only
  (repeat' split) <;> simp only [State.complete_keep, State.finish_keep, State.keep_mk, State.keep_eta]

theorem execDpdFreeze_keep (c : Cmd) (s : State) : Stays (execDpdFreeze c s) s :=
  Stays.of_next (State.dpdCtrl_keep _ _ _ _ _ _ (fun _ _ => State.modDpd_keep ..) fun _ => rfl)

theorem execDpdResume_keep (c : Cmd) (s : State) : Stays (execDpdResume c s) s :=
  Stays.of_next (State.dpdCtrl_keep _ _ _ _ _ _ (fun _ _ => State.modDpd_keep ..) fun _ => rfl)

theorem execDpdReset_keep (c : Cmd) (s : State) : Stays (execDpdReset c s) s :=
  Stays.of_next (State.dpdCtrl_keep _ _ _ _ _ _ (fun _ _ => State.coldStart_keep ..) fun _ => rfl)

theorem execDpdErase_keep (c : Cmd) (s : State) : Stays (execDpdErase c s) s := by
  refine Stays.of_next ?_
  repeat' first
    | simp only [State.eraseSets_keep, State.tackPut_keep]
    | refine (State.dpdCtrl_keep _ _ _ _ _ _ ?_ ?_).trans ?_
    | intro _

theorem execDpdReadActive_keep (c : Cmd) (s : State) : Stays (execDpdReadActive c s) s := Stays.of_next (State.dpdRead_keep _ _ _ _ fun _ _ _ => State.activeSetRec_keep ..)

theorem execDpdReadStored_keep (c : Cmd) (s : State) : Stays (execDpdReadStored c s) s := by
  refine Stays.of_next (State.dpdRead_keep _ _ _ _ fun _ => ?_)
  repeat' first
    | simp only [State.storedSetRec_keep]
    | refine (foldl_keep_snd _ ?_ _ _).trans ?_
    | intro _

theorem execDpdAdjLoad_keep (c : Cmd) (s : State) : Stays (execDpdAdjLoad c s) s := by
  refine Stays.of_next (State.hostCmd_keep _ _ _ _ _ fun x => ?_)
  have hload (b : Bytes) (t : State) (p : Fin 64) : (if t.lin.adj[p] = adjEntry b p then t else
      let u := (((t.eraseSets p).tackPut (dpdSector p) .dpdSet).coldStart p).modDpd p fun d => { d with stale := true }
      { u with lin := { u.lin with adj := vset u.lin.adj p (adjEntry b p) } }).keep = t.keep := by
    split
    · rfl
    · have hc := State.coldStart_keep ((t.eraseSets p).tackPut (dpdSector p) .dpdSet) p
      exact hc.trans ((State.tackPut_keep ..).trans (State.eraseSets_keep ..))
  repeat' split
  next => exact State.complete_keep ..
  next => exact State.complete_keep ..
  next => exact State.complete_keep ..
  next => exact State.complete_keep ..
  next b _ _ => exact (State.finish_keep ..).trans ((State.tackPut_keep ..).trans (foldl_keep _ (hload b) _ _))

theorem execDpdStatus_keep (c : Cmd) (s : State) : Stays (execDpdStatus c s) s := by
  refine Stays.of_next (State.statusCmd_keep _ _ _ _ _ fun _ => ?_)
  repeat' first
    | simp only [State.dpdRecord_keep, State.modDpd_keep]
    | refine (State.respond_keep _ _ _ _ _ ?_).trans ?_
    | refine (foldl_keep _ ?_ _ _).trans ?_
    | refine (foldl_keep_snd _ ?_ _ _).trans ?_
    | intro _

theorem execDpdCaptureDecision_keep (k : Fin 8) (s : State) : Stays (execDpdCaptureDecision k s) s := by
  refine Stays.of_next ?_
  dsimp only
  (repeat' split) <;> simp only [State.capSeek_keep, State.capDecide_keep]

theorem execObsCaptureRelease_keep (ev : Nat) (s : State) : Stays (execObsCaptureRelease ev s) s := by
  refine Stays.of_next ?_
  repeat' first
    | simp only [State.captureBegin_keep, State.capFail_keep]
    | refine (State.release_keep _ _ _ _ _ ?_).trans ?_
    | intro _
    | split

theorem execDpdCaptureEnd_keep (p : Fin 64) (obs : List (Int × Int)) (s : State) : Stays (execDpdCaptureEnd p obs s) s := by
  refine Stays.of_next ?_
  dsimp only
  (repeat' split) <;> simp only [State.capFail_keep, State.modOwner_keep, State.modDpd_keep, State.readPaTemp_keep, State.capLearn_keep, State.keep_mk, State.keep_eta]

theorem execDpdAdaptPublish_keep (p : Fin 64) (s : State) : Stays (execDpdAdaptPublish p s) s := by
  refine Stays.of_next ?_
  dsimp only
  (repeat' split) <;> simp only [State.adaptDrop_keep, State.adaptOver_keep, State.adaptPublish_keep]

theorem execAdaptTimeout_keep (p : Fin 64) (s : State) : Stays (execAdaptTimeout p s) s := by
  refine Stays.of_next ?_
  split <;> rfl

theorem execBlendBoundary_keep (s : State) : Stays (execBlendBoundary s) s := by
  refine Stays.of_next ?_
  repeat' first
    | simp only [State.blendStep_keep, State.rampStep_keep]
    | refine (foldl_keep _ ?_ _ _).trans ?_
    | intro _
    | split

-- FamCal

theorem execCalRun_keep (c : Cmd) (s : State) : Stays (execCalRun c s) s := by
  refine Stays.of_next (State.hostCmd_keep _ _ _ _ _ fun _ => ?_)
  repeat' first
    | simp only [State.complete_keep, State.setStage_keep, State.calRunBegin_keep, State.keep_mk, State.keep_eta]
    | split

theorem execLendStart_keep (p : Fin 64) (s : State) : Stays (execLendStart p s) s := by
  refine Stays.of_next ?_
  dsimp only
  (repeat' split) <;> simp only [State.lend_keep, State.keep_mk, State.keep_eta]

theorem execLendRejoin_keep (p : Fin 64) (s : State) : Stays (execLendRejoin p s) s := by
  refine Stays.of_next ?_
  repeat' first
    | simp only [State.modPath_keep, State.modDpd_keep, State.lbistRejoin_keep, State.calRunSweep_keep, State.keep_mk, State.keep_eta]
    | refine (foldl_keep _ ?_ _ _).trans ?_
    | intro _
    | split

theorem execCalibrationComplete_keep (id cls idx : Nat) (ok : Bool) (vals : List Int) (s : State) : Stays (execCalibrationComplete id cls idx ok vals s) s := by
  refine Stays.of_next ?_
  repeat' first
    | simp only [State.calFailed_keep, State.calRunMet_keep, State.calInvalidates_keep, State.phasePreset_keep, State.modCalRec_keep, State.calDone_keep,
        State.calWhole_keep, State.calEnter_keep, State.postCal_keep]
    | rfl
    | split

theorem execCalStepBoundary_keep (id cls idx : Nat) (s : State) : Stays (execCalStepBoundary id cls idx s) s := by
  refine Stays.of_next ?_
  dsimp only
  (repeat' split) <;> simp only [State.calWhole_keep, State.calMove_keep, State.keep_mk, State.keep_eta]

theorem execBackgroundCalDecision_keep (id cls idx : Nat) (due : Tick) (s : State) : Stays (execBackgroundCalDecision id cls idx due s) s := by
  refine Stays.of_next ?_
  dsimp only
  (repeat' split) <;> simp only [State.modCalRec_keep, State.present_keep]

theorem execCalSlotRelease_keep (ev : Nat) (s : State) : Stays (execCalSlotRelease ev s) s := by
  refine Stays.of_next ?_
  repeat' first
    | simp only [State.removeEvent_keep, State.calSlotTake_keep]
    | refine (State.release_keep _ _ _ _ _ ?_).trans ?_
    | intro _
    | split

theorem execPartialResultExpiry_keep (id cls idx : Nat) (s : State) : Stays (execPartialResultExpiry id cls idx s) s := Stays.of_next rfl

theorem execCalSetStore_keep (s : State) : Stays (execCalSetStore s) s := by
  refine Stays.of_next ?_
  dsimp only
  (repeat' split) <;> simp only [State.calStore_keep]

theorem execCalSet_keep (c : Cmd) (s : State) : Stays (execCalSet c s) s := by
  refine Stays.of_next (State.hostCmd_keep _ _ _ _ _ fun _ => ?_)
  dsimp only
  (repeat' split) <;> simp only [State.complete_keep, State.tackPut_keep, State.finish_keep, State.keep_mk, State.keep_eta]

theorem execCalStatus_keep (c : Cmd) (s : State) : Stays (execCalStatus c s) s :=
  Stays.of_next (State.hostCmd_keep _ _ _ _ _ fun x =>
    respond_keep_of (gather_keep State.calRecord_keep (State.calSelected (setBits x.select) (pf x.payload 20 0 16).toNat) s) c x _)

theorem execTackStatus_keep (c : Cmd) (s : State) : Stays (execTackStatus c s) s := by
  refine Stays.of_next (State.hostCmd_keep _ _ _ _ _ fun _ => ?_)
  split
  · exact State.complete_keep ..
  · exact respond_keep_of (State.record_keep ..) c _ _

theorem execTackRecordCommit_keep (verified : Bool) (s : State) : Stays (execTackRecordCommit verified s) s := by
  refine Stays.of_next ?_
  dsimp only
  (repeat' split) <;> simp only [State.tackApply_keep, State.tackRetire_keep, State.finish_keep, State.keep_mk, State.keep_eta]

-- FamConv

theorem execFcSet_keep (c : Cmd) (s : State) : Stays (execFcSet c s) s := by
  refine Stays.of_next (State.hostCmd_keep _ _ _ _ _ fun _ => ?_)
  dsimp only
  (repeat' split) <;> simp only [State.complete_keep, State.fcPersist_keep, State.finish_keep, State.setStage_keep, State.keep_mk, State.keep_eta]

theorem execFcSetComplete_keep (s : State) : Stays (execFcSetComplete s) s := by
  refine Stays.of_next ?_
  (repeat' split) <;> simp only [State.fcSwitch_keep, State.tackPut_keep, State.calDone_keep, State.fcPersist_keep, State.finish_keep, State.keep_mk, State.keep_eta]

theorem execRsCoefLoad_keep (c : Cmd) (s : State) : Stays (execRsCoefLoad c s) s := by
  refine Stays.of_next (State.hostCmd_keep _ _ _ _ _ fun _ => ?_)
  dsimp only
  (repeat' split) <;> simp only [State.complete_keep, State.finish_keep, State.atCycle_keep, State.setStage_keep, State.keep_mk, State.keep_eta]

theorem execConvStatus_keep (c : Cmd) (s : State) : Stays (execConvStatus c s) s := by
  refine Stays.of_next (State.statusCmd_keep _ _ _ _ _ fun _ => ?_)
  repeat' first
    | simp only [State.convRecord_keep, State.keep_mk, State.keep_eta]
    | refine (State.respond_keep _ _ _ _ _ ?_).trans ?_
    | refine (foldl_keep_snd _ ?_ _ _).trans ?_
    | intro _

theorem execDelayReport_keep (c : Cmd) (s : State) : Stays (execDelayReport c s) s := by
  refine Stays.of_next (State.statusCmd_keep _ _ _ _ _ fun x => respond_keep_of (foldl_keep_snd _ (fun a k => ?_) _ _) c x _)
  split
  · exact State.delayRecord_keep ..
  · rfl

-- FamCarrier

theorem execCarrierConfigure_keep (c : Cmd) (s : State) : Stays (execCarrierConfigure c s) s := by
  refine Stays.of_next (State.hostCmd_keep _ _ _ _ _ fun _ => ?_)
  dsimp only
  (repeat' split) <;> simp only [State.complete_keep, State.carrierEvent_keep]

theorem execCarrierRemove_keep (c : Cmd) (s : State) : Stays (execCarrierRemove c s) s := by
  refine Stays.of_next (State.hostCmd_keep _ _ _ _ _ fun _ => ?_)
  dsimp only
  (repeat' split) <;> simp only [State.complete_keep, State.carrierEvent_keep]

theorem execConfigRelease_keep (ev : Nat) (s : State) : Stays (execConfigRelease ev s) s := by
  refine Stays.of_next (State.release_keep _ _ _ _ _ fun _ _ => ?_)
  split <;> simp only [State.cfgPlace_keep]

theorem execCarrierStatus_keep (c : Cmd) (s : State) : Stays (execCarrierStatus c s) s := by
  refine Stays.of_next (State.statusCmd_keep _ _ _ _ _ fun _ => ?_)
  repeat' first
    | simp only [State.carrierRecord_keep, State.modCarrier_keep]
    | refine (State.respond_keep _ _ _ _ _ ?_).trans ?_
    | refine (foldl_keep _ ?_ _ _).trans ?_
    | refine (foldl_keep_snd _ ?_ _ _).trans ?_
    | intro _

theorem execBeamLoad_keep (c : Cmd) (s : State) : Stays (execBeamLoad c s) s := by
  refine Stays.of_next (State.hostCmd_keep _ _ _ _ _ fun _ => ?_)
  dsimp only
  (repeat' split) <;> simp only [State.complete_keep, State.setStage_keep, State.keep_mk, State.keep_eta]

theorem execBeamTableSwitch_keep (s : State) : Stays (execBeamTableSwitch s) s := by
  refine Stays.of_next ?_
  repeat' first
    | simp only [State.complete_keep, State.keep_mk, State.keep_eta]
    | refine (foldl_keep _ ?_ _ _).trans ?_
    | intro _
    | split

-- FamWeights

theorem execWeightSet_keep (c : Cmd) (s : State) : Stays (execWeightSet c s) s := by
  refine Stays.of_next (State.hostCmd_keep _ _ _ _ _ fun _ => ?_)
  dsimp only
  (repeat' split) <;> simp only [State.complete_keep, State.carrierEvent_keep]

theorem execWeightHint_keep (c : Cmd) (s : State) : Stays (execWeightHint c s) s := by
  refine Stays.of_next (State.hostCmd_keep _ _ _ _ _ fun _ => ?_)
  dsimp only
  (repeat' split) <;> simp only [State.complete_keep, State.setStage_keep, State.hintAccept_keep]

theorem execBookRead_keep (c : Cmd) (s : State) : Stays (execBookRead c s) s := by
  refine Stays.of_next (State.statusCmd_keep _ _ _ _ _ fun x => ?_)
  extract_lets a b es r
  have hr : r.2.keep = s.keep := by
    refine foldl_keep_snd _ (fun a e => ?_) es ([], s)
    exact State.bookHeader_keep a.2 e
  clear_value r
  exact respond_keep_of hr c x _

theorem execWeightStatus_keep (c : Cmd) (s : State) : Stays (execWeightStatus c s) s := by
  refine Stays.of_next (State.statusCmd_keep _ _ _ _ _ fun _ => ?_)
  repeat' first
    | simp only [State.weightRecord_keep, State.modWcount_keep]
    | refine (State.respond_keep _ _ _ _ _ ?_).trans ?_
    | refine (foldl_keep _ ?_ _ _).trans ?_
    | refine (foldl_keep_snd _ ?_ _ _).trans ?_
    | intro _

theorem execSoundingRelease_keep (ev : Nat) (s : State) : Stays (execSoundingRelease ev s) s := by
  refine Stays.of_next ?_
  repeat' first
    | simp only [State.trafficBegin_keep, State.modOccasion_keep, State.smoothingJob_keep, State.soundingSweep_keep]
    | refine (State.release_keep _ _ _ _ _ ?_).trans ?_
    | intro _
    | split

theorem execChannelBookPublish_keep (occ : Nat) (raw : List AdcIn) (s : State) : Stays (execChannelBookPublish occ raw s) s := by
  refine Stays.of_next ?_
  (repeat' split) <;> simp only [State.soundSats_keep, State.bookEstimate_keep, State.soundingSweep_keep, State.keep_mk, State.keep_eta]

theorem execSidingReady_keep (car : Fin 8) (ul : Bool) (s : State) : Stays (execSidingReady car ul s) s := by
  refine Stays.of_next ?_
  (repeat' split) <;> simp only [State.setSiding_keep]

theorem execSidingSlotEnd_keep (car : Fin 8) (ul : Bool) (s : State) : Stays (execSidingSlotEnd car ul s) s := by
  refine Stays.of_next ?_
  (repeat' split) <;> simp only [State.scrapSiding_keep]

theorem execOnDemandPublish_keep (car : Fin 8) (ul : Bool) (slot : Tick) (grp : Nat) (s : State) : Stays (execOnDemandPublish car ul slot grp s) s := by
  refine Stays.of_next ?_
  (repeat' split) <;> rfl

theorem execWeightDeadline_keep (car : Fin 8) (ul : Bool) (slot : Tick) (grp : Nat) (s : State) : Stays (execWeightDeadline car ul slot grp s) s := by
  refine Stays.of_next ?_
  (repeat' split) <;> simp only [State.abandonClaim_keep]

-- FamBurst

theorem execBurstTx_keep (c : Cmd) (s : State) : Stays (execBurstTx c s) s := by
  refine Stays.of_next (State.hostCmd_keep _ _ _ _ _ fun _ => ?_)
  extract_lets
  (repeat' split) <;> simp only [State.complete_keep, presentCmd_only_keep]

theorem execBurstRx_keep (c : Cmd) (s : State) : Stays (execBurstRx c s) s := by
  refine Stays.of_next (State.hostCmd_keep _ _ _ _ _ fun _ => ?_)
  extract_lets
  (repeat' split) <;> simp only [State.complete_keep, presentCmd_only_keep]

theorem execBurstCfg_keep (c : Cmd) (s : State) : Stays (execBurstCfg c s) s := by
  refine Stays.of_next (State.hostCmd_keep _ _ _ _ _ fun _ => ?_)
  dsimp only
  (repeat' split) <;> simp only [State.complete_keep, State.keep_mk, State.keep_eta]

theorem execBurstTxRelease_keep (ev : Nat) (s : State) : Stays (execBurstTxRelease ev s) s := by
  refine Stays.of_next (State.release_keep _ _ _ _ _ fun _ _ => ?_)
  split <;> simp only [State.trafficBegin_keep, State.emit_keep, State.keep_mk, State.keep_eta]

theorem execBurstRxRelease_keep (ev : Nat) (s : State) : Stays (execBurstRxRelease ev s) s := by
  refine Stays.of_next (State.release_keep _ _ _ _ _ fun _ _ => ?_)
  split <;> simp only [State.trafficBegin_keep, State.keep_mk, State.keep_eta]

theorem execBurstDetection_keep (sample : Nat) (raw : List AdcIn) (s : State) : Stays (execBurstDetection sample raw s) s := by
  refine Stays.of_next ?_
  dsimp only
  (repeat' split) <;> simp only [State.placeCandidate_keep]

theorem execSyncHypothesisFail_keep (lane : Fin 2) (raw : List AdcIn) (s : State) : Stays (execSyncHypothesisFail lane raw s) s := by
  refine Stays.of_next ?_
  dsimp only
  (repeat' split) <;> simp only [State.modLane_keep, State.modBurst_keep]

theorem execSyncAccepted_keep (lane : Fin 2) (raw : List AdcIn) (s : State) : Stays (execSyncAccepted lane raw s) s := by
  refine Stays.of_next ?_
  dsimp only
  (repeat' split) <;> simp only [State.modLane_keep]

theorem execSyncFieldEnd_keep (lane : Fin 2) (s : State) : Stays (execSyncFieldEnd lane s) s := by
  refine Stays.of_next ?_
  dsimp only
  (repeat' split) <;> simp only [State.modLane_keep]

theorem execLongTrainingEnd_keep (lane : Fin 2) (s : State) : Stays (execLongTrainingEnd lane s) s := by
  refine Stays.of_next ?_
  dsimp only
  (repeat' split) <;> simp only [State.modLane_keep]

theorem execPayloadEnd_keep (lane : Fin 2) (s : State) : Stays (execPayloadEnd lane s) s := by
  refine Stays.of_next ?_
  dsimp only
  (repeat' split) <;> simp only [State.modLane_keep]

theorem execDecoderStop_keep (lane : Fin 2) (raw : List AdcIn) (s : State) : Stays (execDecoderStop lane raw s) s := by
  refine Stays.of_next ?_
  dsimp only
  (repeat' split) <;> simp only [State.burstReport_keep, State.post_keep, State.modBurst_keep, State.modLane_keep, State.keepMeas_keep]

theorem execBurstWindowClose_keep (s : State) : Stays (execBurstWindowClose s) s := by
  refine Stays.of_next ?_
  (repeat' split) <;> rfl

theorem execBurstMeas_keep (c : Cmd) (s : State) : Stays (execBurstMeas c s) s := by
  refine Stays.of_next (State.statusCmd_keep _ _ _ _ _ fun x => ?_)
  split
  · exact State.complete_keep ..
  · refine respond_keep_of (foldl_keep_snd _ (fun a p => ?_) _ _) c x _
    exact State.measRecord_keep a.2 p _

theorem execBurstStatus_keep (c : Cmd) (s : State) : Stays (execBurstStatus c s) s := by
  refine Stays.of_next (State.hostCmd_keep _ _ _ _ _ fun _ => ?_)
  repeat' first
    | simp only [State.complete_keep, State.record_keep, State.modBurst_keep]
    | refine (State.respond_keep _ _ _ _ _ ?_).trans ?_
    | intro _
    | split

theorem execQualityStatus_keep (c : Cmd) (s : State) : Stays (execQualityStatus c s) s :=
  Stays.of_next (State.statusCmd_keep _ _ _ _ _ fun x => respond_keep_of (gather_keep State.qualityRecord_keep (setBits x.select) s) c x _)

theorem execNoiseFloorBlock_keep (p : Fin 64) (car : Fin 8) (raw : List AdcIn) (s : State) : Stays (execNoiseFloorBlock p car raw s) s := by
  refine Stays.of_next ?_
  dsimp only
  (repeat' split) <;> simp only [State.keep_mk, State.keep_eta]

-- FamFh

theorem execFhPortSet_keep (c : Cmd) (s : State) : Stays (execFhPortSet c s) s := by
  refine Stays.of_next (State.hostCmd_keep _ _ _ _ _ fun _ => ?_)
  dsimp only
  (repeat' split) <;> simp only [State.complete_keep, State.lanesDown_keep, State.modPort_keep, State.reBackup_keep, State.postLink_keep]

theorem execFhWindowSet_keep (c : Cmd) (s : State) : Stays (execFhWindowSet c s) s := by
  refine Stays.of_next (State.hostCmd_keep _ _ _ _ _ fun _ => ?_)
  dsimp only
  (repeat' split) <;> simp only [State.complete_keep, State.keep_mk, State.keep_eta]

theorem execFhFlowSet_keep (c : Cmd) (s : State) : Stays (execFhFlowSet c s) s := by
  refine Stays.of_next (State.hostCmd_keep _ _ _ _ _ fun _ => ?_)
  dsimp only
  (repeat' split) <;> simp only [State.complete_keep, State.carrierEvent_keep]

theorem execFhStatus_keep (c : Cmd) (s : State) : Stays (execFhStatus c s) s := by
  refine Stays.of_next (State.statusCmd_keep _ _ _ _ _ fun _ => ?_)
  repeat' first
    | simp only [State.portRecord_keep, State.cnt_keep]
    | refine (State.respond_keep _ _ _ _ _ ?_).trans ?_
    | refine (foldl_keep _ ?_ _ _).trans ?_
    | refine (foldl_keep_snd _ ?_ _ _).trans ?_
    | intro _

theorem execFhLaneEqWrite_keep (c : Cmd) (s : State) : Stays (execFhLaneEqWrite c s) s := Stays.of_next (State.hostCmd_keep _ _ _ _ _ fun _ => State.cmdRegWrite_keep ..)

theorem execCPlaneSections_keep (port : Fin 8) (msg : Bytes) (s : State) : Stays (execCPlaneSections port msg s) s := Stays.of_next (State.sarRow_keep ..)

theorem execUPlaneData_keep (port : Fin 8) (msg : Bytes) (s : State) : Stays (execUPlaneData port msg s) s := Stays.of_next (State.sarRow_keep ..)

theorem execScheduleHint_keep (port : Fin 8) (msg : Bytes) (s : State) : Stays (execScheduleHint port msg s) s := Stays.of_next (State.sarRow_keep ..)

theorem execSoundingDirective_keep (port : Fin 8) (msg : Bytes) (s : State) : Stays (execSoundingDirective port msg s) s := Stays.of_next (State.sarRow_keep ..)

theorem execBurstDirective_keep (port : Fin 8) (msg : Bytes) (s : State) : Stays (execBurstDirective port msg s) s := Stays.of_next (State.sarRow_keep ..)

theorem execWeightBlocks_keep (port : Fin 8) (msg : Bytes) (s : State) : Stays (execWeightBlocks port msg s) s := Stays.of_next (State.sarRow_keep ..)

theorem execBeamUpload_keep (port : Fin 8) (msg : Bytes) (s : State) : Stays (execBeamUpload port msg s) s := Stays.of_next (State.sarRow_keep ..)

theorem execWakeMessage_keep (port : Fin 8) (msg : Bytes) (s : State) : Stays (execWakeMessage port msg s) s := Stays.of_next (State.sarRow_keep ..)

theorem execOrphanBlockTimeout_keep (idx : Nat) (s : State) : Stays (execOrphanBlockTimeout idx s) s := by
  refine Stays.of_next ?_
  (repeat' split) <;> rfl

theorem execDelayRequest_keep (port : Fin 8) (src : BitVec 48) (msg : Bytes) (s : State) : Stays (execDelayRequest port src msg s) s := Stays.of_next (State.delayRow_keep ..)

theorem execDelayFollowUp_keep (port : Fin 8) (src : BitVec 48) (msg : Bytes) (s : State) : Stays (execDelayFollowUp port src msg s) s := Stays.of_next (State.delayRow_keep ..)

theorem execFollowUpTimeout_keep (port : Fin 8) (s : State) : Stays (execFollowUpTimeout port s) s := Stays.of_next rfl

theorem execDlSymbolRelease_keep (ev : Nat) (s : State) : Stays (execDlSymbolRelease ev s) s := by
  refine Stays.of_next (State.release_keep _ _ _ _ _ fun _ => ?_)
  repeat' first
    | simp only [State.lateRec_keep, State.settleSection_keep, State.trafficBegin_keep, State.modCarrier_keep, State.addSats_keep, State.txJoin_keep, State.emit_keep, State.keep_mk, State.keep_eta]
    | refine (foldl_keep _ ?_ _ _).trans ?_
    | intro _
    | split

theorem execUlSymbolRelease_keep (ev : Nat) (s : State) : Stays (execUlSymbolRelease ev s) s := by
  refine Stays.of_next (State.release_keep _ _ _ _ _ fun _ _ => ?_)
  split <;> simp only [State.trafficBegin_keep, State.keep_mk, State.keep_eta]

theorem execUlEgress_keep (car : Fin 8) (sym : Tick) (raw : List AdcIn) (s : State) : Stays (execUlEgress car sym raw s) s := by
  refine Stays.of_next ?_
  repeat' first
    | simp only [State.settleSection_keep, State.ulReceive_keep, State.modCarrier_keep, State.ulTaken_keep, State.egressLayer_keep]
    | refine (foldl_keep _ ?_ _ _).trans ?_
    | intro _
    | split

theorem execPortUp_keep (port : Fin 8) (deskew : Nat) (s : State) : Stays (execPortUp port deskew s) s := by
  refine Stays.of_next ?_
  (repeat' split) <;> simp only [State.modPort_keep, State.postLink_keep]

theorem execPortRevert_keep (port : Fin 8) (s : State) : Stays (execPortRevert port s) s := by
  refine Stays.of_next ?_
  repeat' first
    | simp only [State.modCarrier_keep, State.modPort_keep, State.postLink_keep]
    | refine (foldl_keep _ ?_ _ _).trans ?_
    | intro _
    | split

-- FamTime

theorem execServoHoldover_keep (tb : Fin 2) (s : State) : Stays (execServoHoldover tb s) s := by
  refine Stays.of_next ?_
  split <;> simp only [State.servoHold_keep]

theorem execServoExpired_keep (tb : Fin 2) (s : State) : Stays (execServoExpired tb s) s := by
  refine Stays.of_next ?_
  split <;> simp only [State.servoExpire_keep]

theorem execBleedDone_keep (s : State) : Stays (execBleedDone s) s := by
  refine Stays.of_next ?_
  split <;> simp only [State.bleedFrom_keep, State.postTime_keep]

theorem execTimeAnchor_keep (s : State) : Stays (execTimeAnchor s) s := by
  refine Stays.of_next ?_
  (repeat' split) <;> simp only [State.anchorBody_keep, State.post_keep, State.keep_mk, State.keep_eta]

theorem execAnnounceTimeout_keep (tb : Fin 2) (s : State) : Stays (execAnnounceTimeout tb s) s := by
  refine Stays.of_next ?_
  split <;> simp only [State.modTb_keep, State.selectParent_keep]

theorem execDelayReqSend_keep (tb : Fin 2) (at_ : Int) (s : State) : Stays (execDelayReqSend tb at_ s) s := by
  refine Stays.of_next ?_
  dsimp only
  (repeat' split) <;> simp only [State.modTb_keep, State.sendFrame_keep]

theorem execPpsInEdge_keep (at_ : Int) (s : State) : Stays (execPpsInEdge at_ s) s := by
  refine Stays.of_next ?_
  dsimp only
  (repeat' split) <;> simp only [State.modTb_keep, State.servoOffset_keep, State.keep_mk, State.keep_eta]

theorem execPinEdgeRelease_keep (ev : Nat) (s : State) : Stays (execPinEdgeRelease ev s) s := by
  refine Stays.of_next (State.release_keep _ _ _ _ _ fun _ _ => ?_)
  split <;> simp only [State.atCycle_keep, State.keep_mk, State.keep_eta]

theorem execPpsOutPulseEnd_keep (s : State) : Stays (execPpsOutPulseEnd s) s := by
  refine Stays.of_next ?_
  (repeat' split) <;> rfl

theorem execTimeTodSet_keep (c : Cmd) (s : State) : Stays (execTimeTodSet c s) s := by
  refine Stays.of_next (State.hostCmd_keep _ _ _ _ _ fun _ => ?_)
  split
  · exact State.complete_keep ..
  · exact State.complete_keep ..

theorem execTimeCfg_keep (c : Cmd) (s : State) : Stays (execTimeCfg c s) s := by
  refine Stays.of_next (State.hostCmd_keep _ _ _ _ _ fun _ => ?_)
  dsimp only
  (repeat' split) <;> simp only [State.complete_keep, State.modTb_keep, State.keep_mk, State.keep_eta]

theorem execTimeDevSet_keep (c : Cmd) (s : State) : Stays (execTimeDevSet c s) s := by
  refine Stays.of_next (State.hostCmd_keep _ _ _ _ _ fun _ => ?_)
  dsimp only
  (repeat' split) <;> simp only [State.complete_keep, State.bleedFrom_keep, State.switchTb_keep, State.keep_mk, State.keep_eta]

theorem execTimeStatus_keep (c : Cmd) (s : State) : Stays (execTimeStatus c s) s := by
  refine Stays.of_next (State.hostCmd_keep _ _ _ _ _ fun _ => ?_)
  repeat' first
    | simp only [State.complete_keep, State.timeRecord_keep, State.modTb_keep, State.keep_mk, State.keep_eta]
    | refine (State.records_keep _ _ _ ?_).trans ?_
    | refine (State.respond_keep _ _ _ _ _ ?_).trans ?_
    | refine (foldl_keep _ ?_ _ _).trans ?_
    | intro _
    | split

-- FamClk

theorem execClockMonitorWindowEnd_keep (clk : Fin 11) (clean : Bool) (s : State) : Stays (execClockMonitorWindowEnd clk clean s) s := by
  refine Stays.of_next ?_
  (repeat' split) <;> simp only [State.setMon_keep, State.monGood_keep, State.monTrip_keep]

theorem execClockDead_keep (clk : Fin 11) (s : State) : Stays (execClockDead clk s) s := by
  refine Stays.of_next ?_
  dsimp only
  (repeat' split) <;> simp only [State.setMon_keep, State.meterDead_keep, State.switchDead_keep, State.monTrip_keep, State.aonDead_keep, State.modClk_keep, State.epochInvalid_keep, State.postClk_keep]

theorem execTurntableSwitchEnd_keep (s : State) : Stays (execTurntableSwitchEnd s) s := by
  refine Stays.of_next ?_
  dsimp only
  (repeat' split) <;> simp only [State.modClk_keep, State.refSelect_keep, State.epochInvalid_keep, State.postClk_keep, State.pllAcquire_keep, State.refTrip_keep, State.keep_mk, State.keep_eta]

theorem execPllLocked_keep (s : State) : Stays (execPllLocked s) s := by
  refine Stays.of_next ?_
  dsimp only
  (repeat' split) <;> simp only [State.modClk_keep, State.postClk_keep, State.beginSwitch_keep]

theorem execRevertHoldExpiry_keep (s : State) : Stays (execRevertHoldExpiry s) s := by
  refine Stays.of_next ?_
  (repeat' split) <;> rfl

theorem execGateRequest_keep (block : Nat) (s : State) : Stays (execGateRequest block s) s := by
  refine Stays.of_next ?_
  (repeat' split) <;> rfl

theorem execGateTimeout_keep (block : Nat) (s : State) : Stays (execGateTimeout block s) s := by
  refine Stays.of_next ?_
  split <;> simp only [State.modClk_keep, State.postClk_keep, State.raiseFault_keep]

theorem execClkStatusRead_keep (c : Cmd) (s : State) : Stays (execClkStatusRead c s) s := Stays.of_next (State.readNamed_keep ..)

theorem execClkGateToRead_keep (c : Cmd) (s : State) : Stays (execClkGateToRead c s) s := Stays.of_next (State.readNamed_keep ..)

theorem execClkMeterStart_keep (c : Cmd) (s : State) : Stays (execClkMeterStart c s) s := Stays.of_next (State.writeNamed_keep ..)

theorem execClkMeterClear_keep (c : Cmd) (s : State) : Stays (execClkMeterClear c s) s := Stays.of_next (State.writeNamed_keep ..)

theorem execClkMeterEnd_keep (count : BitVec 48) (s : State) : Stays (execClkMeterEnd count s) s := by
  refine Stays.of_next ?_
  dsimp only
  (repeat' split) <;> simp only [State.takeFree_keep, State.modClk_keep]

theorem execDpByp_keep (c : Cmd) (s : State) : Stays (execDpByp c s) s := Stays.of_next (State.writeNamed_keep ..)

theorem execCbDiv_keep (c : Cmd) (s : State) : Stays (execCbDiv c s) s := Stays.of_next (State.writeNamed_keep ..)

theorem execRefCfg_keep (c : Cmd) (s : State) : Stays (execRefCfg c s) s := by
  refine Stays.of_next (State.hostCmd_keep _ _ _ _ _ fun _ => ?_)
  extract_lets k old a role src moves mon m2 m3 dead t
  have ht : t.keep = s.keep := rfl
  clear_value t
  repeat' split
  · exact State.complete_keep ..
  · exact State.complete_keep ..
  · exact (State.complete_keep ..).trans ((State.beginSwitch_keep ..).trans ht)
  · exact (State.complete_keep ..).trans ht

-- FamHit

theorem execHitSet_keep (c : Cmd) (s : State) : Stays (execHitSet c s) s := by
  refine Stays.of_next (State.hostCmd_keep _ _ _ _ _ fun _ => ?_)
  dsimp only
  (repeat' split) <;> simp only [State.complete_keep, State.modHit_keep]

theorem execHitStatus_keep (c : Cmd) (s : State) : Stays (execHitStatus c s) s := by
  refine Stays.of_next (State.hostCmd_keep _ _ _ _ _ fun _ => ?_)
  repeat' first
    | simp only [State.complete_keep, State.record_keep, State.modHit_keep]
    | refine (State.respond_keep _ _ _ _ _ ?_).trans ?_
    | intro _
    | split

theorem execHitchTimeSend_keep (s : State) : Stays (execHitchTimeSend s) s := by
  refine Stays.of_next ?_
  (repeat' split) <;> simp only [State.modHit_keep, State.hitSend_keep]

theorem execHitchTimeLoss_keep (port : Fin 8) (s : State) : Stays (execHitchTimeLoss port s) s := by
  refine Stays.of_next ?_
  dsimp only
  (repeat' split) <;> simp only [State.modHit_keep, State.postArray_keep, State.enterServo_keep]

theorem execUlPsumSend_keep (car : Fin 8) (sym : Tick) (raw : List AdcIn) (s : State) : Stays (execUlPsumSend car sym raw s) s := by
  refine Stays.of_next ?_
  repeat' first
    | simp only [State.settleSection_keep, State.ulReceive_keep, State.ulTaken_keep, State.modHit_keep, State.psumSend_keep, State.psumEgress_keep]
    | refine (foldl_keep _ ?_ _ _).trans ?_
    | intro _
    | split

theorem execCommitSend_keep (car : Fin 8) (ul : Bool) (slot : Tick) (grp : Nat) (s : State) : Stays (execCommitSend car ul slot grp s) s := by
  refine Stays.of_next ?_
  (repeat' split) <;> simp only [State.abandonClaim_keep, State.modHit_keep, State.sendCommit_keep, State.modWcount_keep, State.publish_keep]

theorem execCommitMiss_keep (car : Fin 8) (ul : Bool) (slot : Tick) (grp : Nat) (s : State) : Stays (execCommitMiss car ul slot grp s) s := by
  refine Stays.of_next ?_
  (repeat' split) <;> simp only [State.missCommit_keep]

theorem execKeepaliveSend_keep (port : Fin 8) (s : State) : Stays (execKeepaliveSend port s) s := by
  refine Stays.of_next ?_
  dsimp only
  (repeat' split) <;> simp only [State.modHit_keep, State.hitSend_keep]

theorem execMemberLost_keep (d : Fin 8) (s : State) : Stays (execMemberLost d s) s := by
  refine Stays.of_next ?_
  repeat' first
    | simp only [State.modHit_keep, State.postArray_keep, State.raiseFault_keep]
    | refine (foldl_keep _ ?_ _ _).trans ?_
    | intro _
    | split

theorem execMembershipChange_keep (s : State) : Stays (execMembershipChange s) s := by
  refine Stays.of_next ?_
  repeat' first
    | simp only [State.modHit_keep, State.scrapCarrier_keep, State.firstUse_keep, State.chainStep_keep]
    | refine (foldl_keep _ ?_ _ _).trans ?_
    | intro _
    | split

-- FamHk

theorem execHkConversionEnd_keep (conv : Fin 2) (raw : Int) (s : State) : Stays (execHkConversionEnd conv raw s) s := by
  refine Stays.of_next ?_
  split
  next => rfl
  next o _ =>
    split
    · rfl
    · split
      next => rfl
      next ch _ =>
        extract_lets code s1 s2 s3 stops s4
        have h1 : s1.keep = s.keep := (State.hkCompare_keep ..).trans (State.hkRecord_keep ..)
        clear_value s1
        have h2 : s2.keep = s.keep := by
          unfold s2
          split
          · exact (State.complete_keep ..).trans h1
          · exact h1
        clear_value s2
        have h4 : s4.keep = s.keep := by
          unfold s4
          split
          · exact h2
          · exact (foldl_keep _ (fun t r => State.complete_keep t r .ok 0) _ _).trans h2
        exact (State.hkGo_keep ..).trans h4

theorem execHkSweepEnd_keep (conv : Fin 2) (s : State) : Stays (execHkSweepEnd conv s) s := by
  refine Stays.of_next ?_
  dsimp only
  (repeat' split) <;> simp only [State.modConv_keep, State.hkGo_keep]

theorem execHkTrigPin_keep (pin : Bool) (s : State) : Stays (execHkTrigPin pin s) s := by
  refine Stays.of_next ?_
  repeat' first
    | simp only [State.takeFree_keep, State.hkTrigger_keep]
    | refine (foldl_keep _ ?_ _ _).trans ?_
    | intro _
    | split

theorem execHkPowerDown_keep (conv : Fin 2) (s : State) : Stays (execHkPowerDown conv s) s := by
  refine Stays.of_next ?_
  dsimp only
  (repeat' split) <;> simp only [State.modConv_keep]

theorem execHkCalStart_keep (conv : Fin 2) (s : State) : Stays (execHkCalStart conv s) s := by
  refine Stays.of_next ?_
  dsimp only
  (repeat' split) <;> simp only [State.modConv_keep]

theorem execHkCalEnd_keep (conv : Fin 2) (gain ofs : BitVec 16) (s : State) : Stays (execHkCalEnd conv gain ofs s) s := by
  refine Stays.of_next ?_
  dsimp only
  (repeat' split) <;> simp only [State.modConv_keep, State.complete_keep, State.hkGo_keep]

theorem execHkSeqSet_keep (c : Cmd) (s : State) : Stays (execHkSeqSet c s) s := by
  refine Stays.of_next (State.hostCmd_keep _ _ _ _ _ fun _ => ?_)
  dsimp only
  (repeat' split) <;> simp only [State.within_keep, State.complete_keep, State.modConv_keep, State.finish_keep]

theorem execHkCmpSet_keep (c : Cmd) (s : State) : Stays (execHkCmpSet c s) s := by
  refine Stays.of_next (State.hostCmd_keep _ _ _ _ _ fun _ => ?_)
  dsimp only
  (repeat' split) <;> simp only [State.complete_keep, State.finish_keep, State.keep_mk, State.keep_eta]

theorem execHkTriggerSweep_keep (c : Cmd) (s : State) : Stays (execHkTriggerSweep c s) s := by
  refine Stays.of_next (State.hostCmd_keep _ _ _ _ _ fun _ => ?_)
  extract_lets i g
  have hg : g.2.keep = s.keep := State.hkTrigger_keep ..
  (repeat' split) <;> simp only [State.complete_keep, State.finish_keep, presentCmd_only_keep, hg]

theorem execHkTriggerSpot_keep (c : Cmd) (s : State) : Stays (execHkTriggerSpot c s) s := by
  refine Stays.of_next (State.hostCmd_keep _ _ _ _ _ fun _ => ?_)
  extract_lets
  (repeat' split) <;> simp only [State.complete_keep, State.hkGo_keep, State.setStage_keep, State.modConv_keep, presentCmd_only_keep]

theorem execHkTriggerStop_keep (c : Cmd) (s : State) : Stays (execHkTriggerStop c s) s := by
  refine Stays.of_next (State.hostCmd_keep _ _ _ _ _ fun _ => ?_)
  dsimp only
  (repeat' split) <;> simp only [State.modConv_keep, State.setStage_keep, State.finish_keep]

theorem execHkTriggerRelease_keep (ev : Nat) (s : State) : Stays (execHkTriggerRelease ev s) s := by
  refine Stays.of_next (State.release_keep _ _ _ _ _ fun _ _ => ?_)
  (repeat' split) <;> simp only [State.modConv_keep]

theorem execHkCal_keep (c : Cmd) (s : State) : Stays (execHkCal c s) s := by
  refine Stays.of_next (State.hostCmd_keep _ _ _ _ _ fun _ => ?_)
  repeat' first
    | simp only [State.complete_keep, State.modConv_keep, State.setStage_keep]
    | refine (foldl_keep _ ?_ _ _).trans ?_
    | intro _
    | split

theorem execHkRead_keep (c : Cmd) (s : State) : Stays (execHkRead c s) s := by
  refine Stays.of_next (State.hostCmd_keep _ _ _ _ _ fun x => ?_)
  extract_lets first w n s1 chs r
  have h1 : s1.keep = s.keep := State.within_keep ..
  have hr : r.2.keep = s.keep := by
    refine (foldl_keep_snd _ (fun a ch => ?_) chs ([], s1)).trans h1
    exact State.hkReadRecord_keep a.2 ch
  clear_value s1 r
  split
  · exact (State.complete_keep ..).trans h1
  · exact respond_keep_of hr c x _

theorem execHkOverrunRead_keep (c : Cmd) (s : State) : Stays (execHkOverrunRead c s) s := Stays.of_next (State.readNamed_keep ..)

theorem execSupClearTrips_keep (c : Cmd) (s : State) : Stays (execSupClearTrips c s) s := by
  refine Stays.of_next (State.hostCmd_keep _ _ _ _ _ fun _ => ?_)
  repeat' first
    | simp only [State.complete_keep, State.postSup_keep, State.finish_keep, State.keep_mk, State.keep_eta]
    | refine (foldl_keep _ ?_ _ _).trans ?_
    | intro _
    | split

-- FamSec

theorem execBootImageVerify_keep (s : State) : Stays (execBootImageVerify s) s := by
  refine Stays.of_next ?_
  dsimp only
  (repeat' split) <;> simp only [State.bootPair_keep, State.bootKernel_keep, State.keep_mk, State.keep_eta]

theorem execSecImageLoad_keep (c : Cmd) (s : State) : Stays (execSecImageLoad c s) s := by
  refine Stays.of_next (State.hostCmd_keep _ _ _ _ _ fun _ => ?_)
  dsimp only
  (repeat' split) <;> simp only [State.complete_keep, State.verifyFail_keep, State.putImage_keep, State.tackPut_keep, State.finish_keep, State.keep_mk, State.keep_eta]

theorem execSecRollbackCommit_keep (c : Cmd) (s : State) : Stays (execSecRollbackCommit c s) s := by
  refine Stays.of_next (State.hostCmd_keep _ _ _ _ _ fun _ => ?_)
  dsimp only
  (repeat' split) <;> simp only [State.complete_keep, State.finish_keep, State.tackPut_keep]

theorem execSecProvision_keep (c : Cmd) (healthy : Bool) (s : State) : Stays (execSecProvision c healthy s) s := by
  refine Stays.of_next (State.hostCmd_keep _ _ _ _ _ fun _ => ?_)
  dsimp only
  (repeat' split) <;> simp only [State.complete_keep, State.takeBytes_keep, State.tackPut_keep, State.deliver_keep]

theorem execSecCertStore_keep (c : Cmd) (s : State) : Stays (execSecCertStore c s) s := by
  refine Stays.of_next (State.hostCmd_keep _ _ _ _ _ fun _ => ?_)
  dsimp only
  (repeat' split) <;> simp only [State.complete_keep, State.tackPut_keep, State.finish_keep]

theorem execSecIdRead_keep (c : Cmd) (s : State) : Stays (execSecIdRead c s) s := by
  refine Stays.of_next (State.hostCmd_keep _ _ _ _ _ fun _ => ?_)
  split <;> simp only [State.complete_keep, State.deliver_keep]

theorem execSecAttest_keep (c : Cmd) (s : State) : Stays (execSecAttest c s) s := by
  refine Stays.of_next (State.hostCmd_keep _ _ _ _ _ fun _ => ?_)
  dsimp only
  (repeat' split) <;> simp only [State.takeFree_keep, State.complete_keep, State.report_keep, State.takeBytes_keep, State.deliver_keep]

theorem execSecBootStatusRead_keep (c : Cmd) (s : State) : Stays (execSecBootStatusRead c s) s := Stays.of_next (State.readNamed_keep ..)

-- FamIsa

theorem execSolverNop_keep (core : Fin 9) (bg : Bool) (w : BitVec 32) (s : State) : Stays (execSolverNop core bg w s) s := Stays.of_next (State.isa_keep _ _ _ _ _ _ _ (pureBank_keep _))

theorem execSolBr_keep (core : Fin 9) (bg : Bool) (w : BitVec 32) (s : State) : Stays (execSolBr core bg w s) s := by
  refine Stays.of_next (State.isa_keep _ _ _ _ _ _ _ fun _ _ _ h => ?_)
  dsimp only at h
  (repeat' split at h) <;> cases h <;> rfl

theorem libCall_keep (c : Fin 9) (s : State) (b : Bank) (t : Nat) (u : State × Bank × Nat) (h : s.libCall c b t = .inr u) : u.1.keep = s.keep := by
  unfold State.libCall at h
  extract_lets x0 n pc b1 _ r x14 s1 k _ h1 y _ _ at h
  have hr : r.1.keep = s.keep := by
    unfold r
    split
    · exact State.libGram_keep ..
    · split
      · exact State.libChol_keep ..
      · split
        · exact State.libSolve_keep ..
        · exact State.libNormOut_keep ..
  clear_value r
  have hs1 : s1.keep = s.keep := by
    unfold s1
    split
    · exact (State.solFree_keep ..).trans hr
    · exact hr
  clear_value s1
  split at h
  · cases h
  · cases h
    exact (State.satCount_keep ..).trans ((State.takeFree_keep ..).trans ((State.takeFree_keep ..).trans hs1))

theorem execSolCall_keep (core : Fin 9) (bg : Bool) (w : BitVec 32) (s : State) : Stays (execSolCall core bg w s) s := by
  refine Stays.of_next (State.isa_keep _ _ _ _ _ _ _ fun s b u h => ?_)
  dsimp only at h
  split at h
  · exact libCall_keep _ _ _ _ _ h
  · split at h
    · cases h; rfl
    · cases h

theorem execSolRet_keep (core : Fin 9) (bg : Bool) (w : BitVec 32) (s : State) : Stays (execSolRet core bg w s) s := by
  refine Stays.of_next (State.isa_keep _ _ _ _ _ _ _ fun _ _ _ h => ?_)
  dsimp only at h
  split at h <;> cases h
  rfl

theorem execSolRept_keep (core : Fin 9) (bg : Bool) (w : BitVec 32) (s : State) : Stays (execSolRept core bg w s) s := by
  refine Stays.of_next (State.isa_keep _ _ _ _ _ _ _ fun _ _ _ h => ?_)
  dsimp only at h
  (repeat' split at h) <;> cases h
  all_goals rfl

theorem execSolEnd_keep (core : Fin 9) (bg : Bool) (w : BitVec 32) (s : State) : Stays (execSolEnd core bg w s) s := by
  refine Stays.of_next (State.isa_keep _ _ _ _ _ _ _ fun t b u h => ?_)
  repeat' split at h
  · cases h
  · cases h; exact State.modCore_keep ..
  · cases h; exact State.modCore_keep ..

theorem execSolTrap_keep (core : Fin 9) (bg : Bool) (w : BitVec 32) (s : State) : Stays (execSolTrap core bg w s) s :=
  Stays.of_next (State.isa_keep _ _ _ _ _ _ _ fun _ _ _ h => nomatch h)

theorem execSolAdd_keep (core : Fin 9) (bg : Bool) (w : BitVec 32) (s : State) : Stays (execSolAdd core bg w s) s := Stays.of_next (State.salu_keep ..)

theorem execSolSub_keep (core : Fin 9) (bg : Bool) (w : BitVec 32) (s : State) : Stays (execSolSub core bg w s) s := Stays.of_next (State.salu_keep ..)

theorem execSolAnd_keep (core : Fin 9) (bg : Bool) (w : BitVec 32) (s : State) : Stays (execSolAnd core bg w s) s := Stays.of_next (State.salu_keep ..)

theorem execSolOr_keep (core : Fin 9) (bg : Bool) (w : BitVec 32) (s : State) : Stays (execSolOr core bg w s) s := Stays.of_next (State.salu_keep ..)

theorem execSolXor_keep (core : Fin 9) (bg : Bool) (w : BitVec 32) (s : State) : Stays (execSolXor core bg w s) s := Stays.of_next (State.salu_keep ..)

theorem execSolShl_keep (core : Fin 9) (bg : Bool) (w : BitVec 32) (s : State) : Stays (execSolShl core bg w s) s := Stays.of_next (State.salu_keep ..)

theorem execSolShr_keep (core : Fin 9) (bg : Bool) (w : BitVec 32) (s : State) : Stays (execSolShr core bg w s) s := Stays.of_next (State.salu_keep ..)

theorem execSolSra_keep (core : Fin 9) (bg : Bool) (w : BitVec 32) (s : State) : Stays (execSolSra core bg w s) s := Stays.of_next (State.salu_keep ..)

theorem execSolMul_keep (core : Fin 9) (bg : Bool) (w : BitVec 32) (s : State) : Stays (execSolMul core bg w s) s := Stays.of_next (State.salu_keep ..)

theorem execSolSlt_keep (core : Fin 9) (bg : Bool) (w : BitVec 32) (s : State) : Stays (execSolSlt core bg w s) s := Stays.of_next (State.salu_keep ..)

theorem execSolSltu_keep (core : Fin 9) (bg : Bool) (w : BitVec 32) (s : State) : Stays (execSolSltu core bg w s) s := Stays.of_next (State.salu_keep ..)

theorem execSolMin_keep (core : Fin 9) (bg : Bool) (w : BitVec 32) (s : State) : Stays (execSolMin core bg w s) s := Stays.of_next (State.salu_keep ..)

theorem execSolMax_keep (core : Fin 9) (bg : Bool) (w : BitVec 32) (s : State) : Stays (execSolMax core bg w s) s := Stays.of_next (State.salu_keep ..)

theorem execSolMovi_keep (core : Fin 9) (bg : Bool) (w : BitVec 32) (s : State) : Stays (execSolMovi core bg w s) s := Stays.of_next (State.simm_keep ..)

theorem execSolMovhi_keep (core : Fin 9) (bg : Bool) (w : BitVec 32) (s : State) : Stays (execSolMovhi core bg w s) s := Stays.of_next (State.simm_keep ..)

theorem execSolAddi_keep (core : Fin 9) (bg : Bool) (w : BitVec 32) (s : State) : Stays (execSolAddi core bg w s) s := Stays.of_next (State.simm_keep ..)

theorem execSolAddhi_keep (core : Fin 9) (bg : Bool) (w : BitVec 32) (s : State) : Stays (execSolAddhi core bg w s) s := Stays.of_next (State.simm_keep ..)

theorem execSolLdw_keep (core : Fin 9) (bg : Bool) (w : BitVec 32) (s : State) : Stays (execSolLdw core bg w s) s := Stays.of_next (State.memOp_keep _ _ _ _ _ _ _ _ fun _ _ _ => rfl)

theorem execSolStw_keep (core : Fin 9) (bg : Bool) (w : BitVec 32) (s : State) : Stays (execSolStw core bg w s) s := Stays.of_next (State.memOp_keep _ _ _ _ _ _ _ _ fun _ _ _ => State.solStore_keep ..)

theorem execSolVld_keep (core : Fin 9) (bg : Bool) (w : BitVec 32) (s : State) : Stays (execSolVld core bg w s) s := Stays.of_next (State.memOp_keep _ _ _ _ _ _ _ _ fun _ _ _ => rfl)

theorem execSolVst_keep (core : Fin 9) (bg : Bool) (w : BitVec 32) (s : State) : Stays (execSolVst core bg w s) s := Stays.of_next (State.memOp_keep _ _ _ _ _ _ _ _ fun _ _ _ => State.solVecPut_keep ..)

theorem execSolVldb_keep (core : Fin 9) (bg : Bool) (w : BitVec 32) (s : State) : Stays (execSolVldb core bg w s) s := Stays.of_next (State.memOp_keep _ _ _ _ _ _ _ _ fun _ _ _ => rfl)

theorem execSolVstm_keep (core : Fin 9) (bg : Bool) (w : BitVec 32) (s : State) : Stays (execSolVstm core bg w s) s := Stays.of_next (State.memOp_keep _ _ _ _ _ _ _ _ fun _ _ _ => State.solVecPut_keep ..)

theorem execSolMovsx_keep (core : Fin 9) (bg : Bool) (w : BitVec 32) (s : State) : Stays (execSolMovsx core bg w s) s := Stays.of_next (State.isa_keep _ _ _ _ _ _ _ (pureBank_keep _))

theorem execSolMovxs_keep (core : Fin 9) (bg : Bool) (w : BitVec 32) (s : State) : Stays (execSolMovxs core bg w s) s := Stays.of_next (State.isa_keep _ _ _ _ _ _ _ (pureBank_keep _))

theorem execSolSetcfg_keep (core : Fin 9) (bg : Bool) (w : BitVec 32) (s : State) : Stays (execSolSetcfg core bg w s) s := Stays.of_next (State.isa_keep _ _ _ _ _ _ _ (pureBank_keep _))

theorem execSolGetcfg_keep (core : Fin 9) (bg : Bool) (w : BitVec 32) (s : State) : Stays (execSolGetcfg core bg w s) s := Stays.of_next (State.isa_keep _ _ _ _ _ _ _ fun _ _ _ h => by cases h; rfl)

theorem execSolSetmask_keep (core : Fin 9) (bg : Bool) (w : BitVec 32) (s : State) : Stays (execSolSetmask core bg w s) s := Stays.of_next (State.isa_keep _ _ _ _ _ _ _ (pureBank_keep _))

theorem execSolGetspr_keep (core : Fin 9) (bg : Bool) (w : BitVec 32) (s : State) : Stays (execSolGetspr core bg w s) s := by
  refine Stays.of_next (State.isa_keep _ _ _ _ _ _ _ fun _ _ _ h => ?_)
  dsimp only at h
  (repeat' split at h) <;> cases h <;> rfl

theorem execSolAddx_keep (core : Fin 9) (bg : Bool) (w : BitVec 32) (s : State) : Stays (execSolAddx core bg w s) s := Stays.of_next (State.isa_keep _ _ _ _ _ _ _ fun _ _ _ h => by cases h; exact State.xStep_keep ..)

theorem execSolVmul_keep (core : Fin 9) (bg : Bool) (w : BitVec 32) (s : State) : Stays (execSolVmul core bg w s) s := Stays.of_next (State.macV_keep ..)

theorem execSolVmac_keep (core : Fin 9) (bg : Bool) (w : BitVec 32) (s : State) : Stays (execSolVmac core bg w s) s := Stays.of_next (State.macV_keep ..)

theorem execSolVmulb_keep (core : Fin 9) (bg : Bool) (w : BitVec 32) (s : State) : Stays (execSolVmulb core bg w s) s := Stays.of_next (State.macB_keep ..)

theorem execSolVmacb_keep (core : Fin 9) (bg : Bool) (w : BitVec 32) (s : State) : Stays (execSolVmacb core bg w s) s := Stays.of_next (State.macB_keep ..)

theorem execSolVmacs_keep (core : Fin 9) (bg : Bool) (w : BitVec 32) (s : State) : Stays (execSolVmacs core bg w s) s := Stays.of_next (State.isa_keep _ _ _ _ _ _ _ fun _ _ _ h => by cases h; rfl)

theorem execSolVmacm_keep (core : Fin 9) (bg : Bool) (w : BitVec 32) (s : State) : Stays (execSolVmacm core bg w s) s := by
  refine Stays.of_next (State.isa_keep _ _ _ _ _ _ _ fun _ _ _ h => ?_)
  dsimp only at h
  split at h <;> cases h
  exact State.xStep_keep ..

theorem vrndTo_keep (core : Fin 9) (w : BitVec 32) (k : Bank → Nat) : IsaKeeps fun s b => s.vrndTo core w b (k b) := by
  intro s b t h
  cases h
  exact State.vecSat_keep ..

theorem execSolVrnd_keep (core : Fin 9) (bg : Bool) (w : BitVec 32) (s : State) : Stays (execSolVrnd core bg w s) s :=
  Stays.of_next (State.isa_keep _ _ _ _ _ _ _ (vrndTo_keep core w _))

theorem execSolVrnds_keep (core : Fin 9) (bg : Bool) (w : BitVec 32) (s : State) : Stays (execSolVrnds core bg w s) s :=
  Stays.of_next (State.isa_keep _ _ _ _ _ _ _ (vrndTo_keep core w _))

theorem execSolAclr_keep (core : Fin 9) (bg : Bool) (w : BitVec 32) (s : State) : Stays (execSolAclr core bg w s) s := Stays.of_next (State.isa_keep _ _ _ _ _ _ _ (pureBank_keep _))

theorem execSolAsum_keep (core : Fin 9) (bg : Bool) (w : BitVec 32) (s : State) : Stays (execSolAsum core bg w s) s := Stays.of_next (State.isa_keep _ _ _ _ _ _ _ fun _ _ _ h => by cases h; rfl)

theorem execSolAload_keep (core : Fin 9) (bg : Bool) (w : BitVec 32) (s : State) : Stays (execSolAload core bg w s) s := Stays.of_next (State.isa_keep _ _ _ _ _ _ _ fun _ _ _ h => by cases h; rfl)

theorem execSolSext_keep (core : Fin 9) (bg : Bool) (w : BitVec 32) (s : State) : Stays (execSolSext core bg w s) s := Stays.of_next (State.isa_keep _ _ _ _ _ _ _ fun _ _ _ h => by cases h; rfl)

theorem execSolVadd_keep (core : Fin 9) (bg : Bool) (w : BitVec 32) (s : State) : Stays (execSolVadd core bg w s) s := Stays.of_next (State.valu2_keep ..)

theorem execSolVsub_keep (core : Fin 9) (bg : Bool) (w : BitVec 32) (s : State) : Stays (execSolVsub core bg w s) s := Stays.of_next (State.valu2_keep ..)

theorem execSolVconj_keep (core : Fin 9) (bg : Bool) (w : BitVec 32) (s : State) : Stays (execSolVconj core bg w s) s := Stays.of_next (State.valu2_keep ..)

theorem execSolVneg_keep (core : Fin 9) (bg : Bool) (w : BitVec 32) (s : State) : Stays (execSolVneg core bg w s) s := Stays.of_next (State.valu2_keep ..)

theorem execSolVsel_keep (core : Fin 9) (bg : Bool) (w : BitVec 32) (s : State) : Stays (execSolVsel core bg w s) s := Stays.of_next (State.vmov_keep ..)

theorem execSolVperm_keep (core : Fin 9) (bg : Bool) (w : BitVec 32) (s : State) : Stays (execSolVperm core bg w s) s := Stays.of_next (State.vmov_keep ..)

theorem execSolVbcast_keep (core : Fin 9) (bg : Bool) (w : BitVec 32) (s : State) : Stays (execSolVbcast core bg w s) s := Stays.of_next (State.vmov_keep ..)

theorem execSolVins_keep (core : Fin 9) (bg : Bool) (w : BitVec 32) (s : State) : Stays (execSolVins core bg w s) s := Stays.of_next (State.vmov_keep ..)

theorem execSolVextl_keep (core : Fin 9) (bg : Bool) (w : BitVec 32) (s : State) : Stays (execSolVextl core bg w s) s := Stays.of_next (State.isa_keep _ _ _ _ _ _ _ fun _ _ _ h => by cases h; rfl)

theorem execSolVshr_keep (core : Fin 9) (bg : Bool) (w : BitVec 32) (s : State) : Stays (execSolVshr core bg w s) s := Stays.of_next (State.vmov_keep ..)

theorem execSolSrsq_keep (core : Fin 9) (bg : Bool) (w : BitVec 32) (s : State) : Stays (execSolSrsq core bg w s) s := Stays.of_next (State.sfn_keep ..)

theorem execSolSrec_keep (core : Fin 9) (bg : Bool) (w : BitVec 32) (s : State) : Stays (execSolSrec core bg w s) s := Stays.of_next (State.sfn_keep ..)

theorem execSolSnorm_keep (core : Fin 9) (bg : Bool) (w : BitVec 32) (s : State) : Stays (execSolSnorm core bg w s) s := Stays.of_next (State.sfn_keep ..)

theorem execSolXfer_keep (core : Fin 9) (bg : Bool) (w : BitVec 32) (s : State) : Stays (execSolXfer core bg w s) s := Stays.of_next (State.isa_keep _ _ _ _ _ _ _ fun _ _ _ h => by cases h; rfl)

-- FamLink

theorem execEthFrameReceive_keep (port : Fin 8) (frame : Bytes) (corr uncorr : Nat) (s : State) : Stays (execEthFrameReceive port frame corr uncorr s) s := by
  refine Stays.of_next ?_
  dsimp only
  (repeat' split) <;> simp only [State.cnt_keep, State.hitBad_keep, State.rx_keep, State.ptpFrame_keep, State.hitchFrame_keep, State.ecpri_keep]

theorem execPortFailed_keep (port : Fin 8) (cause : Fin 3) (lane : Fin 32) (s : State) : Stays (execPortFailed port cause lane s) s := by
  refine Stays.of_next ?_
  split <;> simp only [State.lanesDown_keep, State.modPort_keep, State.postLink_keep, State.raiseFault_keep, State.failover_keep]

-- FamSol

theorem execSolverLoad_keep (c : Cmd) (s : State) : Stays (execSolverLoad c s) s := by
  refine Stays.of_next (State.hostCmd_keep _ _ _ _ _ fun _ => ?_)
  dsimp only
  (repeat' split) <;> simp only [State.complete_keep, State.setKernel_keep, State.verifyFail_keep, State.putImage_keep, State.finish_keep]

theorem execSolverSelect_keep (c : Cmd) (s : State) : Stays (execSolverSelect c s) s := by
  refine Stays.of_next (State.hostCmd_keep _ _ _ _ _ fun _ => ?_)
  dsimp only
  (repeat' split) <;> simp only [State.complete_keep, State.carrierEvent_keep]

theorem execSolverStatus_keep (c : Cmd) (s : State) : Stays (execSolverStatus c s) s := by
  refine Stays.of_next (State.statusCmd_keep _ _ _ _ _ fun _ => ?_)
  repeat' first
    | simp only [State.coreRecord_keep, State.modCore_keep]
    | refine (State.respond_keep _ _ _ _ _ ?_).trans ?_
    | refine (foldl_keep _ ?_ _ _).trans ?_
    | refine (foldl_keep_snd _ ?_ _ _).trans ?_
    | intro _

theorem execSolverJobDispatch_keep (core : Fin 9) (s : State) : Stays (execSolverJobDispatch core s) s := by
  refine Stays.of_next ?_
  dsimp only
  (repeat' split) <;> simp only [State.unstageable_keep, State.enterJob_keep, State.modCore_keep, State.jobEntry_keep, State.keep_mk, State.keep_eta]

theorem execForegroundPreempt_keep (core : Fin 9) (s : State) : Stays (execForegroundPreempt core s) s := by
  refine Stays.of_next ?_
  dsimp only
  (repeat' split) <;> simp only [State.modCore_keep]

theorem execSolverJobExit_keep (core : Fin 9) (s : State) : Stays (execSolverJobExit core s) s := by
  refine Stays.of_next ?_
  dsimp only
  (repeat' split) <;> simp only [State.modCore_keep, State.takeFree_keep, State.satCount_keep, State.weightDone_keep, State.chainDone_keep, State.vendorTest_keep, State.testEnd_keep]

theorem execSolverTest_keep (c : Cmd) (s : State) : Stays (execSolverTest c s) s := by
  refine Stays.of_next (State.hostCmd_keep _ _ _ _ _ fun _ => ?_)
  dsimp only
  (repeat' split) <;> simp only [State.complete_keep, State.jobEntry_keep, State.solPuts_keep, State.modCore_keep, State.setStage_keep]

theorem execSolverFault_keep (core : Fin 9) (cause : BitVec 4) (s : State) : Stays (execSolverFault core cause s) s := by
  refine Stays.of_next ?_
  dsimp only
  (repeat' split) <;> simp only [State.coreFault_keep]

theorem execSolverWatchdog_keep (core : Fin 9) (s : State) : Stays (execSolverWatchdog core s) s := by
  refine Stays.of_next ?_
  dsimp only
  (repeat' split) <;> simp only [State.coreFault_keep]

theorem execSolverCoreResetEnd_keep (core : Fin 9) (s : State) : Stays (execSolverCoreResetEnd core s) s := by
  refine Stays.of_next ?_
  dsimp only
  (repeat' split) <;> simp only [State.modCore_keep]

-- FamMem

theorem execMarchRun_keep (c : Cmd) (s : State) : Stays (execMarchRun c s) s := by
  refine Stays.of_next (State.hostCmd_keep _ _ _ _ _ fun _ => ?_)
  dsimp only
  (repeat' split) <;> simp only [State.within_keep, State.complete_keep, State.setStage_keep, State.marchSweep_keep, State.keep_mk, State.keep_eta]

theorem repairs_take_keep (a : Repairs) (f : State → Option State) (hf : ∀ s t, f s = some t → t.keep = s.keep) : (a.take f).1.keep = a.1.keep := by
  unfold Repairs.take
  split
  next t h => exact hf _ _ h
  next => rfl

theorem repairBank_keep (s : State) (b : Nat) (fs : List MarchFail) : (s.repairBank b fs).1.keep = s.keep := by
  unfold State.repairBank
  extract_lets cols rows a1 a2
  have h1 : a1.1.keep = s.keep := foldl_keep_fst _ (fun a i => repairs_take_keep a _ fun u t h => State.repairCol_keep u b i t h) cols (s, 0, false)
  have h2 : a2.1.keep = s.keep := (foldl_keep_fst _ (fun a r => repairs_take_keep a _ fun u t h => State.repairRow_keep u b r 0xF0 t h) rows a1).trans h1
  refine (foldl_keep_fst _ (fun a r => ?_) _ a2).trans h2
  split
  next t h => exact State.repairRow_keep _ _ _ _ t h
  next => rfl

theorem bankTested_keep (s : State) (b : Nat) (fs : List MarchFail) (repair : Bool) : (s.bankTested b fs repair).1.keep = s.keep := by
  unfold State.bankTested
  extract_lets a
  have ha : a.1.keep = s.keep := by
    unfold a
    split
    · exact repairBank_keep ..
    · rfl
  split
  · exact (State.marchFail_keep ..).trans ha
  · exact ha

theorem execMarchBankEnd_keep (ring : Fin 16) (seq bank : Nat) (fails : List MarchFail) (s : State) : Stays (execMarchBankEnd ring seq bank fails s) s := by
  refine Stays.of_next ?_
  split
  next => rfl
  next m _ =>
    extract_lets fs s1 a put s2 mem s3
    have h1 : s1.keep = s.keep := by
      unfold s1
      split
      · exact State.wipeBank_keep ..
      · rfl
    have h2 : s2.keep = s.keep := (State.modMarch_keep ..).trans ((bankTested_keep ..).trans h1)
    clear_value s2
    have h3 : s3.keep = s.keep := by
      unfold s3
      split
      · exact h2
      · exact h2
    clear_value s3
    repeat' split
    · exact (State.marchSweep_keep _).trans ((State.marchDone_keep ..).trans h3)
    · exact (State.marchSweep_keep _).trans h3
    · exact h3

theorem execPowerupMemoryReady_keep (fails : List MarchFail) (s : State) : Stays (execPowerupMemoryReady fails s) s := by
  refine Stays.of_next ?_
  split
  · rfl
  · exact (foldl_keep _ (fun t b => bankTested_keep t b _ true) _ _).trans (foldl_keep _ (fun t r => State.loadRepair_keep t r) _ _)

theorem execMemCorrected_keep (bank : Nat) (row : BitVec 8) (s : State) : Stays (execMemCorrected bank row s) s := by
  refine Stays.of_next ?_
  split <;> simp only [State.corrected_keep]

theorem execPatrolScrub_keep (errs : List (Nat × BitVec 8)) (s : State) : Stays (execPatrolScrub errs s) s := by
  refine Stays.of_next ?_
  repeat' first
    | simp only [State.corrected_keep, State.keep_mk, State.keep_eta]
    | refine (foldl_keep _ ?_ _ _).trans ?_
    | intro _
    | split

theorem execMemUncorr_keep (bank what : Nat) (row : BitVec 8) (cmd : Option (Fin 16 × Nat)) (s : State) : Stays (execMemUncorr bank what row cmd s) s := by
  refine Stays.of_next ?_
  split <;> simp only [State.modBank_keep, State.uncorrConsumer_keep, State.raiseFault_keep, State.marchSweep_keep, State.keep_mk, State.keep_eta]

theorem execMemCorrCountRead_keep (c : Cmd) (s : State) : Stays (execMemCorrCountRead c s) s := Stays.of_next (State.readNamed_keep ..)

theorem execMemUncorrCountRead_keep (c : Cmd) (s : State) : Stays (execMemUncorrCountRead c s) s := Stays.of_next (State.readNamed_keep ..)

theorem execMemStatus_keep (c : Cmd) (s : State) : Stays (execMemStatus c s) s := by
  refine Stays.of_next (State.statusCmd_keep _ _ _ _ _ fun _ => ?_)
  repeat' first
    | simp only [State.memRecord_keep, State.keep_mk, State.keep_eta]
    | refine (State.records_keep _ _ _ ?_).trans ?_
    | refine (State.respond_keep _ _ _ _ _ ?_).trans ?_
    | intro _

theorem execLedgerRead_keep (c : Cmd) (s : State) : Stays (execLedgerRead c s) s := by
  refine Stays.of_next (State.hostCmd_keep _ _ _ _ _ fun _ => ?_)
  split
  · exact State.complete_keep ..
  · exact respond_keep_of rfl c _ _

theorem execLbistRun_keep (c : Cmd) (s : State) : Stays (execLbistRun c s) s := by
  refine Stays.of_next (State.hostCmd_keep _ _ _ _ _ fun _ => ?_)
  dsimp only
  (repeat' split) <;> simp only [State.complete_keep, State.setStage_keep, State.lbistSweep_keep, State.keep_mk, State.keep_eta]

theorem execLbistEnd_keep (target index : Nat) (sig : BitVec 128) (wrErr : Bool) (s : State) : Stays (execLbistEnd target index sig wrErr s) s := by
  refine Stays.of_next ?_
  dsimp only
  (repeat' split) <;> simp only [State.emit_keep, State.lbistReload_keep, State.pathBegin_keep, State.lbistSweep_keep, State.complete_keep, State.keep_mk, State.keep_eta]

theorem execPathRetire_keep (c : Cmd) (s : State) : Stays (execPathRetire c s) s := by
  refine Stays.of_next (State.hostCmd_keep _ _ _ _ _ fun _ => ?_)
  dsimp only
  (repeat' split) <;> simp only [State.complete_keep, State.setStage_keep, State.keep_mk, State.keep_eta]

theorem execRetirementEffect_keep (s : State) : Stays (execRetirementEffect s) s := by
  refine Stays.of_next ?_
  repeat' first
    | simp only [State.retirePath_keep, State.complete_keep, State.keep_mk, State.keep_eta]
    | refine (foldl_keep _ ?_ _ _).trans ?_
    | intro _

theorem execPathRestore_keep (c : Cmd) (s : State) : Stays (execPathRestore c s) s := by
  refine Stays.of_next (State.hostCmd_keep _ _ _ _ _ fun _ => ?_)
  repeat' first
    | simp only [State.complete_keep, State.restorePath_keep]
    | refine (foldl_keep _ ?_ _ _).trans ?_
    | intro _
    | split

-- FamOut

theorem execHalterDwellEnd_keep (hb : Fin 64) (s : State) : Stays (execHalterDwellEnd hb s) s := by
  refine Stays.of_next ?_
  (repeat' split) <;> rfl

theorem execCompliance_keep (hb : Fin 64) (s : State) : Stays (execCompliance hb s) s := by
  refine Stays.of_next ?_
  dsimp only
  (repeat' split) <;> simp only [State.modOut_keep, State.capMuted_keep, State.postSup_keep]

theorem execSlewUpdate_keep (s : State) : Stays (execSlewUpdate s) s := by
  refine Stays.of_next ?_
  dsimp only
  (repeat' split) <;> simp only [State.keep_mk, State.keep_eta]

theorem execOutSetValue_keep (c : Cmd) (s : State) : Stays (execOutSetValue c s) s := by
  refine Stays.of_next (State.hostCmd_keep _ _ _ _ _ fun _ => ?_)
  (repeat' split) <;> simp only [State.complete_keep, State.outEvents_keep]

theorem execOutSetSafe_keep (c : Cmd) (s : State) : Stays (execOutSetSafe c s) s := by
  refine Stays.of_next (State.hostCmd_keep _ _ _ _ _ fun _ => ?_)
  (repeat' split) <;> simp only [State.complete_keep, State.outEvents_keep]

theorem execOutSetSlew_keep (c : Cmd) (s : State) : Stays (execOutSetSlew c s) s := by
  refine Stays.of_next (State.hostCmd_keep _ _ _ _ _ fun _ => ?_)
  split <;> simp only [State.complete_keep, State.setSlew_keep, State.finish_keep]

theorem execOutSetGen_keep (c : Cmd) (s : State) : Stays (execOutSetGen c s) s := by
  refine Stays.of_next (State.hostCmd_keep _ _ _ _ _ fun _ => ?_)
  repeat' first
    | simp only [State.complete_keep, State.within_keep, State.modOut_keep, State.setSlew_keep, State.finish_keep]
    | refine (foldl_keep _ ?_ _ _).trans ?_
    | intro _
    | split

theorem execOutputSetRelease_keep (ev : Nat) (s : State) : Stays (execOutputSetRelease ev s) s := by
  refine Stays.of_next (State.release_keep _ _ _ _ _ fun _ _ => ?_)
  split <;> simp only [State.atCycle_keep]

theorem execSupClearCompliance_keep (c : Cmd) (s : State) : Stays (execSupClearCompliance c s) s := by
  refine Stays.of_next (State.hostCmd_keep _ _ _ _ _ fun _ => ?_)
  repeat' first
    | simp only [State.complete_keep, State.modOut_keep, State.postSup_keep, State.finish_keep]
    | refine (foldl_keep _ ?_ _ _).trans ?_
    | intro _
    | split

theorem execSupCfg_keep (c : Cmd) (s : State) : Stays (execSupCfg c s) s := Stays.of_next (State.hostCmd_keep _ _ _ _ _ fun _ => rfl)

theorem execSupStatus_keep (c : Cmd) (s : State) : Stays (execSupStatus c s) s := by
  refine Stays.of_next (State.hostCmd_keep _ _ _ _ _ fun x => ?_)
  extract_lets rein is r
  split
  · exact State.complete_keep ..
  · exact respond_keep_of (gather_keep State.outRecord_keep is s) c x _

-- FamPwr

theorem execMuteSet_keep (c : Cmd) (s : State) : Stays (execMuteSet c s) s := by
  refine Stays.of_next (State.hostCmd_keep _ _ _ _ _ fun _ => ?_)
  extract_lets ps tx rx on due
  (repeat' split) <;> simp only [State.complete_keep, State.finish_keep, presentCmd_only_keep]

theorem execMuteRelease_keep (ev : Nat) (s : State) : Stays (execMuteRelease ev s) s := by
  refine Stays.of_next (State.release_keep _ _ _ _ _ fun _ _ => ?_)
  (repeat' split) <;> simp only [State.atCycle_keep]

theorem execRailOut_keep (rail : Fin 9) (s : State) : Stays (execRailOut rail s) s := by
  refine Stays.of_next ?_
  repeat' first
    | simp only [State.raiseFault_keep]
    | refine (State.modPwr_keep _ _ ?_).trans ?_
    | split

theorem execPhaseImbalance_keep (rail : Fin 9) (phase : Fin 15) (s : State) : Stays (execPhaseImbalance rail phase s) s := by
  refine Stays.of_next ?_
  repeat' first
    | simp only [State.raiseFault_keep, State.ledgerPut_keep, State.postSpare_keep]
    | refine (State.modPwr_keep _ _ ?_).trans ?_
    | split

theorem execThermalMute_keep (sensor : Fin 16) (s : State) : Stays (execThermalMute sensor s) s := by
  refine Stays.of_next ?_
  split
  · rfl
  · exact (foldl_keep _ (fun t p => State.capMuted_keep t p true false) _ _).trans (State.raiseFault_keep ..)

theorem execThermalMuteRelease_keep (s : State) : Stays (execThermalMuteRelease s) s := Stays.of_next rfl

theorem execThermalDeep_keep (sensor : Fin 16) (s : State) : Stays (execThermalDeep sensor s) s := by
  refine Stays.of_next ?_
  repeat' first
    | simp only [State.raiseFault_keep, State.postPwr_keep, State.complete_keep, State.beginEntry_keep]
    | refine (State.modPwr_keep _ _ ?_).trans ?_
    | split

theorem execThermalRecovery_keep (s : State) : Stays (execThermalRecovery s) s := by
  refine Stays.of_next ?_
  repeat' first
    | simp only [State.startWake_keep]
    | refine (State.modPwr_keep _ _ ?_).trans ?_
    | split

theorem execPowerState_keep (c : Cmd) (s : State) : Stays (execPowerState c s) s := by
  refine Stays.of_next (State.hostCmd_keep _ _ _ _ _ fun _ => ?_)
  repeat' first
    | simp only [State.complete_keep, State.startWake_keep, State.beginEntry_keep, State.setStage_keep]
    | refine (State.modPwr_keep _ _ ?_).trans ?_
    | refine (State.presentCmd_keep _ _ _ _ _ _ ?_).trans ?_
    | intro _
    | split

theorem execAlarmRelease_keep (ev : Nat) (s : State) : Stays (execAlarmRelease ev s) s := Stays.of_next (State.release_keep _ _ _ _ _ fun _ _ => rfl)

theorem execWakePin_keep (pin : Fin 4) (edge : Bool) (s : State) : Stays (execWakePin pin edge s) s := by
  refine Stays.of_next ?_
  split <;> simp only [State.wake_keep]

theorem execPwrWakeCfgWrite_keep (value : BitVec 32) (s : State) : Stays (execPwrWakeCfgWrite value s) s := by
  refine Stays.of_next ?_
  split <;> simp only [State.writeWakeCfg_keep]

theorem execPwrWakeFailClear_keep (value : BitVec 32) (s : State) : Stays (execPwrWakeFailClear value s) s := by
  refine Stays.of_next ?_
  split <;> simp only [State.writeWakeFail_keep]

theorem execRetry_keep (value : BitVec 32) (s : State) : Stays (execRetry value s) s := by
  refine Stays.of_next ?_
  split <;> simp only [State.writeRetry_keep]

theorem execQuiesceBoundary_keep (s : State) : Stays (execQuiesceBoundary s) s := by
  refine Stays.of_next ?_
  repeat' first
    | simp only [State.entryStop_keep, State.modOut_keep]
    | refine (State.modPwr_keep _ _ ?_).trans ?_
    | refine (foldl_keep _ ?_ _ _).trans ?_
    | intro _
    | split

theorem execEntryA1_keep (s : State) : Stays (execEntryA1 s) s := by
  refine Stays.of_next ?_
  split
  · refine (State.abortPoint_keep _ _ _ fun t => ?_).trans rfl
    extract_lets t1 t2 t3
    have h2 : t2.keep = t.keep := foldl_keep _ (fun u i => State.modChan_keep u i ShuChan.halt) _ _
    have h3 : t3.keep = t.keep := (foldl_keep _ (fun u (m : March) => State.complete_keep u m.ref .notReady 0) _ _).trans h2
    clear_value t3
    split
    · exact h3
    · rfl
  · rfl

theorem execEntryGatingEnd_keep (s : State) : Stays (execEntryGatingEnd s) s := by
  refine Stays.of_next ?_
  repeat' first
    | simp only
    | refine (State.abortPoint_keep _ _ _ ?_).trans ?_
    | refine (State.modPwr_keep _ _ ?_).trans ?_
    | intro _
    | split

theorem execTimeKeeperHandoff_keep (s : State) : Stays (execTimeKeeperHandoff s) s := by
  refine Stays.of_next ?_
  repeat' first
    | simp only [State.emit_keep, State.modClk_keep, State.keep_mk, State.keep_eta]
    | refine (State.modPwr_keep _ _ ?_).trans ?_
    | split

theorem execEntryA3_keep (s : State) : Stays (execEntryA3 s) s := by
  refine Stays.of_next ?_
  repeat' first
    | simp only
    | refine (State.abortPoint_keep _ _ _ ?_).trans ?_
    | refine (State.modPwr_keep _ _ ?_).trans ?_
    | intro _
    | split

theorem execEntryComplete_keep (pins : BitVec 4) (s : State) : Stays (execEntryComplete pins s) s := by
  refine Stays.of_next ?_
  split
  · extract_lets t old s1 s2 s3 s4 s5 s6 src
    have h2 : s2.keep = s.keep := by
      unfold s2
      split
      · exact State.deepLoss_keep _
      · rfl
    clear_value s2
    have h3 : s3.keep = s.keep := by
      unfold s3
      split
      · exact (State.portsIdle_keep _).trans h2
      · exact h2
    clear_value s3
    have h5 : s5.keep = s.keep := by
      have h4 : s4.keep = s.keep := (State.postPwr_keep ..).trans h3
      unfold s5
      split
      · exact (State.complete_keep ..).trans h4
      · exact h4
    clear_value s5
    have h6 : s6.keep = s.keep := by
      unfold s6
      split
      · exact h5
      · exact h3
    clear_value s6 src
    cases src with
    | some x =>
      dsimp only
      split
      · exact h6
      · exact (State.startWake_keep ..).trans h6
    | none =>
      dsimp only
      split
      · exact (State.startWake_keep ..).trans h6
      · exact h6
  · rfl

theorem execWakeStepEnd_keep (s : State) : Stays (execWakeStepEnd s) s := by
  refine Stays.of_next ?_
  repeat' first
    | simp only [State.undone_keep, State.wakeEffect_keep, State.wakeEnter_keep, State.awake_keep]
    | refine (State.modPwr_keep _ _ ?_).trans ?_
    | split

theorem execWakeStepTimeout_keep (cause : BitVec 4) (index : BitVec 8) (s : State) : Stays (execWakeStepTimeout cause index s) s := by
  refine Stays.of_next ?_
  split
  next n _ =>
    extract_lets s1 radio s2 s3 s4
    have h1 : s1.keep = s.keep := State.deepLoss_keep _
    clear_value s1 radio
    have h2 : s2.keep = s.keep := h1
    clear_value s2
    have h3 : s3.keep = s.keep := (foldl_keep _ State.pathOff_keep (List.finRange 64) s2).trans h2
    clear_value s3
    have h4 : s4.keep = s.keep := (State.modPwr_keep _ _ rfl).trans h3
    clear_value s4
    repeat' split
    · rfl
    · exact (State.modPwr_keep _ _ rfl).trans h4
    · exact (State.setFaultN_keep _).trans ((State.modPwr_keep _ _ rfl).trans h4)
  next => rfl

theorem execWakeCarrierResume_keep (s : State) : Stays (execWakeCarrierResume s) s := by
  refine Stays.of_next ?_
  split
  next t _ =>
    extract_lets lack b held s1 s2
    have h1 : s1.keep = s.keep := by
      refine foldl_keep _ (fun u c => ?_) _ _
      split
      · exact (State.firstUse_keep ..).trans (State.modCarrier_keep ..)
      · rfl
    have h2 : s2.keep = s.keep := by
      unfold s2
      split
      · exact (State.dormantEnter_keep _).trans h1
      · exact h1
    clear_value s2
    repeat' split
    · exact h2
    · exact h2
    · rfl
  next => rfl

theorem execPowerupRailsReady_keep (ready : BitVec 8) (s : State) : Stays (execPowerupRailsReady ready s) s := by
  refine Stays.of_next ?_
  repeat' first
    | simp only [State.refSelect_keep]
    | refine (State.modPwr_keep _ _ ?_).trans ?_
    | split

theorem execTackStoreBootRead_keep (bad : List Nat) (s : State) : Stays (execTackStoreBootRead bad s) s := by
  refine Stays.of_next ?_
  repeat' first
    | simp only [State.badSector_keep, State.applyLedger_keep, State.keep_mk, State.keep_eta]
    | refine (foldl_keep _ ?_ _ _).trans ?_
    | intro _
    | split

theorem execBringupService_keep (s : State) : Stays (execBringupService s) s := by
  refine Stays.of_next ?_
  split <;> rfl

theorem execPowerupStepTimeout_keep (cause : BitVec 4) (index : BitVec 8) (s : State) : Stays (execPowerupStepTimeout cause index s) s := by
  refine Stays.of_next ?_
  repeat' first
    | simp only [State.modClk_keep, State.setFaultN_keep]
    | refine (State.modPwr_keep _ _ ?_).trans ?_
    | split

-- FamShu

theorem execShuStart_keep (c : Cmd) (s : State) : Stays (execShuStart c s) s := by
  refine Stays.of_next (State.hostCmd_keep _ _ _ _ _ fun _ => ?_)
  dsimp only
  (repeat' split) <;> simp only [State.complete_keep, State.takeFree_keep, State.modChan_keep, State.setStage_keep]

theorem execShuStop_keep (c : Cmd) (s : State) : Stays (execShuStop c s) s := by
  refine Stays.of_next (State.hostCmd_keep _ _ _ _ _ fun _ => ?_)
  repeat' first
    | simp only [State.finish_keep, State.modChan_keep, State.setStage_keep]
    | refine (foldl_keep _ ?_ _ _).trans ?_
    | intro _
    | split

theorem execShuCapture_keep (c : Cmd) (s : State) : Stays (execShuCapture c s) s := by
  refine Stays.of_next (State.hostCmd_keep _ _ _ _ _ fun _ => ?_)
  extract_lets
  (repeat' split) <;> simp only [State.complete_keep, presentCmd_only_keep]

theorem execShuCaptureComplete_keep (slot : Nat) (samples : List (BitVec 32)) (s : State) : Stays (execShuCaptureComplete slot samples s) s := by
  refine Stays.of_next ?_
  repeat' split
  · rfl
  · rfl
  · rfl
  · exact State.complete_keep ..

theorem execShuFlag_keep (c : Cmd) (s : State) : Stays (execShuFlag c s) s := Stays.of_next (State.hostCmd_keep _ _ _ _ _ fun _ => rfl)

theorem execShuStatus_keep (c : Cmd) (s : State) : Stays (execShuStatus c s) s :=
  Stays.of_next (State.statusCmd_keep _ _ _ _ _ fun x => respond_keep_of (gather_keep State.shuRecord_keep (setBits (pf x.payload 0 0 16)) s) c x _)

theorem execShuBadCountRead_keep (c : Cmd) (s : State) : Stays (execShuBadCountRead c s) s := Stays.of_next (State.readNamed_keep ..)

theorem execShuDb_keep (ch : Fin 16) (s : State) : Stays (execShuDb ch s) s := Stays.of_next (State.wake_keep ..)

theorem execShuLoop_keep (ch : Fin 16) (words : Option (List (BitVec 64))) (s : State) : Stays (execShuLoop ch words s) s := Stays.of_next (State.shuExec_keep _ _ _ _ _ _ fun _ _ _ => rfl)

theorem execShuWaitAtAbs_keep (ch : Fin 16) (words : Option (List (BitVec 64))) (s : State) : Stays (execShuWaitAtAbs ch words s) s := Stays.of_next (State.shuExec_keep _ _ _ _ _ _ fun _ _ _ => State.waitTick_keep ..)

theorem execShuWaitAtRel_keep (ch : Fin 16) (words : Option (List (BitVec 64))) (s : State) : Stays (execShuWaitAtRel ch words s) s := Stays.of_next (State.shuExec_keep _ _ _ _ _ _ fun _ _ _ => State.waitTick_keep ..)

theorem execShuWaitFlag_keep (ch : Fin 16) (words : Option (List (BitVec 64))) (s : State) : Stays (execShuWaitFlag ch words s) s := by
  refine Stays.of_next (State.shuExec_keep _ _ _ _ _ _ fun _ _ _ => ?_)
  dsimp only
  (repeat' split) <;> simp only [State.passFlag_keep, State.modChan_keep]

theorem execShuWaitDoorbell_keep (ch : Fin 16) (words : Option (List (BitVec 64))) (s : State) : Stays (execShuWaitDoorbell ch words s) s := by
  refine Stays.of_next (State.shuExec_keep _ _ _ _ _ _ fun _ _ _ => ?_)
  split
  · exact State.modChan_keep ..
  · exact State.modChan_keep ..

theorem execWaitSatisfied_keep (ch : Fin 16) (s : State) : Stays (execWaitSatisfied ch s) s := by
  refine Stays.of_next ?_
  dsimp only
  (repeat' split) <;> simp only [State.modChan_keep, State.passFlag_keep]

theorem execWaitTimeout_keep (ch : Fin 16) (s : State) : Stays (execWaitTimeout ch s) s := by
  refine Stays.of_next ?_
  (repeat' split) <;> rfl

theorem execSignalEvent_keep (ch : Fin 16) (words : Option (List (BitVec 64))) (s : State) : Stays (execSignalEvent ch words s) s := Stays.of_next (State.signal_keep _ _ _ _ _ fun _ _ => State.postRec_keep ..)

theorem execSignalMsix_keep (ch : Fin 16) (words : Option (List (BitVec 64))) (s : State) : Stays (execSignalMsix ch words s) s := Stays.of_next (State.signal_keep _ _ _ _ _ fun _ _ => State.sendMsix_keep ..)

theorem execSignalSetFlag_keep (ch : Fin 16) (words : Option (List (BitVec 64))) (s : State) : Stays (execSignalSetFlag ch words s) s := Stays.of_next (State.signal_keep _ _ _ _ _ fun _ _ => rfl)

theorem execSignalClearFlag_keep (ch : Fin 16) (words : Option (List (BitVec 64))) (s : State) : Stays (execSignalClearFlag ch words s) s := Stays.of_next (State.signal_keep _ _ _ _ _ fun _ _ => rfl)

theorem execShuProgramEnd_keep (ch : Fin 16) (wbErr : Bool) (s : State) : Stays (execShuProgramEnd ch wbErr s) s := by
  refine Stays.of_next ?_
  dsimp only
  (repeat' split) <;> simp only [State.record_keep, State.emit_keep, State.modChan_keep, State.complete_keep, State.stopsDone_keep]

-- The Shunter writes its program area

/-- From `s` to `t` the queue, VIN and the port stay, and the program area keeps its canonical form. -/
def Calm (s t : State) : Prop :=
  t.pending = s.pending ∧ t.keep.2.1 = s.keep.2.1 ∧ (cellsWf s.shu.prog = true → cellsWf t.shu.prog = true)

theorem Calm.of_keep {s t : State} (h : t.keep = s.keep) : Calm s t := by
  simp only [State.keep, Prod.mk.injEq] at h
  obtain ⟨hq, hport, hprog⟩ := h
  refine ⟨hq, ?_, fun hw => hprog ▸ hw⟩
  simp only [State.keep, Prod.mk.injEq]
  exact hport

theorem Calm.trans {s t u : State} (h : Calm s t) (k : Calm t u) : Calm s u :=
  ⟨k.1.trans h.1, k.2.1.trans h.2.1, fun hw => k.2.2 (h.2.2 hw)⟩

/-- A change of the program area that keeps its canonical form. -/
theorem Calm.setProg (s : State) {l : List (Nat × BitVec 64)} (h : cellsWf s.shu.prog = true → cellsWf l = true) :
    Calm s { s with shu := { s.shu with prog := l } } := ⟨rfl, rfl, h⟩

/-- What a fetch of a Shunter instruction can come to: it leaves all of it alone, or the instruction has its effect. -/
theorem shuExec_cases (s : State) (ch : Fin 16) (words : Option (List (BitVec 64))) (op : ShuOp) (bad : ShuChan → List (BitVec 64) → Bool)
    (f : State → ShuChan → List (BitVec 64) → State) :
    (s.shuExec ch words op bad f).keep = s.keep ∨ ∃ u h ws, u.keep = s.keep ∧ s.shuExec ch words op bad f = f u h ws := by
  unfold State.shuExec
  extract_lets h r q
  have hr : r.2.2.keep = s.keep := State.shuWords_keep ..
  have hq : q.2.2.keep = s.keep := State.shuWords_keep ..
  clear_value r q
  dsimp only
  repeat' split
  all_goals first
    | exact .inl rfl
    | exact .inl ((State.modChan_keep ..).trans hr)
    | exact .inl ((State.modChan_keep ..).trans hq)
    | exact .inr ⟨_, _, _, hq, rfl⟩

theorem moveBack_calm (s : State) (ch : Fin 16) (code : Nat) (wbErr : Bool) : Calm s (s.moveBack ch code wbErr) := by
  unfold State.moveBack
  extract_lets h n r t a
  have ht : t.keep = s.keep := (State.modChan_keep ..).trans (State.record_keep ..)
  clear_value t r
  split
  · exact (Calm.of_keep ht).trans (Calm.setProg t (cellPut_wf _ _))
  · split
    · exact Calm.of_keep ((State.modChan_keep ..).trans ((State.emit_keep ..).trans ht))
    · exact Calm.of_keep ((State.emit_keep ..).trans ht)

theorem execShuMove_calm (ch : Fin 16) (words : Option (List (BitVec 64))) (src : Option Bytes) (dstErr wbErr : Bool) (s t : State)
    (h : execShuMove ch words src dstErr wbErr s = .next t) : Calm s t := by
  cases h
  extract_lets h stop s' t
  have hs' : s'.keep = s.keep := by
    unfold s'
    split
    · rfl
    · rfl
  have ht : Calm s t := by
    refine (Calm.of_keep hs').trans ?_
    obtain hk | ⟨u, k, ws, hu, hf⟩ := shuExec_cases s' ch words .move moveBad _
    · exact Calm.of_keep hk
    · refine (Calm.of_keep hu).trans ?_
      refine (congrArg (Calm u) hf).mpr ?_
      extract_lets len d r code v
      have hv : v.keep = u.keep := by
        have hr : r.2.keep = u.keep := State.moveData_keep ..
        unfold v
        split
        · exact hr
        · exact (State.moveBadCount_keep ..).trans hr
      clear_value v
      exact ((Calm.of_keep hv).trans (moveBack_calm v ch code wbErr)).trans (Calm.of_keep (State.modChan_keep ..))
  clear_value t
  repeat' split
  · exact Calm.of_keep rfl
  · exact ht
  · exact ht

theorem hostCmd_calm (s : State) (c : Cmd) (op : BitVec 8) (sel : BitVec 320 → Bool) (f : Slot → State) (hf : ∀ x, Calm s (f x)) : Calm s (s.hostCmd c op sel f) := by
  unfold State.hostCmd
  repeat' split
  all_goals first
    | exact Calm.of_keep rfl
    | exact Calm.of_keep (State.complete_keep ..)
    | exact hf _

theorem execShuProgLoad_calm (c : Cmd) (s t : State) (h : execShuProgLoad c s = .next t) : Calm s t := by
  cases h
  refine hostCmd_calm _ _ _ _ _ fun x => ?_
  extract_lets off len runs
  repeat' split
  · exact Calm.of_keep (State.complete_keep ..)
  · exact Calm.of_keep (State.complete_keep ..)
  · exact Calm.of_keep (State.complete_keep ..)
  · exact (Calm.setProg s (cellPuts_wf _ _)).trans (Calm.of_keep (State.finish_keep ..))

-- Power and the test access port

theorem kept_of_calm {s t : State} (hs : Kept s) (h : Calm s t) : Kept t := by
  obtain ⟨htap, hprog⟩ := hs
  obtain ⟨_, hport, hwf⟩ := h
  simp only [State.keep, Prod.mk.injEq] at hport
  obtain ⟨hvin, htest, htrst, hst, hinstr⟩ := hport
  refine ⟨?_, hwf hprog⟩
  unfold TapOk at htap ⊢
  rw [hvin, htest, htrst, hst, hinstr]
  exact htap

theorem kept_reset : Kept State.reset := ⟨⟨fun _ => rfl, fun _ => rfl, fun _ => .inl rfl, fun _ => rfl⟩, reset_memories_wf.1⟩

theorem tapOk_held (s : State) (k : Pkg) : TapOk { s with pkg := k.tapReset true } := ⟨fun _ => rfl, fun _ => rfl, fun _ => .inl rfl, fun _ => rfl⟩

theorem execTrstNAssert_pending (s t : State) (h : execTrstNAssert s = .next t) : t.pending = s.pending := by cases h; rfl

theorem execTrstNAssert_kept (s t : State) (hs : Kept s) (h : execTrstNAssert s = .next t) : Kept t := by
  cases h
  exact ⟨tapOk_held s s.pkg, hs.2⟩

theorem execPowerGood_pending (xo fitted : BitVec 2) (test : Bool) (s t : State) (h : execPowerGood xo fitted test s = .next t) : t.pending = s.pending := by
  cases h
  split <;> rfl

theorem execPowerGood_kept (xo fitted : BitVec 2) (test : Bool) (s t : State) (hs : Kept s) (h : execPowerGood xo fitted test s = .next t) :
    Kept t := by
  cases h
  obtain ⟨htap, hprog⟩ := hs
  split
  · exact ⟨htap, hprog⟩
  next hvin =>
    obtain ⟨hheld, hidcode, -, habsent⟩ := htap
    have hreset := hheld (habsent (by simpa using hvin))
    exact ⟨⟨fun _ => hreset, fun _ => hidcode hreset, fun _ => .inl (hidcode hreset), nofun⟩, hprog⟩

/-- Outside board-test mode every code selects IDCODE or BYPASS. -/
theorem tapDecode_closed {s : State} (h : s.pkg.testMode = false) (code : List Bool) : s.tapDecode code = .idcode ∨ s.tapDecode code = .bypass := by
  unfold State.tapDecode
  simp only [h]
  repeat' split
  all_goals first
    | exact .inl rfl
    | exact .inr rfl
    | contradiction

/-- The controller moves to `x`; it enters its reset state with IDCODE in force. -/
def tapMove (v : State) (x : TapState) : State := v.modPkg fun k => { k with tap := x, tapInstr := if x = .reset then .idcode else k.tapInstr }

/-- A rising edge captures or shifts, which the port's instruction does not depend on, and moves the controller on. -/
theorem tapRise_eq (s : State) (tms tdi : Bool) : ∃ v x, v.keep = s.keep ∧ s.tapRise tms tdi = tapMove v x := by
  unfold State.tapRise
  extract_lets n l v x
  refine ⟨v, x, ?_, rfl⟩
  unfold v
  split
  · exact State.captureDr_keep _
  all_goals rfl

theorem tapMove_kept {s : State} (hs : Kept s) (hv : s.pwr.vin = true) (ht : s.pkg.trst = false) (x : TapState) : Kept (tapMove s x) := by
  obtain ⟨⟨-, -, hclosed, -⟩, hprog⟩ := hs
  refine ⟨⟨fun h => absurd (ht.symm.trans h) (by decide), fun hx => if_pos hx, fun hm => ?_, fun h => absurd (hv.symm.trans h) (by decide)⟩, hprog⟩
  show (if x = .reset then TapInstr.idcode else s.pkg.tapInstr) = .idcode ∨ (if x = .reset then TapInstr.idcode else s.pkg.tapInstr) = .bypass
  split
  · exact .inl rfl
  · exact hclosed hm

theorem tapRise_pending (s : State) (tms tdi : Bool) : (s.tapRise tms tdi).pending = s.pending := by
  obtain ⟨v, x, hkeep, heq⟩ := tapRise_eq s tms tdi
  exact heq ▸ (Calm.of_keep hkeep).1

theorem tapRise_kept (s : State) (tms tdi : Bool) (hs : Kept s) (hv : s.pwr.vin = true) (ht : s.pkg.trst = false) : Kept (s.tapRise tms tdi) := by
  obtain ⟨v, x, hkeep, heq⟩ := tapRise_eq s tms tdi
  have hk := hkeep
  simp only [State.keep, Prod.mk.injEq] at hk
  obtain ⟨-, ⟨hvin, -, htrst, -⟩, -⟩ := hk
  exact heq ▸ tapMove_kept (kept_of_calm hs (.of_keep hkeep)) (hvin.trans hv) (htrst.trans ht) x

theorem tapFall_pending (s : State) : s.tapFall.pending = s.pending := by
  unfold State.tapFall
  split <;> rfl

/-- A falling edge updates: outside board-test mode the instruction stays IDCODE or BYPASS. -/
theorem tapFall_kept (s : State) (hs : Kept s) : Kept s.tapFall := by
  obtain ⟨⟨hheld, hidcode, hclosed, habsent⟩, hprog⟩ := hs
  unfold State.tapFall
  split
  next hst =>
    refine ⟨⟨hheld, fun h => ?_, fun hm => tapDecode_closed hm _, habsent⟩, hprog⟩
    exact absurd (hst.symm.trans h) (by decide)
  all_goals exact ⟨⟨hheld, hidcode, hclosed, habsent⟩, hprog⟩

theorem execTapTckEdge_pending (trstN rising tms tdi : Bool) (s t : State) (h : execTapTckEdge trstN rising tms tdi s = .next t) : t.pending = s.pending := by
  cases h
  repeat' split
  · rfl
  · rfl
  · exact tapRise_pending ..
  · exact tapFall_pending _

theorem execTapTckEdge_kept (trstN rising tms tdi : Bool) (s t : State) (hs : Kept s) (h : execTapTckEdge trstN rising tms tdi s = .next t) : Kept t := by
  cases h
  obtain ⟨⟨-, hidcode, hclosed, -⟩, hprog⟩ := id hs
  split
  · exact hs
  next hvin =>
    have hv : s.pwr.vin = true := by simpa using hvin
    have hfree : Kept (s.modPkg fun k => { k with trst := false }) := ⟨⟨nofun, hidcode, hclosed, fun h => absurd (hv.symm.trans h) (by decide)⟩, hprog⟩
    repeat' split
    · exact ⟨tapOk_held s s.pkg, hprog⟩
    · exact tapRise_kept _ tms tdi hfree hv rfl
    · exact tapFall_kept _ hfree

/-- A loss of power leaves the queue as it is, and the rest as reset has it. -/
theorem powerLost_calm (s : State) : s.powerLost.pending = s.pending ∧ Calm { State.reset with pending := s.pending } s.powerLost := by
  unfold State.powerLost
  extract_lets f s1 part _ s2 s3
  have h1 : s1.keep = s.keep := State.takeFree_keep ..
  clear_value s1
  have h2 : s2.keep = s.keep := by
    unfold s2
    split
    next w q _ =>
      extract_lets u
      have hu : u.keep = s.keep := by
        unfold u
        split
        · split
          · exact h1
          · exact h1
        · exact h1
      split
      · exact (State.tackApply_keep ..).trans hu
      · exact hu
    next => exact h1
  have hq : s2.pending = s.pending := congrArg Prod.fst h2
  exact ⟨hq, hq, rfl, fun _ => reset_memories_wf.1⟩

theorem execBrownOut_pending (s t : State) (h : execBrownOut s = .next t) : t.pending = s.pending := by
  cases h
  split
  · exact (powerLost_calm s).1
  · rfl

theorem execBrownOut_kept (s t : State) (hs : Kept s) (h : execBrownOut s = .next t) : Kept t := by
  cases h
  split
  · have hreset : Kept { State.reset with pending := s.pending } := kept_reset
    exact kept_of_calm hreset (powerLost_calm s).2
  · exact hs

/-- The commands of the supply and of the test access port. -/
def movesPort : Instr → Bool
  | .brownOut | .powerGood _ _ _ | .tapTckEdge _ _ _ _ | .trstNAssert => true
  | _ => false

/-- The commands that write the Shunter's program area. -/
def writesProg : Instr → Bool
  | .shuProgLoad _ | .shuMove _ _ _ _ _ => true
  | _ => false

/-- Every other command leaves the queue, VIN, the port and the program area alone. -/
theorem exec_keep (i : Instr) (s : State) (hp : movesPort i = false) (hw : writesProg i = false) : Stays (exec i s) s := by
  cases i with
  | brownOut => cases hp
  | powerGood _ _ _ => cases hp
  | tapTckEdge _ _ _ _ => cases hp
  | trstNAssert => cases hp
  | shuProgLoad _ => cases hw
  | shuMove _ _ _ _ _ => cases hw
  | nop c => exact execNop_keep c s
  | regRead c => exact execRegRead_keep c s
  | regWrite c => exact execRegWrite_keep c s
  | clearSafe c => exact execClearSafe_keep c s
  | clearQueue c => exact execClearQueue_keep c s
  | faultRead c => exact execFaultRead_keep c s
  | modeSet c => exact execModeSet_keep c s
  | airRelease c => exact execAirRelease_keep c s
  | phaseSync c => exact execPhaseSync_keep c s
  | powerState c => exact execPowerState_keep c s
  | muteSet c => exact execMuteSet_keep c s
  | synthRetune c => exact execSynthRetune_keep c s
  | synthHop c => exact execSynthHop_keep c s
  | synthCalibrate c => exact execSynthCalibrate_keep c s
  | synthPowerOff c => exact execSynthPowerOff_keep c s
  | synthPin c => exact execSynthPin_keep c s
  | synthUnpin c => exact execSynthUnpin_keep c s
  | synthStatus c => exact execSynthStatus_keep c s
  | pathSetState c => exact execPathSetState_keep c s
  | pathSetReturn c => exact execPathSetReturn_keep c s
  | pathSetLevels c => exact execPathSetLevels_keep c s
  | pathStatus c => exact execPathStatus_keep c s
  | fcSet c => exact execFcSet_keep c s
  | rsCoefLoad c => exact execRsCoefLoad_keep c s
  | convStatus c => exact execConvStatus_keep c s
  | delayReport c => exact execDelayReport_keep c s
  | carrierConfigure c => exact execCarrierConfigure_keep c s
  | carrierRemove c => exact execCarrierRemove_keep c s
  | beamLoad c => exact execBeamLoad_keep c s
  | carrierStatus c => exact execCarrierStatus_keep c s
  | weightSet c => exact execWeightSet_keep c s
  | weightHint c => exact execWeightHint_keep c s
  | bookRead c => exact execBookRead_keep c s
  | weightStatus c => exact execWeightStatus_keep c s
  | burstCfg c => exact execBurstCfg_keep c s
  | burstTx c => exact execBurstTx_keep c s
  | burstRx c => exact execBurstRx_keep c s
  | burstMeas c => exact execBurstMeas_keep c s
  | burstStatus c => exact execBurstStatus_keep c s
  | qualityStatus c => exact execQualityStatus_keep c s
  | cfrSet c => exact execCfrSet_keep c s
  | dpdSet c => exact execDpdSet_keep c s
  | dpdFreeze c => exact execDpdFreeze_keep c s
  | dpdResume c => exact execDpdResume_keep c s
  | dpdReset c => exact execDpdReset_keep c s
  | dpdErase c => exact execDpdErase_keep c s
  | dpdReadActive c => exact execDpdReadActive_keep c s
  | dpdReadStored c => exact execDpdReadStored_keep c s
  | dpdAdjLoad c => exact execDpdAdjLoad_keep c s
  | dpdStatus c => exact execDpdStatus_keep c s
  | calRun c => exact execCalRun_keep c s
  | calSet c => exact execCalSet_keep c s
  | calStatus c => exact execCalStatus_keep c s
  | tackStatus c => exact execTackStatus_keep c s
  | fhPortSet c => exact execFhPortSet_keep c s
  | fhWindowSet c => exact execFhWindowSet_keep c s
  | fhFlowSet c => exact execFhFlowSet_keep c s
  | fhStatus c => exact execFhStatus_keep c s
  | hitSet c => exact execHitSet_keep c s
  | hitStatus c => exact execHitStatus_keep c s
  | timeCfg c => exact execTimeCfg_keep c s
  | timeDevSet c => exact execTimeDevSet_keep c s
  | timeTodSet c => exact execTimeTodSet_keep c s
  | timeStatus c => exact execTimeStatus_keep c s
  | refCfg c => exact execRefCfg_keep c s
  | shuStart c => exact execShuStart_keep c s
  | shuStop c => exact execShuStop_keep c s
  | shuCapture c => exact execShuCapture_keep c s
  | shuStatus c => exact execShuStatus_keep c s
  | shuFlag c => exact execShuFlag_keep c s
  | solverLoad c => exact execSolverLoad_keep c s
  | solverSelect c => exact execSolverSelect_keep c s
  | solverStatus c => exact execSolverStatus_keep c s
  | solverTest c => exact execSolverTest_keep c s
  | hkSeqSet c => exact execHkSeqSet_keep c s
  | hkCmpSet c => exact execHkCmpSet_keep c s
  | hkTriggerSweep c => exact execHkTriggerSweep_keep c s
  | hkTriggerSpot c => exact execHkTriggerSpot_keep c s
  | hkTriggerStop c => exact execHkTriggerStop_keep c s
  | hkCal c => exact execHkCal_keep c s
  | hkRead c => exact execHkRead_keep c s
  | outSetValue c => exact execOutSetValue_keep c s
  | outSetSlew c => exact execOutSetSlew_keep c s
  | outSetGen c => exact execOutSetGen_keep c s
  | outSetSafe c => exact execOutSetSafe_keep c s
  | supClearTrips c => exact execSupClearTrips_keep c s
  | supClearCompliance c => exact execSupClearCompliance_keep c s
  | supStatus c => exact execSupStatus_keep c s
  | supCfg c => exact execSupCfg_keep c s
  | marchRun c => exact execMarchRun_keep c s
  | lbistRun c => exact execLbistRun_keep c s
  | memStatus c => exact execMemStatus_keep c s
  | ledgerRead c => exact execLedgerRead_keep c s
  | pathRetire c => exact execPathRetire_keep c s
  | pathRestore c => exact execPathRestore_keep c s
  | secImageLoad c => exact execSecImageLoad_keep c s
  | secRollbackCommit c => exact execSecRollbackCommit_keep c s
  | secAttest c => exact execSecAttest_keep c s
  | secIdRead c => exact execSecIdRead_keep c s
  | secProvision c healthy => exact execSecProvision_keep c healthy s
  | secCertStore c => exact execSecCertStore_keep c s
  | commandFetch ring entry cplErr => exact execCommandFetch_keep ring entry cplErr s
  | commandStart ring seq payload => exact execCommandStart_keep ring seq payload s
  | eventEntryWrite busErr => exact execEventEntryWrite_keep busErr s
  | eventCoalesceTimeout => exact execEventCoalesceTimeout_keep s
  | ringDrainEnd ring => exact execRingDrainEnd_keep ring s
  | releaseFenceOut ring => exact execReleaseFenceOut_keep ring s
  | tail ring value => exact execTail_keep ring value s
  | cplHead ring value => exact execCplHead_keep ring value s
  | release ring value => exact execRelease_keep ring value s
  | evtHead value => exact execEvtHead_keep value s
  | shuDb ch => exact execShuDb_keep ch s
  | barBadAccess bar2 addr len write => exact execBarBadAccess_keep bar2 addr len write s
  | registerWrite addr value => exact execRegisterWrite_keep addr value s
  | ringCmdEnable ring value => exact execRingCmdEnable_keep ring value s
  | ringCmdDisable ring value => exact execRingCmdDisable_keep ring value s
  | ringEvtEnable value => exact execRingEvtEnable_keep value s
  | ringEvtDisable value => exact execRingEvtDisable_keep value s
  | ymAirOffsetWrite c => exact execYmAirOffsetWrite_keep c s
  | ymPendHwmRead c => exact execYmPendHwmRead_keep c s
  | ymLateCountRead c => exact execYmLateCountRead_keep c s
  | ymFullCountRead c => exact execYmFullCountRead_keep c s
  | topStatusRead => exact execTopStatusRead_keep s
  | clkStatusRead c => exact execClkStatusRead_keep c s
  | clkGateToRead c => exact execClkGateToRead_keep c s
  | ringEvtStatusRead => exact execRingEvtStatusRead_keep s
  | hkOverrunRead c => exact execHkOverrunRead_keep c s
  | shuBadCountRead c => exact execShuBadCountRead_keep c s
  | memCorrCountRead c => exact execMemCorrCountRead_keep c s
  | memUncorrCountRead c => exact execMemUncorrCountRead_keep c s
  | secBootStatusRead c => exact execSecBootStatusRead_keep c s
  | clkMeterStart c => exact execClkMeterStart_keep c s
  | clkMeterClear c => exact execClkMeterClear_keep c s
  | clkMeterEnd count => exact execClkMeterEnd_keep count s
  | dpByp c => exact execDpByp_keep c s
  | cbDiv c => exact execCbDiv_keep c s
  | pwrWakeCfgWrite value => exact execPwrWakeCfgWrite_keep value s
  | pwrWakeFailClear value => exact execPwrWakeFailClear_keep value s
  | retry value => exact execRetry_keep value s
  | fhLaneEqWrite c => exact execFhLaneEqWrite_keep c s
  | perstNAssert => exact execPerstNAssert_keep s
  | perstNRelease => exact execPerstNRelease_keep s
  | pcieLinkUp => exact execPcieLinkUp_keep s
  | powerupRailsReady ready => exact execPowerupRailsReady_keep ready s
  | powerupMemoryReady fails => exact execPowerupMemoryReady_keep fails s
  | tackStoreBootRead bad => exact execTackStoreBootRead_keep bad s
  | bootImageVerify => exact execBootImageVerify_keep s
  | bringupService => exact execBringupService_keep s
  | powerupStepTimeout cause index => exact execPowerupStepTimeout_keep cause index s
  | modeChangeRelease ev => exact execModeChangeRelease_keep ev s
  | modeTransitionEnd ok others => exact execModeTransitionEnd_keep ok others s
  | arrayStartTimeout others => exact execArrayStartTimeout_keep others s
  | trafficResume => exact execTrafficResume_keep s
  | dlSymbolRelease ev => exact execDlSymbolRelease_keep ev s
  | ulSymbolRelease ev => exact execUlSymbolRelease_keep ev s
  | soundingRelease ev => exact execSoundingRelease_keep ev s
  | burstTxRelease ev => exact execBurstTxRelease_keep ev s
  | burstRxRelease ev => exact execBurstRxRelease_keep ev s
  | pathStateRelease ev => exact execPathStateRelease_keep ev s
  | muteRelease ev => exact execMuteRelease_keep ev s
  | synthHopRelease ev => exact execSynthHopRelease_keep ev s
  | synthRetuneRelease ev => exact execSynthRetuneRelease_keep ev s
  | phaseSyncRelease ev => exact execPhaseSyncRelease_keep ev s
  | obsCaptureRelease ev => exact execObsCaptureRelease_keep ev s
  | hkTriggerRelease ev => exact execHkTriggerRelease_keep ev s
  | outputSetRelease ev => exact execOutputSetRelease_keep ev s
  | pinEdgeRelease ev => exact execPinEdgeRelease_keep ev s
  | calSlotRelease ev => exact execCalSlotRelease_keep ev s
  | configRelease ev => exact execConfigRelease_keep ev s
  | alarmRelease ev => exact execAlarmRelease_keep ev s
  | pathTransitionEnd p => exact execPathTransitionEnd_keep p s
  | automaticReturn p => exact execAutomaticReturn_keep p s
  | synthOperationEnd syn => exact execSynthOperationEnd_keep syn s
  | synthCalibrationEnd syn m => exact execSynthCalibrationEnd_keep syn m s
  | synthLockLoss syn => exact execSynthLockLoss_keep syn s
  | channelBookPublish occ raw => exact execChannelBookPublish_keep occ raw s
  | sidingReady car ul => exact execSidingReady_keep car ul s
  | sidingSlotEnd car ul => exact execSidingSlotEnd_keep car ul s
  | onDemandPublish car ul slot grp => exact execOnDemandPublish_keep car ul slot grp s
  | weightDeadline car ul slot grp => exact execWeightDeadline_keep car ul slot grp s
  | solverJobDispatch core => exact execSolverJobDispatch_keep core s
  | solverJobExit core => exact execSolverJobExit_keep core s
  | solverFault core cause => exact execSolverFault_keep core cause s
  | solverWatchdog core => exact execSolverWatchdog_keep core s
  | solverCoreResetEnd core => exact execSolverCoreResetEnd_keep core s
  | solverNop core bg w => exact execSolverNop_keep core bg w s
  | solBr core bg w => exact execSolBr_keep core bg w s
  | solCall core bg w => exact execSolCall_keep core bg w s
  | solRet core bg w => exact execSolRet_keep core bg w s
  | solRept core bg w => exact execSolRept_keep core bg w s
  | solEnd core bg w => exact execSolEnd_keep core bg w s
  | solTrap core bg w => exact execSolTrap_keep core bg w s
  | solAdd core bg w => exact execSolAdd_keep core bg w s
  | solSub core bg w => exact execSolSub_keep core bg w s
  | solAnd core bg w => exact execSolAnd_keep core bg w s
  | solOr core bg w => exact execSolOr_keep core bg w s
  | solXor core bg w => exact execSolXor_keep core bg w s
  | solShl core bg w => exact execSolShl_keep core bg w s
  | solShr core bg w => exact execSolShr_keep core bg w s
  | solSra core bg w => exact execSolSra_keep core bg w s
  | solMul core bg w => exact execSolMul_keep core bg w s
  | solSlt core bg w => exact execSolSlt_keep core bg w s
  | solSltu core bg w => exact execSolSltu_keep core bg w s
  | solMin core bg w => exact execSolMin_keep core bg w s
  | solMax core bg w => exact execSolMax_keep core bg w s
  | solMovi core bg w => exact execSolMovi_keep core bg w s
  | solMovhi core bg w => exact execSolMovhi_keep core bg w s
  | solAddi core bg w => exact execSolAddi_keep core bg w s
  | solAddhi core bg w => exact execSolAddhi_keep core bg w s
  | solLdw core bg w => exact execSolLdw_keep core bg w s
  | solStw core bg w => exact execSolStw_keep core bg w s
  | solMovsx core bg w => exact execSolMovsx_keep core bg w s
  | solMovxs core bg w => exact execSolMovxs_keep core bg w s
  | solSetcfg core bg w => exact execSolSetcfg_keep core bg w s
  | solGetcfg core bg w => exact execSolGetcfg_keep core bg w s
  | solSetmask core bg w => exact execSolSetmask_keep core bg w s
  | solGetspr core bg w => exact execSolGetspr_keep core bg w s
  | solAddx core bg w => exact execSolAddx_keep core bg w s
  | solVld core bg w => exact execSolVld_keep core bg w s
  | solVst core bg w => exact execSolVst_keep core bg w s
  | solVldb core bg w => exact execSolVldb_keep core bg w s
  | solVstm core bg w => exact execSolVstm_keep core bg w s
  | solVmul core bg w => exact execSolVmul_keep core bg w s
  | solVmac core bg w => exact execSolVmac_keep core bg w s
  | solVmulb core bg w => exact execSolVmulb_keep core bg w s
  | solVmacb core bg w => exact execSolVmacb_keep core bg w s
  | solVmacs core bg w => exact execSolVmacs_keep core bg w s
  | solVmacm core bg w => exact execSolVmacm_keep core bg w s
  | solVrnd core bg w => exact execSolVrnd_keep core bg w s
  | solVrnds core bg w => exact execSolVrnds_keep core bg w s
  | solAclr core bg w => exact execSolAclr_keep core bg w s
  | solAsum core bg w => exact execSolAsum_keep core bg w s
  | solAload core bg w => exact execSolAload_keep core bg w s
  | solSext core bg w => exact execSolSext_keep core bg w s
  | solVadd core bg w => exact execSolVadd_keep core bg w s
  | solVsub core bg w => exact execSolVsub_keep core bg w s
  | solVconj core bg w => exact execSolVconj_keep core bg w s
  | solVneg core bg w => exact execSolVneg_keep core bg w s
  | solVsel core bg w => exact execSolVsel_keep core bg w s
  | solVperm core bg w => exact execSolVperm_keep core bg w s
  | solVbcast core bg w => exact execSolVbcast_keep core bg w s
  | solVins core bg w => exact execSolVins_keep core bg w s
  | solVextl core bg w => exact execSolVextl_keep core bg w s
  | solVshr core bg w => exact execSolVshr_keep core bg w s
  | solSrsq core bg w => exact execSolSrsq_keep core bg w s
  | solSrec core bg w => exact execSolSrec_keep core bg w s
  | solSnorm core bg w => exact execSolSnorm_keep core bg w s
  | solXfer core bg w => exact execSolXfer_keep core bg w s
  | foregroundPreempt core => exact execForegroundPreempt_keep core s
  | shuLoop ch words => exact execShuLoop_keep ch words s
  | shuWaitAtAbs ch words => exact execShuWaitAtAbs_keep ch words s
  | shuWaitAtRel ch words => exact execShuWaitAtRel_keep ch words s
  | shuWaitFlag ch words => exact execShuWaitFlag_keep ch words s
  | shuWaitDoorbell ch words => exact execShuWaitDoorbell_keep ch words s
  | waitSatisfied ch => exact execWaitSatisfied_keep ch s
  | waitTimeout ch => exact execWaitTimeout_keep ch s
  | signalEvent ch words => exact execSignalEvent_keep ch words s
  | signalMsix ch words => exact execSignalMsix_keep ch words s
  | signalSetFlag ch words => exact execSignalSetFlag_keep ch words s
  | signalClearFlag ch words => exact execSignalClearFlag_keep ch words s
  | shuProgramEnd ch wbErr => exact execShuProgramEnd_keep ch wbErr s
  | shuCaptureComplete slot samples => exact execShuCaptureComplete_keep slot samples s
  | ethFrameReceive port frame corr uncorr => exact execEthFrameReceive_keep port frame corr uncorr s
  | cPlaneSections port msg => exact execCPlaneSections_keep port msg s
  | uPlaneData port msg => exact execUPlaneData_keep port msg s
  | scheduleHint port msg => exact execScheduleHint_keep port msg s
  | soundingDirective port msg => exact execSoundingDirective_keep port msg s
  | burstDirective port msg => exact execBurstDirective_keep port msg s
  | weightBlocks port msg => exact execWeightBlocks_keep port msg s
  | beamUpload port msg => exact execBeamUpload_keep port msg s
  | wakeMessage port msg => exact execWakeMessage_keep port msg s
  | delayRequest port src msg => exact execDelayRequest_keep port src msg s
  | delayFollowUp port src msg => exact execDelayFollowUp_keep port src msg s
  | followUpTimeout port => exact execFollowUpTimeout_keep port s
  | orphanBlockTimeout idx => exact execOrphanBlockTimeout_keep idx s
  | ulEgress car sym raw => exact execUlEgress_keep car sym raw s
  | portUp port deskew => exact execPortUp_keep port deskew s
  | portFailed port cause lane => exact execPortFailed_keep port cause lane s
  | portRevert port => exact execPortRevert_keep port s
  | ptpSync port dst msg at_ => exact execPtpSync_keep port dst msg at_ s
  | ptpFollowUp port msg => exact execPtpFollowUp_keep port msg s
  | ptpDelayResp port msg => exact execPtpDelayResp_keep port msg s
  | ptpAnnounce port msg => exact execPtpAnnounce_keep port msg s
  | announceTimeout tb => exact execAnnounceTimeout_keep tb s
  | delayReqSend tb at_ => exact execDelayReqSend_keep tb at_ s
  | ppsInEdge at_ => exact execPpsInEdge_keep at_ s
  | servoHoldover tb => exact execServoHoldover_keep tb s
  | servoExpired tb => exact execServoExpired_keep tb s
  | bleedDone => exact execBleedDone_keep s
  | timeAnchor => exact execTimeAnchor_keep s
  | hitchTimeSend => exact execHitchTimeSend_keep s
  | hitchTime port msg at_ => exact execHitchTime_keep port msg at_ s
  | hitchTimeEcho port msg at_ => exact execHitchTimeEcho_keep port msg at_ s
  | hitchFwd port msg => exact execHitchFwd_keep port msg s
  | ulPsum port msg => exact execUlPsum_keep port msg s
  | ulPsumSend car sym raw => exact execUlPsumSend_keep car sym raw s
  | gram port msg => exact execGram_keep port msg s
  | solve port msg => exact execSolve_keep port msg s
  | ready port msg => exact execReady_keep port msg s
  | commit port msg => exact execCommit_keep port msg s
  | commitSend car ul slot grp => exact execCommitSend_keep car ul slot grp s
  | commitMiss car ul slot grp => exact execCommitMiss_keep car ul slot grp s
  | sndDone port msg => exact execSndDone_keep port msg s
  | meas port msg => exact execMeas_keep port msg s
  | keepalive port msg => exact execKeepalive_keep port msg s
  | keepaliveSend port => exact execKeepaliveSend_keep port s
  | memberLost d => exact execMemberLost_keep d s
  | membershipChange => exact execMembershipChange_keep s
  | clockMonitorWindowEnd clk clean => exact execClockMonitorWindowEnd_keep clk clean s
  | clockDead clk => exact execClockDead_keep clk s
  | turntableSwitchEnd => exact execTurntableSwitchEnd_keep s
  | pllLocked => exact execPllLocked_keep s
  | revertHoldExpiry => exact execRevertHoldExpiry_keep s
  | gateRequest block => exact execGateRequest_keep block s
  | gateTimeout block => exact execGateTimeout_keep block s
  | railOut rail => exact execRailOut_keep rail s
  | phaseImbalance rail phase => exact execPhaseImbalance_keep rail phase s
  | thermalMute sensor => exact execThermalMute_keep sensor s
  | thermalMuteRelease => exact execThermalMuteRelease_keep s
  | thermalDeep sensor => exact execThermalDeep_keep sensor s
  | thermalRecovery => exact execThermalRecovery_keep s
  | quiesceBoundary => exact execQuiesceBoundary_keep s
  | entryGatingEnd => exact execEntryGatingEnd_keep s
  | timeKeeperHandoff => exact execTimeKeeperHandoff_keep s
  | entryA3 => exact execEntryA3_keep s
  | entryComplete pins => exact execEntryComplete_keep pins s
  | wakePin pin edge => exact execWakePin_keep pin edge s
  | wakeStepEnd => exact execWakeStepEnd_keep s
  | wakeStepTimeout cause index => exact execWakeStepTimeout_keep cause index s
  | wakeCarrierResume => exact execWakeCarrierResume_keep s
  | hkConversionEnd conv raw => exact execHkConversionEnd_keep conv raw s
  | hkTrigPin pin => exact execHkTrigPin_keep pin s
  | hkSweepEnd conv => exact execHkSweepEnd_keep conv s
  | hkPowerDown conv => exact execHkPowerDown_keep conv s
  | hkCalStart conv => exact execHkCalStart_keep conv s
  | hkCalEnd conv gain ofs => exact execHkCalEnd_keep conv gain ofs s
  | compliance hb => exact execCompliance_keep hb s
  | halterDwellEnd hb => exact execHalterDwellEnd_keep hb s
  | slewUpdate => exact execSlewUpdate_keep s
  | dpdCaptureDecision k => exact execDpdCaptureDecision_keep k s
  | dpdCaptureEnd p obs => exact execDpdCaptureEnd_keep p obs s
  | dpdAdaptPublish p => exact execDpdAdaptPublish_keep p s
  | adaptTimeout p => exact execAdaptTimeout_keep p s
  | blendBoundary => exact execBlendBoundary_keep s
  | burstDetection sample raw => exact execBurstDetection_keep sample raw s
  | syncHypothesisFail lane raw => exact execSyncHypothesisFail_keep lane raw s
  | syncAccepted lane raw => exact execSyncAccepted_keep lane raw s
  | syncFieldEnd lane => exact execSyncFieldEnd_keep lane s
  | longTrainingEnd lane => exact execLongTrainingEnd_keep lane s
  | payloadEnd lane => exact execPayloadEnd_keep lane s
  | decoderStop lane raw => exact execDecoderStop_keep lane raw s
  | burstWindowClose => exact execBurstWindowClose_keep s
  | noiseFloorBlock p car raw => exact execNoiseFloorBlock_keep p car raw s
  | backgroundCalDecision id cls idx due => exact execBackgroundCalDecision_keep id cls idx due s
  | calibrationComplete id cls idx ok vals => exact execCalibrationComplete_keep id cls idx ok vals s
  | calStepBoundary id cls idx => exact execCalStepBoundary_keep id cls idx s
  | lendStart p => exact execLendStart_keep p s
  | lendRejoin p => exact execLendRejoin_keep p s
  | calSetStore => exact execCalSetStore_keep s
  | partialResultExpiry id cls idx => exact execPartialResultExpiry_keep id cls idx s
  | tackRecordCommit verified => exact execTackRecordCommit_keep verified s
  | beamTableSwitch => exact execBeamTableSwitch_keep s
  | fcSetComplete => exact execFcSetComplete_keep s
  | recoveryStart => exact execRecoveryStart_keep s
  | recoveryComplete => exact execRecoveryComplete_keep s
  | d2dUncorr => exact execD2dUncorr_keep s
  | memUncorr bank what row cmd => exact execMemUncorr_keep bank what row cmd s
  | memCorrected bank row => exact execMemCorrected_keep bank row s
  | patrolScrub errs => exact execPatrolScrub_keep errs s
  | marchBankEnd ring seq bank fails => exact execMarchBankEnd_keep ring seq bank fails s
  | lbistEnd target index sig wrErr => exact execLbistEnd_keep target index sig wrErr s
  | retirementEffect => exact execRetirementEffect_keep s
  | entryA1 => exact execEntryA1_keep s
  | untimedCommandComplete ring seq => exact execUntimedCommandComplete_keep ring seq s
  | hitchTimeLoss port => exact execHitchTimeLoss_keep port s
  | d2dCorrectedError => exact execD2dCorrectedError_keep s
  | ppsOutPulseEnd => exact execPpsOutPulseEnd_keep s
  | l12Entry => exact execL12Entry_keep s
  | l12Exit => exact execL12Exit_keep s

theorem exec_calm (i : Instr) (s t : State) (hp : movesPort i = false) (h : exec i s = .next t) : Calm s t := by
  by_cases hw : writesProg i = true
  · cases i with
    | shuProgLoad c => exact execShuProgLoad_calm c s t h
    | shuMove ch words src dstErr wbErr => exact execShuMove_calm ch words src dstErr wbErr s t h
    | _ => cases hw
  · exact Calm.of_keep (exec_keep i s hp (by simpa using hw) t h)

/-- No command touches the queue. -/
theorem exec_pending (i : Instr) (s t : State) (h : exec i s = .next t) : t.pending = s.pending := by
  by_cases hp : movesPort i = true
  · cases i with
    | brownOut => exact execBrownOut_pending s t h
    | powerGood xo fitted test => exact execPowerGood_pending xo fitted test s t h
    | tapTckEdge trstN rising tms tdi => exact execTapTckEdge_pending trstN rising tms tdi s t h
    | trstNAssert => exact execTrstNAssert_pending s t h
    | _ => cases hp
  · exact (exec_calm i s t (by simpa using hp) h).1

/-- Every command keeps the invariant of the port. -/
theorem exec_kept (i : Instr) (s t : State) (hs : Kept s) (h : exec i s = .next t) : Kept t := by
  by_cases hp : movesPort i = true
  · cases i with
    | brownOut => exact execBrownOut_kept s t hs h
    | powerGood xo fitted test => exact execPowerGood_kept xo fitted test s t hs h
    | tapTckEdge trstN rising tms tdi => exact execTapTckEdge_kept trstN rising tms tdi s t hs h
    | trstNAssert => exact execTrstNAssert_kept s t hs h
    | _ => cases hp
  · exact kept_of_calm hs (exec_calm i s t (by simpa using hp) h)

theorem step_of_pending {s : State} {i : Instr} {q : List Instr} (h : s.pending = i :: q) : step s = exec i { s with pending := q } := by
  rw [step, h]

theorem step_of_empty {s : State} (h : s.pending = []) : step s = .next s.tick := by
  rw [step, h]

end Sys2Proof.Laws

open Sys2Proof.Machine Sys2Proof.Claims Sys2Proof.Laws

/-- Settles O58: a step on a queue with a command takes it off, and no command touches the queue; a cycle of the clock touches none either. -/
theorem queueIsFirstInFirstOut : Obligations.QueueIsFirstInFirstOut := by
  intro s t h
  cases hq : s.pending with
  | nil =>
    rw [step_of_empty hq] at h
    cases h
    exact (congrArg Prod.fst (State.tick_keep s)).trans hq
  | cons i q =>
    rw [step_of_pending hq] at h
    exact exec_pending i _ t h

/-- Settles O59: the invariant does not speak of the queue, every command keeps it, and a cycle of the clock leaves all it speaks of alone. -/
theorem portStaysClosed : Obligations.PortStaysClosed := by
  intro s t hs h
  cases hq : s.pending with
  | nil =>
    rw [step_of_empty hq] at h
    cases h
    exact kept_of_calm hs (.of_keep (State.tick_keep s))
  | cons i q =>
    rw [step_of_pending hq] at h
    have hrest : Kept { s with pending := q } := hs
    exact exec_kept i _ t hrest h

end

section
/-! One step of the machine, and what reset and power-good leave. -/

namespace Sys2Proof.Laws

open Sys2Proof Sys2Proof.Machine Sys2Proof.Claims

theorem tick_of_no_vin {s : State} (h : s.pwr.vin = false) : s.tick = s := by
  rw [State.tick, h]
  rfl

/-- The supply rises through 2.95 V from `s`: XO_SEL, the board's XO and TEST_EN are sampled (R410, R104, R569). -/
def poweredUp (s : State) (xo fitted : BitVec 2) (test : Bool) : State :=
  let u : State := { s with
    dp := 0, clk := { s.clk with xoSel := xo, xoBad := xo == 3 || xo != fitted }, pkg := { s.pkg with testMode := test, clkreqLow := true }
    tack := { s.tack with boots := s.tack.boots + 1 }
    sup := { s.sup with conv := s.sup.conv.map fun (k : HkConv) => { k with calWait := [none] } } }
  (u.modPwr fun p => { p with vin := true, st := .active, target := .active, step := .cold, rails := 0x100 }).emit (.pin "PCIE_CLKREQ_N" false)

theorem exec_powerGood {s : State} (h : s.pwr.vin = false) (xo fitted : BitVec 2) (test : Bool) :
    exec (.powerGood xo fitted test) s = .next (poweredUp s xo fitted test) := by
  show execPowerGood xo fitted test s = _
  rw [execPowerGood, if_neg (by simp [h])]
  rfl

theorem poweredUp_xoBad (s : State) (xo fitted : BitVec 2) (test : Bool) :
    (poweredUp s xo fitted test).clk.xoBad = true ↔ xo = 3 ∨ xo ≠ fitted := by
  show (xo == 3 || xo != fitted) = true ↔ _
  simp

end Sys2Proof.Laws

open Sys2Proof.Machine Sys2Proof.Claims Sys2Proof.Laws

/-- Settles O57: by the definition of a step and of a cycle of the counters. -/
theorem stepRunsFrontCommand : Obligations.StepRunsFrontCommand := fun _ _ _ =>
  ⟨step_of_pending, step_of_empty, fun hq hv => (step_of_empty hq).trans (congrArg _ (tick_of_no_vin hv)), rfl, rfl, rfl⟩

/-- Settles O60: power-good from reset keeps the port as reset has it, and of the rest changes only what it samples. -/
theorem afterReset : Obligations.AfterReset := by
  refine ⟨kept_reset, fun xo fitted test => ?_⟩
  have hexec := exec_powerGood (s := State.reset) rfl xo fitted test
  refine ⟨poweredUp State.reset xo fitted test, hexec, exec_kept _ _ _ kept_reset hexec, rfl, rfl, rfl, poweredUp_xoBad _ xo fitted test, rfl, rfl, ?_⟩
  have hchans : ∀ i : Fin 16, State.reset.shu.chans[i].st = .idle ∧ State.reset.shu.chans[i].db = 0 := by decide
  have hcarriers : ∀ c : Fin 8, State.reset.ofdm.carriers[c].cfg = none := by decide
  have houtputs : ∀ i : Fin 80, State.reset.sup.out[i].now = 0 := by decide
  have hrings : ∀ n : Fin 16, State.reset.host.rings[n].st = .disabled := by decide
  exact ⟨hchans, rfl, fun _ => rfl, rfl, rfl, rfl, rfl, rfl, rfl, rfl, rfl, hcarriers, houtputs, hrings⟩

end

section
/-! The test access port, edge by edge (R569, R577). -/

namespace Sys2Proof.Laws

open Sys2Proof Sys2Proof.Machine Sys2Proof.Claims

variable {s : State}

/-- The port with TRST_N released. -/
def trstFree (s : State) : State := { s with pkg := { s.pkg with trst := false } }

theorem exec_tapTckEdge_held (hv : s.pwr.vin = true) (rising tms tdi : Bool) :
    exec (.tapTckEdge false rising tms tdi) s = .next (s.modPkg fun k => k.tapReset true) := by
  show execTapTckEdge false rising tms tdi s = _
  rw [execTapTckEdge, if_neg (by simp [hv])]
  rfl

theorem exec_tapTckEdge_rising (hv : s.pwr.vin = true) (tms tdi : Bool) :
    exec (.tapTckEdge true true tms tdi) s = .next ((trstFree s).tapRise tms tdi) := by
  show execTapTckEdge true true tms tdi s = _
  rw [execTapTckEdge, if_neg (by simp [hv])]
  rfl

theorem exec_tapTckEdge_falling (hv : s.pwr.vin = true) (tms tdi : Bool) :
    exec (.tapTckEdge true false tms tdi) s = .next (trstFree s).tapFall := by
  show execTapTckEdge true false tms tdi s = _
  rw [execTapTckEdge, if_neg (by simp [hv])]
  rfl

-- Rising edges

theorem tapRise_shiftDr (h : s.pkg.tap = .shiftDr) (tms tdi : Bool) :
    s.tapRise tms tdi = tapMove (s.modPkg fun k => { k with drShift := k.drShift.drop 1 ++ [tdi] }) (s.pkg.tap.next tms) := by
  simp only [State.tapRise, h]
  rw [modPkg_pkg, h]
  rfl

theorem tapRise_shiftIr (h : s.pkg.tap = .shiftIr) (tms tdi : Bool) :
    s.tapRise tms tdi = tapMove (s.modPkg fun k => { k with irShift := k.irShift.drop 1 ++ [tdi] }) (s.pkg.tap.next tms) := by
  simp only [State.tapRise, h]
  rw [modPkg_pkg, h]
  rfl

theorem tapRise_capDr_idcode (h : s.pkg.tap = .capDr) (hi : s.pkg.tapInstr = .idcode) (tms tdi : Bool) :
    s.tapRise tms tdi = tapMove (s.modPkg fun k => { k with drShift := idcodeBits }) (s.pkg.tap.next tms) := by
  simp only [State.tapRise, State.captureDr, h, hi]
  rw [modPkg_pkg, h]
  rfl

theorem tapRise_capDr_bypass (h : s.pkg.tap = .capDr) (hi : s.pkg.tapInstr = .bypass) (tms tdi : Bool) :
    s.tapRise tms tdi = tapMove (s.modPkg fun k => { k with drShift := [false] }) (s.pkg.tap.next tms) := by
  simp only [State.tapRise, State.captureDr, h, hi]
  rw [modPkg_pkg, h]
  rfl

theorem tapRise_other (h1 : s.pkg.tap ≠ .shiftDr) (h2 : s.pkg.tap ≠ .shiftIr) (h3 : s.pkg.tap ≠ .capDr) (h4 : s.pkg.tap ≠ .capIr) (tms tdi : Bool) :
    s.tapRise tms tdi = tapMove s (s.pkg.tap.next tms) := by
  unfold State.tapRise
  split
  next h => exact absurd h h3
  next h => exact absurd h h4
  next h => exact absurd h h1
  next h => exact absurd h h2
  next => rfl

-- Falling edges

theorem tapFall_updIr (h : s.pkg.tap = .updIr) : s.tapFall = s.modPkg fun k => { k with tapInstr := s.tapDecode s.pkg.irShift, tdo := none } := by
  simp only [State.tapFall, h]

theorem tapFall_shiftDr (h : s.pkg.tap = .shiftDr) : s.tapFall = s.modPkg fun k => { k with tdo := k.drShift.head? } := by
  simp only [State.tapFall, h]

theorem tapFall_shiftIr (h : s.pkg.tap = .shiftIr) : s.tapFall = s.modPkg fun k => { k with tdo := k.irShift.head? } := by
  simp only [State.tapFall, h]

theorem tapFall_updDr (h : s.pkg.tap = .updDr) (hi : s.pkg.tapInstr = .idcode ∨ s.pkg.tapInstr = .bypass) :
    s.tapFall = s.modPkg fun k => { k with tdo := none } := by
  simp only [State.tapFall, h, State.modPkg, hi, if_true]

end Sys2Proof.Laws

open Sys2Proof.Machine Sys2Proof.Claims Sys2Proof.Laws

/-- Settles O56: TRST_N, then the rising and the falling edges by the state of the controller, then the codes outside board-test mode. -/
theorem testAccessPort : Obligations.TestAccessPort := by
  intro s tms tdi held
  refine ⟨rfl, fun hv rising => exec_tapTckEdge_held hv rising tms tdi, fun hv => ?edges, fun hm => tapDecode_closed hm⟩
  intro u go
  have hrise := exec_tapTckEdge_rising hv tms tdi
  have hfall := exec_tapTckEdge_falling hv tms tdi
  refine ⟨?shiftDr, ?shiftIr, ?idcode, ?bypass, ?other, ?updIr, ?outDr, ?outIr, ?updDr⟩
  case shiftDr => exact fun h => hrise.trans (congrArg _ (tapRise_shiftDr (s := trstFree s) h tms tdi))
  case shiftIr => exact fun h => hrise.trans (congrArg _ (tapRise_shiftIr (s := trstFree s) h tms tdi))
  case idcode => exact fun h hi => hrise.trans (congrArg _ (tapRise_capDr_idcode (s := trstFree s) h hi tms tdi))
  case bypass => exact fun h hi => hrise.trans (congrArg _ (tapRise_capDr_bypass (s := trstFree s) h hi tms tdi))
  case other => exact fun h1 h2 h3 h4 => hrise.trans (congrArg _ (tapRise_other (s := trstFree s) h1 h2 h3 h4 tms tdi))
  case updIr => exact fun h => hfall.trans (congrArg _ (tapFall_updIr (s := trstFree s) h))
  case outDr => exact fun h => hfall.trans (congrArg _ (tapFall_shiftDr (s := trstFree s) h))
  case outIr => exact fun h => hfall.trans (congrArg _ (tapFall_shiftIr (s := trstFree s) h))
  case updDr => exact fun h hi => hfall.trans (congrArg _ (tapFall_updDr (s := trstFree s) h hi))

end

section
/-! Scalar, immediate and move instructions of the solver (Table 17-4), each from its encoding and its result. -/

namespace Sys2Proof.Laws

open Sys2Proof Sys2Proof.Machine Sys2Proof.Claims

variable {s : State} {c : Fin 9} {bg : Bool} {w : BitVec 32}

/-- An instruction that only computes the bank retires with the bank computed. -/
theorem isa_pureBank {o : IsaOp} {f : Bank → Bank} (h : Issue s c bg w o) (ha : o.accR = false) (hrept : ∀ b, (f b).rept = b.rept) (hpc : ∀ b, (f b).pc = b.pc)
    (hwr : ∀ b, (f b).wr1 = b.wr1) :
    s.isa c bg w o (pureBank f) = retire s c bg (f (bankOf s c bg)) o.cost (if o.accW then some (BitVec.ofFin (aD w)) else none) :=
  next_isa s c bg w o _ s _ 0 h rfl (fun h => absurd (ha.symm.trans h) (by decide)) (hrept _) (hpc _) (hwr _)

/-- The same for one whose bank is a write of a scalar register. -/
theorem isa_writeScalar {o : IsaOp} {i : Fin 16} {v : Bank → BitVec 32} (h : Issue s c bg w o) (ha : o.accR = false) (hw : o.accW = false) :
    s.isa c bg w o (pureBank fun b => b.ws i (v b)) = retire s c bg ((bankOf s c bg).ws i (v (bankOf s c bg))) o.cost := by
  rw [isa_pureBank h ha (fun _ => ws_rept ..) (fun _ => ws_pc ..) (fun _ => ws_wr1 ..), hw]
  rfl

theorem salu_of_issue {op : Nat} (h : Issue s c bg w { cls := 1, op := op, zero := 0x008421FF }) (f : BitVec 32 → BitVec 32 → BitVec 32) :
    s.salu c bg w op f = retire s c bg ((bankOf s c bg).ws (sD w) (f ((bankOf s c bg).rs (sA w)) ((bankOf s c bg).rs (sB w)))) 1 :=
  isa_writeScalar h rfl rfl

theorem simm_of_issue {op : Nat} (h : Issue s c bg w { cls := 2, op := op, zero := 0x00870000 }) (f : BitVec 32 → BitVec 16 → BitVec 32) :
    s.simm c bg w op f = retire s c bg ((bankOf s c bg).ws (sD w) (f ((bankOf s c bg).rs (sD w)) (w.extractLsb' 0 16))) 1 :=
  isa_writeScalar h rfl rfl

/-- Every row of the table of scalar instructions is its meaning. -/
theorem exec_salu {p} (hp : p ∈ saluTable) (s : State) (c : Fin 9) (bg : Bool) (w : BitVec 32) : exec (p.1 c bg w) s = .next (s.salu c bg w p.2.1 p.2.2) := by
  simp only [saluTable, List.mem_cons, List.not_mem_nil, or_false] at hp
  rcases hp with rfl | rfl | rfl | rfl | rfl | rfl | rfl | rfl | rfl | rfl | rfl | rfl | rfl <;> rfl

/-- Every row of the table of immediate instructions is its meaning. -/
theorem exec_simm {p} (hp : p ∈ simmTable) (s : State) (c : Fin 9) (bg : Bool) (w : BitVec 32) : exec (p.1 c bg w) s = .next (s.simm c bg w p.2.1 p.2.2) := by
  simp only [simmTable, List.mem_cons, List.not_mem_nil, or_false] at hp
  rcases hp with rfl | rfl | rfl | rfl <;> rfl

-- GETSPR, GETCFG and ADDX

theorem xStep_of_next {b : Bank} {n : Fin 16} {d : Int} {v : BitVec 18} (h : xNext b.x[n] b.xcfg[n] d = some v) : s.xStep b n d = (s, b.wx n v) := by
  rw [State.xStep, h]

/-- The defined bits of an address mode survive the packing of its fields, whatever the reserved bits read. -/
theorem xcfg_defined (x : BitVec 32) (f : Nat) :
    BitVec.ofNat 32 (packFlds [.v 17 x.toNat, .v 4 (x.toNat / 2 ^ 17), .u 9, .v 2 (x.toNat / 2 ^ 30)] f).1 &&& 0xC01FFFFF = x &&& 0xC01FFFFF := by
  simp only [packFlds, -Nat.reducePow]
  generalize hu : (Config.freeBits 9 f).toNat = u
  have hu : u < 2 ^ 9 := hu ▸ (Config.freeBits 9 f).isLt
  refine BitVec.eq_of_getLsbD_eq fun i hi => ?_
  rw [BitVec.getLsbD_and, BitVec.getLsbD_and, BitVec.getLsbD_ofNat]
  by_cases hm : BitVec.getLsbD (0xC01FFFFF : BitVec 32) i = true
  · have hi' : i < 21 ∨ 30 ≤ i := by
      revert hm; revert i; decide
    have hx : x.toNat.testBit i = x.getLsbD i := rfl
    rw [hm, Bool.and_true, Bool.and_true, ← hx, decide_eq_true hi, Bool.true_and, Nat.add_comm,
      Nat.testBit_two_pow_mul_add _ (Nat.mod_lt _ (by decide)), Nat.add_comm, Nat.testBit_two_pow_mul_add _ (Nat.mod_lt _ (by decide)), Nat.add_comm,
      Nat.testBit_two_pow_mul_add _ hu]
    simp only [Nat.mul_zero, Nat.add_zero, Nat.testBit_mod_two_pow, Nat.testBit_div_two_pow, -Nat.reducePow]
    rcases hi' with h | h
    · rcases Nat.lt_or_ge i 17 with h' | h'
      · simp [h']
      · simp [Nat.not_lt.mpr h', show i - 17 < 4 by omega, show i - 17 + 17 = i by omega]
    · simp [show ¬ i < 17 by omega, show ¬ i - 17 < 4 by omega, show ¬ i - 17 - 4 < 9 by omega, show i - 17 - 4 - 9 < 2 by omega,
        show i - 17 - 4 - 9 + 30 = i by omega]
  · rw [Bool.not_eq_true] at hm
    rw [hm, Bool.and_false, Bool.and_false]

theorem solGetspr_of_issue (h : Issue s c bg w { cls := 4, op := 5, zero := 0x00803FFF }) (hi : (fA w).val < 4) :
    exec (.solGetspr c bg w) s = .next (retire s c bg ((bankOf s c bg).ws (sD w)
      (#v[BitVec.ofNat 32 c.val, BitVec.ofNat 32 (if bg then (s.sol.cores[c]).bgCyc else (s.sol.cores[c]).fgCyc), (s.sol.cores[c]).satcnt.setWidth 32,
        if bg then 1 else 0][(fA w).val]'hi)) 1) := by
  refine congrArg Host.Outcome.next (next_isa s c bg w _ _ s _ 0 h ?_ nofun (ws_rept ..) (ws_pc ..) (ws_wr1 ..))
  generalize (fA w).val = i at hi
  match i, hi with
  | 0, _ => rfl
  | 1, _ => rfl
  | 2, _ => rfl
  | 3, _ => rfl

end Sys2Proof.Laws

open Sys2Proof.Machine Sys2Proof.Claims Sys2Proof.Laws

theorem solver_scalar_results : Sys2Proof.Claims.SolverScalarResults := fun _ hp s c bg w h =>
  (exec_salu hp s c bg w).trans (congrArg _ (salu_of_issue h _))

theorem solver_moves : Sys2Proof.Claims.SolverMoves := by
  refine ⟨fun _ hp s c bg w h => (exec_simm hp s c bg w).trans (congrArg _ (simm_of_issue h _)), fun s c bg w => ?_⟩
  refine ⟨?movsx, ?movxs, ?setcfg, ?getcfg, ?setmask, ?getspr, ?addx⟩
  case movsx => exact fun h => congrArg Host.Outcome.next (isa_pureBank h rfl (fun _ => rfl) (fun _ => rfl) fun _ => rfl)
  case movxs => exact fun h => congrArg Host.Outcome.next (isa_writeScalar h rfl rfl)
  case setcfg => exact fun h => congrArg Host.Outcome.next (isa_pureBank h rfl (fun _ => rfl) (fun _ => rfl) fun _ => rfl)
  case getcfg =>
    exact fun h => ⟨_, _, congrArg Host.Outcome.next (next_isa s c bg w _ _ _ _ 0 h rfl nofun (ws_rept ..) (ws_pc ..) (ws_wr1 ..)), xcfg_defined ..⟩
  case setmask => exact fun h => congrArg Host.Outcome.next (isa_pureBank h rfl (fun _ => rfl) (fun _ => rfl) fun _ => rfl)
  case getspr => exact fun h hi => solGetspr_of_issue h hi
  case addx =>
    intro h v hv
    refine congrArg Host.Outcome.next (next_isa s c bg w _ _ s _ 0 h ?_ nofun rfl rfl rfl)
    rw [xStep_of_next hv]
    rfl

/-- Settles O1: each instruction passes its encoding's checks and then only computes its bank. -/
theorem solverScalarAndMoves : Obligations.SolverScalarAndMoves := ⟨solver_scalar_results, solver_moves⟩

end

section
/-! Loads and stores of the solver (R477, R479): an access inside the region and on its alignment, then the update of the address register. -/

namespace Sys2Proof.Laws

open Sys2Proof Sys2Proof.Machine Sys2Proof.Claims

variable {s : State} {c : Fin 9} {bg : Bool} {w : BitVec 32}

theorem ws_x (b : Bank) (i v) : (b.ws i v).x = b.x := by unfold Bank.ws; split <;> rfl

theorem ws_xcfg (b : Bank) (i v) : (b.ws i v).xcfg = b.xcfg := by unfold Bank.ws; split <;> rfl

/-- An access inside the region and on its alignment has its effect, and Xn goes on. -/
theorem memOp_of_issue {o : IsaOp} {n : Nat} {al : Bool} {f : State → Bank → Nat → State × Bank} {s' : State} {b' : Bank} {v : BitVec 18}
    (h : Issue s c bg w o) (hreg : inRegion bg (bankOf s c bg).x[fX w].toNat n = true) (hal : al = true → (bankOf s c bg).x[fX w].toNat % 4 = 0)
    (hf : f s (bankOf s c bg) (bankOf s c bg).x[fX w].toNat = (s', b'))
    (hx : b'.x = (bankOf s c bg).x ∧ b'.xcfg = (bankOf s c bg).xcfg) (hb : b'.rept = (bankOf s c bg).rept ∧ b'.pc = (bankOf s c bg).pc ∧ b'.wr1 = (bankOf s c bg).wr1)
    (hv : xNext (bankOf s c bg).x[fX w] (bankOf s c bg).xcfg[fX w] (4 * fInc w) = some v) (hr : o.accR = false) :
    s.memOp c bg w o n al f
      = retire s' c bg { b' with x := vset b'.x (fX w) v } o.cost (if o.accW then some (BitVec.ofFin (aD w)) else none) := by
  obtain ⟨hrept, hpc, hwr⟩ := hb
  refine next_isa s c bg w o _ s' _ 0 h ?_ (fun h => absurd (hr.symm.trans h) (by decide)) hrept hpc hwr
  have hal' : (al && (bankOf s c bg).x[fX w].toNat % 4 != 0) = false := by
    cases al
    · rfl
    · exact (Bool.true_and _).trans (by rw [hal rfl]; rfl)
  have hv' : xNext b'.x[fX w] b'.xcfg[fX w] (4 * fInc w) = some v := by rw [hx.1, hx.2]; exact hv
  simp only [hreg, hal', Bool.not_true, Bool.false_eq_true, if_false]
  rw [hf, xStep_of_next hv']
  rfl

end Sys2Proof.Laws

open Sys2Proof.Machine Sys2Proof.Claims Sys2Proof.Laws

/-- Settles O2: each is an access inside the region whose address register then goes on to `v`. -/
theorem solverMemoryAccess : Obligations.SolverMemoryAccess := by
  intro s c bg w v b a after hv
  refine ⟨fun hreg hal => ⟨?ldw, ?stw, ?vldb⟩, fun hreg => ⟨?vld, ?vst, ?vstm⟩⟩
  case ldw => exact fun h => congrArg Host.Outcome.next (memOp_of_issue h hreg (fun _ => hal) rfl ⟨ws_x .., ws_xcfg ..⟩ ⟨ws_rept .., ws_pc .., ws_wr1 ..⟩ hv rfl)
  case stw => exact fun h => congrArg Host.Outcome.next (memOp_of_issue h hreg (fun _ => hal) rfl ⟨rfl, rfl⟩ ⟨rfl, rfl, rfl⟩ hv rfl)
  case vldb => exact fun h => congrArg Host.Outcome.next (memOp_of_issue h hreg (fun _ => hal) rfl ⟨rfl, rfl⟩ ⟨rfl, rfl, rfl⟩ hv rfl)
  case vld => exact fun h => congrArg Host.Outcome.next (memOp_of_issue h hreg nofun rfl ⟨rfl, rfl⟩ ⟨rfl, rfl, rfl⟩ hv rfl)
  case vst => exact fun h => congrArg Host.Outcome.next (memOp_of_issue h hreg nofun rfl ⟨rfl, rfl⟩ ⟨rfl, rfl, rfl⟩ hv rfl)
  case vstm => exact fun h => congrArg Host.Outcome.next (memOp_of_issue h hreg nofun rfl ⟨rfl, rfl⟩ ⟨rfl, rfl, rfl⟩ hv rfl)

end

section
/-! Vector instructions of the solver (Table 17-4, VMAC, VEXT and VALU): each passes its encoding's checks, computes its bank and its state, and retires. -/

namespace Sys2Proof.Laws

open Sys2Proof Sys2Proof.Machine Sys2Proof.Claims

variable {s : State} {c : Fin 9} {bg : Bool} {w : BitVec 32}

theorem solVec_get (s : State) (c : Fin 9) (a : Nat) (j : Fin 32) : (s.solVec c a)[j] = s.solLoad c (a + 4 * j.val) := by
  rw [State.solVec, Fin.getElem_fin, Vector.getElem_ofFn]

/-- An instruction whose result keeps the repetition, PC and the noted writers, and which meets no accumulator hazard, retires. -/
theorem exec_isa {o : IsaOp} {f : State → Bank → IsaRes} {s' : State} {b' : Bank} (h : Issue s c bg w o) (ha : o.accR = true → NoHazard s c bg w)
    (hf : f s (bankOf s c bg) = .inr (s', b', 0))
    (hb : b'.rept = (bankOf s c bg).rept ∧ b'.pc = (bankOf s c bg).pc ∧ b'.wr1 = (bankOf s c bg).wr1) :
    (.next (s.isa c bg w o f) : R)
      = .next (retire s' c bg b' o.cost (if o.accW then some (BitVec.ofFin (aD w)) else none)) :=
  congrArg Host.Outcome.next (next_isa s c bg w o f s' b' 0 h hf ha hb.1 hb.2.1 hb.2.2)

/-- VMACM takes its operand from memory, and its address register advances by 128 bytes. -/
theorem solVmacm_of_issue {v : BitVec 18} (h : Issue s c bg w { cls := 6, op := 5, zero := 0x00E0203F, vs := [14], rep := true })
    (hreg : inRegion bg (bankOf s c bg).x[sB w].toNat 128 = true) (hv : xNext (bankOf s c bg).x[sB w] (bankOf s c bg).xcfg[sB w] 128 = some v) :
    let r := s.macOp c w (bankOf s c bg) true fun j => s.solLoad c ((bankOf s c bg).x[sB w].toNat + 4 * j.val)
    exec (.solVmacm c bg w) s = .next (retire r.1 c bg { r.2 with x := vset r.2.x (sB w) v } 1 (some (BitVec.ofFin (aD w)))) := by
  have hvec : (fun j => (s.solVec c (bankOf s c bg).x[sB w].toNat)[j]) = fun j : Fin 32 => s.solLoad c ((bankOf s c bg).x[sB w].toNat + 4 * j.val) :=
    funext fun j => solVec_get ..
  intro r
  have hr : (s.macOp c w (bankOf s c bg) true fun j => (s.solVec c (bankOf s c bg).x[sB w].toNat)[j]) = r := by rw [hvec]
  have hx : r.1.xStep r.2 (sB w) 128 = (r.1, r.2.wx (sB w) v) := xStep_of_next hv
  refine exec_isa h nofun ?_ ⟨rfl, rfl, rfl⟩
  simp only [hreg, hr, hx, Bool.not_true, Bool.false_eq_true, if_false]
  rfl

end Sys2Proof.Laws

open Sys2Proof.Machine Sys2Proof.Claims Sys2Proof.Laws

/-- Settles O3: the sums saturate into the accumulator as `accSat` says; VMACM then advances its address register. -/
theorem solverMultiplyAccumulate : Obligations.SolverMultiplyAccumulate := by
  intro s c bg w b x mul done
  refine ⟨?mul, ?mac, ?mulb, ?macb, ?macs, ?macm⟩
  case mul => exact fun h => exec_isa h nofun rfl ⟨rfl, rfl, rfl⟩
  case mac => exact fun h => exec_isa h nofun rfl ⟨rfl, rfl, rfl⟩
  case mulb => exact fun h => exec_isa h nofun rfl ⟨rfl, rfl, rfl⟩
  case macb => exact fun h => exec_isa h nofun rfl ⟨rfl, rfl, rfl⟩
  case macs => exact fun h => exec_isa h nofun rfl ⟨rfl, rfl, rfl⟩
  case macm => exact fun h hreg v hv => solVmacm_of_issue h hreg hv

/-- Settles O4: an accumulator read without a hazard gives its result in the instruction's own cycle. -/
theorem solverAccumulatorReadout : Obligations.SolverAccumulatorReadout := by
  intro s c bg w b round
  refine ⟨fun hz => ⟨?rnd, ?rnds, ?asum, ?sext⟩, ?aclr, ?aload⟩
  case rnd => exact fun h => exec_isa h (fun _ => hz) rfl ⟨rfl, rfl, rfl⟩
  case rnds => exact fun h => exec_isa h (fun _ => hz) rfl ⟨rfl, rfl, rfl⟩
  case asum => exact fun h => exec_isa h (fun _ => hz) rfl ⟨rfl, rfl, rfl⟩
  case sext => exact fun h => exec_isa h (fun _ => hz) rfl ⟨ws_rept .., ws_pc .., ws_wr1 ..⟩
  case aclr => exact fun h => exec_isa h nofun rfl ⟨rfl, rfl, rfl⟩
  case aload => exact fun h => exec_isa h nofun rfl ⟨rfl, rfl, rfl⟩

/-- Settles O6: lane by lane, with no accumulator read and the bank kept but for VEXTL's result. -/
theorem solverVectorResults : Obligations.SolverVectorResults := by
  intro s c bg w b x y put sat
  refine ⟨?add, ?sub, ?conj, ?neg, ?sel, ?perm, ?bcast, ?ins, ?extl, ?shr⟩
  case extl => exact fun h => exec_isa h nofun rfl ⟨ws_rept .., ws_pc .., ws_wr1 ..⟩
  all_goals exact fun h => exec_isa h nofun rfl ⟨rfl, rfl, rfl⟩

end

section
/-! Control flow, special functions, the transfer and the library of the solver (Table 17-4, R482, R488). -/

namespace Sys2Proof.Laws

open Sys2Proof Sys2Proof.Machine Sys2Proof.Claims

variable {s : State} {c : Fin 9} {bg : Bool} {w : BitVec 32}

/-- An instruction that sets PC itself, and meets no fault. -/
theorem exec_jump {o : IsaOp} {f : State → Bank → IsaRes} {s' : State} {b' : Bank} {more : Nat} (h : Issue s c bg w o)
    (hf : f s (bankOf s c bg) = .inr (s', b', more)) (ha : o.accR = false) (hw : o.accW = false) (hb : b'.wr1 = (bankOf s c bg).wr1) :
    (.next (s.isa c bg w o f true) : R) = .next (jump s' c bg b' (o.cost + more)) :=
  congrArg Host.Outcome.next (next_jump s c bg w o f s' b' more h hf ha hw hb)

/-- The bank that an instruction which sets PC itself leaves is the one that it has computed, but for the noted writers. -/
theorem bankOf_isa {o : IsaOp} {f : State → Bank → IsaRes} {s' : State} {b' : Bank} {more : Nat} (h : Issue s c bg w o)
    (hf : f s (bankOf s c bg) = .inr (s', b', more)) :
    bankOf (s.isa c bg w o f true) c bg = { b' with wr2 := (bankOf s c bg).wr1, wr1 := if o.accW then some (BitVec.ofFin (aD w)) else none } := by
  rw [isa_of_issue _ _ _ _ _ _ _ h, hf]
  cases bg <;> simp [State.modCore, vmod, SolCore.setBank, SolCore.bank, -Fin.getElem_fin]

-- The library

theorem ws_s_same (b : Bank) {i : Fin 16} (h : i ≠ 0) (v) : (b.ws i v).s[i] = v := by
  rw [Bank.ws, if_neg h]; exact vset_same ..

theorem ws_s_other (b : Bank) {i j : Fin 16} (h : j ≠ i) (v) : (b.ws i v).s[j] = b.s[j] := by
  unfold Bank.ws
  split
  · rfl
  · exact vset_other _ h _

/-- Registers that a library routine may not change (R488). -/
theorem afterLib_keep (b : Bank) (n : Nat) :
    (∀ i : Fin 16, 8 ≤ i.val → (b.afterLib n).s[i] = b.s[i]) ∧ (∀ i : Fin 16, i = 0 ∨ 8 ≤ i.val ∧ i ≠ 15 → (b.afterLib n).x[i] = b.x[i])
    ∧ ∀ i : Fin 16, 8 ≤ i.val → i.val ≤ 13 → (b.afterLib n).xcfg[i] = b.xcfg[i] := by
  refine ⟨fun i h => ?_, fun i h => ?_, fun i h h' => ?_⟩ <;> simp only [Bank.afterLib, Fin.getElem_fin, Vector.getElem_ofFn]
  · exact if_neg (by omega)
  · exact if_neg (by omega)
  · exact if_pos ⟨h, h'⟩

/-- What the library's contract says holds of the bank that a routine leaves, with whatever status it answers. -/
theorem afterLibrary_bank (b : Bank) (n : Nat) (o : Option (BitVec 32)) (v v' : Option (BitVec 2)) :
    AfterLibrary b { (match o with | some x => ((b.ws 15 ((b.pc + 1).setWidth 32)).afterLib n).ws 1 x | none => (b.ws 15 ((b.pc + 1).setWidth 32)).afterLib n) with
      pc := b.pc + 1, wr1 := v, wr2 := v' } := by
  obtain ⟨hs, hx, hc⟩ := afterLib_keep (b.ws 15 ((b.pc + 1).setWidth 32)) n
  rw [ws_x] at hx
  rw [ws_xcfg] at hc
  have hlink := (hs 15 (by decide)).trans (ws_s_same b (by decide) ((b.pc + 1).setWidth 32))
  have hkeep (i : Fin 16) (h : 8 ≤ i.val) (h' : i.val ≤ 14) := (hs i h).trans (ws_s_other b (i := 15) (by rintro rfl; exact absurd h' (by decide)) ((b.pc + 1).setWidth 32))
  have hrept : ((b.ws 15 ((b.pc + 1).setWidth 32)).afterLib n).rept = b.rept := ws_rept b 15 ((b.pc + 1).setWidth 32)
  generalize (b.ws 15 ((b.pc + 1).setWidth 32)).afterLib n = b' at hs hx hc hlink hkeep hrept ⊢
  have hcx (i : Fin 16) (h : 8 ≤ i.val) (h' : i.val ≤ 13) := And.intro (hx i (.inr ⟨h, by rintro rfl; exact absurd h' (by decide)⟩)) (hc i h h')
  cases o with
  | none => exact ⟨rfl, hrept, hlink, hx 0 (.inl rfl), hx 14 (.inr (by decide)), hkeep, hcx⟩
  | some u =>
    refine ⟨rfl, (ws_rept ..).trans hrept, (ws_s_other _ (by decide) u).trans hlink, ?_, ?_,
      fun i h h' => (ws_s_other _ (by rintro rfl; exact absurd h (by decide)) u).trans (hkeep i h h'), ?_⟩ <;> simp only [ws_x, ws_xcfg]
    · exact hx 0 (.inl rfl)
    · exact hx 14 (.inr (by decide))
    · exact hcx

/-- A routine whose argument block is in the region runs to its return. -/
theorem libCall_of_inRegion (b : Bank) (t : Nat) (h : inRegion false b.x[0].toNat 64 = true) :
    ∃ s' b' more, s.libCall c b t = .inr (s', b', more) ∧ ∀ v v', AfterLibrary b { b' with wr1 := v, wr2 := v' } := by
  unfold State.libCall
  extract_lets x0 n pc b1 r res x14 s1 k s2 h1 h2 b2 b3
  rw [if_neg (by simp [x0, -Fin.getElem_fin, h])]
  clear_value r res s1 k s2 h1 h2
  exact ⟨_, _, _, rfl, fun v v' => afterLibrary_bank b k res.2 v v'⟩

/-- A CALL of the library from a user kernel keeps what the library's contract keeps. -/
theorem solCall_library (h : Issue s c bg w { cls := 0, op := 2, zero := 0x00FFC000 }) (hk : (s.sol.cores[c]).kernel bg ≠ 0)
    (hl : libEntry (w.extractLsb' 0 14).toNat = true) (hreg : inRegion false ((bankOf s c bg).x[0]).toNat 64 = true) :
    ∃ t, exec (.solCall c bg w) s = .next t ∧ AfterLibrary (bankOf s c bg) (bankOf t c bg) := by
  obtain ⟨s', b', more, hcall, hlib⟩ := libCall_of_inRegion (s := s) (c := c) (bankOf s c bg) (w.extractLsb' 0 14).toNat hreg
  refine ⟨_, rfl, ?_⟩
  rw [bankOf_isa h ((if_pos ⟨hk, hl⟩).trans hcall)]
  exact hlib _ _

-- Where PC goes

theorem solBr_of_issue (h : Issue s c bg w { cls := 0, op := 1, zero := 0 }) :
    (condOf (fF w 20 4) ((bankOf s c bg).rs (w.extractLsb' 16 4).toFin) = some false →
      exec (.solBr c bg w) s = .next (jump s c bg { bankOf s c bg with pc := (bankOf s c bg).pc + 1 } 1))
    ∧ (condOf (fF w 20 4) ((bankOf s c bg).rs (w.extractLsb' 16 4).toFin) = some true →
      pcOk ((s.sol.cores[c]).kernel bg) ((bankOf s c bg).pc + 1 + (w.extractLsb' 0 16).setWidth 14).toNat = true →
      exec (.solBr c bg w) s = .next (jump s c bg { bankOf s c bg with pc := (bankOf s c bg).pc + 1 + (w.extractLsb' 0 16).setWidth 14 } 2)) := by
  refine ⟨fun hc => exec_jump (more := 0) h ?_ rfl rfl rfl, fun hc hpc => exec_jump (more := 1) h ?_ rfl rfl rfl⟩
  · rw [hc]
  · rw [hc]
    exact if_pos hpc

/-- REPT's form and reserved field are 0 where the twelve bits that hold them are. -/
theorem fF_rept_zero (h : fF w 12 12 = 0) : fF w 20 4 = 0 ∧ fF w 12 8 = 0 := by
  simp only [fF, BitVec.extractLsb'_toNat, Nat.shiftRight_eq_div_pow] at h ⊢
  omega

-- The transfer

/-- What the transfer leaves in a core: the memory of its context undefined. -/
def xferCore (bg : Bool) (m : SolCore) : SolCore :=
  { m with data := m.data.filter fun x => decide (x.1 < 32768) == bg
           genF := if bg then m.genF else m.genF + 1, genB := if bg then m.genB + 1 else m.genB
           zeroF := if bg then m.zeroF else 0, zeroB := if bg then 0 else m.zeroB }

/-- The core whose context has retired an instruction keeps its memory. -/
theorem retire_memory (s : State) (b : Bank) (cyc : Nat) :
    let m := (retire s c bg b cyc).sol.cores[c]
    let m' := s.sol.cores[c]
    m.data = m'.data ∧ m.genF = m'.genF ∧ m.genB = m'.genB ∧ m.zeroF = m'.zeroF ∧ m.zeroB = m'.zeroB := by
  cases bg <;> simp [retire, State.modCore, vmod, -Fin.getElem_fin]

theorem modCore_core (s : State) (f : SolCore → SolCore) : (s.modCore c f).sol.cores[c] = f s.sol.cores[c] := vset_same ..

/-- What an update of one core does to its state is all that counts of it. -/
theorem modCore_congr {f g : SolCore → SolCore} (h : f s.sol.cores[c] = g s.sol.cores[c]) : s.modCore c f = s.modCore c g := by
  rw [State.modCore, State.modCore, vmod, vmod, h]

/-- A filter that keeps the keys asked for changes no read of them. -/
theorem cellGet_filter {α : Type} {k : Nat} {p : Nat → Bool} (hp : p k = true) : ∀ l : List (Nat × α), cellGet k (l.filter fun x => p x.1) = cellGet k l
  | [] => rfl
  | (j, y) :: r => by
    rw [List.filter_cons]
    by_cases hj : j = k
    · subst hj
      rw [if_pos hp]
      simp only [cellGet, if_true]
    · split
      · simp only [cellGet, if_neg hj]
        exact cellGet_filter hp r
      · simp only [cellGet, if_neg hj]
        exact cellGet_filter hp r

end Sys2Proof.Laws

open Sys2Proof.Machine Sys2Proof.Claims Sys2Proof.Laws

/-- Settles O7: by where each sets PC; a CALL of the library by what its routine leaves in the bank. -/
theorem solverControlAndFunctions : Obligations.SolverControlAndFunctions := by
  intro s c bg w b k sfn
  refine ⟨?nop, ?br, ?call, ?lib, ?ret, ?rept, ?reptS, ?fin, ?trap, ?srsq, ?srec, ?snorm, ?xfer⟩
  case nop => exact fun h => exec_isa h nofun rfl ⟨rfl, rfl, rfl⟩
  case br => exact solBr_of_issue
  case call =>
    intro h hpc hk
    refine exec_jump (more := 1) h ?_ rfl rfl rfl
    exact (if_neg fun h' => hk.elim h'.1 fun hl => Bool.false_ne_true (hl.symm.trans h'.2)).trans (if_pos hpc)
  case lib => exact solCall_library
  case ret => exact fun h hpc => exec_jump (more := 1) h (if_pos hpc) rfl rfl rfl
  case rept =>
    intro h h0
    have hlt : fF w 0 12 < 4096 := BitVec.isLt _
    refine exec_jump (more := 0) h ?_ rfl rfl rfl
    rw [(fF_rept_zero h0).1, (fF_rept_zero h0).2]
    exact if_neg (by omega)
  case reptS =>
    rintro h h1 h0 _ rfl hpos hle
    refine exec_jump (more := 0) h ?_ rfl rfl rfl
    rw [h1, h0]
    exact if_neg fun h' => h'.elim (Nat.ne_of_gt hpos) (Nat.not_lt.mpr hle)
  case fin =>
    intro h h1
    refine exec_isa h nofun ?_ ⟨rfl, rfl, rfl⟩
    refine (if_neg (Nat.not_le.mpr h1)).trans ?_
    cases bg <;> rfl
  case trap => exact fun h => congrArg Host.Outcome.next (isa_of_issue s c bg w _ _ _ h)
  case srsq => exact fun h => exec_isa h nofun rfl ⟨ws_rept .., ws_pc .., ws_wr1 ..⟩
  case srec => exact fun h => exec_isa h nofun rfl ⟨ws_rept .., ws_pc .., ws_wr1 ..⟩
  case snorm => exact fun h => exec_isa h nofun rfl ⟨ws_rept .., ws_pc .., ws_wr1 ..⟩
  case xfer =>
    intro h
    obtain ⟨hd, hgF, hgB, hzF, hzB⟩ := retire_memory (c := c) (bg := bg) (s.modCore c (xferCore bg)) b 1
    rw [modCore_core] at hd hgF hgB hzF hzB
    refine ⟨retire (s.modCore c (xferCore bg)) c bg b 1, exec_isa h nofun rfl ⟨rfl, rfl, rfl⟩, ?_, fun i hi => ?_⟩
    · refine congrArg (retire · c bg b 1) (modCore_congr ?_)
      rw [hd, hgF, hgB, hzF, hzB]
      rfl
    · have hkeep : cellGet i (s.sol.cores[c].data.filter fun x => decide (x.1 < 32768) == bg) = cellGet i s.sol.cores[c].data :=
        cellGet_filter (p := fun k => decide (k < 32768) == bg) (by rw [hi]; exact beq_self_eq_true bg) _
      simp only [State.solWord, SolCore.zeroAt, hd, hgF, hgB, hzF, hzB, xferCore, hkeep]
      cases bg
      · simp [of_decide_eq_false hi]
      · simp [of_decide_eq_true hi]

end

section
/-! Reads and writes of control and status registers by command (R15, R16, R427), NOP, AIR_RELEASE. -/

namespace Sys2Proof.Laws

open Sys2Proof Sys2Proof.Machine Sys2Proof.Claims

/-- A read of a register that is there and not gated answers its fields and clears what a read clears. -/
theorem cmdRegRead_ok {s : State} (c : CmdRef) {a : Nat} {fs : List Fld} (hsome : (s.regFlds a).isSome = true) (hgate : s.gatedReg a = false)
    (hfs : s.rcView.regFlds a = some fs) : s.cmdRegRead c a = ((readOf s fs).2.regClear a).complete c .ok (readOf s fs).1 := by
  obtain ⟨fs', hfs'⟩ := Option.isSome_iff_exists.mp hsome
  rw [State.cmdRegRead, hfs']
  simp only [hgate, State.regRead, hfs, Option.map_some, Bool.false_eq_true, if_false]
  rfl

/-- A write of a register whose clock runs answers as the register does. -/
theorem cmdRegWrite_ok {s : State} (c : CmdRef) {a : Nat} (v mask : BitVec 32) (hgate : s.gatedReg a = false) :
    s.cmdRegWrite c a v mask = (s.regWrite a v mask).2.complete c (s.regWrite a v mask).1 := by
  rw [State.cmdRegWrite, hgate]
  rfl

/-- While the control bus is in its limit, a write of the air offset is of the value written. -/
theorem regWrite_offset {s : State} (hbus : s.busLost = false) (v mask : BitVec 32) : s.regWrite 0x1004 v mask = s.writeOffset v mask := by
  rw [State.regWrite, hbus]
  rfl

/-- In NO_TIME a write of the air offset sets the masked bits alone. -/
theorem writeOffset_noTime {s : State} (hair : s.ym.air = .noTime) (v mask : BitVec 32) :
    s.writeOffset v mask = (.ok, { s with ym := { s.ym with offset := (s.ym.offset &&& ~~~mask) ||| (v &&& mask) } }) := by
  rw [State.writeOffset, if_neg (by rw [hair]; decide)]
  exact congrArg (Prod.mk _) (if_neg (by show ¬ s.ym.air = _; rw [hair]; decide))

/-- Every register of the table of named reads is there, its instruction reads it, and clears what the table says. -/
theorem namedReads_row {p} (hp : p ∈ namedReads) : (∀ s, (State.regFlds s p.2.1).isSome = true) ∧ (∀ c s, exec (p.1 c) s = .next (s.readNamed c p.2.1))
    ∧ ∀ s : State, p.2.2 s = s.regClear p.2.1 := by
  simp only [namedReads, List.mem_cons, List.not_mem_nil, or_false] at hp
  rcases hp with rfl | rfl | rfl | rfl | rfl | rfl | rfl | rfl | rfl | rfl <;> exact ⟨fun _ => rfl, fun _ _ => rfl, fun _ => rfl⟩

end Sys2Proof.Laws

open Sys2Proof.Machine Sys2Proof.Claims Sys2Proof.Laws

/-- Settles O9: each named read is the read of its register, which is always there. -/
theorem readClearRegisters : Obligations.ReadClearRegisters := by
  intro p hp s c x hx ha hgate
  obtain ⟨hsome, hexec, hclear⟩ := namedReads_row hp
  obtain ⟨fs, hfs⟩ := Option.isSome_iff_exists.mp (hsome s.rcView)
  refine ⟨fs, hfs, ?_⟩
  rw [hexec, hclear, State.readNamed, served_cmd hx (fun q => regAddr q == p.2.1) _ (beq_iff_eq.mpr ha), cmdRegRead_ok _ (hsome s) hgate hfs]

/-- Settles O10: the commands act on the register that they name; the offset's write by the state of air time. -/
theorem basicCommands : Obligations.BasicCommands := by
  intro s c x
  refine ⟨?nop, ?read, ?write, ?meter, ?offset, ?release⟩
  case nop => exact fun hx => congrArg Host.Outcome.next (served_cmd hx _ _ rfl)
  case read =>
    exact fun hx hgate fs hsome hfs => congrArg Host.Outcome.next ((served_cmd hx _ _ rfl).trans (cmdRegRead_ok _ hsome hgate hfs))
  case write => exact fun hx hgate => congrArg Host.Outcome.next ((served_cmd hx _ _ rfl).trans (cmdRegWrite_ok _ _ _ hgate))
  case meter =>
    intro hx hbus hgate ha
    refine congrArg Host.Outcome.next ((served_cmd hx _ _ rfl).trans ?_)
    rw [ha, cmdRegWrite_ok _ _ _ hgate]
    simp only [State.regWrite, hbus]
    rfl
  case offset =>
    intro hx hbus hgate ha hair
    refine congrArg Host.Outcome.next ((served_cmd hx _ _ (by simp [ha])).trans ?_)
    rw [cmdRegWrite_ok _ _ _ hgate, regWrite_offset hbus, writeOffset_noTime hair]
  case release =>
    intro hx hair htb
    refine congrArg Host.Outcome.next ((served_cmd hx _ _ rfl).trans ?_)
    simp only [hair, htb, if_true]

end

section
/-! The fault commands, the setup of rings and the flow of commands through them (R416 to R428, R442 to R448). -/

namespace Sys2Proof.Laws

open Sys2Proof Sys2Proof.Machine Sys2Proof.Claims

variable {s : State}

/-- Outside the safe state, FAULT_N says whether the power module holds a fault, and nothing else changes but the pin. -/
theorem setFaultN_of_unsafe (h : s.host.top.safe = false) :
    s.setFaultN.pkg.faultN = s.pwr.fault ∧ s.setFaultN.host = s.host ∧ s.setFaultN.pwr = s.pwr ∧ s.setFaultN.ym = s.ym ∧ s.setFaultN.mode = s.mode
      ∧ s.setFaultN.radio = s.radio := by
  unfold State.setFaultN
  extract_lets low
  have hlow : low = s.pwr.fault := by simp only [low, h, Bool.false_or]
  split
  · next hn => exact ⟨hn.trans hlow, rfl, rfl, rfl, rfl, rfl⟩
  · exact ⟨hlow, rfl, rfl, rfl, rfl, rfl⟩

/-- The first use of carriers concerns the carriers alone. -/
theorem firstUses_keep (p : State → Fin 8 → Prop) [∀ s k, Decidable (p s k)] (l : List (Fin 8)) (s : State) :
    let t := l.foldl (fun s k => if p s k then s.firstUse k else s) s
    t.host = s.host ∧ t.pkg = s.pkg ∧ t.pwr = s.pwr ∧ t.mode = s.mode ∧ t.radio = s.radio := by
  refine List.foldlRecOn l _ (motive := fun t : State => t.host = s.host ∧ t.pkg = s.pkg ∧ t.pwr = s.pwr ∧ t.mode = s.mode ∧ t.radio = s.radio)
    ⟨rfl, rfl, rfl, rfl, rfl⟩ fun t ht k _ => ?_
  split
  · exact ht
  · exact ht

/-- A bit below bit 31 of a value of which only those are written. -/
theorem written_bit (v : BitVec 32) {i : Nat} (h : i < 31) : ((0 &&& ~~~0x7FFFFFFF) ||| (v &&& 0x7FFFFFFF)).getLsbD i = v.getLsbD i := by
  have hm : (0x7FFFFFFF : BitVec 32).getLsbD i = true := by
    revert i
    decide
  have h0 : (0 : BitVec 32) &&& ~~~0x7FFFFFFF = 0#32 := by decide
  rw [h0, BitVec.zero_or, BitVec.getLsbD_and, hm, Bool.and_true]

/-- The bits below bit 31 of a value of which only those are written. -/
theorem written_extract (v : BitVec 32) (lo n : Nat) (h : lo + n ≤ 31) : ((0 &&& ~~~0x7FFFFFFF) ||| (v &&& 0x7FFFFFFF)).extractLsb' lo n = v.extractLsb' lo n := by
  refine BitVec.eq_of_getLsbD_eq fun i hi => ?_
  rw [BitVec.getLsbD_extractLsb', BitVec.getLsbD_extractLsb', written_bit v (by omega)]

/-- What an update of one ring does to its state is all that counts of it. -/
theorem modRing_congr {n : Fin 16} {f g : Ring → Ring} (h : f s.host.rings[n] = g s.host.rings[n]) : s.modRing n f = s.modRing n g := by
  rw [State.modRing, State.modRing, vmod, vmod, h]

end Sys2Proof.Laws

open Sys2Proof Sys2Proof.Machine Sys2Proof.Claims Sys2Proof.Laws

/-- Settles O12: the safe state is left with FAULT_N and the resume tick set; the rest is one command's effect each. -/
theorem faultControlCommands : Obligations.FaultControlCommands := by
  intro s c x
  refine ⟨?safe, ?queue, ?read⟩
  case safe =>
    intro hx hop hsafe hheld
    refine ⟨_, congrArg Host.Outcome.next ((served_cmd hx _ _ (by rw [opIs, hop]; rfl)).trans
      ((if_neg (by rw [hsafe]; decide)).trans (if_neg (by rw [hheld]; decide)))), ?_⟩
    obtain ⟨hfault, hhost, hpwr, hym, hmode, hradio⟩ := setFaultN_of_unsafe (s := { s with host := { s.host with top := { s.host.top with safe := false } } }) rfl
    generalize ({ s with host := { s.host with top := { s.host.top with safe := false } } } : State).setFaultN = u at *
    obtain ⟨h1, h2, h3, h4, h5⟩ := firstUses_keep (fun s k => s.ofdm.carriers[k].cfg.isSome = true) (List.finRange 8)
      { u with pwr := { u.pwr with resumeAt := some (ceilTo frameTicks (u.ym.now + 983040)), resumeWake := false } }
    refine ⟨?_, ?_, ?_, ?_, ?_⟩
    · rw [h1]; exact congrArg (·.top.safe) hhost
    · rw [h2]; exact hfault
    · rw [h3]; exact congrArg (fun y => some (ceilTo frameTicks (y.now + 983040))) hym
    · rw [h4]; exact hmode
    · rw [h5]; exact hradio
  case queue => exact fun hx hop => congrArg Host.Outcome.next (served_cmd hx _ _ (by rw [opIs, hop]; rfl))
  case read =>
    intro hx hread hsel
    refine congrArg Host.Outcome.next ((served_cmd hx _ _ rfl).trans ?_)
    rw [hread, hsel]
    rfl

/-- Settles O13: each write is taken as written where no reserved bit is set, and the ring's state decides. -/
theorem ringSetup : Obligations.RingSetup := by
  intro s n v
  refine ⟨?enable, ?disable, ?drained, ?evtEnable, ?evtDisable, ?base⟩
  case enable =>
    intro hst hv hres hlo hhi
    refine congrArg Host.Outcome.next ((if_pos ⟨hst, hv⟩).trans ?_)
    rw [wrVal_clean _ _ _ _ _ (by rw [BitVec.and_assoc]; exact hres)]
    simp only [written_extract v 0 4 (by decide), written_extract v 25 5 (by decide), written_bit v (i := 30) (by decide), hlo, hhi, and_self, if_true]
    rfl
  case disable =>
    intro hst hv
    refine congrArg Host.Outcome.next ((if_neg (by rw [hv]; decide)).trans ?_)
    rw [hst]
    rfl
  case drained => exact fun hst hout => congrArg Host.Outcome.next (if_pos ⟨hst, hout⟩)
  case evtEnable =>
    intro hen hv hres hlo hhi
    refine congrArg Host.Outcome.next ((if_neg (by rw [hen, hv]; decide)).trans ?_)
    rw [wrVal_clean _ _ _ _ _ (by rw [BitVec.and_assoc]; exact hres)]
    simp only [written_extract v 0 5 (by decide), written_extract v 25 5 (by decide), written_extract v 16 9 (by decide), hlo, hhi, and_self, if_true]
  case evtDisable =>
    intro hen hv
    exact ⟨_, congrArg Host.Outcome.next (if_neg (by rw [hv, hen]; decide)), rfl, rfl, rfl⟩
  case base =>
    intro hst
    have ha : (BitVec.ofNat 16 (0x1004 + 0x40 * n.val)).toNat = 0x1004 + 0x40 * n.val := Nat.mod_eq_of_lt (by omega)
    have hn : toFin 16 ((0x1004 + 0x40 * n.val - 0x1000) / 0x40) = some n := by
      have hdiv : (0x1004 + 0x40 * n.val - 0x1000) / 0x40 = n.val := by omega
      rw [hdiv]
      exact dif_pos n.isLt
    have hoff : (0x1004 + 0x40 * n.val) % 0x40 = 0x04 := by omega
    refine congrArg Host.Outcome.next ?_
    rw [ha, if_pos (by omega), hn]
    refine (if_neg (not_not_intro hst)).trans ?_
    rw [hoff]
    rfl

/-- Settles O14: by the conditions under which each entry is fetched, starts and completes. -/
theorem commandFlow : Obligations.CommandFlow := by
  intro s n
  refine ⟨?fetch, ?start, ?done⟩
  case fetch =>
    intro e cplErr hserved hne hroom hst hrel
    refine congrArg Host.Outcome.next ((if_pos ⟨hserved, hne, hroom, .inl hst⟩).trans (modRing_congr ?_))
    rw [hrel]
    rfl
  case start =>
    intro seq x p hslot hserved hstart hind hok
    refine congrArg Host.Outcome.next ?_
    rw [hslot]
    refine (if_neg (by rw [hserved, hstart]; decide)).trans ?_
    rw [hind]
    exact if_pos hok
  case done =>
    intro seq x st res hslot hfin hq
    refine congrArg Host.Outcome.next ?_
    obtain ⟨⟩ := x
    cases hfin
    rw [hslot]
    exact if_neg (by rw [hq]; decide)

end

section
/-! Doorbells, the event ring, bad accesses, fault recoveries and the links (R15, R22, R410 to R442, R570). -/

namespace Sys2Proof.Laws

open Sys2Proof Sys2Proof.Machine Sys2Proof.Claims

variable {s : State}

/-- A device that is ACTIVE and enters nothing is woken by nothing (R403). -/
theorem wake_of_awake (h : Awake s) (src port : Nat) : s.wake src port = s := by
  obtain ⟨hst, hstep⟩ := h
  have hw : s.wakeState = .active := by rw [State.wakeState, State.entering, hstep]; exact hst
  refine if_pos ?_
  rw [State.wakeOk, hw]
  rfl

/-- What a write with free values may change is the free value used next alone. -/
theorem wrVal_state (s : State) (old v mask reserved : BitVec 32) : ∃ n, (s.wrVal old v mask reserved).2 = { s with free := n } := by
  unfold State.wrVal
  split
  · exact ⟨_, rfl⟩
  · exact ⟨_, rfl⟩

theorem awake_wrVal (h : Awake s) (old v mask reserved : BitVec 32) : Awake (s.wrVal old v mask reserved).2 := by
  obtain ⟨n, hn⟩ := wrVal_state s old v mask reserved
  rw [hn]
  exact h

theorem wrVal_host (s : State) (old v mask reserved : BitVec 32) : (s.wrVal old v mask reserved).2.host = s.host := by
  obtain ⟨n, hn⟩ := wrVal_state s old v mask reserved
  rw [hn]

/-- A register that is there reads as its fields, and a read clears it. -/
theorem barRead_ok {a : Nat} {fs : List Fld} (h : s.rcView.regFlds a = some fs) :
    s.barRead a = ((readOf s fs).2.regClear a).emit (.barRead (readOf s fs).1) := by
  rw [State.barRead, State.regRead, h]
  rfl

/-- While a released ring has entries left to fetch, its release goes on. -/
theorem releaseDone_of_left {n : Fin 16} {q : Release} (h : s.host.rings[n].release = some q) (hl : 0 < q.left) : s.releaseDone n = s := by
  rw [State.releaseDone, h]
  exact if_neg (by omega)

end Sys2Proof.Laws

open Sys2Proof Sys2Proof.Machine Sys2Proof.Claims Sys2Proof.Laws

/-- Settles O15: a device that is awake takes each doorbell by its ring's state and places. -/
theorem doorbells : Obligations.Doorbells := by
  intro s n v hawake r w e q i
  refine ⟨?tail, ?cplHead, ?release, ?fence, ?evtHead⟩
  case tail =>
    intro hst hi hle
    refine congrArg Host.Outcome.next ?_
    rw [wake_of_awake (awake_wrVal hawake ..), if_neg hst]
    refine (if_neg (by rw [not_or]; exact ⟨Nat.not_le.mpr hi, Nat.not_lt.mpr hle⟩)).trans ?_
    rw [State.modRing, wrVal_host]
  case cplHead =>
    intro hst hi hne k hk hle
    refine congrArg Host.Outcome.next ?_
    rw [wake_of_awake (awake_wrVal hawake ..)]
    have hhost := wrVal_host s 0 v 0xFFFFFFFF 0xFFFFF000
    simp only [hhost]
    refine (if_neg hst).trans ?_
    rw [if_neg (show ¬ i = r.hostHead from hne), ← hk]
    refine (if_neg (by rw [not_or]; exact ⟨Nat.not_le.mpr hi, Nat.not_lt.mpr hle⟩)).trans ?_
    rw [State.modRing, hhost]
  case release =>
    intro hst hq hrel hleft
    have hqs : Awake q.2 ∧ q.2.host = s.host := by
      unfold q
      split
      · exact ⟨hawake, rfl⟩
      · exact ⟨hawake, rfl⟩
    refine congrArg Host.Outcome.next ?_
    have hdone (u : State) (hu : u.host = s.host) :
        (u.modRing n fun r => { r with release := some { left := (r.tail + r.size - r.head) % r.size, fenced := 0 } }).releaseDone n
          = u.modRing n fun r => { r with release := some { left := (r.tail + r.size - r.head) % r.size, fenced := 0 } } := by
      refine releaseDone_of_left (q := { left := (r.tail + r.size - r.head) % r.size, fenced := 0 }) ?_ hleft
      rw [State.modRing, hu]
      exact congrArg Ring.release (vset_same ..)
    have hw := wake_of_awake hqs.1 7 0
    have hd := hdone q.2 hqs.2
    unfold q at hw hd hqs hq
    rw [hw, hd, hqs.2, if_neg (by rw [not_or, not_or, Classical.not_not, Classical.not_not]; exact ⟨hst, hq, by rw [hrel]; decide⟩), State.modRing, hqs.2]
  case fence =>
    intro x q hrel hfind
    refine ⟨_, rfl, ?_⟩
    rw [hrel, hfind]
    rfl
  case evtHead =>
    intro hen h hh hlt hne k hk hle
    refine congrArg Host.Outcome.next ?_
    rw [wake_of_awake (awake_wrVal hawake ..)]
    have hhost := wrVal_host s 0 v 0xFFFFFFFF 0xFFFF0000
    simp only [hhost, hen, Bool.not_true, Bool.false_eq_true, if_false]
    rw [if_neg (show ¬ (e.1.extractLsb' 0 16).toNat = s.host.evt.hostHead from hh ▸ hne), ← hh, ← hk]
    exact if_neg (by rw [not_or]; exact ⟨Nat.not_le.mpr hlt, Nat.not_lt.mpr hle⟩)

/-- Settles O16: the ring's next place takes the first event; the rest is one effect each. -/
theorem eventsAndRegisters : Obligations.EventsAndRegisters := by
  intro s r
  refine ⟨?entry, ?coalesce, ?bad, ?top, ?evt⟩
  case entry =>
    intro t e q hen hstop hroom hq hd he hcoal
    refine congrArg Host.Outcome.next ((if_neg ?_).trans ?_)
    · rw [hen, hstop]
      simpa using hroom
    · rw [show s.host.evt.queue = .ev t e :: q from hq]
      have hurgent : (e.type == 0x0D || (e.type == 0x0E && e.body.head? == some 1)) = false := by
        rw [beq_eq_false_iff_ne.mpr hd, beq_eq_false_iff_ne.mpr he]
        rfl
      refine (if_neg Bool.false_ne_true).trans ?_
      simp only [decide_eq_true_eq]
      exact if_neg (by rw [hurgent, not_or]; exact ⟨Bool.false_ne_true, Nat.not_le.mpr hcoal⟩)
  case coalesce =>
    intro t ht hdue
    refine congrArg Host.Outcome.next ?_
    rw [show s.host.evt.oldest = some t from ht]
    exact if_pos hdue
  case bad =>
    intro bar2 a len ha
    exact congrArg Host.Outcome.next (if_neg fun h => ha h.2.1)
  case top => exact ⟨_, rfl, congrArg Host.Outcome.next (barRead_ok rfl)⟩
  case evt => exact ⟨_, rfl, congrArg Host.Outcome.next (barRead_ok rfl)⟩

/-- Settles O17: recoveries by the fault that is next or running; the links by their levels. -/
theorem recoveriesAndLink : Obligations.RecoveriesAndLink := by
  intro s
  refine ⟨?start, ?complete, rfl, rfl, ?perst, rfl, ?linkUp, ?l12In, ?l12Out⟩
  case start =>
    intro f hf hlev hever
    refine congrArg Host.Outcome.next ?_
    rw [hf]
    simp only [hever, Nat.ne_of_gt hlev, Bool.false_eq_true, false_and, if_false]
  case complete =>
    intro f hf hdue hrec
    refine congrArg Host.Outcome.next ?_
    rw [hf]
    exact if_pos ⟨hdue, hrec⟩
  case perst =>
    intro hup
    refine ⟨_, congrArg Host.Outcome.next (if_pos hup), rfl, rfl, fun n => ?_, rfl⟩
    simp only [Fin.getElem_fin, Vector.getElem_map]
    exact ⟨rfl, rfl⟩
  case linkUp => exact fun hvin hperst => congrArg Host.Outcome.next (if_pos ⟨hvin, hperst⟩)
  case l12In => exact fun hup hl => congrArg Host.Outcome.next (if_pos ⟨hup, by rw [hl]; decide⟩)
  case l12Out => exact fun hl => congrArg Host.Outcome.next (if_pos hl)

end

section
/-! Status commands (R425): each is the response of its records, once its selection is good. -/

namespace Sys2Proof.Laws

open Sys2Proof Sys2Proof.Machine Sys2Proof.Claims

variable {s : State} {c : Cmd} {x : Slot}

/-- A status command that selects no resource. -/
theorem none_ok {op : BitVec 8} (h : Served s c op x) (hs : noneOf s x = true) (f : Slot → State) :
    s.hostCmd c op anyOp (fun x => if x.select ≠ 0 then s.complete c.ref .badArg else f x) = f x := by
  rw [served_cmd h _ _ rfl]
  exact if_neg (not_not_intro (beq_iff_eq.mp hs))

/-- A number within its range is taken as it is. -/
theorem within_ok {lo n v : Nat} (h : lo ≤ v) (h' : v ≤ n) : s.within lo n v = (v, s) := if_pos ⟨h, h'⟩

/-- Entries of the channel book: header and, where asked for, values. -/
theorem bookRecords (f : State → BookEntry → Bytes × State) (g : BookEntry → Bytes) (l : List BookEntry) (a : Bytes × State) :
    l.foldl (fun (a : Bytes × State) e => let h := f a.2 e; (a.1 ++ h.1 ++ g e, h.2)) a
      = l.foldl (fun (a : Bytes × State) e => let b := (fun (s : State) e => let h := f s e; (h.1 ++ g e, h.2)) a.2 e; (a.1 ++ b.1, b.2)) a := by
  simp only [List.append_assoc]

/-- Every row of the table of status commands is the response of its records. -/
theorem statusTable_row {p} (hp : p ∈ statusTable) (hx : Served s c p.op x) (hok : p.ok s x = true) :
    exec (p.row c) s = .next ((p.recs x s).2.respond c x (p.recs x s).1 (p.clear x)) := by
  simp only [statusTable, List.mem_cons, List.not_mem_nil, or_false] at hp
  rcases hp with rfl | rfl | rfl | rfl | rfl | rfl | rfl | rfl | rfl | rfl | rfl | rfl | rfl | rfl | rfl | rfl | rfl | rfl | rfl | rfl | rfl | rfl
  · exact congrArg Host.Outcome.next (status_ok hx hok _)
  · exact congrArg Host.Outcome.next (status_ok hx hok _)
  · exact congrArg Host.Outcome.next (status_ok hx hok _)
  · exact congrArg Host.Outcome.next (status_ok hx hok _)
  · exact congrArg Host.Outcome.next (status_ok hx hok _)
  · refine congrArg Host.Outcome.next ((status_ok hx hok _).trans ?_)
    dsimp only
    rw [bookRecords State.bookHeader]
    rfl
  · exact congrArg Host.Outcome.next (status_ok hx hok _)
  · obtain ⟨hsel, hset⟩ := Bool.and_eq_true_iff.mp hok
    obtain ⟨m, hm⟩ := Option.isSome_iff_exists.mp hset
    refine congrArg Host.Outcome.next ((status_ok hx hsel _).trans ?_)
    simp only [hm, Option.map_some, Option.getD_some]
    rfl
  · exact congrArg Host.Outcome.next (none_ok hx hok _)
  · exact congrArg Host.Outcome.next (status_ok hx hok _)
  · exact congrArg Host.Outcome.next (status_ok hx hok _)
  · exact congrArg Host.Outcome.next (served_cmd hx _ _ rfl)
  · exact congrArg Host.Outcome.next (none_ok hx hok _)
  · exact congrArg Host.Outcome.next (status_ok hx hok _)
  · exact congrArg Host.Outcome.next (none_ok hx hok _)
  · exact congrArg Host.Outcome.next ((served_cmd hx _ _ rfl).trans (if_neg (by simpa [someOf] using hok)))
  · exact congrArg Host.Outcome.next (status_ok hx hok _)
  · exact congrArg Host.Outcome.next (status_ok hx hok _)
  · obtain ⟨hsel, hlast⟩ := Bool.and_eq_true_iff.mp hok
    obtain ⟨hsel, hn⟩ := Bool.and_eq_true_iff.mp hsel
    refine congrArg Host.Outcome.next ((served_cmd hx _ _ rfl).trans ?_)
    have hlast : (pf x.payload 20 0 8).toNat + (pf x.payload 21 0 8).toNat ≤ 184 := of_decide_eq_true hlast
    have hone : 1 ≤ (pf x.payload 21 0 8).toNat := Nat.one_le_iff_ne_zero.mpr fun h0 => bne_iff_ne.mp hn (BitVec.eq_of_toNat_eq h0)
    dsimp only
    rw [within_ok hone (Nat.le_of_add_left_le hlast)]
    exact if_neg (by rw [beq_iff_eq.mp hsel, decide_eq_false (Nat.not_lt.mpr hlast)]; decide)
  · exact congrArg Host.Outcome.next ((served_cmd hx _ _ rfl).trans (if_neg fun h => by simp [h.1, h.2] at hok))
  · exact congrArg Host.Outcome.next (status_ok hx hok _)
  · exact congrArg Host.Outcome.next (none_ok hx hok _)

end Sys2Proof.Laws

open Sys2Proof Sys2Proof.Machine Sys2Proof.Claims Sys2Proof.Laws

/-- Settles O18: the response of the records fits its buffer, so it is written whole. -/
theorem statusResponses : Obligations.StatusResponses := by
  intro p hp s c x hx hok herr r addr haddr hlen t
  rw [statusTable_row hp hx hok, respond_ok _ _ _ _ _ haddr hlen herr]

end

section
/-! Releases of accepted events (R64 to R66, R75, R81, R424). -/

namespace Sys2Proof.Laws

open Sys2Proof Sys2Proof.Machine Sys2Proof.Claims

variable {s : State} {ev : Nat} {e : Event}

/-- A group's completion concerns neither the captures nor the occasions. -/
theorem closeGroup_keep (s : State) (e : Event) : (closeGroup s e).lin = s.lin ∧ (closeGroup s e).ofdm = s.ofdm := by
  unfold closeGroup
  split
  · split <;> exact ⟨rfl, rfl⟩
  · exact ⟨rfl, rfl⟩

/-- A capture that begins is one more. -/
theorem captureBegin_length {p : Fin 64} {o n : Nat} (h : e.body = .capture p o n) : (s.captureBegin e).lin.caps.length = s.lin.caps.length + 1 := by
  rw [State.captureBegin, h]
  exact List.length_append

/-- An observation capture that passes its check begins, so its path does not count a failure. -/
theorem execObsCaptureRelease_ok (h : Passes s ev .obsCapture e State.captureCheck) :
    exec (.obsCaptureRelease ev) s = .next (closeGroup ((s.removeEvent ev).captureBegin e) e) := by
  refine congrArg Host.Outcome.next ?_
  rw [h.1]
  dsimp only
  rw [release_ok h State.captureBegin]
  split
  · next p o n hb =>
    refine if_neg ?_
    rw [(closeGroup_keep _ e).1, captureBegin_length hb]
    exact Nat.succ_ne_self _
  · rfl

/-- Every row of the table of releases is the release of its kind by its check and its effect. -/
theorem releaseTable_row {p} (hp : p ∈ releaseTable) (h : Passes s ev p.kind e p.chk) : exec (p.row ev) s = .next (closeGroup (p.eff (s.removeEvent ev) e) e) := by
  simp only [releaseTable, List.mem_cons, List.not_mem_nil, or_false] at hp
  rcases hp with rfl | rfl | rfl | rfl | rfl | rfl | rfl | rfl | rfl | rfl
  · exact congrArg Host.Outcome.next (release_ok h _)
  · exact congrArg Host.Outcome.next (release_ok h _)
  · exact congrArg Host.Outcome.next (release_ok h _)
  · exact congrArg Host.Outcome.next (release_ok h _)
  · exact congrArg Host.Outcome.next (release_ok h _)
  · refine congrArg Host.Outcome.next ((release_ok h _).trans (congrArg (closeGroup · e) ?_))
    dsimp only
    cases e.src with
    | cmd r t => cases e.body <;> rfl
    | _ => rfl
  · exact congrArg Host.Outcome.next (release_ok h _)
  · exact congrArg Host.Outcome.next (release_ok h _)
  · exact congrArg Host.Outcome.next (release_ok h _)
  · exact execObsCaptureRelease_ok h

/-- A synthesiser's event whose group meets no synthesiser in service is released like any other. -/
theorem synthRelease_ok {k : Kind} {chk : State → Event → Option (Cause × Res)} (h : Passes s ev k e chk) (hc : s.groupConflict e.group = false) (eff : State → Event → State) :
    s.synthRelease ev k chk eff = closeGroup (eff (s.removeEvent ev) e) e := by
  rw [State.synthRelease, h.1]
  dsimp only
  split
  · rw [hc, Bool.and_false]
    exact release_ok h eff
  · exact release_ok h eff

end Sys2Proof.Laws

open Sys2Proof Sys2Proof.Machine Sys2Proof.Claims Sys2Proof.Laws

theorem synth_releases : Sys2Proof.Claims.SynthReleases := by
  intro s ev e
  refine ⟨?retune, ?hop, ?conflict⟩
  case retune =>
    intro h hc i o hb
    refine congrArg Host.Outcome.next ((synthRelease_ok h hc _).trans ?_)
    rw [hb]
    rfl
  case hop =>
    intro h hc k b hb
    refine congrArg Host.Outcome.next ((synthRelease_ok h hc _).trans ?_)
    rw [hb]
    rfl
  case conflict =>
    intro h hj hc r t hsrc
    refine congrArg Host.Outcome.next ?_
    rw [State.synthRelease, h]
    dsimp only
    rw [hsrc, hj, hc]
    rfl

/-- Settles O19: a release whose check passes has its row's effect; a synthesiser's asks first whether its group meets one in service. -/
theorem eventAndSynthReleases : Obligations.EventAndSynthReleases := ⟨fun _ hp _ _ _ h => releaseTable_row hp h, synth_releases⟩

end

section
/-! Releases of CONFIG and of traffic (R64, R66, R71, R93, R136, R143, R155, R163). -/

namespace Sys2Proof.Laws

open Sys2Proof Sys2Proof.Machine Sys2Proof.Claims

variable {s : State} {ev : Nat} {e : Event}

/-- An event that is the next of its kind, and whose check finds nothing, passes. -/
theorem passes_of_next {k : Kind} {chk : State → Event → Option (Cause × Res)} (h : Next s ev k e) (hc : chk s e = none) : Passes s ev k e chk := ⟨h.1, hc, h.2⟩

/-- Paths that can serve meet no cause against the traffic. -/
theorem trafficCheck_of_serves {need : PState} {len : Nat} {ps : List (Fin 64)} (h : Serves s e need len ps) : s.trafficCheck e need len ps = none := by
  refine List.findSome?_eq_none_iff.mpr fun p hp => ?_
  obtain ⟨hret, hlo, hil, hfit⟩ := h p hp
  dsimp only
  rw [if_neg (by rw [hret]; decide), hlo]
  dsimp only
  rw [if_neg, if_pos hfit]
  intro hb
  obtain ⟨hn, hi⟩ := Bool.and_eq_true_iff.mp hb
  have htx : need = .tx := eq_of_beq hn
  rw [hil htx] at hi
  exact Bool.false_ne_true hi

/-- A change that names only paths outside OFF, SLEEP and OBS, or no path at all, is placed. -/
theorem configCheck_none {ch : CfgChange} (hb : e.body = .config ch)
    (h : ∀ ps, (∃ a b, ch = .pathReturn ps a b) ∨ (∃ a b, ch = .pathLevels ps a b) → ∀ p ∈ setBits ps,
      (s.pathBefore p (s.dpOf e.due)).st ≠ .off ∧ (s.pathBefore p (s.dpOf e.due)).st ≠ .sleep ∧ (s.pathBefore p (s.dpOf e.due)).st ≠ .obs) :
    s.configCheck e = none := by
  have hnone (ps : BitVec 64) (hps : (∃ a b, ch = .pathReturn ps a b) ∨ ∃ a b, ch = .pathLevels ps a b) :
      (if (setBits ps).any (fun p => let st := (s.pathBefore p (s.dpOf e.due)).st; st == .off || st == .sleep || st == .obs) then some (Cause.pathState, e.res) else none) = none := by
    refine if_neg ?_
    rw [List.any_eq_true]
    rintro ⟨p, hp, hst⟩
    obtain ⟨hoff, hsleep, hobs⟩ := h ps hps p hp
    simp only [Bool.or_eq_true, beq_iff_eq] at hst
    exact hst.elim (fun h => h.elim hoff hsleep) hobs
  rw [State.configCheck, hb]
  cases ch with
  | pathReturn ps a b => exact hnone ps (.inl ⟨a, b, rfl⟩)
  | pathLevels ps a b => exact hnone ps (.inr ⟨a, b, rfl⟩)
  | _ => rfl

-- What traffic's paths leave alone: the state of the OFDM processors

theorem postOne_ofdm (s : State) (ty : BitVec 8) (b : Bytes) (far : Bool) : (s.postOne ty b far).ofdm = s.ofdm := by
  unfold State.postOne
  repeat' split
  all_goals rfl

theorem post_ofdm (s : State) (ty : BitVec 8) (b : Bytes) : (s.post ty b).ofdm = s.ofdm := by
  unfold State.post
  extract_lets far r
  split
  · rw [postOne_ofdm, postOne_ofdm]
    rfl
  · exact postOne_ofdm ..

theorem lateRec_ofdm (s : State) (src : Source) (k : Kind) (due : Tick) (r : Res) (c : Cause) (miss : Nat) : (s.lateRec src k due r c miss).ofdm = s.ofdm := by
  unfold State.lateRec State.lateRecF
  extract_lets w b t
  split
  · rfl
  · exact post_ofdm ..

/-- What an update keeps, a fold of such updates keeps. -/
theorem foldl_ofdm {α : Type} (f : State → α → State) (hf : ∀ s a, (f s a).ofdm = s.ofdm) (l : List α) (s : State) : (l.foldl f s).ofdm = s.ofdm :=
  List.foldlRecOn l f (motive := fun t : State => t.ofdm = s.ofdm) rfl fun t ht a _ => (hf t a).trans ht

/-- Every event that the device itself presents is taken, or leaves a LATE record. -/
theorem present_internal_ofdm (s : State) (k : Owner) (d : Option Tick) (evs : List NewEv) : (s.present (.internal k) d evs).2.ofdm = s.ofdm := by
  unfold State.present
  extract_lets int
  split; · rfl
  split; · rfl
  split; · rfl
  split; · rfl
  split
  · refine foldl_ofdm _ (fun t n => ?_) evs s
    split
    · exact lateRec_ofdm ..
    · exact lateRec_ofdm ..
  · split
    · rfl
    · rfl

theorem autoMute_ofdm (s : State) (p : Fin 64) (tx on : Bool) (due : Tick) : (s.autoMute p tx on due).ofdm = s.ofdm := by
  unfold State.autoMute
  exact present_internal_ofdm ..

theorem unmuteFor_ofdm (s : State) (p : Fin 64) (tx : Bool) (a : Tick) : (s.unmuteFor p tx a).ofdm = s.ofdm := by
  unfold State.unmuteFor
  extract_lets u
  repeat' split
  all_goals simp only [autoMute_ofdm, State.removeEvent]

theorem muteAfter_ofdm (s : State) (p : Fin 64) (tx : Bool) (b : Tick) : (s.muteAfter p tx b).ofdm = s.ofdm := by
  unfold State.muteAfter
  extract_lets m
  repeat' split
  all_goals simp only [autoMute_ofdm, State.removeEvent]

theorem trafficBegin_ofdm (s : State) (e : Event) (need : PState) (len : Nat) (ps : List (Fin 64)) : (s.trafficBegin e need len ps).ofdm = s.ofdm := by
  refine foldl_ofdm _ (fun t p => ?_) ps s
  refine Eq.trans (b := (t.dormantNeed p (decide (need = .tx)) e.due (e.due + len)).ofdm) rfl ?_
  unfold State.dormantNeed
  split
  · rw [muteAfter_ofdm, unmuteFor_ofdm]
  · rfl

-- Occasions

/-- An occasion that is neither published nor abandoned keeps its slot's sounding open. -/
theorem soundingSweep_of_open {x : Occasion} (hx : x ∈ s.ofdm.occasions) (hp : x.published = false) (ha : x.abandoned = false) (hd : x.done = false) :
    s.soundingSweep x.carrier x.slot = s := by
  unfold State.soundingSweep
  extract_lets mine xs
  refine if_pos ?_
  rw [Bool.or_eq_true, List.any_eq_true]
  refine .inr ⟨x, List.mem_filter.mpr ⟨hx, ?_⟩, ?_⟩
  · simp only [mine, beq_self_eq_true, hd, Bool.not_false, Bool.and_self]
  · rw [hp, ha]
    rfl

/-- The sweep after a release of the occasion `occ` leaves all as it is where that occasion is open. -/
theorem sweep_of_open {t : State} {occ : Nat} {x : Occasion} (hf : t.ofdm.occasions.find? (fun y => y.id == occ) = some x) (hx : x ∈ t.ofdm.occasions)
    (hp : x.published = false) (ha : x.abandoned = false) (hd : x.done = false) :
    (match t.ofdm.occasions.find? fun y => y.id == occ with | some y => t.soundingSweep y.carrier y.slot | none => t) = t := by
  rw [hf]
  exact soundingSweep_of_open hx hp ha hd

/-- An update of one occasion that keeps identifiers finds the occasions that were there. -/
theorem find_modOccasion (s : State) (i occ : Nat) (f : Occasion → Occasion) (hf : ∀ y, (f y).id = y.id) :
    (s.modOccasion i f).ofdm.occasions.find? (fun y => y.id == occ) = (s.ofdm.occasions.find? fun y => y.id == occ).map fun y => if y.id = i then f y else y := by
  have hid : ((fun y : Occasion => y.id == occ) ∘ fun y => if y.id = i then f y else y) = fun y => y.id == occ :=
    funext fun y => by
      simp only [Function.comp_apply]
      split
      · rw [hf]
      · rfl
  rw [State.modOccasion, List.find?_map, hid]

/-- What a SOUNDING's release brings about for its occasion. -/
def soundingEff (s : State) (e : Event) (x : Occasion) (sym len : Nat) : State :=
  let s := s.trafficBegin e .rx len (s.antennas x.carrier)
  let s := if sym = x.sym0 then s.modOccasion x.id fun y => { y with smooth := (s.wcfgAt x.carrier e.due).smooth } else s
  s.smoothingJob x

/-- The occasion of a released symbol is still there, and still open. -/
theorem find_soundingEff {occ sym len : Nat} {x : Occasion} (h : s.ofdm.occasions.find? (fun y => y.id == occ) = some x) :
    ∃ y, (soundingEff s e x sym len).ofdm.occasions.find? (fun y => y.id == occ) = some y ∧ y.published = x.published ∧ y.abandoned = x.abandoned ∧ y.done = x.done := by
  have hjob (u : State) : (u.smoothingJob x).ofdm = u.ofdm := by
    unfold State.smoothingJob
    extract_lets pending
    split <;> rfl
  have hbase : (s.trafficBegin e .rx len (s.antennas x.carrier)).ofdm.occasions.find? (fun y => y.id == occ) = some x := by rw [trafficBegin_ofdm, h]
  unfold soundingEff
  extract_lets t u
  rw [hjob]
  unfold u
  split
  · have hf := find_modOccasion t x.id occ (fun y => { y with smooth := (t.wcfgAt x.carrier e.due).smooth }) fun _ => rfl
    rw [show t.ofdm.occasions.find? (fun y => y.id == occ) = some x from hbase, Option.map_some, if_pos rfl] at hf
    exact ⟨_, hf, rfl, rfl, rfl⟩
  · exact ⟨x, hbase, rfl, rfl, rfl⟩

end Sys2Proof.Laws

open Sys2Proof Sys2Proof.Machine Sys2Proof.Claims Sys2Proof.Laws

/-- Settles O20: each passes its check under the hypotheses given; the sweep after a SOUNDING finds its occasion still open. -/
theorem trafficReleases : Obligations.TrafficReleases := by
  intro s ev e u
  refine ⟨?config, ?dl, ?ul, ?snd⟩
  case config =>
    intro ch h hb hps
    have hchk : s.configCheck e = none := configCheck_none hb hps
    refine congrArg Host.Outcome.next ((release_ok (passes_of_next h hchk) _).trans ?_)
    rw [hb]
  case dl =>
    intro x sym len k h hsym hk hburst hserves
    have hchk : s.dlCheck e = none := by
      rw [State.dlCheck, hsym]
      refine (if_neg ?_).trans (trafficCheck_of_serves hserves)
      rw [List.any_eq_true]
      rintro ⟨p, hp, hb⟩
      rw [hburst p hp] at hb
      exact Bool.false_ne_true hb
    refine congrArg Host.Outcome.next ((release_ok (passes_of_next h hchk) _).trans (congrArg (closeGroup · e) ?_))
    rw [show (s.removeEvent ev).symbolOf e = some (x, sym, len) from hsym]
    dsimp only
    rw [show (s.removeEvent ev).ofdm.carriers[x.carrier].cfg = some k from hk]
    rfl
  case ul =>
    intro x sym len h hsym hserves
    have hchk : s.ulCheck e = none := by
      rw [State.ulCheck, hsym]
      exact trafficCheck_of_serves hserves
    refine congrArg Host.Outcome.next ((release_ok (passes_of_next h hchk) _).trans (congrArg (closeGroup · e) ?_))
    rw [show (s.removeEvent ev).symbolOf e = some (x, sym, len) from hsym]
  case snd =>
    intro occ sym len x h hb hfind hp ha hd hserves
    have hfind' : (s.removeEvent ev).ofdm.occasions.find? (fun y => y.id == occ) = some x := hfind
    obtain ⟨y, hy, hyp, hya, hyd⟩ := find_soundingEff (e := e) (sym := sym) (len := len) hfind'
    have hocc : y ∈ (soundingEff (s.removeEvent ev) e x sym len).ofdm.occasions := List.mem_of_find?_eq_some hy
    rw [← (closeGroup_keep _ e).2] at hy hocc
    refine congrArg Host.Outcome.next ?_
    rw [h.1]
    dsimp only
    rw [release_ok (passes_of_next h ?chk)]
    case chk =>
      simp only [hb, hfind, Option.map_some]
      exact trafficCheck_of_serves hserves
    simp only [hb, hfind', Option.map_some]
    exact sweep_of_open (t := closeGroup (soundingEff (s.removeEvent ev) e x sym len) e) hy hocc (hyp.trans hp) (hya.trans ha) (hyd.trans hd)

end

section
/-! SYNTH_SET and PATH_SET (R71, R80 to R82, R93, R96). -/

namespace Sys2Proof.Laws

open Sys2Proof Sys2Proof.Machine Sys2Proof.Claims

variable {s : State} {c : Cmd} {x : Slot}

/-- What is false of each element is true of none. -/
theorem filterMap_some {α β : Type} {f : α → Option β} {g : α → β} {l : List α} (h : ∀ a ∈ l, f a = some (g a)) : l.filterMap f = l.map g := by
  induction l with
  | nil => rfl
  | cons a l ih =>
    rw [List.filterMap_cons_some (h a List.mem_cons_self), List.map_cons, ih fun b hb => h b (List.mem_cons_of_mem a hb)]

theorem any_not {α : Type} {l : List α} {f : α → Bool} (h : ∀ a ∈ l, f a = false) : ¬ l.any f = true := by
  rw [List.any_eq_true]
  rintro ⟨a, ha, hf⟩
  exact Bool.false_ne_true ((h a ha).symm.trans hf)

theorem any_not_of_all {α : Type} {l : List α} {f : α → Bool} (h : ∀ a ∈ l, f a = true) : ¬ l.any (fun a => !f a) = true :=
  any_not fun a ha => by rw [h a ha]; rfl

theorem synthBusy_not {k : Fin 8} {due : Tick} (h : SynthFree s x due) (hk : k ∈ synthNamed x.payload) :
    (s.radio.synths[synthTarget x.payload k].st == .retired || s.inUse k || (!x.timed && s.servingAt k (s.dpOf due) == synthTarget x.payload k)) = false := by
  obtain ⟨hret, huse, hserve⟩ := h k hk
  rw [beq_eq_false_iff_ne.mpr hret, huse]
  cases ht : x.timed with
  | true => rfl
  | false => rw [beq_eq_false_iff_ne.mpr (hserve ht)]; rfl

/-- A RETUNE or CALIBRATE whose operations are all there enters one event for each. -/
theorem synthRetuneCmd_ok {mk : State → BitVec 320 → Fin 16 → Option SynthOp} {o : Fin 8 → SynthOp} (hbad : synthBadArg x = false) (hpwr : s.pwr.st = .active)
    (htrans : s.transitionBlocks (s.dueOf x) = false)
    (hvalid : synthByFreq x.payload = false → ∀ k ∈ synthNamed x.payload, s.radio.synths[synthTarget x.payload k].presets[synthSlot x.payload].valid = true)
    (hfree : SynthFree s x (s.eventDue x .synthRetune)) (ho : ∀ k ∈ synthNamed x.payload, mk s x.payload (synthTarget x.payload k) = some (o k)) :
    let ks := synthNamed x.payload
    let due := s.dpOf (s.eventDue x .synthRetune)
    s.synthRetuneCmd c x mk = s.presentCmd c.ref x.tag
      (some (if x.timed then s.eventDue x .synthRetune else s.airOf (ks.foldl (fun m k => max m (s.synthEnd (synthTarget x.payload k) due (o k))) due)))
      (ks.map fun k => { kind := .synthRetune, due := s.eventDue x .synthRetune, res := { cls := 3, idx := (synthTarget x.payload k).val }
                         body := .retune (synthTarget x.payload k) (o k) }) := by
  intro ks due
  have hops : ks.filterMap (fun k => (mk s x.payload (synthTarget x.payload k)).map fun a => (k, a)) = ks.map fun k => (k, o k) := by
    refine filterMap_some fun k hk => ?_
    rw [ho k hk]
    rfl
  unfold State.synthRetuneCmd
  extract_lets p ks' due' ops evs done
  have hops' : ops = ks.map fun k => (k, o k) := hops
  have hevs : evs = ks.map fun k => { kind := .synthRetune, due := s.eventDue x .synthRetune, res := { cls := 3, idx := (synthTarget x.payload k).val }
                                      body := .retune (synthTarget x.payload k) (o k) } := by
    unfold evs
    rw [hops', List.map_map]
    rfl
  have hdone : done = if x.timed then s.eventDue x .synthRetune
      else s.airOf (ks.foldl (fun m k => max m (s.synthEnd (synthTarget x.payload k) due (o k))) due) := by
    unfold done
    rw [hops', List.foldl_map]
  rw [if_neg (by rw [hbad]; decide), if_neg (not_not_intro hpwr), if_neg (by rw [htrans]; decide), if_neg, if_neg (any_not fun k hk => synthBusy_not hfree hk),
    if_neg (by rw [hops', List.length_map]; exact Nat.lt_irrefl _), hevs, hdone]
  · rintro ⟨hf, hany⟩
    exact any_not_of_all (hvalid (by simpa using hf)) hany

/-- Marking a preset as pinned or not moves no preset. -/
theorem pinSlot_pinned (s : State) (p : BitVec 320) (i i' : Fin 16) (j : Fin 32) (on : Bool) :
    (s.modSynth i fun y => { y with presets := vmod y.presets j fun q => { q with pinned := on } }).pinSlot p i' = s.pinSlot p i' := by
  have hpre (j' : Fin 32) : let q := (s.modSynth i fun y => { y with presets := vmod y.presets j fun q => { q with pinned := on } }).radio.synths[i'].presets[j']
      q.valid = s.radio.synths[i'].presets[j'].valid ∧ q.freq = s.radio.synths[i'].presets[j'].freq := by
    dsimp only [State.modSynth]
    by_cases hi : i' = i
    · subst hi
      rw [show (vmod s.radio.synths i' fun y => { y with presets := vmod y.presets j fun q => { q with pinned := on } })[i']
        = { s.radio.synths[i'] with presets := vmod s.radio.synths[i'].presets j fun q => { q with pinned := on } } from vset_same ..]
      by_cases hj : j' = j
      · subst hj
        rw [show (vmod s.radio.synths[i'].presets j' fun q => { q with pinned := on })[j'] = { s.radio.synths[i'].presets[j'] with pinned := on } from vset_same ..]
        exact ⟨rfl, rfl⟩
      · rw [vmod_other _ hj]
        exact ⟨rfl, rfl⟩
    · rw [vmod_other _ hi]
      exact ⟨rfl, rfl⟩
  unfold State.pinSlot
  simp only [(hpre _).1, (hpre _).2]

/-- The presets of the synthesisers named are marked one by one, each at the slot that it had. -/
theorem pin_foldl {p : BitVec 320} {on : Bool} {j : Fin 8 → Fin 32} : ∀ (ks : List (Fin 8)) (s : State),
    (∀ k ∈ ks, s.pinSlot p (synthTarget p k) = some (j k)) →
    ks.foldl (fun s k => match s.pinSlot p (synthTarget p k) with
      | some j => s.modSynth (synthTarget p k) fun y => { y with presets := vmod y.presets j fun q => { q with pinned := on } }
      | none => s) s
    = ks.foldl (fun (s : State) k => s.modSynth (synthTarget p k) fun y => { y with presets := vmod y.presets (j k) fun q => { q with pinned := on } }) s
  | [], _, _ => rfl
  | k :: ks, s, h => by
    rw [List.foldl_cons, List.foldl_cons, h k List.mem_cons_self]
    exact pin_foldl ks _ fun k' hk' => (pinSlot_pinned ..).trans (h k' (List.mem_cons_of_mem _ hk'))

theorem pinCmd_ok {on : Bool} {j : Fin 8 → Fin 32} (hbad : synthBadArg x = false)
    (hret : ∀ k ∈ synthNamed x.payload, s.radio.synths[synthTarget x.payload k].st ≠ .retired)
    (hj : ∀ k ∈ synthNamed x.payload, s.pinSlot x.payload (synthTarget x.payload k) = some (j k)) :
    s.pinCmd c x on = ((((synthNamed x.payload).foldl (fun (s : State) k => s.modSynth (synthTarget x.payload k) fun y =>
      { y with presets := vmod y.presets (j k) fun q => { q with pinned := on } }) s).tackPut 17 .presets).tackPut 19 .presets (some c.ref)).finish c.ref .ok := by
  unfold State.pinCmd
  extract_lets p ks
  rw [if_neg (by rw [hbad]; decide), if_neg (any_not fun k hk => by rw [hj k hk]; rfl), if_neg (any_not fun k hk => beq_eq_false_iff_ne.mpr (hret k hk))]
  exact congrArg (fun u : State => ((u.tackPut 17 .presets).tackPut 19 .presets (some c.ref)).finish c.ref .ok) (pin_foldl ks s hj)

/-- A setting of paths that are all active enters one CONFIG event for each, or is over at once. -/
theorem pathConfig_ok (hbad : x.atBad = false) (hact : ∀ q ∈ pathNamed x.payload, s.inActive q = true) (hdoze : s.pwr.st ≠ .doze) (mk : BitVec 64 → CfgChange) :
    let ps := pathNamed x.payload
    (ps = [] → s.pathConfig c x mk = s.finish c.ref .ok)
    ∧ (ps ≠ [] → s.pathConfig c x mk = s.presentCmd c.ref x.tag (some (symbolCeil (ps.all s.grid30) (s.eventDue x .config)))
        (ps.map fun q => { kind := .config, due := s.eventDue x .config, res := { cls := 1, idx := q.val }, body := .config (mk (1 <<< q.val)) })) := by
  intro ps
  unfold State.pathConfig
  extract_lets ps'
  rw [if_neg (by rw [hbad]; decide), if_neg (any_not_of_all hact), if_neg hdoze]
  exact ⟨fun h => if_pos (List.isEmpty_iff.mpr h), fun h => if_neg fun h' => h (List.isEmpty_iff.mp h')⟩

end Sys2Proof.Laws

open Sys2Proof Sys2Proof.Machine Sys2Proof.Claims Sys2Proof.Laws

/-- Settles O22: where the synthesisers named are free, each operation enters its events or acts at once. -/
theorem synthCommands : Obligations.SynthCommands := by
  intro s c x p ks evs hbad
  have hsel (n : Nat) (h : (pf p 1 0 4).toNat = n) : opIs 1 0 4 n x.payload = true := beq_iff_eq.mpr h
  refine ⟨?retune, ?hop, ?off, ?pin⟩
  case retune =>
    intro q hq hx hop hpwr htrans hvalid hfree o ho e due done hfits
    have hexec : exec (q.1 c) s = .next (s.hostCmd c 0x18 (opIs 1 0 4 q.2.1) fun x => s.synthRetuneCmd c x q.2.2) := by
      simp only [retuneTable, List.mem_cons, List.not_mem_nil, or_false] at hq
      rcases hq with rfl | rfl <;> rfl
    rw [hexec, served_cmd hx _ _ (hsel _ hop), synthRetuneCmd_ok hbad hpwr htrans hvalid hfree ho]
    exact congrArg Host.Outcome.next (presentCmd_ok hfits c x _ id)
  case hop =>
    intro hx hop hpwr hfree e hfits
    refine congrArg Host.Outcome.next ((served_cmd hx _ _ (hsel _ hop)).trans ?_)
    refine (if_neg (by rw [hbad]; decide)).trans ((if_neg (not_not_intro hpwr)).trans ((if_neg (any_not fun k hk => synthBusy_not hfree hk)).trans ?_))
    exact presentCmd_ok hfits c x _ id
  case off =>
    intro hx hop hfree
    refine congrArg Host.Outcome.next ((served_cmd hx _ _ (hsel _ hop)).trans ?_)
    refine (if_neg (by rw [hbad]; decide)).trans (if_neg (any_not fun k hk => ?_))
    obtain ⟨hret, huse, hact⟩ := hfree k hk
    rw [beq_eq_false_iff_ne.mpr hret, huse, beq_eq_false_iff_ne.mpr hact]
    rfl
  case pin =>
    intro q hq hx hop hret j hj
    have hexec : exec (q.1 c) s = .next (s.hostCmd c 0x18 (opIs 1 0 4 q.2.1) fun x => s.pinCmd c x q.2.2) := by
      simp only [pinTable, List.mem_cons, List.not_mem_nil, or_false] at hq
      rcases hq with rfl | rfl <;> rfl
    rw [hexec, served_cmd hx _ _ (hsel _ hop), pinCmd_ok hbad hret hj]

/-- Settles O23: with the paths named active, a change of state by its own checks, a setting by those that the two share. -/
theorem pathCommands : Obligations.PathCommands := by
  intro s c x p ps conf hx hbad hact hdoze
  have hsel (n : Nat) (h : (pf p 8 0 4).toNat = n) : opIs 8 0 4 n x.payload = true := beq_iff_eq.mpr h
  refine ⟨?state, ?ret, ?levels⟩
  case state =>
    intro hop hlive hil e due done
    have hgate (r : Bool) (hr : s.trafficGate = none ∧ s.conv.run = none → r = false) : ¬ ((pathTarget p == .rx || pathTarget p == .tx) = true ∧ r = true) := by
      rintro ⟨h, hb⟩
      rw [Bool.or_eq_true, beq_iff_eq, beq_iff_eq] at h
      exact Bool.false_ne_true ((hr (hlive h)).symm.trans hb)
    have hexec : exec (.pathSetState c) s = .next (if ps.isEmpty then s.finish c.ref .ok else s.presentCmd c.ref x.tag (some done) e) := by
      refine congrArg Host.Outcome.next ((served_cmd hx _ _ (hsel _ hop)).trans ?_)
      refine (if_neg (by rw [hbad]; decide)).trans ((if_neg (any_not_of_all hact)).trans ((if_neg hdoze).trans ?_))
      refine (if_neg (hgate _ fun h => by rw [h.1]; rfl)).trans ((if_neg (hgate _ fun h => by rw [h.2]; rfl)).trans (if_neg ?_))
      rintro ⟨ht, hany⟩
      exact any_not_of_all (hil ht) hany
    rw [hexec]
    exact ⟨fun h => congrArg Host.Outcome.next (if_pos (List.isEmpty_iff.mpr h)),
      fun h hfits => congrArg Host.Outcome.next ((if_neg fun h' => h (List.isEmpty_iff.mp h')).trans (presentCmd_ok hfits c x _ id))⟩
  case ret =>
    intro hop r e
    obtain ⟨hnone, hsome⟩ := pathConfig_ok (c := c) hbad hact hdoze fun m => .pathReturn m r (pb p 10 2)
    have hexec := served_cmd hx (opIs 8 0 4 2) (fun x => s.pathConfig c x fun m => .pathReturn m (match (pf x.payload 10 0 2).toNat with | 0 => .standby | 1 => .sleep | _ => .rx) (pb x.payload 10 2)) (hsel _ hop)
    exact ⟨fun h => congrArg Host.Outcome.next (hexec.trans (hnone h)),
      fun h hfits => congrArg Host.Outcome.next (hexec.trans ((hsome h).trans (presentCmd_ok hfits c x _ id)))⟩
  case levels =>
    intro hop g a e
    obtain ⟨n, hn⟩ : ∃ n, a.2 = { s with free := n } := by
      unfold a g
      split <;> split <;> exact ⟨_, rfl⟩
    have hfree : a.2.inActive = s.inActive ∧ a.2.pwr.st = s.pwr.st ∧ a.2.grid30 = s.grid30 ∧ a.2.eventDue x .config = s.eventDue x .config := by
      rw [hn]
      exact ⟨rfl, rfl, rfl, rfl⟩
    obtain ⟨hin, hst, hgrid, hdue⟩ := hfree
    obtain ⟨hnone, hsome⟩ := pathConfig_ok (s := a.2) (c := c) hbad (by rw [hin]; exact hact) (by rw [hst]; exact hdoze)
      fun m => .pathLevels m (if pb p 13 0 then some g.1 else none) (if pb p 13 1 then some a.1 else none)
    rw [hgrid, hdue] at hsome
    have hexec : exec (.pathSetLevels c) s = .next (a.2.pathConfig c x fun m => .pathLevels m (if pb p 13 0 then some g.1 else none) (if pb p 13 1 then some a.1 else none)) :=
      congrArg Host.Outcome.next (served_cmd hx _ _ (hsel _ hop))
    rw [hexec]
    exact ⟨fun h => congrArg Host.Outcome.next (hnone h),
      fun h hfits => congrArg Host.Outcome.next ((hsome h).trans (presentCmd_ok (by rw [hn]; exact hfits) c x _ id))⟩

end

section
/-! What paths and synthesisers do by themselves (R75, R86, R89, R97), the converters' clock (R110 to R123), changes of carriers (R71, R135, R136, R174, R217, R307, R493). -/

namespace Sys2Proof.Laws

open Sys2Proof Sys2Proof.Machine Sys2Proof.Claims

variable {s : State} {c : Cmd} {x : Slot}

/-- A lock lost for the first time, by a synthesiser not in service while no calibration runs, raises the fault and starts the recovery. -/
theorem execSynthLockLoss_first {i : Fin 16} (hst : s.radio.synths[i].st = .locked) (hlast : s.radio.synths[i].lastLoss = none) (hact : s.active (synthPaddock i) ≠ i)
    (hcal : s.calActive = []) :
    let t := (s.modSynth i fun y => { y with st := .unlocked, aligned := false, lockLoss := satInc y.lockLoss, lastLoss := some s.dp }).raiseFault .loUnlock { cls := 3, idx := i.val }
    exec (.synthLockLoss i) s = .next (if t.radio.synths[i].st = .retired then t else t.recoverSynth i) := by
  intro t
  refine congrArg Host.Outcome.next ((if_neg (not_not_intro hst)).trans ?_)
  extract_lets twice u k v lost w r
  have htwice : twice = false := by
    unfold twice
    rw [hlast]
  have huv : v = u := if_neg hact
  have hlost : lost = [] := by
    unfold lost
    rw [huv, show u.calActive = [] from hcal]
    rfl
  have hw : w = u := by
    unfold w
    rw [hlost, huv]
    rfl
  have hr : r = t := by
    unfold r
    rw [hw]
  rw [if_neg (by rw [htwice]; decide), hr]

/-- A carrier's change that the table takes is accepted. -/
theorem carrierEvent_ok {n : Fin 8} {ch : CfgChange} (h : Fits s (carrierEvents s x n ch)) : s.carrierEvent c.ref x n ch = changeTaken s c x n ch :=
  presentCmd_ok h c x none id

/-- A bit vector that is not 0 has a bit set. -/
theorem setBits_isEmpty {w : Nat} {m : BitVec w} (h : m ≠ 0) : (setBits m).isEmpty = false := by
  rw [Bool.eq_false_iff, ne_eq, List.isEmpty_iff]
  intro hnil
  refine h (BitVec.eq_of_getLsbD_eq fun i hi => ?_)
  have hi' : (⟨i, hi⟩ : Fin w) ∉ setBits m := by rw [hnil]; exact List.not_mem_nil
  rw [setBits, List.mem_filter, not_and, Bool.not_eq_true] at hi'
  rw [hi' (List.mem_finRange _)]
  exact BitVec.getLsbD_zero.symm

theorem isNone_not {α : Type} {o : Option α} (h : o.isSome = true) : ¬ o.isNone = true := by
  rw [Option.isNone_iff_eq_none]
  rintro rfl
  exact Bool.false_ne_true h

end Sys2Proof.Laws

open Sys2Proof Sys2Proof.Machine Sys2Proof.Claims Sys2Proof.Laws

/-- Settles O24: each by the time at which it is due and the state it meets. -/
theorem radioProgress : Obligations.RadioProgress := by
  intro s
  refine ⟨?transit, ?ret, ?opEnd, ?calEnd, fun i => execSynthLockLoss_first⟩
  case transit =>
    intro p t ht hfin hdst hhold
    refine congrArg Host.Outcome.next ?_
    rw [ht]
    refine (if_neg (Nat.not_lt.mpr hfin)).trans ((if_neg (not_not_intro hdst)).trans ?_)
    rw [hhold]
  case ret =>
    intro p r y hrun htransit hfin hne hret hjobs hkeep henter
    have hret' : s.radio.paths[p].retired = false := hret
    refine congrArg Host.Outcome.next ?_
    dsimp only
    rw [show s.radio.paths[p].run = some r from hrun]
    refine (if_neg (by rw [show s.radio.paths[p].transit = none from htransit]; exact not_or.mpr ⟨by decide, Nat.not_lt.mpr hfin⟩)).trans ?_
    refine (if_neg (not_or.mpr ⟨hne, not_or.mpr ⟨by rw [hret']; decide, not_or.mpr ⟨not_not_intro hjobs, fun h => Bool.false_ne_true (hkeep.symm.trans h)⟩⟩⟩)).trans ?_
    exact if_pos henter
  case opEnd =>
    intro i o ho hcal hend t
    refine congrArg Host.Outcome.next ?_
    dsimp only
    rw [ho]
    cases o with
    | calibrate f n => exact absurd rfl (hcal f n)
    | _ => exact if_neg (Nat.not_lt.mpr hend)
  case calEnd =>
    intro i m f j hop hend hslot t
    refine congrArg Host.Outcome.next ?_
    dsimp only
    rw [hop]
    refine (if_neg (Nat.not_lt.mpr hend)).trans ?_
    rw [if_neg Bool.false_ne_true, hslot]

/-- Settles O25: an FC_SET and a coefficient set by their checks; the blank's end by the run in hand. -/
theorem converterClock : Obligations.ConverterClock := by
  intro s c x
  refine ⟨?set, ?complete, ?coef⟩
  case set =>
    intro hx n hlo hhi hfree
    have hrange : ¬ (decide (n.toNat < 30000) || decide (n.toNat > 35000)) = true := by
      rw [decide_eq_false (Nat.not_lt.mpr hlo), decide_eq_false (Nat.not_lt.mpr hhi)]
      decide
    have hcheck : exec (.fcSet c) s = .next (_ : State) := congrArg Host.Outcome.next
      ((served_cmd hx _ _ rfl).trans ((if_neg hrange).trans (if_neg (by rw [hfree]; decide))))
    rw [hcheck]
    refine ⟨fun hn => congrArg Host.Outcome.next (if_pos hn), fun hn htrim => congrArg Host.Outcome.next ((if_neg hn).trans (if_neg ?_))⟩
    rw [Bool.and_eq_true]
    rintro ⟨h1, h2⟩
    rcases htrim with h | h
    · rw [h] at h1; exact Bool.false_ne_true h1
    · rw [h] at h2; exact Bool.false_ne_true h2
  case complete =>
    intro r hrun hfin hsw
    have hfc : s.fcSwitch = s := by rw [State.fcSwitch, hrun]; exact if_pos (by rw [hsw]; rfl)
    refine congrArg Host.Outcome.next ?_
    rw [hrun]
    refine (if_neg (Nat.not_lt.mpr hfin)).trans ?_
    rw [hfc]
  case coef =>
    intro hx hks hfree v hv
    have hset : (if pb x.payload 1 0 then some none else c.data.map fun b => some (coefWords b)) = some v
        ∧ (!pb x.payload 1 0 && (pf x.payload 8 0 64).extractLsb' 0 6 != 0) = false ∧ ∀ l, v = some l → coefValid l = true := by
      rcases hv with ⟨hrom, rfl⟩ | ⟨hrom, hal, b, hb, hok, rfl⟩
      · exact ⟨if_pos hrom, by rw [hrom, Bool.not_true, Bool.false_and], nofun⟩
      · exact ⟨(if_neg (by rw [hrom]; exact Bool.false_ne_true)).trans (by rw [hb, Option.map_some]), by rw [hal, bne_self_eq_false, Bool.and_false], fun l hl => Option.some.inj hl ▸ hok⟩
    obtain ⟨hset, hal, hok⟩ := hset
    have hcheck : exec (.rsCoefLoad c) s = .next (_ : State) := congrArg Host.Outcome.next
      ((served_cmd hx _ _ rfl).trans ((if_neg (by rw [hal, setBits_isEmpty hks]; decide)).trans (if_neg (by rw [hfree]; decide))))
    rw [hcheck, hset]
    dsimp only
    rw [if_neg (by
      cases v with
      | none => exact Bool.false_ne_true
      | some l => exact fun h : (!coefValid l) = true => by rw [hok l rfl] at h; exact Bool.false_ne_true h)]
    exact ⟨fun hc => congrArg Host.Outcome.next (if_neg (by rw [hc]; decide)), fun hc => congrArg Host.Outcome.next (if_pos (by rw [hc]; rfl))⟩

/-- Settles O26: each change that its command's checks let through is one CONFIG event. -/
theorem carrierChanges : Obligations.CarrierChanges := by
  intro s c x p n hbad
  refine ⟨?configure, ?remove, ?weight, ?flow, ?kernel, ?cfr⟩
  case configure =>
    intro hx hop k hk hover htrans hfits hf
    refine congrArg Host.Outcome.next ((served_cmd hx (opIs 0 3 2 _) _ (beq_iff_eq.mpr hop)).trans ?_)
    refine (if_neg (by rw [hbad, hk, hover]; decide)).trans ((if_neg (by rw [htrans]; decide)).trans ((if_neg ?_).trans (carrierEvent_ok hf)))
    rw [Bool.and_eq_true, bne_iff_ne]
    rintro ⟨hne, hb⟩
    rw [hfits hne] at hb
    exact Bool.false_ne_true hb
  case remove =>
    intro hx hop htrans hsome hf
    refine congrArg Host.Outcome.next ((served_cmd hx (opIs 0 3 2 _) _ (beq_iff_eq.mpr hop)).trans ?_)
    exact (if_neg (by rw [hbad]; decide)).trans ((if_neg (by rw [htrans]; decide)).trans ((if_neg (isNone_not hsome)).trans (carrierEvent_ok hf)))
  case weight =>
    intro hx hk hage hdir hsome w hf
    refine congrArg Host.Outcome.next ((served_cmd hx _ _ rfl).trans ?_)
    refine (if_neg ?_).trans ((if_neg (isNone_not hsome)).trans (carrierEvent_ok hf))
    rw [hbad, decide_eq_false (Nat.not_lt.mpr hk), beq_eq_false_iff_ne.mpr hage]
    rcases hdir with h | h
    · rw [h]; exact Bool.false_ne_true
    · rw [beq_eq_false_iff_ne.mpr h, Bool.and_false]; exact Bool.false_ne_true
  case flow =>
    intro hx hm hrole hsome ch hf
    refine congrArg Host.Outcome.next ((served_cmd hx _ _ rfl).trans ?_)
    refine (if_neg ?_).trans ((if_neg (isNone_not hsome)).trans (carrierEvent_ok hf))
    rw [hbad, decide_eq_false (Nat.not_lt.mpr hm), hrole]
    decide
  case kernel =>
    intro hx hk hready hsome hmode hf
    refine congrArg Host.Outcome.next ((served_cmd hx _ _ rfl).trans ?_)
    refine (if_neg (by rw [hbad, beq_eq_false_iff_ne.mpr hk]; decide)).trans ((if_neg ?_).trans ((if_neg ?_).trans (carrierEvent_ok hf)))
    · rw [hready]
      exact isNone_not hsome
    · rintro ⟨h1, h2⟩
      exact hmode.elim h1 fun h => h h2
  case cfr =>
    intro hx hpass hlo hhi hrlo hrhi hband e hf
    refine congrArg Host.Outcome.next ((served_cmd hx _ _ rfl).trans ?_)
    refine (if_neg ?_).trans (presentCmd_ok hf c x _ id)
    rw [hbad, decide_eq_false (Nat.not_lt.mpr hpass), decide_eq_false (Nat.not_lt.mpr hlo), decide_eq_false (Nat.not_lt.mpr hhi),
      decide_eq_false (Int.not_lt.mpr hrlo), decide_eq_false (Int.not_lt.mpr hrhi)]
    rcases hband with h | h
    · rw [h]; exact Bool.false_ne_true
    · rw [h, Bool.and_comm]; exact Bool.false_ne_true

end

section
/-! The channel book, hints, sidings and weights on demand (R163 to R185). -/

namespace Sys2Proof.Laws

open Sys2Proof Sys2Proof.Machine Sys2Proof.Claims

variable {s : State}

/-- Where the book has room, no entry is freed. -/
theorem evict_of_room {n : Nat} (h : n ≤ s.bookFree) (port : BitVec 8) : ∀ f, s.evict port n f = s
  | 0 => rfl
  | _ + 1 => if_pos h

/-- An estimate for which the book has room enters it. -/
theorem bookEstimate_of_room (s : State) (x : Occasion) (k : CarrierCfg) (raw : List AdcIn) :
    let ls := s.soundRows x k raw
    let r := x.estimate k.groupPrbs (s.ofdm.occasions.any fun y => y.id != x.id && y.shares x) ls.1
    let ws := r.2.1.map (bookWords (bookExp r.2.1))
    let t := (s.modWcount x.carrier fun w => { w with estSat := satAdd w.estSat (ls.2 + r.2.2 + (ws.map fun w => w.2).sum) }).modOccasion x.id fun y => { y with published := true }
    ws.length ≤ t.bookFree → s.bookEstimate x k raw = t.bookPut x k (bookExp r.2.1) r.1 (ws.map fun w => w.1) := by
  intro ls r ws t hroom
  have hevict : t.evict x.port ws.length 256 = t := evict_of_room hroom x.port 256
  refine Eq.trans (b := if ws.length ≤ (t.evict x.port ws.length 256).bookFree then (t.evict x.port ws.length 256).bookPut x k (bookExp r.2.1) r.1 (ws.map fun w => w.1)
    else ((t.evict x.port ws.length 256).modWcount x.carrier fun w => { w with bookFull := satInc w.bookFull }).modOccasion x.id fun y => { y with abandoned := true }) rfl ?_
  rw [hevict]
  exact if_pos hroom

end Sys2Proof.Laws

open Sys2Proof Sys2Proof.Machine Sys2Proof.Claims Sys2Proof.Laws

/-- Settles O28: the core is free again, and the estimate takes its port's place in the book. -/
theorem channelBookPublishes : Obligations.ChannelBookPublishes := by
  intro s occ raw x i k hfind hcore hcfg hab hpub hend t u ls r ws v w hroom
  refine congrArg Host.Outcome.next ?_
  rw [hfind, hcore]
  dsimp only
  rw [hcfg]
  refine (if_neg (by rw [hab, hpub, decide_eq_false (Int.not_lt.mpr hend)]; decide)).trans ?_
  exact congrArg (State.soundingSweep · x.carrier x.slot) (bookEstimate_of_room u x k raw hroom)

/-- Settles O29: each by what its siding or claim waits for. -/
theorem weightProgress : Obligations.WeightProgress := by
  intro s car ul
  refine ⟨?hint, ?ready, ?slotEnd, ?publish, ?deadline⟩
  case hint =>
    intro c x hx p n t m k hk hcount hbad hslot hm hlayers hdist hnow
    refine congrArg Host.Outcome.next ((served_cmd hx _ _ rfl).trans ?_)
    dsimp only
    rw [hk]
    refine (if_neg (by rw [hcount]; decide)).trans ((if_neg ?_).trans (if_neg (Int.not_le.mpr hnow)))
    have hmap : (hintMap x.payload).isEmpty = false := by
      rw [Bool.eq_false_iff, ne_eq, List.isEmpty_iff]
      exact hm
    have hlay : ((hintMap x.payload).any fun y => Nat.ble (if pb x.payload 0 3 then k.ulLayers.toNat else k.dlLayers.toNat) y.1) = false := by
      rw [Bool.eq_false_iff]
      refine any_not fun y hy => ?_
      rw [Bool.eq_false_iff, ne_eq, Nat.ble_eq]
      exact Nat.not_le.mpr (hlayers y hy)
    rw [hbad, hmap, hlay, show (s.ofAirWord x.at_ % s.carrierSlot (pf x.payload 0 0 3).toFin != 0) = false from bne_eq_false_iff_eq.mpr hslot,
      show distinct ((hintMap x.payload).map fun y => y.2) = true from hdist]
    decide
  case ready =>
    intro x hx hr hall
    refine congrArg Host.Outcome.next ?_
    rw [hx]
    exact if_pos (by rw [hr, hall]; rfl)
  case slotEnd =>
    intro x hx hcount hend
    refine congrArg Host.Outcome.next ?_
    rw [hx]
    exact if_pos (by rw [hcount, decide_eq_true hend]; rfl)
  case publish =>
    intro slot grp x od d b w hx how hchain hd
    refine congrArg Host.Outcome.next ?_
    rw [hx]
    dsimp only
    rw [how]
    exact if_neg (by rw [hchain, decide_eq_false (Int.not_lt.mpr hd)]; decide)
  case deadline =>
    intro slot grp x od d b w hx how hchain hd
    refine congrArg Host.Outcome.next ?_
    rw [hx]
    dsimp only
    rw [how]
    exact if_neg (by rw [hchain, decide_eq_false (Int.not_lt.mpr hd)]; decide)

end

section
/-! Pre-distortion: its commands, captures, adaptations and blends (R214, R228 to R248). -/

namespace Sys2Proof.Laws

open Sys2Proof Sys2Proof.Machine Sys2Proof.Claims

variable {s : State} {c : Cmd} {x : Slot}

theorem isEmpty_of_ne_nil {α : Type} {l : List α} (h : l ≠ []) : l.isEmpty = false := by
  rw [Bool.eq_false_iff, ne_eq, List.isEmpty_iff]
  exact h

/-- An operation of DPD_CTRL on the paths named. -/
theorem dpdCtrl_ok {op : Nat} {calOnly : Bool} (hx : Served s c 0x42 x) (hop : (pf x.payload 8 0 4).toNat = op) (hps : dpdNamed x.payload ≠ [])
    (hcal : calOnly = true → s.mode.cur = .calibrate) (f : State → Fin 64 → State) (last : State → State) :
    s.dpdCtrl c op calOnly f last = (last ((dpdNamed x.payload).foldl f s)).finish c.ref .ok := by
  unfold State.dpdCtrl
  rw [served_cmd hx (opIs 8 0 4 op) _ (beq_iff_eq.mpr hop), if_neg (by rw [isEmpty_of_ne_nil hps]; decide)]
  refine if_neg ?_
  cases calOnly with
  | false => exact Bool.false_ne_true
  | true => rw [hcal rfl]; decide

/-- A read of DPD_CTRL whose buffer is aligned and taken. -/
theorem dpdRead_ok {op : Nat} (hx : Served s c 0x42 x) (hop : (pf x.payload 8 0 4).toNat = op) (hps : dpdNamed x.payload ≠ [])
    (hal : (pf x.payload 16 0 64).extractLsb' 0 6 = 0) (herr : c.respErr = false) (f : State → Fin 64 → Nat → Bytes × State) :
    let r := gather (dpdNamed x.payload) (fun s p => f s p (pf x.payload 9 0 3).toNat) s
    s.dpdRead c op f = (r.2.emit (.hostWrite (pf x.payload 16 0 64) r.1)).finish c.ref .ok := by
  intro r
  have hput : r.2.hostPut c (pf x.payload 16 0 64) r.1 = (true, r.2.emit (.hostWrite (pf x.payload 16 0 64) r.1)) := by
    rw [State.hostPut, herr]
    rfl
  unfold State.dpdRead
  rw [served_cmd hx (opIs 8 0 4 op) _ (beq_iff_eq.mpr hop)]
  refine (if_neg (by rw [isEmpty_of_ne_nil hps, hal]; decide)).trans ?_
  refine Eq.trans (b := if (r.2.hostPut c (pf x.payload 16 0 64) r.1).1 then (r.2.hostPut c (pf x.payload 16 0 64) r.1).2.finish c.ref .ok
    else (r.2.hostPut c (pf x.payload 16 0 64) r.1).2.complete c.ref .busErr) rfl ?_
  rw [hput]
  rfl

end Sys2Proof.Laws

open Sys2Proof Sys2Proof.Machine Sys2Proof.Claims Sys2Proof.Laws

theorem dpd_commands : Sys2Proof.Claims.DpdCommands := by
  intro s c x p
  refine ⟨?set, ?ctrl, ?read, ?adj⟩
  case set =>
    intro hx hb hp hlo hhi
    refine congrArg Host.Outcome.next ((served_cmd hx _ _ rfl).trans (if_neg ?_))
    rw [decide_eq_false (Nat.not_lt.mpr hb), beq_eq_false_iff_ne.mpr hp, decide_eq_false (Int.not_lt.mpr hlo), decide_eq_false (Int.not_lt.mpr hhi)]
    decide
  case ctrl =>
    intro q hq hx hop hps hcal
    simp only [dpdCtrlTable, List.mem_cons, List.not_mem_nil, or_false] at hq
    rcases hq with rfl | rfl | rfl | rfl <;> exact congrArg Host.Outcome.next (dpdCtrl_ok hx hop hps hcal _ _)
  case read =>
    intro q hq hx hop hps hal herr
    simp only [dpdReadTable, List.mem_cons, List.not_mem_nil, or_false] at hq
    rcases hq with rfl | rfl
    · exact congrArg Host.Outcome.next (dpdRead_ok hx hop hps hal herr _)
    · exact congrArg Host.Outcome.next (dpdRead_ok hx hop hps hal herr _)
  case adj =>
    intro hx hal hcal b hb hok
    refine congrArg Host.Outcome.next ((served_cmd hx _ _ rfl).trans ((if_neg (by rw [hal]; decide)).trans ((if_neg (by rw [hcal]; decide)).trans ?_)))
    rw [hb]
    exact if_neg (any_not fun q _ => hok q)

theorem dpd_progress : Sys2Proof.Claims.DpdProgress := by
  intro s
  refine ⟨?decide, ?seek, ?capture, ?publish, ?timeout, ?blend⟩
  case decide =>
    intro k p due o hcount hwant hout hadapt hcal hbring hlast t u hpick hel hsym hobs r hr
    have ht : t.lin.owners[k] = { s.lin.owners[k] with cfg := s.lin.cfg, lastAt := s.dp } := vset_same ..
    have hu : u.lin.owners[k] = { t.lin.owners[k] with want := some p } := vset_same ..
    have hmodes (v : State) (hv : v.lin.owners[k].cfg = s.lin.cfg) (hm : v.mode = s.mode) : v.capModes k = true := by
      rw [State.capModes, hv, hm, hadapt, bne_iff_ne.mpr hcal, bne_iff_ne.mpr hbring]
      rfl
    have hdecide : s.capDecide k = u := by
      refine (if_pos (hmodes t (by rw [ht]) rfl)).trans ?_
      show (t.modOwner k fun o => { o with want := t.capPick k }) = u
      rw [hpick]
    have hseek : u.capSeek k p = r.2.modOwner k fun y => { y with want := none } := by
      refine (if_neg (by rw [hmodes u (by rw [hu, ht]) rfl, hel]; decide)).trans ?_
      rw [show u.lin.owners[k].lastAt = s.dp by rw [hu, ht], hsym, hobs]
      exact congrArg (State.modOwner · k _) (if_pos hr)
    refine congrArg Host.Outcome.next ((if_neg (by rw [hcount]; decide)).trans ?_)
    rw [hwant]
    refine (if_neg (by rw [hout]; simpa using hlast)).trans ?_
    rw [hdecide]
    dsimp only
    rw [hu]
    exact hseek
  case seek =>
    intro k p hcount hwant hmodes hel hsym hlast
    refine congrArg Host.Outcome.next ((if_neg (by rw [hcount]; decide)).trans ?_)
    rw [hwant]
    refine (if_neg (by rw [hmodes, hel]; decide)).trans ?_
    rw [hsym]
    exact if_pos hlast
  case capture =>
    intro p obs c hc hcal hbring y t1 t2 t
    have hexec : exec (.dpdCaptureEnd p obs) s = .next (if t.lin.paths[p].gen ≠ c.gen then t else t.capLearn p c y) := by
      refine congrArg Host.Outcome.next ?_
      rw [hc]
      exact if_neg fun h => h.elim hcal hbring
    rw [hexec]
    exact ⟨fun h => congrArg Host.Outcome.next (if_pos h), fun h => congrArg Host.Outcome.next (if_neg (not_not_intro h))⟩
  case publish =>
    intro p a ha
    refine ⟨fun hgen hdue hcal hbring hblend => congrArg Host.Outcome.next ?_, fun hlate => congrArg Host.Outcome.next ?_⟩
    · dsimp only
      split
      next hnone => exact absurd (hnone.symm.trans ha) (Option.some_ne_none a).symm
      next a' hsome =>
        obtain rfl := Option.some.inj (hsome.symm.trans ha)
        refine (if_neg ?_).trans ((if_neg (by rw [hblend]; decide)).trans ?_)
        · rw [not_or, not_or, not_or, Classical.not_not]
          exact ⟨hgen, Nat.not_lt.mpr hdue, hcal, hbring⟩
        · cases hf : a'.fit with
          | none => rfl
          | some set => rfl
    · dsimp only
      split
      next hnone => exact absurd (hnone.symm.trans ha) (Option.some_ne_none a).symm
      next a' hsome =>
        obtain rfl := Option.some.inj (hsome.symm.trans ha)
        exact if_pos (hlate.elim .inl fun h => .inr (.inl h))
  case timeout =>
    intro p a ha
    refine congrArg Host.Outcome.next ?_
    rw [ha]
    rfl
  case blend => exact fun hcount => congrArg Host.Outcome.next (if_neg (by rw [hcount]; decide))

/-- Settles O30: the commands by their checks; the progress by what each path waits for. -/
theorem dpdCommandsAndProgress : Obligations.DpdCommandsAndProgress := ⟨dpd_commands, dpd_progress⟩

end

section
/-! CAL_RUN, lent paths and their rejoin (R257 to R260, R536). -/

namespace Sys2Proof.Laws

open Sys2Proof Sys2Proof.Machine Sys2Proof.Claims

variable {s : State} {p : Fin 64}

/-- A path in traffic is lent to the run in hand that names it, at a multiple of 983,040 ticks that lies far enough ahead of the acceptance. -/
theorem execLendStart_run {r : CalRun} (hlent : s.radio.paths[p].lent = false) (htraffic : s.inTraffic p = true) (hgrid : s.ym.now % subframe = 0)
    (hrun : (s.cal.runs.find? fun r => !r.waiting && r.lend && r.paths.getLsbD p.val && r.left.any fun k => k.path? == some p || (k.cls == 2 && k.idx == p.val / 8)) = some r)
    (hdue : ceilTo subframe (r.accepted + 98304) ≤ s.ym.now) :
    exec (.lendStart p) s = .next (State.lend { s with cal := { s.cal with runs := s.cal.runs.map fun (q : CalRun) =>
      if q.ref = r.ref then { q with lentNow := q.lentNow ||| ((1#64) <<< p.val) } else q } } p) := by
  refine congrArg Host.Outcome.next ?_
  rw [hrun]
  exact if_neg (by rw [hlent, htraffic, decide_eq_false (Int.not_lt.mpr hdue), hgrid]; decide)

/-- The same for a logic BIST, where no run names the path. -/
theorem execLendStart_lbist {l : Lbist} (hlent : s.radio.paths[p].lent = false) (htraffic : s.inTraffic p = true) (hgrid : s.ym.now % subframe = 0)
    (hrun : (s.cal.runs.find? fun r => !r.waiting && r.lend && r.paths.getLsbD p.val && r.left.any fun k => k.path? == some p || (k.cls == 2 && k.idx == p.val / 8)) = none)
    (hl : l ∈ s.mem.lbist) (htarget : l.target = 1) (hindex : l.index = p.val) (hlend : l.lend = true) (hfin : l.fin = none)
    (hdue : ceilTo subframe (l.accepted + 98304) ≤ s.ym.now) : exec (.lendStart p) s = .next (s.lend p) := by
  have hany : (s.mem.lbist.any fun l => l.target == 1 && l.index == p.val && l.lend && l.fin.isNone && ceilTo subframe (l.accepted + 98304) ≤ s.ym.now) = true := by
    rw [List.any_eq_true]
    exact ⟨l, hl, by simp [htarget, hindex, hlend, hfin, hdue]⟩
  refine congrArg Host.Outcome.next ?_
  rw [hrun]
  exact if_neg (by rw [hany, hlent, htraffic, hgrid]; decide)

end Sys2Proof.Laws

open Sys2Proof Sys2Proof.Machine Sys2Proof.Claims Sys2Proof.Laws

/-- Settles O31: a run passes its checks and begins or waits; a path is lent, and rejoins, where a run or a logic BIST asks for it. -/
theorem calibrationRuns : Obligations.CalibrationRuns := by
  intro s
  refine ⟨?run, ?lend, ?rejoin⟩
  case run =>
    intro c x hx ps mask hps hmask hgate hact hmode htrans hconv hobs ks r t
    have hexec : exec (.calRun c) s = .next (if (s.cal.runs.any fun q => !q.waiting && q.overlaps r) = true then t { r with waiting := s.cal.runs.any fun q => !q.waiting && q.overlaps r }
        else (t { r with waiting := s.cal.runs.any fun q => !q.waiting && q.overlaps r }).calRunBegin { r with waiting := s.cal.runs.any fun q => !q.waiting && q.overlaps r }) := by
      refine congrArg Host.Outcome.next ((served_cmd hx _ _ rfl).trans ?_)
      refine (if_neg (by rw [isEmpty_of_ne_nil hps, beq_eq_false_iff_ne.mpr hmask]; decide)).trans ?_
      refine (if_neg (by rw [hgate]; decide)).trans ((if_neg (any_not fun p hp => by rw [(hact p hp).1]; rfl)).trans ?_)
      refine (if_neg ?_).trans ((if_neg ?_).trans ((if_neg (by rw [htrans, hconv]; decide)).trans (if_neg ?_)))
      · rw [Bool.and_eq_true]
        rintro ⟨hl, hany⟩
        refine any_not (fun p hp => ?_) hany
        exact ((hact p hp).2).resolve_left fun h => by rw [h] at hl; exact Bool.false_ne_true hl
      · rw [Bool.and_eq_true, bne_iff_ne, bne_iff_ne]
        rintro ⟨h1, h2⟩
        exact hmode.elim h1 h2
      · rw [Bool.and_eq_true, Bool.or_eq_true]
        rintro ⟨hbit, hany⟩
        exact any_not (fun p hp => by rw [Option.isNone_eq_false_iff]; exact hobs hbit p hp) hany
    rw [hexec]
    cases hw : s.cal.runs.any fun q => !q.waiting && q.overlaps r with
    | true => rfl
    | false => rfl
  case lend =>
    intro p hlent htraffic hgrid lent run
    exact ⟨fun r hr hdue => execLendStart_run hlent htraffic hgrid hr hdue,
      fun hr l hl htarget hindex hlend hfin hdue => execLendStart_lbist hlent htraffic hgrid hr hl htarget hindex hlend hfin hdue⟩
  case rejoin =>
    intro p hlent hst htransit hgrid hruns hlbist
    have hbusy : (s.cal.runs.any fun r => !r.waiting && r.lentNow.getLsbD p.val && r.left.any fun k => k.path? == some p || (k.cls == 2 && k.idx == p.val / 8)) = false := by
      refine List.any_eq_false.mpr fun r hr h => ?_
      simp only [Bool.and_eq_true, Bool.not_eq_true', List.any_eq_true, Bool.or_eq_true, beq_iff_eq] at h
      obtain ⟨⟨hw, hl⟩, k, hk, hp⟩ := h
      obtain ⟨hne, hcls⟩ := hruns r hr hw hl k hk
      exact hp.elim hne fun h => hcls h.1 h.2
    have htest : (s.mem.lbist.any fun l => l.target == 1 && l.index == p.val && l.result.isNone) = false := by
      refine List.any_eq_false.mpr fun l hl h => ?_
      simp only [Bool.and_eq_true, beq_iff_eq, Option.isNone_iff_eq_none] at h
      exact hlbist l hl h.1.1 h.1.2 h.2
    refine congrArg Host.Outcome.next (if_neg ?_)
    rw [hbusy, htest, hlent, hst, htransit, hgrid]
    decide

end

section
/-! What calibrations do by themselves, their settings and their store (R84, R99, R252, R253, R260 to R266, R269). -/

namespace Sys2Proof.Laws

open Sys2Proof Sys2Proof.Machine Sys2Proof.Claims

variable {s : State} {id cls idx : Nat} {vals : List Int}

/-- Only a phase calibration waits for a valid epoch. -/
theorem calVoid_false (s : State) {k : CalKey} (h : k.id = 9 → s.radio.epochValid = true) : s.calVoid k = false := by
  rw [State.calVoid, Bool.and_eq_false_iff]
  by_cases hk : k.id = 9
  · exact .inr (by rw [h hk]; rfl)
  · exact .inl (beq_eq_false_iff_ne.mpr hk)

theorem calibrationComplete_foreground (hid : id ≠ 3) (hfore : s.calForeground { id := id, cls := cls, idx := idx } (calTime id) = true)
    (hepoch : id = 9 → s.radio.epochValid = true) :
    let k : CalKey := { id := id, cls := cls, idx := idx }
    let t := ((s.calWhole k vals).calDone k).modCalRec k fun r => { r with halted := false }
    exec (.calibrationComplete id cls idx true vals) s = .next (((if id = 9 then t.phasePreset k vals else t).calInvalidates k).calRunMet k true) :=
  congrArg Host.Outcome.next ((if_neg hid).trans ((if_pos hfore).trans ((if_neg (by decide)).trans (if_neg (by rw [calVoid_false s hepoch]; decide)))))

/-- A background result, with the partial results used up, is an outlier or enters service. -/
theorem calibrationComplete_background (hid : id ≠ 3) (hfore : s.calForeground { id := id, cls := cls, idx := idx } (calTime id) = false)
    (hback : s.calBackground { id := id, cls := cls, idx := idx } = true) (hepoch : id = 9 → s.radio.epochValid = true) :
    let k : CalKey := { id := id, cls := cls, idx := idx }
    let t : State := { s with cal := { s.cal with partials := s.cal.partials.filter fun x => x.key != k } }
    let n := (t.calRec k).outRun + 1
    let u := t.modCalRec k fun r => { r with last := .outlier, outRun := n, halted := r.halted || decide (n ≥ 3) }
    exec (.calibrationComplete id cls idx true vals) s = .next (if (match t.calVal? k with | some v => v.valid && outlier id v.target vals | none => false) then
      (if n = 3 then u.postCal 1 id { cls := cls, idx := idx } else u) else (t.calEnter k vals).calDone k) := by
  intro k t n u
  exact congrArg Host.Outcome.next ((if_neg hid).trans ((if_neg (by rw [show s.calForeground k (if true then calTime k.id else 0) = false from hfore]; decide)).trans
    ((if_pos hback).trans ((if_neg (by decide)).trans (if_neg (by rw [calVoid_false t hepoch]; decide))))))

/-- A failed background result. -/
theorem calFailed_background (s : State) (k : CalKey) :
    let n := (s.calRec k).failRun + 1
    let t := s.modCalRec k fun x => { x with last := .fail, failRun := if n ≥ 3 then 0 else n }
    let t : State := { t with cal := { t.cal with partials := t.cal.partials.filter fun x => x.key != k } }
    s.calFailed k false = if n ≥ 3 then t.raiseFault .calRepeat { cls := k.cls, idx := k.idx } else t := by
  unfold State.calFailed
  simp only [Bool.false_eq_true, false_or, if_false]

/-- The wish for a background slot of a calibration. -/
def calWanted (s : State) (k : CalKey) : Bool :=
  if k.id = 3 then s.cal.cfg.bgEn.getLsbD 3 && s.mode.cur != .calibrate && s.counting && !(s.calRec k).halted else s.calDue k

theorem backgroundCalDecision_ok {due : Tick} :
    let k : CalKey := { id := id, cls := cls, idx := idx }
    let t := s.modCalRec k fun r => { r with cfg := some s.cal.cfg }
    calWanted s k = true → (s.ym.events.any fun e => match e.body with | .calSlot q _ => q == k | _ => false) = false →
    (s.cal.slots.any fun x => x.key == k && (id != 3 || decide (s.dp < x.fin))) = false → (s.cal.partials.any fun x => x.key == k && x.slots ≥ calSlots id) = false →
    t.calSubjectOk k = true → t.calClash k (t.dpOf due) (t.dpOf due + calLen id) = false → t.ym.now + 16384 ≤ due →
    exec (.backgroundCalDecision id cls idx due) s = .next
      (t.present (.internal .farrier) none [{ kind := .calSlot, due := due, res := { cls := cls, idx := idx }, body := .calSlot k (calLen id) }]).2 := by
  intro k t hwant hev hslots hpart hok hclash hdue
  have hrec : (if (s.cal.recs.any (fun x => x.key == k) || calWanted s k) = true then t else s) = t := if_pos (by rw [hwant, Bool.or_true])
  have hgo (v : State) (hv : v = t) : (if (!calWanted s k || ((s.ym.events.any fun e => match e.body with | .calSlot q _ => q == k | _ => false)
        || s.cal.slots.any fun x => x.key == k && (id != 3 || decide (s.dp < x.fin))) || (s.cal.partials.any fun x => x.key == k && x.slots ≥ calSlots id)
        || !v.calSubjectOk k || v.calClash k (v.dpOf due) (v.dpOf due + calLen id) || decide (due < v.ym.now + 16384)) = true then v
      else (v.present (.internal .farrier) none [{ kind := .calSlot, due := due, res := { cls := cls, idx := idx }, body := .calSlot k (calLen id) }]).2)
      = (t.present (.internal .farrier) none [{ kind := .calSlot, due := due, res := { cls := cls, idx := idx }, body := .calSlot k (calLen id) }]).2 := by
    rw [hv, hwant, hev, hslots, hpart, hok, hclash, decide_eq_false (Int.not_lt.mpr hdue)]
    rfl
  exact congrArg Host.Outcome.next (hgo _ hrec)

end Sys2Proof.Laws

open Sys2Proof Sys2Proof.Machine Sys2Proof.Claims Sys2Proof.Laws

/-- Settles O32: by whether the result is foreground, background or neither, and by what its slot meets. -/
theorem calibrationProgress : Obligations.CalibrationProgress := by
  intro s id cls idx k
  refine ⟨?done, ?failed, ?back, ?backFailed, ?step, ?decide, ?slot, rfl, ?store, ?set⟩
  case done => exact fun vals => calibrationComplete_foreground
  case failed =>
    intro vals hid hfore
    exact congrArg Host.Outcome.next ((if_neg hid).trans ((if_pos hfore).trans rfl))
  case back =>
    intro vals hid hfore hback hepoch t
    have hexec := calibrationComplete_background (vals := vals) hid hfore hback hepoch
    refine ⟨fun hin => ?_, ?_⟩
    · refine hexec.trans (congrArg Host.Outcome.next (if_neg ?_))
      cases hv : t.calVal? k with
      | none => exact Bool.false_ne_true
      | some v =>
        intro h
        obtain ⟨hvalid, hout⟩ := Bool.and_eq_true_iff.mp h
        exact Bool.false_ne_true ((hin v hv hvalid).symm.trans hout)
    · intro v hv hvalid hout n u
      refine hexec.trans (congrArg Host.Outcome.next (if_pos ?_))
      rw [hv]
      exact Bool.and_eq_true_iff.mpr ⟨hvalid, hout⟩
  case backFailed =>
    intro vals hid hfore hback n
    exact congrArg Host.Outcome.next ((if_neg hid).trans ((if_neg (show ¬ s.calForeground k 0 = true by rw [hfore]; decide)).trans ((if_pos hback).trans (calFailed_background s k))))
  case step =>
    intro v hv
    refine ⟨fun hid hwait => congrArg Host.Outcome.next ?_, fun hid x p hwait hpath hcap => congrArg Host.Outcome.next ?_⟩
    · dsimp only
      rw [hv]
      refine (if_neg hid).trans ?_
      rw [hwait]
      cases (s.calStep v).moving <;> rfl
    · dsimp only
      rw [hv]
      refine (if_pos hid).trans ?_
      rw [hwait, show CalKey.path? { id := id, cls := cls, idx := idx } = some p from hpath]
      exact if_neg (by rw [hcap]; decide)
  case decide => exact fun due => backgroundCalDecision_ok
  case slot =>
    intro ev e n h hb hok hfree t a
    have hexec (hchk : s.calSlotCheck e = none) : exec (.calSlotRelease ev) s = .next (closeGroup (t.calSlotTake e) e) := by
      refine congrArg Host.Outcome.next ?_
      rw [h.1]
      dsimp only
      rw [hb]
      exact (if_neg (by rw [hok, hfree]; decide)).trans (release_ok (passes_of_next h hchk) _)
    refine ⟨fun p hcls hp hcause => ?_, fun hcls => ?_, fun i hcls hi => ?_⟩
    · subst hcls
      have hchk : s.calSlotCheck e = none := by
        rw [State.calSlotCheck, hb]
        dsimp only
        rw [hp]
        exact Option.map_eq_none_iff.mpr hcause
      refine (hexec hchk).trans (congrArg (fun u => Host.Outcome.next (closeGroup u e)) ?_)
      rw [State.calSlotTake, hb]
      dsimp only
      rw [hp]
      rfl
    · subst hcls
      have hchk : s.calSlotCheck e = none := by
        rw [State.calSlotCheck, hb]
        rfl
      refine (hexec hchk).trans (congrArg (fun u => Host.Outcome.next (closeGroup u e)) ?_)
      rw [State.calSlotTake, hb]
      rfl
    · subst hcls
      have hchk : s.calSlotCheck e = none := by
        rw [State.calSlotCheck, hb]
        rfl
      refine (hexec hchk).trans (congrArg (fun u => Host.Outcome.next (closeGroup u e)) ?_)
      rw [State.calSlotTake, hb]
      dsimp only
      rw [hi]
      rfl
  case store =>
    intro keys hmode hkeys
    refine congrArg Host.Outcome.next (if_neg ?_)
    rw [beq_eq_false_iff_ne.mpr hmode, isEmpty_of_ne_nil hkeys]
    decide
  case set =>
    intro c x p hx hb htemp hbg cfg
    refine congrArg Host.Outcome.next ((served_cmd hx _ _ rfl).trans (if_neg ?_))
    rw [decide_eq_false (Nat.not_lt.mpr hb), beq_eq_false_iff_ne.mpr htemp, show (pf x.payload 0 0 16 &&& 0xF007 != 0) = false from bne_eq_false_iff_eq.mpr hbg]
    decide

end

section
/-! Writes of the tack store (R271 to R273), the burst commands and the burst receiver (R198 to R213). -/

namespace Sys2Proof.Laws

open Sys2Proof Sys2Proof.Machine Sys2Proof.Claims

variable {s : State}

theorem finRange_two : List.finRange 2 = [0, 1] := rfl

/-- The lane that is free, of the two. -/
theorem lane_find (f : Fin 2 → Bool) : (List.finRange 2).find? f = if f 0 then some 0 else if f 1 then some 1 else none := by
  rw [finRange_two]
  cases h0 : f 0 <;> cases h1 : f 1 <;> simp [List.find?, h0, h1]

/-- The lanes that receive, of the two. -/
theorem lane_filter (f : Fin 2 → Bool) : (List.finRange 2).filter f = (if f 0 then [0] else []) ++ if f 1 then [1] else [] := by
  rw [finRange_two]
  cases h0 : f 0 <;> cases h1 : f 1 <;> simp [List.filter, h0, h1]

theorem lanes_other {l k : Fin 2} (h : k ≠ l) : l = 0 ∧ k = 1 ∨ l = 1 ∧ k = 0 := by
  revert l k
  decide

theorem lane_find_other {f : Fin 2 → Bool} {l k : Fin 2} (h : k ≠ l) (hl : f l = false) (hk : f k = true) : (List.finRange 2).find? f = some k := by
  rw [lane_find]
  obtain ⟨rfl, rfl⟩ | ⟨rfl, rfl⟩ := lanes_other h
  · rw [hl, hk]; rfl
  · rw [hk]; rfl

theorem lane_filter_one {f : Fin 2 → Bool} {l k : Fin 2} (h : k ≠ l) (hl : f l = true) (hk : f k = false) : (List.finRange 2).filter f = [l] := by
  rw [lane_filter]
  obtain ⟨rfl, rfl⟩ | ⟨rfl, rfl⟩ := lanes_other h
  · rw [hl, hk]; rfl
  · rw [hl, hk]; rfl

/-- Where one lane receives and the other searches, the candidate captures the first if its level is far enough above, and is ignored otherwise. -/
theorem placeCandidate_receiving {l k : Fin 2} (hkl : k ≠ l) (hl : (s.burst.lanes[l]).receiving = true) (hk : s.burst.lanes[k].st = .search) (w : BurstWindow) (tc : Nat)
    (level freq : Int) :
    s.placeCandidate w tc level freq = if s.burst.lanes[l].level + 2 * s.burst.cfg.capture.toNat ≤ level then (s.captureLane l).holdLane k w tc level freq
      else s.modBurst fun n => { n with ignored := satInc n.ignored } := by
  have hkr : (s.burst.lanes[k]).receiving = false := by rw [Lane.receiving, hk]; rfl
  have hls : (s.burst.lanes[l].st == .search) = false := by
    rw [beq_eq_false_iff_ne]
    intro h
    rw [Lane.receiving, h] at hl
    exact absurd hl (by decide)
  unfold State.placeCandidate
  rw [lane_find_other hkl hls (by rw [hk]; rfl), lane_filter_one hkl hl hkr]
  rfl

/-- Where no lane receives, a free lane holds the candidate, and without one it is lost. -/
theorem placeCandidate_idle (h : ∀ k : Fin 2, (s.burst.lanes[k]).receiving = false) (w : BurstWindow) (tc : Nat) (level freq : Int) :
    s.placeCandidate w tc level freq = match (List.finRange 2).find? fun l => s.burst.lanes[l].st == .search with
      | some l => s.holdLane l w tc level freq
      | none => s.modBurst fun n => { n with lostBusy := satInc n.lostBusy } := by
  unfold State.placeCandidate
  rw [lane_filter]
  simp only [h, Bool.false_eq_true, if_false]
  rfl

/-- What an update of one lane does to its state is all that counts of it. -/
theorem modLane_congr {l : Fin 2} {f g : Lane → Lane} (h : f s.burst.lanes[l] = g s.burst.lanes[l]) : s.modLane l f = s.modLane l g := by
  rw [State.modLane, State.modLane, vmod, vmod, h]

theorem toList_any_false {α : Type} {n : Nat} {v : Vector α n} {f : α → Bool} (h : ∀ i : Fin n, f v[i] = false) : v.toList.any f = false := by
  refine List.any_eq_false.mpr fun a ha => ?_
  obtain ⟨i, hi, rfl⟩ := Vector.getElem_of_mem (Vector.mem_toList_iff.mp ha)
  exact Bool.eq_false_iff.mp (h ⟨i, hi⟩)

/-- A detection in the window that no lane holds already is placed. -/
theorem execBurstDetection_new {sample : Nat} {raw : List AdcIn} {w : BurstWindow} (hw : s.burst.window = some w) (hin : w.openAt + 32 * (sample + 64) ≤ s.dp)
    (hopen : w.openAt + 32 * sample < w.close) :
    let rs := s.burstStreams w.paths w.off w.first raw
    s.detectsAt rs sample = true → (∀ k : Fin 2, (s.burst.lanes[k]).same (w.openAt + 32 * burstTiming rs sample) = false) →
    exec (.burstDetection sample raw) s
      = .next (s.placeCandidate w (burstTiming rs sample) (candidateLevel rs (burstTiming rs sample)) (candidateOffset rs (burstTiming rs sample))) := by
  intro rs hdet hnew
  refine congrArg Host.Outcome.next ?_
  rw [hw]
  refine (if_neg (by rw [decide_eq_false (Nat.not_lt.mpr hin), decide_eq_false (Nat.not_le.mpr hopen), hdet]; decide)).trans (if_neg ?_)
  exact Bool.eq_false_iff.mp (toList_any_false hnew)

end Sys2Proof.Laws

open Sys2Proof Sys2Proof.Machine Sys2Proof.Claims Sys2Proof.Laws

/-- Settles O33: by whether the write is verified, and whether it is the second try. -/
theorem tackWrites : Obligations.TackWrites := by
  intro s w rest p hq hp
  refine ⟨congrArg Host.Outcome.next ?_, fun hretry => congrArg Host.Outcome.next ?_, fun hretry r hr => congrArg Host.Outcome.next ?_⟩
  · rw [hq]
    dsimp only
    rw [hp]
    rfl
  · rw [hq]
    dsimp only
    rw [hp]
    exact (if_neg Bool.false_ne_true).trans (if_neg (by rw [hretry]; decide))
  · rw [hq]
    dsimp only
    rw [hp]
    refine (if_neg Bool.false_ne_true).trans ((if_pos hretry).trans ?_)
    rw [hr]

theorem burst_commands : Sys2Proof.Claims.BurstCommands := by
  intro s c x p
  refine ⟨?cfg, ?tx, ?rx⟩
  case cfg =>
    intro hx k h0 h1 htol hit hit' hnf hcap hev hlanes
    refine congrArg Host.Outcome.next ((served_cmd hx _ _ rfl).trans ((if_neg ?_).trans (if_neg ?_)))
    · rw [beq_eq_false_iff_ne.mpr h0, beq_eq_false_iff_ne.mpr h1, beq_eq_false_iff_ne.mpr htol, beq_eq_false_iff_ne.mpr hit, decide_eq_false (Nat.not_lt.mpr hit'),
        decide_eq_false (Nat.not_lt.mpr hnf), decide_eq_false (Nat.not_lt.mpr hcap)]
      decide
    · rw [toList_any_false (v := s.burst.lanes) (f := fun l : Lane => l.st != .search) fun l => by rw [hlanes l]; rfl, Bool.or_false]
      exact any_not fun e he => by rw [beq_eq_false_iff_ne.mpr (hev e he).1, beq_eq_false_iff_ne.mpr (hev e he).2]; rfl
  case tx =>
    intro hx hbad b due e href hf
    refine congrArg Host.Outcome.next ((served_cmd hx _ _ rfl).trans ((if_neg (by rw [hbad]; decide)).trans ?_))
    rw [show s.burstTxRefusal _ = none from href]
    exact presentCmd_ok hf c x _ id
  case rx =>
    intro hx hbad due e href hf
    refine congrArg Host.Outcome.next ((served_cmd hx _ _ rfl).trans ((if_neg (by rw [hbad]; decide)).trans ?_))
    rw [href]
    exact presentCmd_ok hf c x _ id

theorem burst_receiver : Sys2Proof.Claims.BurstReceiver := by
  intro s l raw x
  refine ⟨?detect, ?syncFail, ?sync, ?syncEnd, ?long, ?payload, ?decode, ?close, ?noise⟩
  case detect =>
    intro sample w hw hin hopen rs hdet tc level hnew
    have hexec := execBurstDetection_new hw hin hopen hdet hnew
    have hidle (h : ∀ k : Fin 2, (s.burst.lanes[k]).receiving = false) := hexec.trans (congrArg Host.Outcome.next (placeCandidate_idle h w tc level (candidateOffset rs tc)))
    refine ⟨fun hs => ?_, fun k hkl hl hk => ?_, fun hh => ?_, fun k hkl hl hk hlev => ?_, fun k hkl hl hk hlev => ?_⟩
    · refine (hidle fun k => by rw [Lane.receiving, hs k]; rfl).trans ?_
      rw [lane_find, hs 0]
      rfl
    · refine (hidle fun j => ?_).trans ?_
      · obtain rfl | rfl : j = l ∨ j = k := by
          rcases lanes_other hkl with ⟨rfl, rfl⟩ | ⟨rfl, rfl⟩ <;> omega
        · rw [Lane.receiving, show s.burst.lanes[j].st = .hold from hl]; rfl
        · rw [Lane.receiving, hk]; rfl
      · rw [lane_find_other hkl (by rw [show s.burst.lanes[l].st = .hold from hl]; rfl) (by rw [hk]; rfl)]
    · refine (hidle fun k => by rw [Lane.receiving, hh k]; rfl).trans ?_
      rw [lane_find, hh 0, hh 1]
      rfl
    · refine hexec.trans (congrArg Host.Outcome.next ?_)
      rw [placeCandidate_receiving hkl hl hk]
      exact if_neg (Int.not_le.mpr hlev)
    · refine hexec.trans (congrArg Host.Outcome.next ?_)
      rw [placeCandidate_receiving hkl hl hk]
      exact if_pos hlev
  case syncFail =>
    intro hst hdue hnone
    exact congrArg Host.Outcome.next (if_pos (by rw [beq_iff_eq.mpr hst, decide_eq_true hdue, hnone]; rfl))
  case sync =>
    intro hyp hst hsome hdue
    refine congrArg Host.Outcome.next ?_
    dsimp only
    rw [hsome]
    refine (if_pos ?_).trans (modLane_congr rfl)
    rw [Bool.and_eq_true, beq_iff_eq, decide_eq_true_eq]
    exact ⟨hst, hdue⟩
  case syncEnd => exact fun hst hdue => congrArg Host.Outcome.next (if_pos (by rw [beq_iff_eq.mpr hst, decide_eq_true hdue]; rfl))
  case long => exact fun hst hdue => congrArg Host.Outcome.next (if_pos (by rw [beq_iff_eq.mpr hst, decide_eq_true hdue]; rfl))
  case payload => exact fun hst htr hdue => congrArg Host.Outcome.next (if_pos (by rw [beq_iff_eq.mpr hst, htr, decide_eq_true hdue]; rfl))
  case decode => exact fun hst => congrArg Host.Outcome.next (if_neg (by rw [hst]; decide))
  case close =>
    intro w hw hdue
    refine congrArg Host.Outcome.next ?_
    rw [hw]
    exact if_pos hdue
  case noise =>
    intro p car k hk n hlen hraw sum
    refine congrArg Host.Outcome.next ?_
    dsimp only
    rw [hk]
    refine if_neg ?_
    rw [List.length_take, Nat.min_eq_left hlen, hraw, decide_eq_false (Nat.lt_irrefl n), decide_eq_false (not_not_intro (show n = 2 ^ s.burst.cfg.nfAvg.toNat from rfl))]
    decide

/-- Settles O34: the commands by their checks; the receiver by the state of its lanes. -/
theorem burstCommandsAndReceiver : Obligations.BurstCommandsAndReceiver := ⟨burst_commands, burst_receiver⟩

end

section
/-! Transitions of the operating mode (R32 to R45, R448), the supply and the temperature (R387, R388, R538). -/

namespace Sys2Proof.Laws

open Sys2Proof Sys2Proof.Machine Sys2Proof.Claims

variable {s : State} {c : Cmd} {x : Slot}

/-- A MODE_SET that the device can take enters its MODE_CHANGE event. -/
theorem execModeSet_ok {ask : Transition} (hx : Served s c 0x10 x) (hask : x.modeAsk c.ref 0 = some ask) :
    let start := (s.dueOf x).getD (ceilTo (s.startGrid ask.target) (s.ym.now + 491520))
    let f : BitVec 64 × State := if ask.autoCal then s.takeFree 64 else (0, s)
    let t : Transition := { ask with start := start, resume := start, calFree := f.1.toNat }
    x.atBad = false → t.badArg = false → start % s.startGrid t.target = 0 → (t.autoCal = true → t.target ≠ .dormant ∧ s.mode.cur ≠ .dormant) →
    s.modeBusy = false → s.pwr.st = .active → s.counting = true → (s.modePlan t).allowed = true →
    let e : List NewEv := [{ kind := .modeChange, due := start, res := { cls := 9, idx := 0 }, body := .modeChange }]
    Fits f.2 e → exec (.modeSet c) s = .next (let u := taken f.2 c x none e
      { u with mode := { u.mode with trans := some (u.modeFix t) } }) := by
  intro start f t hat hbad hgrid hdorm hbusy hact hcnt hallow e hfits
  refine congrArg Host.Outcome.next ((served_cmd hx _ _ rfl).trans ?_)
  rw [hask]
  dsimp -zeta only
  extract_lets grid start' f' t'
  have hstart : start' = start := by
    unfold start' start
    cases s.dueOf x <;> rfl
  clear_value start'
  subst hstart
  refine (if_neg ?_).trans ((if_neg ?_).trans ((if_neg ?_).trans ((if_neg ?_).trans ((if_neg ?_).trans (presentCmd_ok hfits c x none _)))))
  · rw [hat, show Transition.badArg _ = false from hbad, show start % s.startGrid ask.target = 0 from hgrid]
    decide
  · rw [Bool.and_eq_true, Bool.or_eq_true, beq_iff_eq, beq_iff_eq, not_and, not_or]
    exact hdorm
  · rw [hbusy]; decide
  · rw [hact, hcnt]; decide
  · rw [show (s.modePlan _).allowed = true from hallow]; decide

/-- At its resume boundary a transition ends with OK. -/
theorem execModeTransitionEnd_ok {t : Transition} {others : Bool} (ht : s.mode.trans = some t) (hstarted : t.started = true) (hfault : t.faulted = false)
    (hres : t.resume ≤ s.ym.now) (hend : t.endDp ≤ s.dp) (harr : t.target = .array → s.arrayReady = true ∧ others = true) :
    exec (.modeTransitionEnd true others) s = .next (
      let u := (if t.redo.isEmpty && t.reseed = 0 then s else s.calSettle).calRestore t.redo t.autoCal
      let u := (setBits t.reseed).foldl (fun (u : State) p => if u.radio.paths[p].retired then u else u.seedDpd p) u
      let u : State := { u with mode := { u.mode with trans := none } }
      (u.complete t.ref .ok).postMode t .ok (.v 32 (BitVec.ofInt 32 (t.resume / frameTicks)).toNat)) := by
  refine congrArg Host.Outcome.next ?_
  rw [ht]
  refine (if_neg ?_).trans ((if_neg ?_).trans (if_neg ?_))
  · rw [hstarted]; decide
  · rw [hfault]; decide
  · rintro (h | h | ⟨htgt, h⟩)
    · exact Int.not_lt.mpr hres h
    · exact absurd hend (by omega)
    · obtain ⟨hready, hothers⟩ := harr htgt
      rw [hready, hothers] at h
      exact h rfl

/-- Every carrier with a configuration carries traffic again at the boundary. -/
theorem execTrafficResume_ok {t : Tick} (ht : s.pwr.resumeAt = some t) (hwake : s.pwr.resumeWake = false) (hnow : t ≤ s.ym.now) (hsafe : s.host.top.safe = false)
    (hawake : Awake s) (hcal : s.mode.cur ≠ .calibrate) :
    exec .trafficResume s = .next ((List.finRange 8).foldl (fun (u : State) c =>
      if u.ofdm.carriers[c].cfg.isSome then u.modCarrier c fun y => { y with suspended := false, serveFrom := t } else u)
        { s with pwr := { s.pwr with resumeAt := none } }) := by
  obtain ⟨hact, hsteady⟩ := hawake
  refine congrArg Host.Outcome.next ?_
  rw [ht]
  refine (if_pos ⟨hwake, hnow, ?_, hact, hsteady⟩).trans (if_neg hcal)
  rw [hsafe]
  exact Bool.false_ne_true

/-- A MUTE_SET of paths in service enters one event for each path. -/
theorem execMuteSet_ok (hx : Served s c 0x14 x) (hat : x.atBad = false) (hne : setBits (pf x.payload 0 0 64) ≠ [])
    (hdir : pb x.payload 8 2 = true ∨ pb x.payload 8 1 = true) (hret : ∀ q ∈ setBits (pf x.payload 0 0 64), s.radio.paths[q].retired = false)
    (hsafe : s.host.top.safe = false ∨ pb x.payload 8 0 = true)
    (hfits : Fits s ((setBits (pf x.payload 0 0 64)).map fun q =>
      muteEvent q (pb x.payload 8 2) (pb x.payload 8 1) (pb x.payload 8 0) true (s.eventDue x .mute))) :
    exec (.muteSet c) s = .next (taken s c x (some (s.eventDue x .mute)) ((setBits (pf x.payload 0 0 64)).map fun q =>
      muteEvent q (pb x.payload 8 2) (pb x.payload 8 1) (pb x.payload 8 0) true (s.eventDue x .mute))) := by
  refine congrArg Host.Outcome.next ((served_cmd hx _ _ rfl).trans ((if_neg ?_).trans ((if_neg ?_).trans ((if_neg ?_).trans (presentCmd_ok hfits c x _ id)))))
  · rw [hat]
    rcases hdir with h | h <;> rw [h]
    · exact Bool.false_ne_true
    · rw [Bool.or_true]; decide
  · rw [eq_false_of_ne_true (any_not hret)]
    rcases hsafe with h | h <;> rw [h]
    · exact Bool.false_ne_true
    · rw [Bool.not_true, Bool.and_false]; decide
  · rw [isEmpty_of_ne_nil hne]
    exact Bool.false_ne_true

end Sys2Proof.Laws

open Sys2Proof Sys2Proof.Machine Sys2Proof.Claims Sys2Proof.Laws

/-- Settles O35: the request, the release at the start point, the ends of a transition, the resumption of traffic and MUTE_SET, each by its checks. -/
theorem modeTransitions : Obligations.ModeTransitions := by
  intro s
  refine ⟨?set, ?release, ?ends, ?resume, ?mute⟩
  case set => exact fun c x ask hx hask => execModeSet_ok hx hask
  case release =>
    intro ev e t he ht u
    refine ⟨fun hr => congrArg Host.Outcome.next ?_, fun st hr => congrArg Host.Outcome.next ?_⟩ <;>
    · rw [he, ht]
      dsimp only
      rw [show (s.removeEvent e.id).startRefusal t = _ from hr]
  case ends =>
    intro t others ht hstarted
    refine ⟨execModeTransitionEnd_ok ht hstarted, fun hf => ?_, ?_, fun htgt hlate hnot => ?_⟩
    · refine congrArg Host.Outcome.next ?_
      rw [ht]
      refine (if_neg ?_).trans (if_pos ?_)
      · rw [hstarted]; decide
      · rw [hf]; rfl
    · refine congrArg Host.Outcome.next ?_
      rw [ht]
      refine (if_neg ?_).trans (if_pos (Bool.or_true _))
      rw [hstarted]; decide
    · refine congrArg Host.Outcome.next ?_
      rw [ht]
      refine if_pos ⟨hstarted, htgt, hlate, ?_⟩
      rcases hnot with h | h <;> rw [h]
      · exact Bool.false_ne_true
      · rw [Bool.and_false]; exact Bool.false_ne_true
  case resume => exact fun t ht hwake hnow hsafe hawake hcal => execTrafficResume_ok ht hwake hnow hsafe hawake hcal
  case mute =>
    intro c x p ps hx hat hne hdir hret hsafe e hfits
    exact execMuteSet_ok hx hat hne hdir hret hsafe hfits

namespace Sys2Proof.Laws

open Sys2Proof Sys2Proof.Machine Sys2Proof.Claims

variable {s : State}

/-- A rail has a spared phase where one of its number is listed. -/
theorem spared_any {r : Fin 9} : (s.pwr.spared.any fun y => y.1 == r.val) = true ↔ ∃ y ∈ s.pwr.spared, y.1 = r.val := by
  simp only [List.any_eq_true, beq_iff_eq]

/-- The condition above the DEEP threshold, with VIN present and the power state steady: its fault and record are written and the device turns to DEEP. -/
theorem execThermalDeep_first {n : Fin 16} (hvin : s.pwr.vin = true) (hdeep : s.pwr.thermalDeep = false) (hstep : s.pwr.step = .steady) :
    let u := s.raiseFault .thermalDeep { cls := 9, idx := 0x3C0 + n.val }
    let t := u.postPwr 5 s.pwr.st 0 0 0
    let t : State := { t with pwr := { t.pwr with thermalDeep := true, thermalSelf := !(t.wakeArmed .deep t.pwr.alarm.isSome) } }
    (t.pwr.st = .deep → exec (.thermalDeep n) s = .next t)
    ∧ (t.pwr.st = .active → t.pwr.step = .steady → t.pwr.cmd = none → exec (.thermalDeep n) s = .next (t.beginEntry .deep none)) := by
  intro u t t'
  have hgo : ¬ (!s.pwr.vin || s.pwr.thermalDeep || s.pwr.step == .cold || s.pwr.step == .hold) = true := by
    rw [hvin, hdeep, hstep]; decide
  refine ⟨fun hst => congrArg Host.Outcome.next ((if_neg hgo).trans ((if_pos hst).trans rfl)),
    fun hst hsteady hcmd => congrArg Host.Outcome.next ((if_neg hgo).trans ((if_neg ?_).trans ((if_neg ?_).trans ?_)))⟩
  · exact fun h => absurd (hst.symm.trans h) (by decide)
  · exact fun h => absurd (hst.symm.trans h) (by decide)
  · dsimp only [State.modPwr]
    rw [show t.pwr.step = .steady from hsteady, show t.pwr.cmd = none from hcmd]
    rfl

end Sys2Proof.Laws

open Sys2Proof Sys2Proof.Machine Sys2Proof.Claims Sys2Proof.Laws

/-- Settles O36: each condition by its checks. -/
theorem supplyAndTemperature : Obligations.SupplyAndTemperature := by
  intro s
  refine ⟨?rail, ?phase, ?noSpare, ?mute, rfl, ?deep, ?recovery⟩
  case rail => exact fun r hneed hup => congrArg Host.Outcome.next (if_pos (by rw [hneed, hup]; rfl))
  case phase =>
    intro r f hf hin hspare res
    refine congrArg Host.Outcome.next ((if_neg ?_).trans (if_neg ?_))
    · exact not_or.mpr ⟨Nat.not_le.mpr hf, hin⟩
    · rw [spared_any]
      exact fun ⟨y, hy, he⟩ => hspare y hy he
  case noSpare =>
    intro r f hf hin hspare
    refine congrArg Host.Outcome.next ((if_neg ?_).trans (if_pos (spared_any.mpr hspare)))
    exact not_or.mpr ⟨Nat.not_le.mpr hf, hin⟩
  case mute => exact fun n h => congrArg Host.Outcome.next (if_neg (by rw [h]; decide))
  case deep => exact fun n hvin hdeep hstep => execThermalDeep_first hvin hdeep hstep
  case recovery =>
    intro hdeep hst hstep hlatch hself
    refine congrArg Host.Outcome.next ((if_neg (by rw [hdeep]; decide)).trans ((if_pos ⟨hst, hstep⟩).trans ?_))
    dsimp only [State.modPwr]
    rw [hlatch]
    exact if_pos hself

end

section
/-! Entry into the low power states and the wake from them (R397 to R406, R411, R412). -/

namespace Sys2Proof.Laws

open Sys2Proof Sys2Proof.Machine Sys2Proof.Claims

/-- `t` differs from `s` in what a record or a completion may write alone: the host's rings, the event and fault records, the free values. -/
def Reports (s t : State) : Prop :=
  t = { s with out := t.out, free := t.free, host := t.host, time := t.time, sec := t.sec, mode := t.mode, tack := t.tack }

theorem Reports.refl (s : State) : Reports s s := rfl

theorem Reports.trans {s t u : State} (h : Reports s t) (h' : Reports t u) : Reports s u :=
  Eq.trans h' (congrArg (fun v : State => { v with out := u.out, free := u.free, host := u.host, time := u.time, sec := u.sec, mode := u.mode, tack := u.tack }) h)

theorem Reports.pwr {s t : State} (h : Reports s t) : t.pwr = s.pwr := Eq.trans (congrArg State.pwr h) rfl

theorem Reports.dp {s t : State} (h : Reports s t) : t.dp = s.dp := Eq.trans (congrArg State.dp h) rfl

/-- What each step of a fold reports, the fold reports. -/
theorem Reports.foldl {α : Type} {f : State → α → State} (hf : ∀ s a, Reports s (f s a)) (l : List α) (s : State) : Reports s (l.foldl f s) :=
  List.foldlRecOn l f (motive := Reports s) (Reports.refl s) fun t ht a _ => ht.trans (hf t a)

theorem record_reports (s : State) (n : Nat) (fs : List Fld) : Reports s (s.record n fs).2 := rfl

theorem modRing_reports (s : State) (n : Fin 16) (f : Ring → Ring) : Reports s (s.modRing n f) := rfl

theorem postOne_reports (s : State) (ty : BitVec 8) (b : Bytes) (last : Bool) : Reports s (s.postOne ty b last) := rfl

theorem post_reports (s : State) (ty : BitVec 8) (b : Bytes) : Reports s (s.post ty b) := by
  unfold State.post
  extract_lets far r
  split
  · exact ((record_reports s _ _).trans (postOne_reports r.2 0x0A r.1 false)).trans (postOne_reports _ ty b true)
  · exact postOne_reports ..

theorem postRec_reports (s : State) (ty : BitVec 8) (n : Nat) (fs : List Fld) : Reports s (s.postRec ty n fs) :=
  (record_reports s n fs).trans (post_reports ..)

theorem postPwr_reports (s : State) (code : Nat) (st : PwrState) (point source path : Nat) : Reports s (s.postPwr code st point source path) :=
  postRec_reports ..

theorem tackPut_reports (s : State) (n : Nat) (r : TackRec) (c : Option CmdRef) : Reports s (s.tackPut n r c) := by
  unfold State.tackPut
  split <;> rfl

theorem faultRec_reports (s : State) (st : FRec) (f : HeldFault) : Reports s (s.faultRec st f) :=
  ((record_reports s _ _).trans (post_reports ..)).trans (tackPut_reports ..)

theorem hostFault_reports (s : State) (code : FCode) (idx : Nat) : Reports s (s.hostFault code idx) := by
  unfold State.hostFault State.enterFault
  extract_lets i t run pre f u v
  have hu : Reports s u := Reports.trans (t := t) rfl (faultRec_reports ..)
  have hv : Reports u v := by
    unfold v
    clear_value u f pre run
    split
    · split
      · exact Reports.trans (t := u.modHeld _ _) rfl (faultRec_reports ..)
      · exact faultRec_reports ..
    · split
      · exact Reports.refl u
      · exact faultRec_reports ..
  exact (hu.trans hv).trans rfl

theorem stopRing_reports (s : State) (n : Fin 16) (fault : FCode) (idx : Nat) : Reports s (s.stopRing n fault idx) :=
  ((modRing_reports s n _).trans (hostFault_reports ..)).trans (postRec_reports ..)

theorem sendMsix_reports (s : State) (v : BitVec 5) : Reports s (s.sendMsix v) := by
  unfold State.sendMsix
  extract_lets i
  split <;> rfl

/-- A completion writes nothing but its entry, its records and the digest of the configuration. -/
theorem complete_reports (s : State) (c : CmdRef) (st : Status) (res : BitVec 32) : Reports s (s.complete c st res) := by
  unfold State.complete
  split
  case h_1 => exact Reports.refl s
  case h_2 x _ =>
    extract_lets r rest t e wrap u v w
    have ht : Reports s t := modRing_reports ..
    split
    · exact ht
    · split
      · exact (ht.trans (t := t) (u := t.emit _) rfl).trans (stopRing_reports ..)
      · have hu : Reports s u := ht.trans rfl
        have hv : Reports u v := by
          unfold v
          split
          · exact sendMsix_reports ..
          · exact Reports.refl u
        have hw : Reports v w := by
          unfold w
          split <;> rfl
        have huw := (hu.trans hv).trans hw
        split
        · exact (huw.trans (modRing_reports w _ _)).trans (postRec_reports ..)
        · exact huw

variable {s : State} {c : Cmd} {x : Slot}

theorem wakeCfg_kept {p : Pwr} (h : p.wakeCfgNext = none) : { p with wakeCfg := p.wakeCfgNext.getD p.wakeCfg, wakeCfgNext := none } = p := by
  obtain ⟨⟩ := p
  subst h
  rfl

/-- Where no wake is latched and no change of the wake sources waits, an abort point lets the entry go on. -/
theorem abortPoint_go {point : Nat} {go : State → State} (hlatch : s.pwr.latch = none) (hcfg : s.pwr.wakeCfgNext = none) : s.abortPoint point go = go s := by
  have hs : s.modPwr (fun p => { p with wakeCfg := p.wakeCfgNext.getD p.wakeCfg, wakeCfgNext := none }) = s :=
    congrArg (fun p : Pwr => { s with pwr := p }) (wakeCfg_kept hcfg)
  unfold State.abortPoint
  rw [hs]
  dsimp only
  rw [hlatch]

/-- In DEEP the ports stand idle without a change of the power state. -/
theorem portsIdle_pwr (h : s.pwr.st = .deep) : s.portsIdle.pwr = s.pwr := by
  unfold State.portsIdle
  extract_lets stays t
  have ht : t.pwr = s.pwr := by
    refine List.foldlRecOn (List.finRange 8) _ (motive := fun u : State => u.pwr = s.pwr) rfl fun u hu n _ => ?_
    split
    · exact hu
    · rw [if_pos (by rw [hu]; exact h)]
      exact hu
  refine List.foldlRecOn _ _ (motive := fun u : State => u.pwr = s.pwr) ht fun u hu i _ => ?_
  split
  · split <;> exact hu
  · exact hu

theorem deepLoss_pwr (s : State) : s.deepLoss.pwr = s.pwr := by
  unfold State.deepLoss
  extract_lets t u
  refine Eq.trans (b := t.pwr) rfl (Reports.pwr (Reports.foldl (fun v y => ?_) s.ofdm.stages s))
  split
  · exact complete_reports ..
  · exact Reports.refl v

/-- A POWER_STATE without an alarm that the device can take begins the entry or the wake. -/
theorem execPowerState_ok {t : PwrState} (hx : Served s c 0x13 x) (halarm : pb x.payload 1 0 = false) (ht : pwrTarget (pf x.payload 0 0 3).toNat = some t)
    (hne : t ≠ s.pwr.st) (hmode : s.mode.cur ≠ .array) (htrans : s.inTransition = false) (hconv : s.conv.run = none) (hcal : s.cal.runs = [])
    (hsafe : s.host.top.safe = false) (hdown : (t = .idle ∨ t = .doze) → s.pwr.st.code ≤ t.code) (hready : s.pwrNotReady t false = false) :
    exec (.powerState c) s = .next (let u := s.setStage c.ref .running
      if t = .active then (u.modPwr fun p => { p with cmd := some c.ref }).startWake 8 else u.beginEntry t (some c.ref)) := by
  refine congrArg Host.Outcome.next ((served_cmd hx _ _ rfl).trans ?_)
  dsimp only
  rw [ht, halarm]
  refine (if_neg ?_).trans ((if_neg ?_).trans ((if_neg ?_).trans rfl))
  · rintro (h | ⟨h, _⟩)
    · exact hne h
    · exact Bool.false_ne_true h
  · rw [beq_eq_false_iff_ne.mpr hmode, htrans, hconv, hcal, hsafe]
    show ¬ ((t == .idle || t == .doze) && decide (t.code < s.pwr.st.code)) = true
    rw [Bool.and_eq_true, Bool.or_eq_true, beq_iff_eq, beq_iff_eq, decide_eq_true_eq, not_and, Nat.not_lt]
    exact hdown
  · rw [hready]
    exact Bool.false_ne_true

/-- At its end the entry is in the target state; no wake waits. -/
theorem execEntryComplete_ok (hstep : s.pwr.step = .e4) (hdue : s.pwr.stepDue ≤ s.dp) (hlatch : s.pwr.latch = none) (hcfg : s.pwr.wakeCfgNext = none)
    (hself : s.pwr.thermalSelf = false) :
    let t : State := { s with pwr := { s.pwr with st := s.pwr.target, step := .steady, latch := none, rails := s.pwr.rails &&& railsNeeded s.pwr.target } }
    (s.pwr.target = .deep → exec (.entryComplete 0) s = .next t.deepLoss.portsIdle)
    ∧ (s.pwr.target = .nap → exec (.entryComplete 0) s = .next t.portsIdle)
    ∧ ((s.pwr.target = .idle ∨ s.pwr.target = .doze) → ∀ r, s.pwr.cmd = some r →
      exec (.entryComplete 0) s = .next (let u := (t.postPwr 1 s.pwr.target 0 0 0).complete r .ok
        { u with pwr := { u.pwr with cmd := none } })) := by
  intro t
  have ht : s.modPwr (fun p => { p with st := s.pwr.target, step := .steady, latch := none, rails := p.rails &&& railsNeeded s.pwr.target
                                        wakeCfg := p.wakeCfgNext.getD p.wakeCfg, wakeCfgNext := none }) = t :=
    congrArg (fun p : Pwr => { s with pwr := { p with st := s.pwr.target, step := .steady, latch := none, rails := p.rails &&& railsNeeded s.pwr.target } }) (wakeCfg_kept hcfg)
  have hend (v : State) (tgt : PwrState) (hv : tgt = .deep → v.pwr.thermalSelf = false) :
      (match (match s.pwr.latch with | some y => if v.wakeOk y.toNat then some y.toNat else v.levelPin 0 | none => v.levelPin 0 : Option Nat) with
      | some y => if v.pwr.thermalDeep then v.modPwr fun p => { p with latch := some (BitVec.ofNat 4 y) } else v.startWake y
      | none => if v.pwr.thermalSelf && !v.pwr.thermalDeep && tgt == .deep then v.startWake 10 else v) = v := by
    rw [hlatch]
    have hpin : v.levelPin 0 = none := by
      unfold State.levelPin
      rw [List.find?_eq_none]
      intro n _
      rw [show (0 : BitVec 4).getLsbD n = false from BitVec.getLsbD_zero, Bool.false_and, Bool.false_and]
      exact Bool.false_ne_true
    dsimp only
    rw [hpin]
    refine if_neg ?_
    by_cases h : tgt = .deep
    · rw [hv h]
      exact Bool.false_ne_true
    · rw [beq_eq_false_iff_ne.mpr h, Bool.and_false]
      exact Bool.false_ne_true
  have hexec : exec (.entryComplete 0) s = .next (
      let v := if s.pwr.target = .deep then t.deepLoss else t
      let v := if s.pwr.target = .nap ∨ s.pwr.target = .deep then v.portsIdle else v
      let v := if s.pwr.target = .idle ∨ s.pwr.target = .doze then
          let v := v.postPwr 1 s.pwr.target 0 0 0
          let v := match v.pwr.cmd with | some r => v.complete r .ok | none => v
          v.modPwr fun p => { p with cmd := none }
        else v
      match (match s.pwr.latch with | some y => if v.wakeOk y.toNat then some y.toNat else v.levelPin 0 | none => v.levelPin 0 : Option Nat) with
      | some y => if v.pwr.thermalDeep then v.modPwr fun p => { p with latch := some (BitVec.ofNat 4 y) } else v.startWake y
      | none => if v.pwr.thermalSelf && !v.pwr.thermalDeep && s.pwr.target == .deep then v.startWake 10 else v) := by
    rw [← ht]
    exact congrArg Host.Outcome.next (if_pos ⟨hstep, hdue⟩)
  refine ⟨fun hd => hexec.trans ?_, fun hn => hexec.trans ?_, fun hi r hr => hexec.trans ?_⟩
  · rw [hd]
    refine congrArg Host.Outcome.next (hend t.deepLoss.portsIdle .deep fun _ => ?_)
    rw [portsIdle_pwr (by rw [deepLoss_pwr]; exact hd), deepLoss_pwr]
    exact hself
  · rw [hn]
    exact congrArg Host.Outcome.next (hend t.portsIdle .nap fun h => absurd h (by decide))
  · have hcmd : (t.postPwr 1 s.pwr.target 0 0 0).pwr.cmd = some r := by
      rw [(postPwr_reports ..).pwr]
      exact hr
    have hnd : s.pwr.target ≠ .deep ∧ ¬ (s.pwr.target = .nap ∨ s.pwr.target = .deep) := by
      rcases hi with h | h <;> rw [h] <;> decide
    obtain ⟨hdeep, hlow⟩ := hnd
    dsimp only
    rw [if_neg hdeep, if_neg hlow, if_pos hi, hcmd]
    exact congrArg Host.Outcome.next (hend _ s.pwr.target fun h => absurd h hdeep)

end Sys2Proof.Laws

open Sys2Proof Sys2Proof.Machine Sys2Proof.Claims Sys2Proof.Laws

/-- Settles O37: the request, Q, the points A1, A2 and A3 with the time keeper between them, and the end, each by its checks. -/
theorem powerEntry : Obligations.PowerEntry := by
  intro s
  refine ⟨?enter, ?wake, ?q, ?a1, ?a2, ?keeper, ?a3, ?done⟩
  case enter =>
    intro c x t hx halarm ht hne hact hmode htrans hconv hcal hsafe hdown hready
    exact (execPowerState_ok hx halarm ht hne hmode htrans hconv hcal hsafe hdown hready).trans (congrArg Host.Outcome.next (if_neg hact))
  case wake =>
    intro c x hx halarm h0 hne hmode htrans hconv hcal hsafe hready
    exact execPowerState_ok (t := .active) hx halarm (by rw [h0]; rfl) (Ne.symm hne) hmode htrans hconv hcal hsafe (by rintro (h | h) <;> cases h) hready
  case q => exact fun hstep hdue => congrArg Host.Outcome.next (if_pos ⟨hstep, hdue⟩)
  case a1 =>
    intro hstep hdue hlatch hcfg down t
    refine congrArg Host.Outcome.next ((if_pos ⟨hstep, hdue⟩).trans ?_)
    exact abortPoint_go (s := { s with radio := t.radio }) hlatch hcfg
  case a2 =>
    intro hstep hqueue hidle hlatch hcfg
    refine congrArg Host.Outcome.next ((if_pos ⟨hstep, ?_, Or.inr hidle⟩).trans (abortPoint_go hlatch hcfg))
    rw [hqueue]
    rfl
  case keeper =>
    intro hstep hlow hkeep hgrid
    refine congrArg Host.Outcome.next ((if_pos ⟨hstep, hlow, hkeep, hgrid⟩).trans ?_)
    extract_lets t r u
    have hu : u.pwr.target = s.pwr.target := by
      unfold u
      split <;> rfl
    rw [hu]
    rfl
  case a3 => exact fun hstep hdue hkeep hlatch hcfg => congrArg Host.Outcome.next ((if_pos ⟨hstep, hdue, hkeep⟩).trans (abortPoint_go hlatch hcfg))
  case done => exact fun hstep hdue hlatch hcfg hself => execEntryComplete_ok hstep hdue hlatch hcfg hself

namespace Sys2Proof.Laws

open Sys2Proof Sys2Proof.Machine Sys2Proof.Claims

variable {s : State}

/-- A step of the wake that is over begins the next of its plan, or ends the wake. -/
theorem execWakeStepEnd_step {k : Nat} (hstep : s.pwr.step = .wake k) (hdue : s.pwr.stepDue ≤ s.dp) (hready : k = 8 → s.pwr.st = .idle ∨ s.synthsReady = true) :
    exec .wakeStepEnd s = .next (let t := s.wakeEffect k
      match (wakePlan t.pwr.st).find? fun x => k < x.1 with
      | some x => (t.modPwr fun p => { p with step := .wake x.1, since := p.since + (t.dp - p.stepDue), stepDue := p.since + (t.dp - p.stepDue) + usTicks x.2 }).wakeEnter x.1
      | none => t.awake) := by
  refine congrArg Host.Outcome.next ((if_neg (Nat.not_lt.mpr hdue)).trans ?_)
  rw [hstep]
  refine if_neg ?_
  rintro ⟨h8, hidle, hsynth⟩
  rcases hready h8 with h | h
  · exact hidle h
  · exact Bool.false_ne_true (hsynth.symm.trans h)

end Sys2Proof.Laws

open Sys2Proof Sys2Proof.Machine Sys2Proof.Claims Sys2Proof.Laws

/-- Settles O38: the pins, the steps, their timeouts, the carriers and the registers, each by its checks. -/
theorem powerWake : Obligations.PowerWake := by
  intro s
  refine ⟨?pin, ?step, ?undo, ?timeout, ?resume, ?registers⟩
  case pin =>
    intro n e hedge hok hstep hdeep
    refine congrArg Host.Outcome.next ((if_neg ?_).trans ?_)
    · rw [hstep]
      exact not_or.mpr ⟨hedge, by decide⟩
    · unfold State.wake
      rw [hok, hstep]
      exact (if_neg Bool.false_ne_true).trans (if_neg (c := s.pwr.thermalDeep = true) (by rw [hdeep]; exact Bool.false_ne_true))
  case step =>
    intro k x hstep hdue hready t t0
    refine ⟨fun h => (execWakeStepEnd_step hstep hdue hready).trans ?_, fun h => (execWakeStepEnd_step hstep hdue hready).trans ?_⟩ <;>
    · dsimp only
      rw [show (wakePlan (s.wakeEffect k).pwr.st).find? _ = _ from h]
      try rfl
  case undo =>
    intro hstep hdue
    refine congrArg Host.Outcome.next ((if_neg (Nat.not_lt.mpr hdue)).trans ?_)
    rw [hstep]
  case timeout =>
    intro k cause index hstep hlimit t t₁ t₂ t₃
    have hexec : exec (.wakeStepTimeout cause index) s = .next (
        if t₃.pwr.attempts < 4 then t₃.modPwr fun p => { p with attempts := p.attempts + 1, step := .wake 1, since := t₃.dp, stepDue := t₃.dp + 786432 }
        else (t₃.modPwr fun p => { p with step := .hold, target := .deep, fault := true, wakeFail := failRecord p.wakeFrom.code k 4 cause index }).setFaultN) := by
      refine congrArg Host.Outcome.next ?_
      rw [hstep]
      refine (if_neg (Nat.not_lt.mpr hlimit)).trans ?_
      extract_lets a r b d e
      have ha : a = t := rfl
      clear_value a
      subst ha
      have hb : b = t₁ := rfl
      clear_value b
      subst hb
      have hd : d = t₂ := rfl
      clear_value d
      subst hd
      have he : e = t₃ := rfl
      clear_value e
      subst he
      rfl
    clear_value t₃
    exact ⟨fun h => hexec.trans (congrArg Host.Outcome.next (if_pos h)), fun h => hexec.trans (congrArg Host.Outcome.next (if_neg (Nat.not_lt.mpr h)))⟩
  case resume =>
    intro t ht hwake hnow hawake hsafe hcal held u u'
    obtain ⟨hact, hsteady⟩ := hawake
    refine congrArg Host.Outcome.next ?_
    rw [ht]
    refine (if_pos ⟨hwake, hnow, hact, hsteady, hsafe, hcal⟩).trans ?_
    extract_lets lack b held' v v'
    have hheld : held' = held := rfl
    have hv : v = u := rfl
    have hv' : v' = u' := congrArg (fun w : State => if w.mode.cur = .dormant then w.dormantEnter else w) hv
    rw [hv', hheld]
    rfl
  case registers => exact fun v hvin => ⟨congrArg Host.Outcome.next (if_pos hvin), congrArg Host.Outcome.next (if_pos hvin), congrArg Host.Outcome.next (if_pos hvin)⟩

end

section
/-! The cold power-up and the brown-out (R410, R411, R569, R573), the clocks' registers and what the clocks do by themselves (R371 to R383, R576). -/

namespace Sys2Proof.Laws

open Sys2Proof Sys2Proof.Machine Sys2Proof.Claims

variable {s : State} {c : Cmd} {x : Slot}

theorem all_of_forall {α : Type} {n : Nat} {v : Vector α n} {f : α → Bool} (h : ∀ i : Fin n, f v[i] = true) : v.toList.all f = true := by
  rw [List.all_eq_true]
  intro a ha
  obtain ⟨i, hi, rfl⟩ := List.mem_iff_getElem.mp ha
  rw [Vector.getElem_toList]
  exact h ⟨i, by rwa [Vector.length_toList] at hi⟩

/-- With no sector write open a brown-out leaves the reset state, but for the tack store, the marks of the memories and what the outside holds. -/
theorem powerLost_of_empty (h : s.tack.queue = []) : s.powerLost =
    { State.reset with
      pending := s.pending, out := s.out, free := (s.takeFree 1).2.free
      mem := { Mem.reset with banks := (s.mem.banks.filter fun x => !x.2.marked.isEmpty).map fun (x : Nat × BankRec) => (x.1, { BankRec.empty with marked := x.2.marked }) }
      tack := { s.tack with queue := [], read := false, crcFail := 0 }
      host := { HostIf.reset with top := { HostIf.reset.top with perstHigh := s.host.top.perstHigh } } } := by
  unfold State.powerLost
  extract_lets f t part r u
  have hu : u = t := by
    unfold u
    rw [show t.tack.queue = [] from h]
  clear_value u
  subst hu
  rfl

end Sys2Proof.Laws

open Sys2Proof Sys2Proof.Machine Sys2Proof.Claims Sys2Proof.Laws

/-- Settles O39: power-good, the rails, the read of the tack store, the service, the restart and the brown-out, each by its checks. -/
theorem coldPowerUp : Obligations.ColdPowerUp := by
  intro s
  refine ⟨?good, ?rails, ?read, ?bringup, ?timeout, ?brownOut⟩
  case good => exact fun xo fitted te hvin => congrArg Host.Outcome.next (if_neg (by rw [hvin]; exact Bool.false_ne_true))
  case rails =>
    intro ready hvin hstep haon n
    refine congrArg Host.Outcome.next ((if_neg ?_).trans ((if_pos hstep).trans (if_neg ?_)))
    · rw [hvin]; decide
    · rw [haon]; decide
  case read =>
    intro hstep hstage hmem
    refine ⟨_, congrArg Host.Outcome.next (if_neg ?_), rfl, rfl, rfl, rfl, rfl, rfl, rfl, rfl, rfl, rfl⟩
    rw [hmem, not_or, not_or, Classical.not_not, Classical.not_not]
    exact ⟨hstep, hstage, by decide⟩
  case bringup =>
    intro hstep hstage hidle
    refine congrArg Host.Outcome.next (if_pos ⟨hstep, hstage, all_of_forall fun i => ?_⟩)
    obtain ⟨hcal, hwait⟩ := hidle i
    rw [hcal, hwait]
    rfl
  case timeout =>
    intro cause index hstep hrec hn t
    refine congrArg Host.Outcome.next ((if_neg ?_).trans (if_pos (Nat.succ_lt_succ hn)))
    rw [not_or, hrec, Classical.not_not]
    exact ⟨hstep, Bool.false_ne_true⟩
  case brownOut =>
    intro hvin hqueue
    refine ⟨s.powerLost, congrArg Host.Outcome.next (if_pos hvin), ?_⟩
    rw [powerLost_of_empty hqueue]
    exact ⟨rfl, rfl, rfl, rfl, rfl, rfl⟩

namespace Sys2Proof.Laws

open Sys2Proof Sys2Proof.Machine Sys2Proof.Claims

variable {s : State} {c : Cmd} {x : Slot}

/-- A REG_WRITE of a named register whose gate is open. -/
theorem writeNamed_ok {a : Nat} {sel : BitVec 32 → BitVec 32 → Bool} (hx : Served s c 0x03 x) (ha : regAddr x.payload = a)
    (hsel : sel (pf x.payload 4 0 32) (pf x.payload 8 0 32) = true) (hgate : s.gatedReg a = false) :
    s.writeNamed c a sel = (s.regWrite a (pf x.payload 4 0 32) (pf x.payload 8 0 32)).2.complete c.ref (s.regWrite a (pf x.payload 4 0 32) (pf x.payload 8 0 32)).1 :=
  (served_cmd hx _ _ (by rw [ha, hsel, beq_self_eq_true]; rfl)).trans (cmdRegWrite_ok c.ref _ _ hgate)

theorem toFin_val {n : Nat} (i : Fin n) : toFin n i.val = some i := dif_pos i.isLt

/-- A write of the equalisation register of a lane. -/
theorem regWrite_laneEq (l : Fin 32) (v mask : BitVec 32) : s.regWrite (0x1C04 + 4 * l.val) v mask =
    let b : BitVec 32 × State := if s.busLost then s.takeFree 32 else (v, s)
    (.ok, b.2.writeLaneEq l b.1 mask) := by
  unfold State.regWrite
  extract_lets b v' t
  split
  case h_8 =>
    rw [if_pos (by omega), Nat.add_sub_cancel_left, Nat.mul_div_cancel_left _ (by decide : 0 < 4), toFin_val]
  all_goals omega

/-- The death of a clock from 4 to 9 that nothing uses is recorded and raises its fault. -/
theorem execClockDead_idle {i : Fin 11} (hlow : 4 ≤ i.val) (hhigh : i.val ≤ 9) (halive : s.monAt i.val ≠ .dead) (hbusy : s.clk.busy = false) (hsw : s.clk.sw = []) :
    exec (.clockDead i) s = .next ((((s.setMon i .dead).postClk 6 i.val)).raiseFault .monFault { cls := 9, idx := 0x3E0 + i.val }) := by
  have h1 : i ≠ 1 := by omega
  have h23 : ¬ (i = 2 ∨ i = 3) := by omega
  refine congrArg Host.Outcome.next ((if_neg ?_).trans ?_)
  · rintro (h | ⟨h, _⟩)
    · exact halive h
    · exact h23 h
  · extract_lets was t u v
    have ht : t = s.setMon i .dead := by
      have hm : (s.setMon i .dead).meterDead i.val = s.setMon i .dead := if_neg (by
        show ¬ (s.clk.busy && _) = true
        rw [hbusy]
        exact Bool.false_ne_true)
      unfold t
      rw [hm, State.switchDead, show (s.setMon i .dead).clk.sw = [] from hsw]
      rfl
    have hu : u = (t.postClk 6 i.val).raiseFault .monFault { cls := 9, idx := 0x3E0 + i.val } :=
      (if_neg fun h => h23 h.2).trans ((if_neg (by omega)).trans (if_pos ⟨hlow, hhigh⟩))
    have hv : v = u := by
      unfold v State.aonDead
      rw [if_neg (c := i.val = 0 ∧ _) (by omega), if_neg (c := i.val = 1 ∧ _) (by omega), ite_self]
    rw [if_neg fun h => h1 h.1, hv, hu, ht]

end Sys2Proof.Laws

open Sys2Proof Sys2Proof.Machine Sys2Proof.Claims Sys2Proof.Laws

/-- Settles O40: each register by its write. -/
theorem clockRegisterWrites : Obligations.ClockRegisterWrites := by
  intro s c x hx hgate m w b ovr clkOvr
  refine ⟨fun ha hstart => ?_, fun ha hstart hclear => ?_, fun ha hm => ?_, fun ha hm hdiv => ?_, fun l ha => ?_⟩
  · exact congrArg Host.Outcome.next (writeNamed_ok hx ha hstart (ha ▸ hgate))
  · refine congrArg Host.Outcome.next (writeNamed_ok hx ha ?_ (ha ▸ hgate))
    show (!w.getLsbD 31 && (w.getLsbD 29 || w.getLsbD 28)) = true
    rw [hstart]
    rcases hclear with h | h <;> rw [h]
    · rfl
    · rw [Bool.or_true]; rfl
  · exact congrArg Host.Outcome.next (writeNamed_ok hx ha hm (ha ▸ hgate))
  · refine congrArg Host.Outcome.next (writeNamed_ok hx ha ?_ (ha ▸ hgate))
    show (!m.getLsbD 2 && m.extractLsb' 0 2 != 0) = true
    rw [hm, bne_iff_ne.mpr hdiv]
    rfl
  · have hl := l.isLt
    refine congrArg Host.Outcome.next ((served_cmd hx _ _ ?_).trans ((cmdRegWrite_ok c.ref _ _ hgate).trans ?_))
    · rw [ha, decide_eq_true_eq]
      omega
    · rw [ha, regWrite_laneEq]

/-- Settles O41: each event of the clocks by its checks. -/
theorem clockProgress : Obligations.ClockProgress := by
  intro s
  refine ⟨?window, ?dead, ?dp, ?refIn, ?cb, ?aon, ?pll, ?revert, ?gate, ?gateTimeout, ?meter⟩
  case window =>
    intro i hcounts
    have hgo : ¬ (!s.windowCounts i) = true := by rw [hcounts]; decide
    refine ⟨fun n hm hn => congrArg Host.Outcome.next ((if_neg hgo).trans ?_), fun hm => congrArg Host.Outcome.next ((if_neg hgo).trans ?_),
      fun n hm => congrArg Host.Outcome.next ((if_neg hgo).trans ?_), fun n hm => congrArg Host.Outcome.next ((if_neg hgo).trans ?_)⟩
    · rw [hm]
      exact if_pos hn
    · rw [hm]
      rfl
    · rw [hm]
      rfl
    · rcases hm with h | h <;> rw [h] <;> rfl
  case dead => exact fun i hlow hhigh halive hbusy hsw => execClockDead_idle hlow hhigh halive hbusy hsw
  case dp =>
    intro y rest hsw hd
    refine congrArg Host.Outcome.next ?_
    rw [hsw]
    dsimp only
    rw [hd]
    rfl
  case refIn =>
    intro y rest hsw hd t u
    refine congrArg Host.Outcome.next ?_
    rw [hsw]
    dsimp only
    rw [hd]
    rfl
  case cb =>
    intro y rest hsw hd t
    refine congrArg Host.Outcome.next ?_
    rw [hsw]
    dsimp only
    rw [hd]
    rfl
  case aon =>
    intro y rest hsw hd t u
    refine congrArg Host.Outcome.next ?_
    rw [hsw]
    dsimp only
    rw [hd]
    rfl
  case pll => exact fun h => congrArg Host.Outcome.next (if_neg (not_not_intro h))
  case revert =>
    intro t ht hdue hmon hact hsw
    refine congrArg Host.Outcome.next ?_
    rw [ht]
    exact if_pos ⟨hdue, hmon, hact, hsw⟩
  case gate =>
    intro b hgated
    have hgo : ¬ s.clk.gated.contains b = true := by rw [hgated]; exact Bool.false_ne_true
    exact ⟨fun h => congrArg Host.Outcome.next ((if_neg hgo).trans (if_neg (by rw [h]; exact Bool.false_ne_true))),
      fun h => congrArg Host.Outcome.next ((if_neg hgo).trans (if_pos h))⟩
  case gateTimeout => exact fun b h => congrArg Host.Outcome.next (if_neg (by rw [h]; decide))
  case meter =>
    intro n hbusy hgate htest
    refine congrArg Host.Outcome.next ((if_neg (by rw [hbusy]; decide)).trans ?_)
    rw [decide_eq_true hgate, decide_eq_true htest]
    rfl

end

section
/-! Network time: the configuration commands, the PTP messages, and what time brings about (R342 to R360, R382). -/

namespace Sys2Proof.Laws

open Sys2Proof Sys2Proof.Machine Sys2Proof.Claims

variable {s : State} {c : Cmd} {x : Slot}

/-- While no reference is in service a REF_CFG of known sources is taken; the monitor of a source that changes begins anew. -/
theorem execRefCfg_idle (hx : Served s c 0x68 x) :
    let k := refCfgOf x.payload
    s.refKnown k.pri = true → s.refKnown k.sec = true → k.pri ≠ k.sec → k.fineTh ≠ 0 → k.hold ≠ 0 → k.hold.toNat ≤ 3600 → s.switching .refIn = false →
    s.clk.revertAt = none → s.activeRef = 0 →
    let mon (old new : RefSrc) (i : Fin 11) : Mon × Nat := if old = new then s.clk.mon[i] else (.unqualified, 0)
    exec (.refCfg c) s = .next (State.complete { s with clk := { s.clk with cfg := k
                                                                            mon := vset (vset s.clk.mon 2 (mon s.clk.cfg.pri k.pri 2)) 3 (mon s.clk.cfg.sec k.sec 3) } } c.ref .ok) := by
  intro k hpri hsec hne hfine hhold hlong hsw hrevert hact mon
  refine congrArg Host.Outcome.next ((served_cmd hx _ _ rfl).trans ?_)
  extract_lets old a role src moves
  have hmoves : moves = false := by
    unfold moves a
    rw [hact]
    rfl
  clear_value moves
  subst hmoves
  refine (if_neg ?_).trans ((if_neg ?_).trans rfl)
  · rw [hpri, hsec, beq_eq_false_iff_ne.mpr hne, beq_eq_false_iff_ne.mpr hfine, beq_eq_false_iff_ne.mpr hhold, decide_eq_false (Nat.not_lt.mpr hlong)]
    decide
  · rw [hsw, hrevert]
    exact Bool.false_ne_true

/-- A TIME_DEV_SET in range is taken; a change of the time base that fits is made. -/
theorem execTimeDevSet_ok (hx : Served s c 0x61 x) :
    let p := x.payload
    let k : TimeDev := { autoSwitch := pb p 0 2, ppsOutEn := pb p 0 1, slew := pf p 1 0 8, ppsWidth := pf p 2 0 16, switchMax := pf p 4 0 32
                         asym := Vector.ofFn fun (i : Fin 8) => pf p (8 + 2 * i.val) 0 16 }
    k.slew ≠ 0 → k.slew.toNat ≤ 100 → k.ppsWidth ≠ 0 → k.ppsWidth.toNat ≤ 50000 → k.switchMax ≠ 0 → k.switchMax.toNat ≤ 1000000 →
    let t := State.bleedFrom { s with time := { s.time with dev := k } } s.bleedNow
    (pb p 0 0 = s.time.sel → exec (.timeDevSet c) s = .next (t.complete c.ref .ok))
    ∧ (pb p 0 0 ≠ s.time.sel → s.switchFits k.switchMax = true → (s.ym.air = .released → s.time.tb[otherTb s.tbS].st = Servo.locked) →
      exec (.timeDevSet c) s = .next (t.switchTb.complete c.ref .ok)) := by
  intro p k hslew hslew' hpps hpps' hmax hmax' t
  have hrange : ¬ (k.slew = 0 ∨ 100 < k.slew.toNat ∨ k.ppsWidth = 0 ∨ 50000 < k.ppsWidth.toNat ∨ k.switchMax = 0 ∨ 1000000 < k.switchMax.toNat) := by
    rintro (h | h | h | h | h | h)
    · exact hslew h
    · exact absurd hslew' (Nat.not_le.mpr h)
    · exact hpps h
    · exact absurd hpps' (Nat.not_le.mpr h)
    · exact hmax h
    · exact absurd hmax' (Nat.not_le.mpr h)
  refine ⟨fun hsel => congrArg Host.Outcome.next ((served_cmd hx _ _ rfl).trans ?_), fun hsel hfits hlock => congrArg Host.Outcome.next ((served_cmd hx _ _ rfl).trans ?_)⟩ <;>
  extract_lets sw b r t'
  · have hsw : sw = false := bne_eq_false_iff_eq.mpr hsel
    rw [hsw]
    exact (if_neg hrange).trans ((if_neg fun h => Bool.false_ne_true h.1).trans ((if_neg fun h => Bool.false_ne_true h.1).trans rfl))
  · have hsw : sw = true := bne_iff_ne.mpr hsel
    rw [hsw]
    refine (if_neg hrange).trans ((if_neg fun h => ?_).trans ((if_neg fun h => ?_).trans rfl))
    · exact Bool.false_ne_true (h.2.symm.trans hfits)
    · exact h.2.2 (hlock h.2.1)

end Sys2Proof.Laws

open Sys2Proof Sys2Proof.Machine Sys2Proof.Claims Sys2Proof.Laws

/-- Settles O42: each command by its checks. -/
theorem timeCommands : Obligations.TimeCommands := by
  intro s c x p
  refine ⟨?ref, ?tod, ?cfg, ?dev⟩
  case ref => exact fun hx hpri hsec hne hfine hhold hlong hsw hrevert hact => execRefCfg_idle hx hpri hsec hne hfine hhold hlong hsw hrevert hact
  case tod =>
    intro hx hsrc hmember
    refine congrArg Host.Outcome.next ((served_cmd hx _ _ rfl).trans (if_neg ?_))
    rw [not_or, Classical.not_not, hmember]
    exact ⟨hsrc, Bool.false_ne_true⟩
  case cfg =>
    intro hx d hgood hair hmember
    refine congrArg Host.Outcome.next ((served_cmd hx _ _ rfl).trans ((if_neg ?_).trans ((if_neg ?_).trans rfl)))
    · exact fun h => Bool.false_ne_true (hgood.symm.trans h)
    · rintro (h | h)
      · exact hair h.1 h.2
      · exact Bool.false_ne_true ((hmember h.2).symm.trans h.1)
  case dev => exact fun hx hslew hslew' hpps hpps' hmax hmax' => execTimeDevSet_ok hx hslew hslew' hpps hpps' hmax hmax'

namespace Sys2Proof.Laws

open Sys2Proof Sys2Proof.Machine Sys2Proof.Claims

variable {s : State} {p : Fin 8} {b : Bytes} {d : Fin 2}

/-- A PTP message of its type and length that reaches a domain is taken by it. -/
theorem ptpTake_ok {typ len : Nat} (hrec : s.receiving p = true) (hrole : s.fh.ports[p].cfg.role ≠ 1) (hver : ptpVersion b = 2) (hd : s.ptpTb p b = some d)
    (htype : ptpType b = typ) (hlen : len ≤ b.length) (f : Fin 2 → State) : s.ptpTake p typ len b f = f d := by
  unfold State.ptpTake
  rw [hd]
  refine (if_neg ?_).trans (if_neg hrole)
  rw [hrec, htype, hver, bne_self_eq_false, decide_eq_false (Nat.not_lt.mpr hlen)]
  decide

/-- The Delay_Req of a domain goes to its parent's port. -/
theorem execDelayReqSend_ok {r : BitVec 3} {dst : BitVec 48} {at_ : Int} (hparent : s.time.tb[d].parent = some r) (hdst : s.time.tb[d].syncDst = some dst)
    (hdue : ∀ t, s.time.tb[d].reqAt = some t → t + 61440000 ≤ s.dp) (hrec : s.receiving r.toFin = true) :
    let b := s.time.tb[d]
    let port := s.fh.ports[(r.toFin : Fin 8)]
    exec (.delayReqSend d at_) s = .next
      ((s.modTb d fun y => { y with reqSeq := y.reqSeq + 1, reqAt := some s.dp
                                    delayReq := some (y.reqSeq, (countNs (b.count + at_)).add (Q.make port.txCorr 10)) }).sendFrame r.toFin "DELAY_REQ"
        (port.cfg.frame dst false 0x88F7 (delayReq port.cfg (r.toFin : Fin 8).val b.cfg.ptpDomain b.reqSeq))) := by
  intro b port
  refine congrArg Host.Outcome.next ?_
  rw [hparent, hdst]
  refine (if_neg ?_).trans rfl
  rw [hrec]
  cases hat : s.time.tb[d].reqAt with
  | none => exact Bool.false_ne_true
  | some t =>
    dsimp only
    rw [decide_eq_false (Nat.not_lt.mpr (hdue t hat))]
    exact Bool.false_ne_true

end Sys2Proof.Laws

open Sys2Proof Sys2Proof.Machine Sys2Proof.Claims Sys2Proof.Laws

/-- Settles O43: each message is taken by its domain; what it does then is its handler's. -/
theorem ptpMessages : Obligations.PtpMessages := by
  intro s p b d hrec hrole hver hd k
  have htake {typ len : Nat} (htype : ptpType b = typ) (hlen : len ≤ b.length) (f : Fin 2 → State) : s.ptpTake p typ len b f = f d :=
    ptpTake_ok hrec hrole hver hd htype hlen f
  refine ⟨fun htype hlen => ?_, fun dst at_ htype hlen hparent => ?_, fun t2 corr htype hlen hsync hparent => ?_, fun t3 htype hlen hreq hparent hown => ?_⟩
  · exact congrArg Host.Outcome.next (htake htype hlen _)
  · refine congrArg Host.Outcome.next ((htake htype hlen _).trans (if_neg ?_))
    rw [show s.time.tb[d].fromParent p b = true from hparent]
    decide
  · refine congrArg Host.Outcome.next ((htake htype hlen _).trans ?_)
    dsimp only
    rw [show s.time.tb[d].sync = _ from hsync]
    refine if_pos ?_
    rw [show s.time.tb[d].fromParent p b = true from hparent, beq_self_eq_true]
    rfl
  · refine congrArg Host.Outcome.next ((htake htype hlen _).trans ?_)
    dsimp only
    rw [show s.time.tb[d].delayReq = _ from hreq]
    refine if_pos ?_
    rw [show s.time.tb[d].fromParent p b = true from hparent, beq_self_eq_true, Bool.true_and, Bool.true_and, beq_iff_eq]
    exact hown

/-- Settles O44: each event of the time bases by its checks. -/
theorem timeProgress : Obligations.TimeProgress := by
  intro s d b
  refine ⟨?announce, ?request, ?holdover, ?expired, ?bleed, ?anchor, ?edge, ?fall⟩
  case announce =>
    rintro r hr ⟨m, hm, hgone, hport⟩ left
    refine congrArg Host.Outcome.next (if_pos (List.any_eq_true.mpr ⟨m, hm, Bool.and_eq_true_iff.mpr ⟨decide_eq_true hgone, beq_iff_eq.mpr ?_⟩⟩))
    rw [hport]
    exact hr
  case request => exact fun r dst at_ hparent hdst hdue hrec => execDelayReqSend_ok hparent hdst hdue hrec
  case holdover =>
    intro hst hlast hmember hawake
    refine congrArg Host.Outcome.next ((if_neg ?_).trans (if_pos ⟨hst, hlast, hmember⟩))
    rw [hawake]
    exact Bool.false_ne_true
  case expired =>
    intro hst hdue hawake
    refine congrArg Host.Outcome.next ((if_neg ?_).trans (if_pos ⟨hst, hdue⟩))
    rw [hawake]
    exact Bool.false_ne_true
  case bleed => exact fun hbleed hnow => congrArg Host.Outcome.next (if_pos ⟨hbleed, hnow⟩)
  case anchor =>
    intro sec hsec hawake
    exact congrArg Host.Outcome.next ((if_pos ⟨hsec, hawake⟩).trans rfl)
  case edge =>
    intro at_ v hsrc hmember hlast htod
    refine congrArg Host.Outcome.next ((if_neg ?_).trans ?_)
    · rw [not_or, Classical.not_not, hmember]
      exact ⟨hsrc, Bool.false_ne_true⟩
    · dsimp only
      rw [hlast, htod]
      exact if_neg (show ¬ (32 * (tickHz : Int) * 10000 < 32 * (tickHz : Int) * 9999 ∨ 32 * (tickHz : Int) * 10001 < 32 * (tickHz : Int) * 10000) by decide)
  case fall =>
    intro t ht hdue
    refine congrArg Host.Outcome.next ?_
    rw [ht]
    exact if_pos hdue

end

section
/-! Messages of the fronthaul (R284 to R306, R325): a sounding directive whose event falls on that of an occasion of the numerology before. -/

namespace Sys2Proof.Laws

open Sys2Proof Sys2Proof.Machine Sys2Proof.Claims

/-- The carrier at 30 kHz, after a change from 15 kHz. -/
def fineCell : CarrierCfg := { Tests.cell with scs30 := true, bw := 20 }

/-- An occasion of port 3 in symbol 7 of slot 0, from the time when the carrier was at 15 kHz. -/
def coarseOccasion : Occasion :=
  { id := 0, port := 3, carrier := 0, slot := 0, sym0 := 7, nsym := 1, ktc := 2, combOff := 0, ncs := 0, u := 0, v := 0, prbStart := 0, prbNum := 4, group := 0
    abandoned := false, smooth := 0, published := false, done := false, lastEnd := symStart false 7 + symLen false 7 }

/-- Its event waits, half a millisecond after the slot's start. -/
def coarseSounding : Event :=
  { id := 0, group := 0, kind := .sounding, due := symStart false 7, src := .sarfaip 0 0, res := { cls := 4, idx := 0 }, body := .sounding 0 7 (symLen false 7), doneAt := none
    judged := false }

/-- The occasion and its event wait while the carrier is already at 30 kHz. -/
def overlapped : State :=
  { State.reset with ym := { Ym.reset with air := .released, events := [coarseSounding], nextId := 1 }
                     ofdm := { Ofdm.reset with occasions := [coarseOccasion], nextId := 1 } }

/-- A sounding directive for slot 1 of frame 0 of carrier 0. -/
def fineDirective : Sar := sarOf [0x10, 2, 0, 0, 0, 0, 0, 0x80, 4, 0, 8, 0, 1, 0, 0, 0]

/-- Its item: port 3 in symbol 0, over four PRBs. -/
def fineItem : Bytes := [3, 0, 0, 0, 0, 0, 2, 0]

/-- The directive's occasion is at 15 kHz's half millisecond. -/
def fineOccasion : Occasion := overlapped.occasionOf fineDirective fineCell fineItem

/-- The event that its one symbol asks for. -/
def fineEvents : List NewEv := (List.range fineOccasion.nsym).map fun i =>
  { kind := .sounding, due := fineOccasion.slot + symStart fineCell.scs30 (fineOccasion.sym0 + i), res := { cls := 4, idx := fineDirective.car.val }
    body := .sounding fineOccasion.id (fineOccasion.sym0 + i) (symLen fineCell.scs30 (fineOccasion.sym0 + i)) }

/-- By the state before the occasion is registered, its event finds no other of its kind, time and port. -/
theorem fineEvents_fit : Fits overlapped fineEvents := by
  refine ⟨by decide, by decide, ?_, by decide⟩
  decide +kernel

/-- Once it is registered its event is a duplicate of the one that waits, so none enters the table. -/
theorem fineItem_refused : (overlapped.soundingItem 0 fineDirective fineCell true fineItem).2.ym.events.length = 1 := by decide +kernel

end Sys2Proof.Laws

open Sys2Proof Sys2Proof.Machine Sys2Proof.Claims Sys2Proof.Laws

/-- Refutes O45: events of sounding are told apart by the port of their occasion (R65). `Fits` asks that of the state before the new occasion is
registered, where its event has no port yet; the model checks it afterwards. Two occasions of one port whose symbols begin together, in slots of different
numerology, do not clash (R162 compares the slots), and the second's event is refused as a duplicate. -/
theorem not_fronthaulMessages : ¬ Obligations.FronthaulMessages := by
  intro h
  obtain ⟨-, -, -, -, -, hsounding, -⟩ := h overlapped 0 [0x10, 2, 0, 0, 0, 0, 0, 0x80, 4, 0, 8, 0, 1, 0, 0, 0] []
  have htaken := hsounding overlapped fineCell fineItem (by decide +kernel) (by decide +kernel) (by decide +kernel) fineEvents_fit
  have hlen := congrArg (fun r : Bool × State => r.2.ym.events.length) htaken
  exact absurd (fineItem_refused.symm.trans hlen) (by decide +kernel)

end

section
/-! The ports of the fronthaul: configuration, frames, delay measurement, egress, failure and return (R279 to R314). -/

namespace Sys2Proof.Laws

open Sys2Proof Sys2Proof.Machine Sys2Proof.Claims

variable {s : State} {n : Fin 8} {c : Cmd} {x : Slot}

/-- A port configuration that passes its checks is taken; where its lanes change the port trains anew. -/
theorem execFhPortSet_ok (hx : Served s c 0x50 x) (hn : (pf x.payload 0 0 3).toFin = n) : let k := portCfgOf x.payload
    let old := s.fh.ports[n].cfg
    s.portBad n k = false → (s.isUlPort n = true → k.fixed = old.fixed) →
    (s.mode.cur = .bringup → k.speed = 0 ∨ (k.speed = 1 ∧ k.role = 0 ∧ ∀ m : Fin 8, m ≠ n → s.fh.ports[m].st = .disabled)) →
    ∀ restart : Bool, (k.speed != old.speed || k.fec != old.fec || k.laneList != old.laneList) = restart →
    exec (.fhPortSet c) s = .next (
      let u := ((if restart then s.lanesDown n else s).modPort n fun p => { p with cfg := k }).reBackup n old k
      let st : PortState := if k.speed = 0 then .disabled else .training
      let v := u.modPort n fun p => { p with st := st }
      (if restart then (if u.fh.ports[n].st = st then v else v.postLink n 1 0) else u).complete c.ref .ok) := by
  subst hn
  rintro k old hgood hfixed hbringup restart rfl
  refine congrArg Host.Outcome.next ((served_cmd hx _ _ rfl).trans ((if_neg ?_).trans ((if_neg ?_).trans ((if_neg ?_).trans rfl))))
  · exact fun h => Bool.false_ne_true (hgood.symm.trans h)
  · intro h
    obtain ⟨hul, hne⟩ := Bool.and_eq_true_iff.mp h
    exact bne_iff_ne.mp hne (hfixed hul)
  · intro h
    simp only [Bool.and_eq_true, Bool.or_eq_true, beq_iff_eq, bne_iff_ne, List.any_eq_true] at h
    obtain ⟨⟨hmode, hspeed⟩, hbad⟩ := h
    obtain h0 | ⟨h1, hrole, hothers⟩ := hbringup hmode
    · exact hspeed h0
    · rcases hbad with (h | h) | ⟨m, _, hm, hst⟩
      · exact h h1
      · exact h hrole
      · exact hst (hothers m hm)

/-- A frame received without an error, for the port and not too long, is taken by its type. -/
theorem execEthFrameReceive_ok {f : Bytes} {corr unc o : Nat} (hrec : s.receiving n = true) (hcrc : leBytes 4 (crc32 (f.take (f.length - 4))).toNat = f.drop (f.length - 4))
    (hlen : f.length ≤ s.fh.ports[n].cfg.maxFrame.toNat) (hacc : s.fh.ports[n].cfg.accepts f = some o) :
    exec (.ethFrameReceive n f corr unc) s = .next (
      let u := s.cnt n fun c => { c with fecCorr := satAdd c.fecCorr corr, fecUncorr := satAdd c.fecUncorr unc }
      let u := u.cnt n fun c => { c with rxBytes := c.rxBytes + BitVec.ofNat 64 f.length, rxFrames := satInc c.rxFrames }
      let b := (f.take (f.length - 4)).drop (o + 2)
      if beAt f o 2 = 0x88F7 then u.ptpFrame n (BitVec.ofNat 48 (beAt f 0 6)) b
      else if beAt f o 2 = 0xAEFE then
        (if s.fh.ports[n].cfg.role = 1 then u.hitchFrame n b else State.ecpri n (BitVec.ofNat 48 (beAt f 6 6)) f.length b u)
      else u.rx n .uncl) := by
  refine congrArg Host.Outcome.next ((if_neg ?_).trans ?_)
  · rw [hrec]; decide
  · extract_lets k len body good t u v b
    have hgood : good = true := beq_iff_eq.mpr hcrc
    rw [show k.accepts f = some o from hacc]
    refine (if_neg ?_).trans ((if_neg (Nat.not_lt.mpr hlen)).trans rfl)
    rw [hgood]
    decide

/-- A delay measurement message that reaches a port is taken by its action. -/
theorem delayRow_ok {src : BitVec 48} {b : Bytes} {acts : List Nat} (htakes : s.takesSar n = true) (hver : byteAt b 0 / 16 = 1) (htype : byteAt b 1 = 5)
    (hlen : b.length = 4 + beAt b 2 2) (hact : acts.contains (byteAt b 5) = true) : s.delayRow n src b acts = (s.delayMessage n src b).2 := by
  unfold State.delayRow
  rw [htakes, hver, htype, hact, ← hlen, List.take_length]
  exact (if_pos rfl).trans (if_neg (Nat.lt_irrefl _))

/-- The egress of a symbol of UL off the array, where a section was received in it. -/
theorem execUlEgress_ok {sym : Tick} {raw : List AdcIn} {k : CarrierCfg} {y : Section} {l : Nat} {ys : List (Section × Nat)} (hk : s.ofdm.carriers[n].cfg = some k)
    (hsecs : s.ulSections n k sym = (y, l) :: ys) (hchain : s.chain = none) (hover : sym + symLen k.scs30 l ≤ s.ym.now) :
    exec (.ulEgress n sym raw) s = .next (
      let secs := y :: ys.map fun z => z.1
      let v := secs.foldl (fun (v : State) z => v.settleSection z k) s
      let r := v.ulReceive n k secs l sym raw
      let res := (layersOf secs).map fun ly => (ly, (layerPrbs secs k ly).map fun z =>
        (z.1, (List.range 12).map fun sc => cround (r.2.combineSum z.2.1 k r.1 z.2.2.1 z.2.2.2 ly z.1 sc) (15 + k.combShift.toNat)))
      res.foldl (fun (w : State) q => w.egressLayer n k q.1 sym l (q.2.map fun z => (z.1, z.2.map fun v => v.1)))
        ((r.2.modCarrier n fun z => { z with count := { z.count with combSat := satAdd z.count.combSat (elementSats res) } }).ulTaken ((y, l) :: ys))) := by
  refine congrArg Host.Outcome.next ?_
  rw [hk]
  dsimp only
  rw [hsecs]
  refine if_neg (not_or.mpr ⟨?_, Int.not_lt.mpr hover⟩)
  rw [hchain]
  exact Bool.false_ne_true

theorem firsts_map {α β γ δ : Type} (l : List α) (r : List Nat) (f : α → β) (g : α → Nat → γ × δ) :
    (l.map fun z => (f z, r.map (g z))).map (fun z => (z.1, z.2.map fun v => v.1)) = l.map fun z => (f z, r.map fun sc => (g z sc).1) := by
  rw [List.map_map]
  refine List.map_congr_left fun z _ => ?_
  show (f z, (r.map (g z)).map fun v => v.1) = _
  rw [List.map_map]
  rfl

theorem any_not_empty {α : Type} {f : Fin 8 → List α} : ((List.finRange 8).any fun c => !(f c).isEmpty) = true ↔ ∃ c, f c ≠ [] := by
  simp only [List.any_eq_true, List.mem_finRange, true_and, Bool.not_eq_true', List.isEmpty_eq_false_iff]

end Sys2Proof.Laws

open Sys2Proof Sys2Proof.Machine Sys2Proof.Claims Sys2Proof.Laws

/-- Settles O46: each command, message and event of a port by its checks. -/
theorem fronthaulPorts : Obligations.FronthaulPorts := by
  intro s n
  refine ⟨?set, ?window, ?frame, ?delay, rfl, ?orphan, ?gone, ?egress, ?up, ?failed, ?revert⟩
  case set =>
    intro c x hx hn k old hgood hfixed hbringup
    have hexec := execFhPortSet_ok hx hn hgood hfixed hbringup
    refine ⟨fun hsame => ?_, ?_⟩
    · obtain ⟨hspeed, hfec, hlanes⟩ := hsame
      have hrestart : (k.speed != old.speed || k.fec != old.fec || k.laneList != old.laneList) = false := by
        rw [hspeed, hfec, hlanes, bne_self_eq_false, bne_self_eq_false, bne_self_eq_false]
        rfl
      have h := hexec false hrestart
      simp only [Bool.false_eq_true, if_false] at h
      exact h
    · intro hnew u st
      have hrestart : (k.speed != old.speed || k.fec != old.fec || k.laneList != old.laneList) = true := by
        rw [Bool.or_eq_true, Bool.or_eq_true, bne_iff_ne, bne_iff_ne, bne_iff_ne]
        refine Classical.byContradiction fun hall => ?_
        rw [not_or, not_or, Classical.not_not, Classical.not_not, Classical.not_not] at hall
        exact hnew ⟨hall.1.1, hall.1.2, hall.2⟩
      have h := hexec true hrestart
      simp only [if_true] at h
      refine ⟨fun hst => h.trans (congrArg Host.Outcome.next ?_), fun hst => h.trans (congrArg Host.Outcome.next ?_)⟩
      · exact congrArg (fun v : State => v.complete c.ref .ok) (if_neg hst)
      · exact congrArg (fun v : State => v.complete c.ref .ok) (if_pos hst)
  case window =>
    intro c x i hx hi o cl ho homax hmin hlt
    refine congrArg Host.Outcome.next ((served_cmd hx _ _ rfl).trans ?_)
    dsimp only
    rw [hi]
    refine if_neg ?_
    rw [beq_eq_false_iff_ne.mpr ho, decide_eq_false (Nat.not_lt.mpr homax), decide_eq_false (Nat.not_lt.mpr hmin), decide_eq_false (Nat.not_le.mpr hlt)]
    decide
  case frame =>
    intro f corr unc o hrec hcrc hlen hacc t u b
    have hexec := execEthFrameReceive_ok (corr := corr) (unc := unc) hrec hcrc hlen hacc
    refine ⟨fun h => hexec.trans (congrArg Host.Outcome.next (if_pos h)), fun h hrole => hexec.trans (congrArg Host.Outcome.next ?_),
      fun h hrole => hexec.trans (congrArg Host.Outcome.next ?_), fun h h' => hexec.trans (congrArg Host.Outcome.next ((if_neg h').trans (if_neg h)))⟩
    · exact (if_neg (by rw [h]; decide)).trans ((if_pos h).trans (if_pos hrole))
    · exact (if_neg (by rw [h]; decide)).trans ((if_pos h).trans (if_neg hrole))
  case delay =>
    intro src b htakes hver htype hsize hlen id rest
    have hrow {acts : List Nat} (hact : acts.contains (byteAt b 5) = true) : s.delayRow n src b acts = (s.delayMessage n src b).2 :=
      delayRow_ok htakes hver htype hlen hact
    have hlong : ¬ b.length < 24 := by omega
    refine ⟨fun h => congrArg Host.Outcome.next ((hrow (by rw [h]; rfl)).trans ?_), fun h => congrArg Host.Outcome.next ((hrow (by rw [h]; rfl)).trans ?_),
      fun d h hd => congrArg Host.Outcome.next ((hrow (by rw [h]; rfl)).trans ?_)⟩ <;>
    unfold State.delayMessage <;> dsimp only <;> rw [if_neg hlong, h]
    · rfl
    · rfl
    · rw [show s.fh.delays.find? _ = some d from hd]
      rfl
  case orphan =>
    intro i h k hh hk hp hcount hlate
    refine congrArg Host.Outcome.next ?_
    rw [hh]
    dsimp only
    rw [hk, hp]
    refine if_pos ?_
    rw [hcount, hlate]
    rfl
  case gone =>
    intro i h hh hk hp
    refine congrArg Host.Outcome.next ?_
    rw [hh]
    dsimp only
    rw [hk, hp]
  case egress =>
    intro sym raw k y l ys hk hsecs hchain hover secs v ramp g u val sat
    refine (execUlEgress_ok hk hsecs hchain hover).trans (congrArg Host.Outcome.next ?_)
    refine List.foldl_map.trans (congrArg (fun f : State → Nat → State => (layersOf secs).foldl f _) ?_)
    exact funext fun w => funext fun ly => congrArg (w.egressLayer n k ly sym l) (firsts_map ..)
  case up =>
    intro d hst hdeep hnap hlanes
    have hidle : (s.pwr.st == .deep || (s.pwr.st == .nap && !s.pwr.wakeCfg.getLsbD (16 + n.val))) = false := by
      rw [beq_eq_false_iff_ne.mpr hdeep, Bool.false_or, Bool.and_eq_false_imp, beq_iff_eq]
      intro h
      rw [hnap h]
      rfl
    refine congrArg Host.Outcome.next ?_
    rcases hst with h | h <;> rw [h] <;>
    · refine (if_neg ?_).trans (if_neg (any_not hlanes))
      rw [hidle]
      exact Bool.false_ne_true
  case failed =>
    intro cause lane hst ls l
    have hl : (if cause = 0 ∧ ls.contains lane.val then lane.val else ls.headD 0) = l := by
      unfold l
      simp only [List.contains_eq_mem, decide_eq_true_eq]
    refine congrArg Host.Outcome.next ((if_neg (not_not_intro hst)).trans ?_)
    rw [← hl]
  case revert =>
    intro left back hst hrev hback hdue hleft
    refine ⟨(List.finRange 8).any fun c => !(back.ofdm.carriers[c].away n).isEmpty, any_not_empty, congrArg Host.Outcome.next (if_pos ?_)⟩
    dsimp only
    rw [Bool.and_eq_true, Bool.or_eq_true, any_not_empty, Bool.not_eq_true', hst, hrev, hback, decide_eq_true hdue]
    refine ⟨rfl, hleft.imp_left fun h => ?_⟩
    rw [Bool.eq_false_iff, ne_eq, any_not_empty]
    exact h

end

section
/-! The hitch chain: configuration, time, alignment, forwarding, membership (R316 to R335). -/

namespace Sys2Proof.Laws

open Sys2Proof Sys2Proof.Machine Sys2Proof.Claims

variable {s : State} {c : Cmd} {x : Slot} {p : Fin 8} {b : Bytes}

/-- A message from above that a member hears is taken. -/
theorem fromAbove_take {k n : Nat} (h : FromAbove s p k n b) (f : HitMsg → State) :
    s.hitTake p k n b (fun m => if !s.hitchMember || !s.isUp p then s else f m) = f (hitMsgOf b) := by
  obtain ⟨hears, hmember, hup⟩ := h
  refine (hears_take hears _).trans (if_neg ?_)
  rw [hmember, hup]
  decide

/-- A chain configuration that is consistent, off the array, is taken. -/
theorem execHitSet_ok (hx : Served s c 0x58 x) : let p := x.payload
    let k : HitCfg := { dev := (pf p 0 0 3).toNat, ndev := (pf p 1 0 4).toNat, upEn := pb p 2 7, upPort := pf p 2 0 3, downEn := pb p 3 7, downPort := pf p 3 0 3 }
    2 ≤ k.ndev → k.ndev ≤ 8 → k.dev < k.ndev → (k.upEn = true ↔ k.dev ≠ 0) → (k.downEn = true ↔ k.dev + 1 ≠ k.ndev) →
    (k.upEn = true → k.downEn = true → k.upPort ≠ k.downPort) →
    (k.upEn = true → s.fh.ports[k.upPort.toFin].cfg.role = 1 ∧ s.fh.ports[k.upPort.toFin].cfg.speed = 6) →
    (k.downEn = true → s.fh.ports[k.downPort.toFin].cfg.role = 1 ∧ s.fh.ports[k.downPort.toFin].cfg.speed = 6) → s.mode.cur ≠ .array → s.inTransition = false →
    exec (.hitSet c) s = .next (State.complete { s with hit := { s.hit with cfg := some k } } c.ref .ok) := by
  intro p k hmin hmax hdev hup hdown hports hupPort hdownPort hmode htrans
  have hupBad : (k.upEn != (k.dev != 0)) = false := bne_eq_false_iff_eq.mpr (Bool.eq_iff_iff.mpr (hup.trans bne_iff_ne.symm))
  have hdownBad : (k.downEn != (k.dev + 1 != k.ndev)) = false := bne_eq_false_iff_eq.mpr (Bool.eq_iff_iff.mpr (hdown.trans bne_iff_ne.symm))
  have hsame : (k.upEn && k.downEn && k.upPort == k.downPort) = false := by
    rw [Bool.and_eq_false_imp, Bool.and_eq_true, and_imp]
    exact fun h h' => beq_eq_false_iff_ne.mpr (hports h h')
  have hgood (en : Bool) (n : BitVec 3) (h : en = true → s.fh.ports[n.toFin].cfg.role = 1 ∧ s.fh.ports[n.toFin].cfg.speed = 6) :
      (!(!en || (s.fh.ports[n.toFin].cfg.role == 1 && s.fh.ports[n.toFin].cfg.speed == 6))) = false := by
    rw [Bool.not_eq_false', Bool.or_eq_true, Bool.not_eq_true', Bool.and_eq_true, beq_iff_eq, beq_iff_eq]
    cases en with
    | false => exact Or.inl rfl
    | true => exact Or.inr (h rfl)
  refine congrArg Host.Outcome.next ((served_cmd hx _ _ rfl).trans ((if_neg ?_).trans ((if_neg ?_).trans rfl)))
  · have hall := hgood k.upEn k.upPort hupPort
    have hall' := hgood k.downEn k.downPort hdownPort
    show ¬ (decide (k.ndev < 2) || decide (8 < k.ndev) || decide (k.ndev ≤ k.dev) || (k.upEn != (k.dev != 0)) || (k.downEn != (k.dev + 1 != k.ndev)) || (k.upEn && k.downEn && k.upPort == k.downPort)
      || !(!k.upEn || (s.fh.ports[k.upPort.toFin].cfg.role == 1 && s.fh.ports[k.upPort.toFin].cfg.speed == 6))
      || !(!k.downEn || (s.fh.ports[k.downPort.toFin].cfg.role == 1 && s.fh.ports[k.downPort.toFin].cfg.speed == 6))) = true
    rw [hall, hall', hupBad, hdownBad, hsame, decide_eq_false (Nat.not_lt.mpr hmin), decide_eq_false (Nat.not_lt.mpr hmax), decide_eq_false (Nat.not_le.mpr hdev)]
    decide
  · rw [htrans, not_or]
    exact ⟨hmode, Bool.false_ne_true⟩

/-- What waits for a period is not early once the period is over. -/
theorem not_early {o : Option Nat} {period now : Nat} :
    (∀ t, o = some t → t + period ≤ now) → ¬ (match o with | some t => decide (now < t + period) | none => false) = true := by
  cases o with
  | none => exact fun _ => Bool.false_ne_true
  | some t => exact fun h hlt => absurd (h t rfl) (Nat.not_le.mpr (of_decide_eq_true hlt))

/-- The loss of a member behind this device. -/
theorem execMemberLost_behind {d : Fin 8} (hmode : s.mode.cur = .array) (hdev : s.dev < d.val) (hseen : s.seenMembers.getLsbD d.val = true) (hlost : s.isLost d.val = true) :
    exec (.memberLost d) s = .next (
      let gone := (List.range 8).filter fun i => decide (d.val ≤ i) && s.seenMembers.getLsbD i
      let mask : BitVec 8 := BitVec.ofNat 8 (gone.foldl (fun a i => a + 2 ^ i) 0)
      let old : BitVec 8 := match s.hit.leaving with | some l => l.1 | none => 0
      let u := s.modHit fun h => { h with leaving := some (old ||| mask, ceilTo 983040 (s.ym.now + 1)) }
      if u.dev = 0 then (gone.foldl (fun (v : State) i => v.postArray 4 i) u).raiseFault .memberLost { cls := 9, idx := 0x700 + d.val } else u) := by
  refine congrArg Host.Outcome.next ((if_neg (not_not_intro hmode)).trans ((if_neg (by omega)).trans ((if_neg ?_).trans rfl)))
  rw [hseen, hlost, decide_eq_false (by omega : ¬ d.val < s.dev)]
  decide

end Sys2Proof.Laws

open Sys2Proof Sys2Proof.Machine Sys2Proof.Claims Sys2Proof.Laws

/-- Settles O47: each message from above is taken by the member; the rest by their checks. -/
theorem hitchChain : Obligations.HitchChain := by
  intro s
  refine ⟨?set, ?send, ?messages, ?lost, ?change⟩
  case set => exact fun c x hx => execHitSet_ok hx
  case send =>
    intro d hd hmode hcount hdue
    refine congrArg Host.Outcome.next ?_
    rw [hd]
    exact if_neg (not_or.mpr ⟨not_not_intro hmode, not_or.mpr ⟨by rw [hcount]; decide, not_early hdue⟩⟩)
  case messages =>
    intro p b m
    refine ⟨?time, ?echo, ?loss, ?meas, ?fwd, ?send, ?keepalive⟩
    case time => exact fun a h => congrArg Host.Outcome.next (fromAbove_take h _)
    case echo => exact fun a h => congrArg Host.Outcome.next (fromAbove_take h _)
    case loss =>
      intro hup hlock hdue u
      refine congrArg Host.Outcome.next ((if_pos ?_).trans ?_)
      · rw [hup, hlock, decide_eq_true (show s.hit.timeAt + 10 * 983040 ≤ s.dp from hdue)]
        rfl
      · simp only [Bool.and_eq_true, beq_iff_eq]
        rfl
    case meas =>
      intro h hkind q at_
      refine ⟨fun hdev => congrArg Host.Outcome.next ((fromAbove_take h _).trans ((if_neg (not_not_intro hkind)).trans (if_pos hdev))),
        fun hdev => congrArg Host.Outcome.next ((fromAbove_take h _).trans ((if_neg (not_not_intro hkind)).trans (if_neg hdev)))⟩
    case fwd => exact fun h => congrArg Host.Outcome.next (fromAbove_take h _)
    case send =>
      intro hst hrole hdue
      refine congrArg Host.Outcome.next (if_neg ?_)
      rw [hst, hrole]
      exact not_early hdue
    case keepalive =>
      intro h map h'
      refine ⟨fun hup => congrArg Host.Outcome.next ((hears_take h _).trans (if_pos hup)),
        fun hup => congrArg Host.Outcome.next ((hears_take h _).trans (if_neg fun hup' => Bool.false_ne_true (hup.symm.trans hup')))⟩
  case lost =>
    intro d hmode
    refine ⟨fun hd hcut his => congrArg Host.Outcome.next ((if_neg (not_not_intro hmode)).trans ((if_pos hd).trans (if_neg ?_))), ?_⟩
    · rw [hcut, his]
      decide
    · intro hdev hseen hlost gone mask old u
      exact ⟨fun h0 => (execMemberLost_behind hmode hdev hseen hlost).trans (congrArg Host.Outcome.next (if_neg h0)),
        fun h0 => (execMemberLost_behind hmode hdev hseen hlost).trans (congrArg Host.Outcome.next (if_pos h0))⟩
  case change =>
    intro mask t ht hnow u u'
    refine congrArg Host.Outcome.next ?_
    rw [ht]
    refine (if_neg (Int.not_lt.mpr hnow)).trans ?_
    extract_lets v v'
    have hv : v' = u' := congrArg (fun f => List.foldl f _ _) (funext fun w => funext fun c => rfl)
    rw [hv]

end

section
/-! The hitch chain: partial sums and distributed weights (R327 to R333). -/

namespace Sys2Proof.Laws

open Sys2Proof Sys2Proof.Machine Sys2Proof.Claims

variable {s : State} {p : Fin 8} {b : Bytes} {car : Fin 8} {ul : Bool} {slot : Tick} {grp : Nat}

/-- A message from below that a device of an array hears is taken. -/
theorem fromBelow_go {k n : Nat} (h : FromBelow s p k n b) : ¬ (s.mode.cur ≠ .array ∨ s.isDown p = false) := by
  obtain ⟨_, hmode, hdown⟩ := h
  rw [not_or, Classical.not_not, hdown]
  exact ⟨hmode, by decide⟩

theorem fromBelow_take {k n : Nat} (h : FromBelow s p k n b) (f : HitMsg → State) : s.hitTake p k n b f = f (hitMsgOf b) := hears_take h.1 f

/-- A partial sum that is whole is kept, or counts as late. -/
theorem execUlPsum_ok {k : CarrierCfg} {l : List (List (Int × Int))} (h : FromBelow s p 4 8 b) : let m := hitMsgOf b
    s.ofdm.carriers[m.car].cfg = some k → let num := beAt m.body 4 2 / 128
    8 + (num * 340 + 7) / 8 ≤ m.body.length → psumPrbs (m.body.drop 8) num = some l →
    exec (.ulPsum p b) s = .next (if s.psumTime s.dev (s.psumSym m k).2 < s.ym.now then { s with hit := { s.hit with hopLate := satInc s.hit.hopLate } }
      else { s with hit := { s.hit with psums := s.hit.psums ++
        [{ carrier := m.car, layer := byteAt m.body 0 / 8, sym := (s.psumSym m k).1, prb := beAt m.body 2 2 / 128, vals := l, miss := (byteAt m.body 0).testBit 2 }] } }) := by
  intro m hk num hlen hl
  refine congrArg Host.Outcome.next ((fromBelow_take h _).trans ?_)
  rw [show s.ofdm.carriers[(hitMsgOf b).car].cfg = some k from hk]
  refine (if_neg (fromBelow_go h)).trans ((if_neg (Nat.not_lt.mpr hlen)).trans ?_)
  rw [show psumPrbs ((hitMsgOf b).body.drop 8) (beAt (hitMsgOf b).body 4 2 / 128) = some l from hl]
  rfl

/-- The layers whose sum missed a share below, as each member counts them: D0 every one, another member its own. -/
def psumCounted (u : State) (ls : List Nat) (f : Nat → List (Nat × List (Int × Int)) × Bool × Bool) : State :=
  ls.foldl (fun (v : State) ly => if if v.dev = 0 then (f ly).2.2 else (f ly).2.1 then v.modHit fun h => { h with psumMiss := satInc h.psumMiss } else v) u

/-- The sums of the layers go up the chain, or on the egress of its head. -/
def psumsOut (t : State) (car : Fin 8) (sym : Tick) (l : Nat) (k : CarrierCfg) (ls : List Nat) (f : Nat → List (Nat × List (Int × Int)) × Bool × Bool) : State :=
  match t.upPort with
  | some p => ls.foldl (fun (v : State) ly =>
      v.psumSend p car sym l ly (f ly).2.2 ((f ly).1.map fun (q : Nat × List (Int × Int)) => (q.1, q.2.map fun (v : Int × Int) => (sat24 v.1, sat24 v.2)))) t
  | none => t.psumEgress car k sym l (ls.map fun ly => (ly, (f ly).1))

/-- The model counts and sends the sums from the list that it has made of them. -/
theorem psumSteps_layers (u : State) (sym : Tick) (l : Nat) (k : CarrierCfg) (ls : List Nat) (f : Nat → List (Nat × List (Int × Int)) × Bool × Bool) :
    (let sums := ls.map fun ly => (ly, f ly)
     let t := sums.foldl (fun (v : State) z => if if v.dev = 0 then z.2.2.2 else z.2.2.1 then v.modHit fun h => { h with psumMiss := satInc h.psumMiss } else v) u
     match t.upPort with
     | some p => sums.foldl (fun (v : State) z =>
         v.psumSend p car sym l z.1 z.2.2.2 (z.2.1.map fun (q : Nat × List (Int × Int)) => (q.1, q.2.map fun (v : Int × Int) => (sat24 v.1, sat24 v.2)))) t
     | none => t.psumEgress car k sym l (sums.map fun z => (z.1, z.2.1))) = psumsOut (psumCounted u ls f) car sym l k ls f := by
  simp only [List.foldl_map, List.map_map]
  rfl

/-- The partial sums of a symbol's layers. -/
theorem execUlPsumSend_ok {sym : Tick} {raw : List AdcIn} {k : CarrierCfg} {y : Section} {l : Nat} {ys : List (Section × Nat)} (hk : s.ofdm.carriers[car].cfg = some k)
    (hsecs : s.ulSections car k sym = (y, l) :: ys) (hchain : s.chain ≠ none) (hover : s.psumTime s.dev (sym + symLen k.scs30 l) ≤ s.ym.now) :
    exec (.ulPsumSend car sym raw) s = .next (
      let secs := y :: ys.map fun z => z.1
      let v := secs.foldl (fun (v : State) z => v.settleSection z k) s
      let r := v.ulReceive car k secs l sym raw
      let u := r.2.ulTaken ((y, l) :: ys)
      let mine := u.hit.psums.filter fun (p : PSum) => p.carrier == car && p.sym == sym
      let u := u.modHit fun h => { h with psums := h.psums.filter fun (p : PSum) => !(p.carrier == car && p.sym == sym) }
      let sum (ly : Nat) := u.psumLayer k secs r.1 mine ly
      psumsOut (psumCounted u (layersOf secs) sum) car sym l k (layersOf secs) sum) := by
  refine congrArg Host.Outcome.next ?_
  rw [hk]
  dsimp only
  rw [hsecs]
  refine (if_neg (not_or.mpr ⟨?_, Int.not_lt.mpr hover⟩)).trans ?_
  · rw [Option.isNone_iff_eq_none]
    exact hchain
  · exact psumSteps_layers ..

/-- The head of the chain sends each layer's sum on its egress. -/
theorem psumEgress_layers (t : State) (k : CarrierCfg) (sym : Tick) (l : Nat) (ls : List Nat) (f : Nat → List (Nat × List (Int × Int))) :
    t.psumEgress car k sym l (ls.map fun ly => (ly, f ly)) =
      let res (ly : Nat) := (f ly).map fun y => (y.1, y.2.map fun v => cround v k.combShift.toNat)
      ls.foldl (fun (v : State) ly => v.egressLayer car k ly sym l ((res ly).map fun y => (y.1, y.2.map fun v => v.1)))
        (t.modCarrier car fun y => { y with count := { y.count with combSat := satAdd y.count.combSat (elementSats (ls.map fun ly => (ly, res ly))) } }) := by
  unfold State.psumEgress
  rw [List.map_map]
  exact List.foldl_map

/-- A claim that is not listed as committed. -/
theorem commit_contains {x : Fin 8 × Bool × Tick × Nat} (h : x ∉ s.hit.committed) : ¬ s.hit.committed.contains x = true := by
  rw [List.contains_iff_mem]
  exact h

end Sys2Proof.Laws

open Sys2Proof Sys2Proof.Machine Sys2Proof.Claims Sys2Proof.Laws

/-- Settles O48: each message is taken by the device; the sums and the commits by their checks. -/
theorem hitchSumsAndWeights : Obligations.HitchSumsAndWeights := by
  intro s
  refine ⟨?messages, ?sums, ?decide, ?miss⟩
  case messages =>
    intro p b m slot
    refine ⟨?psum, ?snd, ?gram, ?solve, ?ready, ?commit⟩
    case psum =>
      intro k l h hk num hlen hl
      have hexec := execUlPsum_ok h hk hlen hl
      exact ⟨fun hin => hexec.trans (congrArg Host.Outcome.next (if_neg (Int.not_lt.mpr hin))), fun hlate => hexec.trans (congrArg Host.Outcome.next (if_pos hlate))⟩
    case snd =>
      intro h u
      refine congrArg Host.Outcome.next ((fromBelow_take h _).trans ((if_neg (fromBelow_go h)).trans ?_))
      simp only [List.contains_iff_mem]
      rfl
    case gram =>
      intro g h hg hmap hlen
      refine congrArg Host.Outcome.next ((fromBelow_take h _).trans ?_)
      dsimp only
      rw [show s.chainGroup? _ _ _ _ = some g from hg]
      refine if_neg ?_
      rintro (h' | h' | h' | h')
      · exact fromBelow_go h (Or.inl h')
      · exact fromBelow_go h (Or.inr h')
      · exact h' hmap
      · exact absurd hlen (Nat.not_le.mpr h')
    case solve =>
      intro h l hlen u
      have hexec : exec (.solve p b) s = .next (match u.chainGroup? m.car m.ul slot (beAt m.body 0 2) with
          | some g =>
            if g.map.length ≠ l ∨ g.solved.isSome then u
            else (u.modGroup g fun x => { x with solved := some ((byteAt m.body 3 : Int) - 128, (List.range (l * l)).map fun i => BitVec.ofNat 32 (beAt m.body (4 + 4 * i) 4)) }).chainJob g 2
          | none => u) := by
        obtain ⟨hears, hmember, hup⟩ := h
        refine congrArg Host.Outcome.next ((hears_take hears _).trans ((if_neg ?_).trans rfl))
        rw [hmember, hup, decide_eq_false (Nat.not_lt.mpr hlen)]
        decide
      refine ⟨fun g hg hmap hsolved => hexec.trans ?_, fun hnone => hexec.trans ?_⟩
      · rw [hg]
        refine congrArg Host.Outcome.next (if_neg ?_)
        rw [not_or, Classical.not_not, hsolved]
        exact ⟨hmap, Bool.false_ne_true⟩
      · rw [hnone]
    case ready => exact fun h => congrArg Host.Outcome.next ((fromBelow_take h _).trans (if_neg (fromBelow_go h)))
    case commit =>
      intro h u grp x a d r w hx hhow
      have hexec : exec (.commit p b) s = .next (match byteAt m.body 2, (u.chainGroup? m.car m.ul slot grp).bind (fun g => g.set), u.newest m.car m.ul grp none with
          | 0, some w, _ => (u.publish { x with cmds := [] } w).claimCmds x true
          | 1, _, some w => (u.setClaim { x with how := .served w, cmds := [] }).claimCmds x false
          | _, _, _ => (u.setClaim { x with how := .beam, cmds := [] }).claimCmds x false) := by
        refine congrArg Host.Outcome.next ((fromAbove_take h _).trans (Eq.trans (b := match u.claim? m.car m.ul slot grp with
          | some x => match x.how with
            | .waiting _ _ _ _ =>
              match byteAt m.body 2, (u.chainGroup? m.car m.ul slot grp).bind (fun g => g.set), u.newest m.car m.ul grp none with
              | 0, some w, _ => (u.publish { x with cmds := [] } w).claimCmds x true
              | 1, _, some w => (u.setClaim { x with how := .served w, cmds := [] }).claimCmds x false
              | _, _, _ => (u.setClaim { x with how := .beam, cmds := [] }).claimCmds x false
            | _ => u
          | none => u) rfl ?_))
        rw [hx]
        dsimp only
        rw [hhow]
      refine ⟨fun v h0 hv => hexec.trans ?_, fun v h1 hv => hexec.trans ?_, fun h2 => hexec.trans ?_⟩
      · rw [h0, hv]
        rfl
      · rw [h1, hv]
        rfl
      · rw [h2]
        rfl
  case sums =>
    intro car sym raw k y l ys hk hsecs hchain hover secs v ramp g u mine u' below lost miss sums t
    have hsum (ly : Nat) : u'.psumLayer k secs g mine ly = (sums ly, lost ly, miss ly) := rfl
    have hexec : exec (.ulPsumSend car sym raw) s = .next (psumsOut (psumCounted u' (layersOf secs) fun ly => u'.psumLayer k secs g mine ly) car sym l k (layersOf secs)
        fun ly => u'.psumLayer k secs g mine ly) := execUlPsumSend_ok (raw := raw) hk hsecs hchain hover
    simp only [hsum] at hexec
    have ht : psumCounted u' (layersOf secs) (fun ly => (sums ly, lost ly, miss ly)) = t := rfl
    rw [ht] at hexec
    refine ⟨fun q hq => hexec.trans (congrArg Host.Outcome.next ?_), ?_⟩
    · unfold psumsOut
      rw [hq]
    · intro hq res
      refine hexec.trans (congrArg Host.Outcome.next ?_)
      unfold psumsOut
      rw [hq]
      exact psumEgress_layers t k sym l (layersOf secs) sums
  case decide =>
    intro car ul slot grp n x od d r hchain hx hnew
    have hgo := commit_contains hnew
    have hexec : exec (.commitSend car ul slot grp) s = .next (match x.how with
        | .waiting od d _ (some w) =>
          if d - ((s.members : Int) - 1) * 1180 < s.ym.now then
            let s := (s.abandonClaim x).modHit fun h => { h with chainFb := satInc h.chainFb }
            s.sendCommit x (((s.claim? car ul slot grp).getD x).code false)
          else ((if od then s.modWcount car fun n => { n with onDemand := satInc n.onDemand } else s).publish x w).sendCommit x 0
        | .waiting _ d _ none =>
          if s.ym.now < d - ((s.members : Int) - 1) * 1180 then s
          else
            let s := (s.abandonClaim x).modHit fun h => { h with chainFb := satInc h.chainFb }
            s.sendCommit x (((s.claim? car ul slot grp).getD x).code false)
        | .served w => s.sendCommit x (x.code ((s.chainGroup? car ul slot grp).any fun g => g.readyOut && decide (w.words = (g.set.map fun v => v.words).getD [])))
        | .beam => (s.modHit fun h => { h with chainFb := satInc h.chainFb }).sendCommit x 2) := by
      refine congrArg Host.Outcome.next ?_
      rw [hchain, hx]
      exact (if_neg hgo).trans rfl
    refine ⟨fun w hhow hin => hexec.trans ?_, ?_, fun w hhow => hexec.trans ?_, fun hhow => hexec.trans ?_⟩
    · rw [hhow]
      exact congrArg Host.Outcome.next (if_neg (Int.not_lt.mpr hin))
    · intro late hwhen
      refine hexec.trans ?_
      obtain ⟨hhow, hdue⟩ | ⟨w, hhow, hlate⟩ := hwhen <;> rw [hhow]
      · exact congrArg Host.Outcome.next (if_neg (Int.not_lt.mpr hdue))
      · exact congrArg Host.Outcome.next (if_pos hlate)
    · unfold Claim.code
      rw [hhow]
    · rw [hhow]
      rfl
  case miss =>
    intro car ul slot grp x a d r w hx hhow hmember hdue
    refine congrArg Host.Outcome.next ?_
    rw [hx]
    dsimp only
    rw [hhow]
    refine if_pos ?_
    rw [hmember, decide_eq_true hdue]
    rfl

end

section
/-! Housekeeping: conversions, sweeps, spots, trigger pins, calibrations and trips (R498 to R508, R512, R517). -/

namespace Sys2Proof.Laws

open Sys2Proof Sys2Proof.Machine Sys2Proof.Claims

variable {s : State} {i : Fin 2} {c : Cmd} {x : Slot}

/-- Reports leave the supervision alone. -/
theorem Reports.sup {s t : State} (h : Reports s t) : t.sup = s.sup := Eq.trans (congrArg State.sup h) rfl

theorem complete_sup (s : State) (c : CmdRef) (st : Status) (res : BitVec 32) : (s.complete c st res).sup = s.sup := (complete_reports ..).sup

theorem postSup_sup (s : State) (code index n : Nat) : (s.postSup code index n).sup = s.sup := (postRec_reports ..).sup

theorem foldl_sup {α : Type} (f : State → α → State) (hf : ∀ s a, (f s a).sup = s.sup) (l : List α) (s : State) : (l.foldl f s).sup = s.sup :=
  List.foldlRecOn l f (motive := fun t : State => t.sup = s.sup) rfl fun t ht a _ => (hf t a).trans ht

theorem capFail_sup (s : State) (p : Fin 64) : (s.capFail p).sup = s.sup := by
  unfold State.capFail
  extract_lets k t
  split <;> rfl

theorem capMuted_sup (s : State) (p : Fin 64) (tx rx : Bool) : (s.capMuted p tx rx).sup = s.sup := by
  refine foldl_sup _ (fun t a => ?_) _ s
  extract_lets r u
  split
  · exact capFail_sup ..
  · exact complete_sup ..

/-- A comparison leaves the converters alone. -/
theorem hkCompare_conv (s : State) (ch : Fin 184) : (s.hkCompare ch).sup.conv = s.sup.conv := by
  unfold State.hkCompare
  extract_lets h n trip y t u
  have hu : u.sup.conv = s.sup.conv := by
    refine Eq.trans (b := t.sup.conv) ?_ rfl
    unfold u
    split
    · exact congrArg Sup.conv (foldl_sup _ (fun v p => capMuted_sup ..) _ t)
    · rfl
  split
  · rfl
  · split
    · rfl
    · split
      · split
        · exact (congrArg Sup.conv (postSup_sup ..)).trans hu
        · exact hu
      · rfl

/-- A channel changes to the value of a function at it. -/
theorem chan_congr {ch : Fin 184} {f g : HkChan → HkChan} (h : f s.sup.chan[ch] = g s.sup.chan[ch]) :
    ({ s with sup := { s.sup with chan := vmod s.sup.chan ch f } } : State) = { s with sup := { s.sup with chan := vmod s.sup.chan ch g } } :=
  congrArg (fun y => ({ s with sup := { s.sup with chan := vset s.sup.chan ch y } } : State)) h

theorem hkCompare_compares (s : State) (ch : Fin 184) : Compares s ch (s.hkCompare ch) := by
  have hrun {trip : Bool} (hen : s.sup.chan[ch].en = true) (hin : s.sup.chan[ch].inside ch.val = false)
      (htrip : (!s.sup.chan[ch].tripped && satInc s.sup.chan[ch].count == s.sup.chan[ch].persist) = trip) : s.hkCompare ch =
      let h := s.sup.chan[ch]
      let t : State := { s with sup := { s.sup with chan := vmod s.sup.chan ch fun h => { h with count := satInc s.sup.chan[ch].count, tripped := h.tripped || trip } } }
      if trip then
        let t := if h.mute then (t.cmpTargets ch).foldl (fun (t : State) p => t.capMuted p true false) t else t
        if h.event then t.postSup 1 ch.val h.persist.toNat else t
      else t := by
    subst htrip
    exact (if_neg (by rw [hen]; decide)).trans (if_neg (by rw [hin]; exact Bool.false_ne_true))
  unfold Compares
  refine ⟨fun hen => ?_, fun hen hin => ?_, fun hen hin hno => (hrun (trip := false) hen hin ?_).trans ?_, ?_⟩
  · exact if_pos (by rw [hen]; rfl)
  · exact (if_neg (by rw [hen]; decide)).trans (if_pos hin)
  · rcases hno with h | h
    · rw [h]; rfl
    · rw [beq_eq_false_iff_ne.mpr h, Bool.and_false]
  · exact (if_neg Bool.false_ne_true).trans (chan_congr (by rw [Bool.or_false]))
  · intro hen hin hnot hn t u
    have ht : ({ s with sup := { s.sup with chan := vmod s.sup.chan ch fun y => { y with count := satInc s.sup.chan[ch].count, tripped := y.tripped || true } } } : State) = t :=
      chan_congr (by rw [Bool.or_true])
    refine (hrun (trip := true) hen hin (by rw [hnot, hn, beq_self_eq_true]; rfl)).trans ((if_pos rfl).trans ?_)
    rw [ht]

/-- The end of a conversion records and compares its result. -/
theorem execHkConversionEnd_ok {raw : Int} {o : HkOp} {ch : Fin 184} (hop : s.sup.conv[i].op = some o) (hfin : o.fin ≤ s.dp) (hch : o.ch = ch.val) (hstop : s.sup.conv[i].stop = []) :
    let k := s.sup.conv[i]
    let u := (s.hkRecord ch o.fmt (k.correct o.ch raw) o.samp).hkCompare ch
    let v := match o.cmd with | some r => u.complete r .ok ((hkWord o.fmt (k.correct o.ch raw)).setWidth 32) | none => u
    exec (.hkConversionEnd i raw) s = .next ((v.modConv i fun c => { c with
      op := none, idleAt := o.fin, pos := if o.sweep then c.pos + 1 else c.pos, nextAt := if o.sweep then v.dp else c.nextAt }).hkGo i) := by
  intro k u v
  have hv : v.sup.conv = s.sup.conv := by
    have hu : u.sup.conv = s.sup.conv := hkCompare_conv ..
    unfold v
    split
    · rw [complete_sup]; exact hu
    · exact hu
  have hempty : ((v.modConv i fun c => { c with
      op := none, idleAt := o.fin, pos := if o.sweep then c.pos + 1 else c.pos, nextAt := if o.sweep then v.dp else c.nextAt }).sup.conv[i]).stop.isEmpty = true := by
    rw [modConv_sup, vmod_same, hv]
    dsimp only
    rw [hstop]
    rfl
  refine congrArg Host.Outcome.next ?_
  rw [hop]
  refine (if_neg (Nat.not_lt.mpr hfin)).trans ?_
  rw [show toFin 184 o.ch = some ch by rw [hch]; exact toFin_val ch]
  exact congrArg (fun w : State => w.hkGo i) (if_pos hempty)

theorem hkPut_self (f : HkConv → HkConv) {k : HkConv} (h : f s.sup.conv[i] = k) : s.modConv i f = hkPut s i k := (modc s i f).trans (congrArg _ h)

/-- The two converters are the one and the other. -/
theorem conv_cases (i j : Fin 2) : j = i ∨ j = 1 - i := by omega

/-- A calibration is over; with no other of its command the command completes. -/
theorem execHkCalEnd_last {g o : BitVec 16} {r : CmdRef} {fin : Nat} (hcal : s.sup.conv[i].cal = some (some r, fin)) (hfin : fin ≤ s.dp) :
    let u := hkPut s i { s.sup.conv[i] with cal := none, gain := g, ofs := o, idleAt := s.dp, nextAt := s.dp }
    let other := u.sup.conv[1 - i]
    some r ∉ u.sup.conv[i].calWait → some r ∉ other.calWait → (∀ x, other.cal = some x → x.1 ≠ some r) → exec (.hkCalEnd i g o) s = .next ((u.complete r .ok).hkGo i) := by
  intro u other hmine hother hrun
  have hu : s.modConv i (fun c => { c with cal := none, gain := g, ofs := o, idleAt := s.dp, nextAt := s.dp }) = u := modc ..
  have hleft : (u.sup.conv.toList.any fun c => c.calWait.contains (some r) || (match c.cal with | some x => x.1 == some r | none => false)) = false := by
    refine toList_any_false fun j => ?_
    rw [Bool.or_eq_false_iff, ← Bool.not_eq_true, List.contains_iff_mem]
    rcases conv_cases i j with rfl | rfl
    · refine ⟨hmine, ?_⟩
      rw [show u.sup.conv[j] = _ from vmod_same ..]
    · refine ⟨hother, ?_⟩
      cases ho : u.sup.conv[1 - i].cal with
      | none => rfl
      | some x => exact beq_eq_false_iff_ne.mpr (hrun x ho)
  refine congrArg Host.Outcome.next ?_
  rw [hcal]
  refine (if_neg (Nat.not_lt.mpr hfin)).trans (congrArg (fun w : State => w.hkGo i) ?_)
  dsimp only
  rw [hu]
  exact if_neg fun h => Bool.false_ne_true (hleft.symm.trans h)

/-- A trigger of one converter leaves the other alone. -/
theorem hkTrigger_other {i j : Fin 2} (h : j ≠ i) (at_ : Nat) : (s.hkTrigger i at_).2.sup.conv[j] = s.sup.conv[j] := by
  unfold State.hkTrigger
  extract_lets k
  split
  · rfl
  · split <;> exact vmod_other _ h _

/-- A converter whose trigger pin it is. -/
def pinned (s : State) (pin : Bool) (i : Fin 2) : Bool := if pin then s.sup.conv[i].pin1 else s.sup.conv[i].pin0

/-- What a trigger pin does to one converter. -/
def pinStep (pin : Bool) (s : State) (i : Fin 2) : State :=
  let c := s.sup.conv[i]
  if (if pin then c.pin1 else c.pin0) then
    let f : BitVec 16 × State := if c.powered then s.takeFree 16 else (0, s)
    (f.2.hkTrigger i (s.dp + (if c.powered then f.1.toNat % 395 else 394))).2
  else s

theorem execHkTrigPin_steps (pin : Bool) : exec (.hkTrigPin pin) s = .next (pinStep pin (pinStep pin s 0) 1) := rfl

theorem pinStep_off {pin : Bool} (h : ¬ pinned s pin i = true) : pinStep pin s i = s := if_neg h

theorem pinStep_unpowered {pin : Bool} (h : pinned s pin i = true → s.sup.conv[i].powered = false) :
    pinStep pin s i = if pinned s pin i then (s.hkTrigger i (s.dp + 394)).2 else s := by
  by_cases hp : pinned s pin i = true
  · rw [if_pos hp]
    refine (if_pos hp).trans ?_
    rw [h hp]
    rfl
  · rw [if_neg hp]
    exact pinStep_off hp

theorem pinStep_powered {pin : Bool} (hp : pinned s pin i = true) (h : s.sup.conv[i].powered = true) :
    pinStep pin s i = ((s.takeFree 16).2.hkTrigger i (s.dp + (s.takeFree 16).1.toNat % 395)).2 := by
  refine (if_pos hp).trans ?_
  rw [h]
  rfl

/-- A channel's bit is bit `ch` of the mask alone. -/
theorem setBits_single {w : Nat} (i : Fin w) : setBits ((1 : BitVec w) <<< i.val) = [i] := by
  unfold setBits
  rw [List.filter_congr (q := fun j => decide (j = i))]
  · rw [List.filter_eq, (List.nodup_finRange w).count, if_pos (List.mem_finRange i)]
    rfl
  · intro j _
    rw [BitVec.getLsbD_shiftLeft, show (1 : BitVec w).getLsbD (j.val - i.val) = _ from BitVec.getLsbD_one, decide_eq_true j.isLt, Bool.eq_iff_iff]
    simp only [Bool.and_eq_true, Bool.not_eq_true', decide_eq_false_iff_not, decide_eq_true_eq, Fin.ext_iff, true_and]
    have := i.isLt
    omega

theorem shiftLeft_one_ne {w : Nat} (i : Fin w) : ((1 : BitVec w) <<< i.val) ≠ 0 := by
  intro h
  have hs := setBits_single i
  rw [h] at hs
  have : i ∈ setBits (0 : BitVec w) := hs ▸ List.mem_singleton_self i
  rw [setBits, List.mem_filter, show (0 : BitVec w).getLsbD i.val = false from BitVec.getLsbD_zero] at this
  exact Bool.false_ne_true this.2

/-- The low bits of a payload field are the field of those bits. -/
theorem pf_low {p : BitVec 320} {byte w n : Nat} (h : n ≤ w) : (pf p byte 0 w).extractLsb' 0 n = pf p byte 0 n := by
  refine BitVec.eq_of_getLsbD_eq fun i hi => ?_
  rw [pf, pf, BitVec.getLsbD_extractLsb', BitVec.getLsbD_extractLsb', BitVec.getLsbD_extractLsb', Nat.zero_add, decide_eq_true (Nat.lt_of_lt_of_le hi h), Bool.true_and]

/-- The selector of an operation that the payload names. -/
theorem opIs_of {p : BitVec 320} {byte lo w v : Nat} (h : (pf p byte lo w).toNat = v) : opIs byte lo w v p = true := beq_iff_eq.mpr h

/-- Equivalent conditions choose alike. -/
theorem ite_of_iff {α : Type} {p q : Prop} [Decidable p] [Decidable q] (h : p ↔ q) (a b : α) : (if p then a else b) = if q then a else b :=
  ite_congr (propext h) (fun _ => rfl) fun _ => rfl

/-- A trigger of a converter that has a sequence and neither sweeps nor calibrates begins the sweep. -/
theorem hkTrigger_starts {at_ : Nat} (hlist : s.sup.conv[i].list ≠ []) (hrun : s.sup.conv[i].run = false) (hcal : s.sup.conv[i].cal = none) : s.hkTrigger i at_ =
    (true, hkPut s i { s.sup.conv[i] with run := true, pos := 0, nextAt := at_, powered := true, upAt := if s.sup.conv[i].powered then s.sup.conv[i].upAt else at_ }) := by
  refine (if_neg (by rw [isEmpty_of_ne_nil hlist]; exact Bool.false_ne_true)).trans ((if_neg ?_).trans (congrArg (Prod.mk true) (modc ..)))
  rw [hrun, hcal]
  exact Bool.false_ne_true

end Sys2Proof.Laws

open Sys2Proof Sys2Proof.Machine Sys2Proof.Claims Sys2Proof.Laws

/-- Settles O49: each event of a converter and each command by its checks. -/
theorem housekeeping : Obligations.Housekeeping := by
  intro s
  refine ⟨?converter, ?unpowered, ?powered, ?commands⟩
  case converter =>
    intro i k
    refine ⟨?conversion, ?sweep, ?down, ?calStart, ?calEnd⟩
    case conversion =>
      intro raw o ch hop hfin hch hstop
      exact ⟨_, hkCompare_compares .., execHkConversionEnd_ok hop hfin hch hstop⟩
    case sweep =>
      intro hrun hop hcal hlen
      have hgo : (s.sup.conv[i].run && s.sup.conv[i].op.isNone && s.sup.conv[i].cal.isNone && decide (s.sup.conv[i].list.length ≤ s.sup.conv[i].pos)) = true := by
        rw [show s.sup.conv[i].run = true from hrun, show s.sup.conv[i].op = none from hop, show s.sup.conv[i].cal = none from hcal, decide_eq_true hlen]
        rfl
      refine ⟨fun hloop => congrArg Host.Outcome.next ((if_pos hgo).trans (congrArg (fun v : State => v.hkGo i) (hkPut_self _ ?_))),
        fun hloop => congrArg Host.Outcome.next ((if_pos hgo).trans (congrArg (fun v : State => v.hkGo i) (hkPut_self _ ?_)))⟩
      · exact if_pos hloop
      · exact if_neg (by rw [show s.sup.conv[i].loop = false from hloop]; exact Bool.false_ne_true)
    case down =>
      intro hpow hop hrun hqueue hcal hidle
      refine congrArg Host.Outcome.next ((if_pos ?_).trans (modc ..))
      rw [show s.sup.conv[i].powered = true from hpow, show s.sup.conv[i].op = none from hop, show s.sup.conv[i].run = false from hrun,
        show s.sup.conv[i].queue = [] from hqueue, show s.sup.conv[i].cal = none from hcal, decide_eq_true hidle]
      rfl
    case calStart =>
      intro w rest hwait hop hready
      refine congrArg Host.Outcome.next ?_
      dsimp only
      rw [show s.sup.conv[i].calWait = w :: rest from hwait]
      refine (if_pos ?_).trans (modc ..)
      rw [show s.sup.conv[i].op = none from hop, hready]
      rfl
    case calEnd => exact fun g o r fin hcal hfin => execHkCalEnd_last hcal hfin
  case unpowered =>
    intro pin h
    have h0 := pinStep_unpowered (s := s) (i := 0) (h 0)
    have hconv : (pinStep pin s 0).sup.conv[(1 : Fin 2)] = s.sup.conv[(1 : Fin 2)] := by
      rw [h0]
      split
      · exact hkTrigger_other (by decide) _
      · rfl
    have h1 : pinStep pin (pinStep pin s 0) 1 = _ := pinStep_unpowered (fun hp => by
      rw [hconv]
      exact h 1 (by rw [pinned, hconv] at hp; exact hp))
    rw [execHkTrigPin_steps, h1, h0]
    rfl
  case powered =>
    intro pin i hpin hpow
    have hon : pinned s pin i = true := (hpin i).mpr rfl
    have hoff {j : Fin 2} (hj : j ≠ i) : ¬ pinned s pin j = true := fun h => hj ((hpin j).mp h)
    refine ⟨(s.takeFree 16).1.toNat % 395, Nat.le_of_lt_succ (Nat.mod_lt _ (by decide)), ?_⟩
    rw [execHkTrigPin_steps]
    obtain rfl | rfl : i = 0 ∨ i = 1 := by omega
    · have hother : ¬ pinned (pinStep pin s 0) pin 1 = true := by
        rw [pinned, pinStep_powered hon hpow, hkTrigger_other (by decide)]
        exact hoff (by decide)
      rw [pinStep_off hother, pinStep_powered hon hpow]
    · rw [pinStep_off (hoff (by decide)), pinStep_powered hon hpow]
  case commands =>
    intro c x p i k
    refine ⟨?seq, ?cmp, ?sweep, ?spot, ?stop, ?cal, ?clear, ?clearNone⟩
    case seq =>
      intro b hx hdata hmin hmax hzero hrun es hes
      refine congrArg Host.Outcome.next ((served_cmd hx _ _ rfl).trans ?_)
      dsimp only
      rw [within_ok hmin hmax, hdata]
      refine (if_neg ?_).trans ((if_neg ?_).trans ((if_neg ?_).trans (congrArg (fun v : State => v.finish c.ref .ok) (modc ..))))
      · rw [pf_low (by decide), hzero]
        decide
      · rw [show s.sup.conv[((pf x.payload 0 0 1).toFin : Fin 2)].run = false from hrun]
        exact Bool.false_ne_true
      · refine any_not fun e he => ?_
        obtain ⟨hlt, hsuits⟩ := hes e he
        rw [decide_eq_false (Nat.not_le.mpr hlt), hsuits]
        rfl
    case cmp =>
      intro ch hx hch habove hpersist hmute htrip
      refine congrArg Host.Outcome.next ((served_cmd hx _ _ rfl).trans ?_)
      dsimp only
      rw [show (pf x.payload 0 0 8).toNat = ch.val from hch, toFin_val]
      refine (if_neg ?_).trans ((if_neg ?_).trans rfl)
      · have hnot : (if hkSigned ch.val then decide ((pf x.payload 4 0 16).toInt < (pf x.payload 2 0 16).toInt)
            else decide ((pf x.payload 4 0 16).toNat < (pf x.payload 2 0 16).toNat)) = false := by
          by_cases hs : hkSigned ch.val = true
          · rw [if_pos hs] at habove ⊢
            exact decide_eq_false habove
          · rw [if_neg hs] at habove ⊢
            exact decide_eq_false (Nat.not_lt.mpr habove)
        rw [hnot, Bool.false_or, Bool.or_eq_true]
        rintro (h | h)
        · rw [Bool.and_eq_true, beq_iff_eq] at h
          exact hpersist h.1 h.2
        · simp only [Bool.and_eq_true, Bool.not_eq_true', Bool.or_eq_false_iff, Bool.and_eq_false_iff, decide_eq_false_iff_not, beq_iff_eq] at h
          obtain ⟨⟨hm, hlow, hhigh⟩, hpad⟩ := h
          rcases hmute hm with hl | hh | hp
          · exact hlow hl
          · exact hhigh.elim (fun hn => hn hh.1) fun hn => hn hh.2
          · exact hp hpad
      · rw [htrip]
        exact Bool.false_ne_true
    case sweep =>
      intro hx hop hat a
      have hserved := served_cmd hx (opIs 0 2 2 1) (hs := opIs_of (congrArg BitVec.toNat hop))
      have hbad : ¬ x.atBad = true := by rw [hat]; exact Bool.false_ne_true
      refine ⟨fun htimed hlist hrun hcal => congrArg Host.Outcome.next ((hserved _).trans ((if_neg hbad).trans ((if_neg ?_).trans ?_))),
        fun htimed => ?_⟩
      · rw [htimed]
        exact Bool.false_ne_true
      · dsimp only
        rw [hkTrigger_starts hlist hrun hcal]
        rfl
      · intro e hfit
        exact congrArg Host.Outcome.next ((hserved _).trans ((if_neg hbad).trans ((if_pos htimed).trans (presentCmd_ok hfit ..))))
    case spot =>
      intro hx hop hat hsuits
      have hserved := served_cmd hx (opIs 0 2 2 2) (hs := opIs_of (congrArg BitVec.toNat hop))
      have hbad : ¬ (x.atBad || !hkSuits i (pf x.payload 1 0 8).toNat (pf x.payload 2 0 2)) = true := by
        rw [hat, hsuits]
        exact Bool.false_ne_true
      refine ⟨fun htimed hplace => congrArg Host.Outcome.next ((hserved _).trans ((if_neg hbad).trans ((if_neg ?_).trans ((if_neg ?_).trans ?_)))),
        fun htimed => ?_⟩
      · rw [htimed]
        exact Bool.false_ne_true
      · rw [show s.sup.conv[((pf x.payload 0 0 1).toFin : Fin 2)].hasPlace = true from hplace]
        exact Bool.false_ne_true
      · exact congrArg (fun v : State => (v.setStage c.ref .running).hkGo i) (modc ..)
      · intro e hfit
        exact congrArg Host.Outcome.next ((hserved _).trans ((if_neg hbad).trans ((if_pos htimed).trans (presentCmd_ok hfit ..))))
    case stop =>
      intro hx hop
      have hserved := served_cmd hx (opIs 0 2 2 3) (hs := opIs_of (congrArg BitVec.toNat hop))
      refine ⟨fun hrun hbusy => congrArg Host.Outcome.next ((hserved _).trans ((if_pos ?_).trans (congrArg (fun v : State => v.setStage c.ref .running) (modc ..)))),
        fun hidle => congrArg Host.Outcome.next ((hserved _).trans ((if_neg ?_).trans (congrArg (fun v : State => v.finish c.ref .ok) (modc ..))))⟩
      · exact Bool.and_eq_true_iff.mpr ⟨hrun, Option.isSome_iff_ne_none.mpr hbusy⟩
      · rw [Bool.and_eq_true, Option.isSome_iff_ne_none]
        rintro ⟨hrun, hbusy⟩
        exact hidle.elim (fun h => Bool.false_ne_true (h.symm.trans hrun)) hbusy
    case cal =>
      intro hx is hne hwatch
      refine congrArg Host.Outcome.next ((served_cmd hx _ _ rfl).trans ((if_neg ?_).trans ((if_neg ?_).trans rfl)))
      · rw [isEmpty_of_ne_nil hne]
        exact Bool.false_ne_true
      · rintro ⟨hact, hmode, hwatched⟩
        refine any_not (fun ch _ => ?_) hwatched
        rw [← Bool.not_eq_true, Bool.and_eq_true, Bool.and_eq_true, List.contains_iff_mem]
        rintro ⟨⟨hin, hen⟩, hmute⟩
        exact Bool.false_ne_true ((hwatch hact hmode ch hin hen).symm.trans hmute)
    case clear =>
      intro hx hop ch hmask htrip hin
      have hnamed : ((setBits (pf x.payload 8 0 184)).filter fun ch => s.sup.chan[ch].tripped) = [ch] := by
        rw [show pf x.payload 8 0 184 = (1 : BitVec 184) <<< ch.val from hmask, setBits_single]
        exact List.filter_cons_of_pos htrip
      refine congrArg Host.Outcome.next ((served_cmd hx (opIs 0 0 8 1) _ (opIs_of (congrArg BitVec.toNat hop))).trans ?_)
      dsimp only
      refine (if_neg (by rw [show pf x.payload 8 0 184 = (1 : BitVec 184) <<< ch.val from hmask]; exact shiftLeft_one_ne ch)).trans ?_
      rw [hnamed]
      refine (if_neg (any_not fun j hj => ?_)).trans (congrArg (fun v : State => v.finish c.ref .ok) (if_pos hin))
      obtain rfl := List.mem_singleton.mp hj
      refine (congrArg (fun v : State => v.sup.chan[j].tripped) (if_pos hin)).trans ((congrArg (fun v : Sup => v.chan[j].tripped) (postSup_sup ..)).trans ?_)
      exact congrArg HkChan.tripped (vmod_same ..)
    case clearNone =>
      intro hx hop hne hall
      have hnamed : ((setBits (pf x.payload 8 0 184)).filter fun ch => s.sup.chan[ch].tripped) = [] :=
        List.filter_eq_nil_iff.mpr fun ch hch => by
          rw [hall ch (List.mem_filter.mp hch).2]
          exact Bool.false_ne_true
      refine congrArg Host.Outcome.next ((served_cmd hx (opIs 0 0 8 1) _ (opIs_of (congrArg BitVec.toNat hop))).trans ?_)
      dsimp only
      rw [hnamed]
      exact if_neg hne

end

section
/-! Halter and rein outputs: commands, dwell, compliance and updates (R509 to R512, R515 to R518). -/

namespace Sys2Proof.Laws

open Sys2Proof Sys2Proof.Machine Sys2Proof.Claims

variable {s : State} {c : Cmd} {x : Slot}

/-- A value is taken as written where it is in its range; another is free within the range. -/
theorem within_cases (s : State) {lo hi : Nat} (h : lo ≤ hi) (v : Nat) :
    ∃ n f, s.within lo hi v = (n, { s with free := f }) ∧ lo ≤ n ∧ n ≤ hi ∧ (lo ≤ v → v ≤ hi → n = v ∧ f = s.free) := by
  by_cases hv : lo ≤ v ∧ v ≤ hi
  · exact ⟨v, s.free, if_pos hv, hv.1, hv.2, fun _ _ => ⟨rfl, rfl⟩⟩
  · have hlt : (s.takeFree 16).1.toNat % (hi + 1 - lo) < hi + 1 - lo := Nat.mod_lt _ (by omega)
    exact ⟨_, _, if_neg hv, Nat.le_add_right .., by omega, fun hlo hhi => absurd ⟨hlo, hhi⟩ hv⟩

/-- The rate of the named outputs is set, its period free beyond the range. -/
theorem setSlew_ok (s : State) (p : BitVec 320) (is : List (Fin 80)) :
    ∃ n f, n ≤ 1023 ∧ ((pf p 16 0 16 : BitVec 16).toNat ≤ 1023 → n = (pf p 16 0 16 : BitVec 16).toNat ∧ f = s.free)
      ∧ s.setSlew p is = is.foldl (fun (v : State) i => v.modOut i fun o => { o with step := pf p 14 0 16, period := BitVec.ofNat 10 n }) { s with free := f } := by
  obtain ⟨n, f, hw, _, hn, heq⟩ := within_cases s (Nat.zero_le 1023) (pf p 16 0 16 : BitVec 16).toNat
  refine ⟨n, f, hn, heq (Nat.zero_le _), ?_⟩
  unfold State.setSlew
  rw [hw]

/-- The events of a command on the outputs that it names. -/
theorem outEvents_ok {is : List (Fin 80)} (safe : Bool) (r : BitVec 2) (v : BitVec 16) (hr : r = if safe then 0 else pf x.payload 9 0 2)
    (hv : v = if safe then 0 else pf x.payload 10 0 16)
    (hfit : Fits s (is.map fun i => { kind := .outputSet, due := s.eventDue x .outputSet, res := outRes i, body := .output i.val r v safe })) :
    s.outEvents c x is safe = taken s c x (some (s.eventDue x .outputSet))
      (is.map fun i => { kind := .outputSet, due := s.eventDue x .outputSet, res := outRes i, body := .output i.val r v safe }) := by
  subst hr hv
  exact presentCmd_ok hfit ..

/-- An output that is not held and has no generator drives its target or approaches it, unless it is at its safe value. -/
theorem update_free {o : OutCh} {halter : Bool} {t : Int} {dp : Nat} (hheld : o.held = false) (hgen : o.gen = none) : o.update halter true t dp =
    if o.compliance || o.opSafe || o.dwell.isSome || (halter && !o.valued) then o
    else if o.step = 0 then { o with now := o.tgt }
    else if t % ((o.period.toNat + 1 : Nat) * 32 : Int) == 0 then { o with now := codeStep o.now o.tgt o.step.toNat }
    else o := by
  have h : (if o.held && true then (let o := { o with held := false }; if o.valued && !o.opSafe && !o.compliance then o.take halter dp else o) else o) = o :=
    if_neg (by rw [hheld]; exact Bool.false_ne_true)
  unfold OutCh.update
  rw [h]
  dsimp only
  rw [hgen]
  dsimp only
  rw [hheld, Bool.false_or, hgen]

/-- No alarm, no safe operation, no dwell and a value: the output follows its target. -/
theorem driven {o : OutCh} {halter : Bool} (hcomp : o.compliance = false) (hsafe : o.opSafe = false) (hdwell : o.dwell = none) (hval : halter = true → o.valued = true) :
    ¬ (o.compliance || o.opSafe || o.dwell.isSome || (halter && !o.valued)) = true := by
  rw [hcomp, hsafe, hdwell]
  cases halter with
  | false => exact Bool.false_ne_true
  | true =>
    rw [hval rfl]
    exact Bool.false_ne_true

end Sys2Proof.Laws

open Sys2Proof Sys2Proof.Machine Sys2Proof.Claims Sys2Proof.Laws

/-- Settles O50: each command of the outputs by its checks, and each event by its guard. -/
theorem outputsAndReins : Obligations.OutputsAndReins := by
  intro s
  refine ⟨?commands, ?dwell, ?compliance, ?slew, ?update⟩
  case commands =>
    intro c x p
    refine ⟨?out, ?clear, ?cfg⟩
    case out =>
      intro is hx hnamed
      refine ⟨?value, ?safe, ?slewOp, ?gen⟩
      case value =>
        intro hop hat hret e hfit
        refine congrArg Host.Outcome.next ((served_cmd hx (opIs 8 0 3 1) _ (opIs_of (congrArg BitVec.toNat hop))).trans ?_)
        rw [show outNamed x.payload = some is from hnamed]
        refine (if_neg ?_).trans ((if_neg (any_not hret)).trans (outEvents_ok false _ _ rfl rfl hfit))
        rw [hat]
        exact Bool.false_ne_true
      case safe =>
        intro hop hat e hfit
        refine congrArg Host.Outcome.next ((served_cmd hx (opIs 8 0 3 4) _ (opIs_of (congrArg BitVec.toNat hop))).trans ?_)
        rw [show outNamed x.payload = some is from hnamed]
        refine (if_neg ?_).trans (outEvents_ok true _ _ rfl rfl hfit)
        rw [hat]
        exact Bool.false_ne_true
      case slewOp =>
        intro hop
        obtain ⟨n, f, hn, heq, hset⟩ := setSlew_ok s p is
        refine ⟨n, f, hn, heq, congrArg Host.Outcome.next ((served_cmd hx (opIs 8 0 3 2) _ (opIs_of (congrArg BitVec.toNat hop))).trans ?_)⟩
        rw [show outNamed x.payload = some is from hnamed]
        exact congrArg (fun v : State => v.finish c.ref .ok) hset
      case gen =>
        intro hop hle hmode
        obtain ⟨w, f₀, hw, hw1, hw3, hweq⟩ := within_cases s (lo := 1) (hi := 3) (by decide) (pf x.payload 18 0 2 : BitVec 2).toNat
        obtain ⟨n, f, hn, heq, hset⟩ := setSlew_ok { s with free := f₀ } p is
        have hwave (h : pf p 18 0 2 ≠ 0) : w = (pf p 18 0 2 : BitVec 2).toNat ∧ f₀ = s.free :=
          hweq (Nat.one_le_iff_ne_zero.mpr fun h0 => h (BitVec.eq_of_toNat_eq h0)) (Nat.le_of_lt_succ (BitVec.isLt _))
        refine ⟨n, w, f, hn, hw1, hw3, fun h => (heq h).1, fun h => (hwave h).1, fun h h' => (heq h).2.trans (hwave h').2, ?_⟩
        refine congrArg Host.Outcome.next ((served_cmd hx (opIs 8 0 3 3) _ (opIs_of (congrArg BitVec.toNat hop))).trans ?_)
        rw [show outNamed x.payload = some is from hnamed]
        refine (if_neg (Nat.not_lt.mpr hle)).trans ((if_neg ?_).trans ?_)
        · rintro ⟨hcal, hany⟩
          exact hmode.elim hcal fun h => any_not h hany
        · dsimp only
          rw [hw]
          dsimp only
          rw [hset]
    case clear =>
      intro hx hop hne hhigh
      refine congrArg Host.Outcome.next ((served_cmd hx (opIs 0 0 8 2) _ (opIs_of (congrArg BitVec.toNat hop))).trans (if_neg ?_))
      exact not_or.mpr ⟨hne, not_not_intro hhigh⟩
    case cfg =>
      intro hx
      refine ⟨_, congrArg Host.Outcome.next (served_cmd hx _ _ rfl), rfl, fun m => ⟨Vector.getElem_ofFn .., Vector.getElem_ofFn ..⟩⟩
  case dwell =>
    intro h t hdwell hle
    refine congrArg Host.Outcome.next ?_
    rw [hdwell]
    exact if_pos hle
  case compliance =>
    intro h hnow hcomp
    refine congrArg Host.Outcome.next (if_neg (not_or.mpr ⟨hnow, ?_⟩))
    rw [hcomp]
    exact Bool.false_ne_true
  case slew =>
    intro t hgrid hat
    exact ⟨_, congrArg Host.Outcome.next (if_neg (not_or.mpr ⟨not_not_intro hgrid, hat⟩)), fun i => Vector.getElem_ofFn ..⟩
  case update =>
    intro o halter t dp
    refine ⟨?follows, ?steps, ?alarm⟩
    case follows =>
      intro hheld hcomp hsafe hdwell hval hgen hstep
      exact (update_free hheld hgen).trans ((if_neg (driven hcomp hsafe hdwell hval)).trans (if_pos hstep))
    case steps =>
      intro hheld hcomp hsafe hdwell hval hgen hstep htick
      exact (update_free hheld hgen).trans ((if_neg (driven hcomp hsafe hdwell hval)).trans ((if_neg hstep).trans (if_pos (beq_iff_eq.mpr htick))))
    case alarm =>
      intro hcomp hheld hgen
      refine (update_free hheld hgen).trans (if_pos ?_)
      rw [hcomp]
      rfl

end

section
/-! Each instruction of a Shunter program and the end of a program (R454 to R461). -/

namespace Sys2Proof.Laws

open Sys2Proof Sys2Proof.Machine Sys2Proof.Claims

variable {s : State} {ch : Fin 16} {words : Option (List (BitVec 64))} {w : BitVec 64} {ws : List (BitVec 64)}

/-- What a MOVE fetched by its running channel does, by the outcome of its read and of its write. -/
def moveDone (s : State) (ch : Fin 16) (ws : List (BitVec 64)) (src : Option Bytes) (dstErr wbErr : Bool) : State :=
  let h := s.shu.chans[ch]
  let d := moveDst ws h.iter
  let r := s.moveData (moveSrc ws h.iter) (moveLen ws) src
  let code : Nat := match r.1 with | .inr k => k | .inl _ => if dstErr then 2 else 0
  let t := match r.1, code with
    | .inl b, 0 => (r.2.emit (.hostWrite d b)).modChan ch fun h => { h with crc := b.foldl crc32cByte h.crc, bytes := h.bytes + moveLen ws }
    | _, _ => (r.2.emit (.hostUndefined d (moveLen ws))).moveBadCount ch code
  (t.moveBack ch code wbErr).modChan ch fun h => if h.ending.isSome then h else h.advance 4 ((ws.headD 0).getLsbD 59)

theorem execShuMove_runs {src : Option Bytes} {dstErr wbErr : Bool} (hf : Fetches s ch words .move ws) (hbad : moveBad s.shu.chans[ch] ws = false) :
    exec (.shuMove ch words src dstErr wbErr) s = .next (moveDone s ch ws src dstErr wbErr) := by
  have hstop : (s.shu.chans[ch].st == .stopping && s.shu.chans[ch].ending.isNone) = false := by
    rw [hf.1]
    rfl
  refine congrArg Host.Outcome.next ?_
  dsimp only
  rw [hstop, if_neg Bool.false_ne_true, if_neg Bool.false_ne_true]
  exact fetch_exec hf _ _ hbad

/-- A wait for a tick passes once the tick is there, and else waits for it. -/
theorem waitTick_counting (hc : s.counting = true) (due : Tick) (last : Bool) : s.waitTick ch due last =
    let h := s.shu.chans[ch]
    if s.ym.now < due then chanPut s ch { h with st := .waiting, tick := due, wait := some (.at_ due), waitEnd := none, last := last }
    else chanPut s ch (ShuChan.advance { h with tick := due, lateWait := h.lateWait || decide (due < s.ym.now) } 1 last) := by
  refine (if_neg (by rw [hc]; exact Bool.false_ne_true)).trans ?_
  by_cases hdue : due ≤ s.ym.now
  · exact (if_pos hdue).trans ((modch ..).trans (if_neg (Int.not_lt.mpr hdue)).symm)
  · exact (if_neg hdue).trans ((modch ..).trans (if_pos (Int.not_le.mp hdue)).symm)

theorem flagOp_clear (x : Shu) (m : BitVec 64) : x.flagOp m 0 = { x with flags := x.flags &&& ~~~(m &&& ~~~x.setNow) } := by
  unfold Shu.flagOp
  rw [BitVec.ofNat_eq_ofNat, BitVec.zero_and, BitVec.or_zero, BitVec.or_zero, BitVec.or_zero]

/-- A signal has its effect, and the channel goes on. -/
theorem signal_ok {op : ShuOp} (hf : Fetches s ch words op [w]) (f : State → Nat → State) :
    s.signal ch words op f = (f s (w.extractLsb' 0 16).toNat).modChan ch fun h => h.advance 1 (w.getLsbD 59) :=
  fetch_exec hf _ _ rfl

/-- What a channel that waits does when its wait is looked at. -/
def waitLook (s : State) (ch : Fin 16) : ShuWait → State
  | .at_ due =>
    if !s.counting then s.modChan ch fun h => h.endWith .notReady
    else if due ≤ s.ym.now then s.modChan ch fun h => h.advance 1 h.last
    else s
  | .flag m clear => if s.flagFor ch m clear then s.passFlag ch m clear s.shu.chans[ch].last else s
  | .doorbell => if s.shu.chans[ch].db = 0 then s else s.modChan ch fun h => ({ h with db := h.db - 1 }).advance 1 h.last

theorem execWaitSatisfied_inTime (hst : s.shu.chans[ch].st = .waiting) (hin : ∀ e, s.shu.chans[ch].waitEnd = some e → s.dp ≤ e) {x : ShuWait}
    (hwait : s.shu.chans[ch].wait = some x) : exec (.waitSatisfied ch) s = .next (waitLook s ch x) := by
  have hgo : ¬ (s.shu.chans[ch].st != .waiting || !(match s.shu.chans[ch].waitEnd with | some e => decide (s.dp ≤ e) | none => true)) = true := by
    rw [hst]
    cases he : s.shu.chans[ch].waitEnd with
    | none => exact Bool.false_ne_true
    | some e =>
      dsimp only
      rw [decide_eq_true (hin e he)]
      exact Bool.false_ne_true
  refine congrArg Host.Outcome.next ((if_neg hgo).trans ?_)
  rw [hwait]
  cases x <;> rfl

end Sys2Proof.Laws

open Sys2Proof Sys2Proof.Machine Sys2Proof.Claims Sys2Proof.Laws

/-- Settles O52: each instruction that is fetched runs its effect; waits and the end of a program by their guards. -/
theorem shunterPrograms : Obligations.ShunterPrograms := by
  intro s ch words w h last wait tick
  refine ⟨?move, ?loop, ?waitTicks, ?waitFlag, ?waitDb, ?signals, ?satisfied, ?timeout, ?programEnd⟩
  case move =>
    intro w1 w2 w3 src dstErr wbErr ws hf hbad d r done
    have hrun := execShuMove_runs (src := src) (dstErr := dstErr) (wbErr := wbErr) hf hbad
    refine ⟨fun b hr hd => hrun.trans (congrArg Host.Outcome.next ?_), fun b hr hd => hrun.trans (congrArg Host.Outcome.next ?_),
      fun k hr hk => hrun.trans (congrArg Host.Outcome.next ?_)⟩
    · subst hd
      unfold moveDone
      dsimp only
      rw [show (s.moveData (moveSrc ws s.shu.chans[ch].iter) (moveLen ws) src).1 = .inl b from hr]
      rfl
    · subst hd
      unfold moveDone
      dsimp only
      rw [show (s.moveData (moveSrc ws s.shu.chans[ch].iter) (moveLen ws) src).1 = .inl b from hr]
      rfl
    · unfold moveDone
      dsimp only
      rw [show (s.moveData (moveSrc ws s.shu.chans[ch].iter) (moveLen ws) src).1 = .inr k from hr]
      rfl
  case loop =>
    intro hf hlen hpc htarget
    refine congrArg Host.Outcome.next ((fetch_exec hf _ _ ?_).trans (modch ..))
    unfold loopBad
    dsimp only [List.headD_cons]
    rw [decide_eq_false (Nat.not_le.mpr hlen), decide_eq_false (Nat.not_le.mpr hpc), Bool.false_or, Bool.false_or]
    cases hl : s.shu.chans[ch].loops with
    | nil => rfl
    | cons l ls => exact decide_eq_false (Nat.not_lt.mpr (htarget l ls hl))
  case waitTicks =>
    exact fun hc => ⟨fun hf => congrArg Host.Outcome.next ((fetch_exec hf _ _ rfl).trans (waitTick_counting hc ..)),
      fun hf => congrArg Host.Outcome.next ((fetch_exec hf _ _ rfl).trans (waitTick_counting hc ..))⟩
  case waitFlag =>
    intro hf m
    exact ⟨fun hflag => congrArg Host.Outcome.next ((fetch_exec hf _ _ rfl).trans (if_pos hflag)),
      fun hflag => congrArg Host.Outcome.next ((fetch_exec hf _ _ rfl).trans ((if_neg (fun h => Bool.false_ne_true (hflag.symm.trans h))).trans (modch ..)))⟩
  case waitDb =>
    intro hf
    exact ⟨fun hdb => congrArg Host.Outcome.next ((fetch_exec hf _ _ rfl).trans ((if_pos hdb).trans (modch ..))),
      fun hdb => congrArg Host.Outcome.next ((fetch_exec hf _ _ rfl).trans ((if_neg (not_not_intro hdb)).trans (modch ..)))⟩
  case signals =>
    intro on n
    refine ⟨fun hf => congrArg Host.Outcome.next (signal_ok hf _), fun hf => congrArg Host.Outcome.next (signal_ok hf _),
      fun hf => congrArg Host.Outcome.next ((signal_ok hf _).trans ?_), fun hf => congrArg Host.Outcome.next ((signal_ok hf _).trans ?_)⟩
    · exact congrArg (fun x : Shu => on { s with shu := x }) (flagOp_set ..)
    · exact congrArg (fun x : Shu => on { s with shu := x }) (flagOp_clear ..)
  case satisfied =>
    intro hst hin
    refine ⟨fun due hwait hc hdue => (execWaitSatisfied_inTime hst hin hwait).trans (congrArg Host.Outcome.next ?_),
      fun m c hwait hflag => (execWaitSatisfied_inTime hst hin hwait).trans (congrArg Host.Outcome.next (if_pos hflag)),
      fun hwait hdb => (execWaitSatisfied_inTime hst hin hwait).trans (congrArg Host.Outcome.next ((if_neg hdb).trans (modch ..)))⟩
    exact (if_neg (by rw [hc]; exact Bool.false_ne_true)).trans ((if_pos hdue).trans (modch ..))
  case timeout =>
    intro e he hle hst
    refine congrArg Host.Outcome.next ?_
    rw [show s.shu.chans[ch].waitEnd = some e from he]
    exact (if_pos ⟨hle, hst⟩).trans (modch ..)
  case programEnd =>
    intro wbErr k hidle hends hcmd r u
    refine congrArg Host.Outcome.next ((if_neg ?_).trans ?_)
    · rintro (hi | ⟨hnone, hrun⟩)
      · exact hidle hi
      · exact hends.elim (fun hn => hn hnone) hrun
    · dsimp only
      rw [show s.shu.chans[ch].cmd = some k from hcmd]
      rfl

end

section
/-! Solver kernels, jobs, preemption, exits and faults (R177, R178, R474, R475, R483 to R487, R492, R494). -/

namespace Sys2Proof.Laws

open Sys2Proof Sys2Proof.Machine Sys2Proof.Claims

variable {s : State} {core : Fin 9}

/-- A core in service with no foreground job takes the next foreground job that fits its window, or goes on in the background. -/
theorem dispatch_free (hst : s.sol.cores[core].st = .inService) (hreset : s.sol.cores[core].resetEnd = none) (hidle : s.sol.cores[core].fgJob = none)
    (htest : s.coreTested core = false) :
    ¬ (s.sol.cores[core].st ≠ .inService ∨ s.sol.cores[core].resetEnd.isSome ∨ s.sol.cores[core].fgJob.isSome ∨ s.coreTested core = true) := by
  rw [hreset, hidle, htest]
  rintro (h | h | h | h)
  · exact h hst
  · exact Bool.false_ne_true h
  · exact Bool.false_ne_true h
  · exact Bool.false_ne_true h

/-- The next foreground job that fits the window of a core. -/
def fitting (s : State) (core : Fin 9) : Option Job :=
  match s.nextFg with
  | some j => if s.windowUsed core + j.budget ≤ 57344 then some j else none
  | none => none

theorem fitting_some {j : Job} (h : s.nextFg = some j) (hfit : s.windowUsed core + j.budget ≤ 57344) : fitting s core = some j := by
  unfold fitting
  rw [h]
  exact if_pos hfit

theorem fitting_none (h : s.nextFg = none ∨ ∃ j, s.nextFg = some j ∧ 57344 < s.windowUsed core + j.budget) : fitting s core = none := by
  unfold fitting
  rcases h with h | ⟨j, h, hlt⟩
  · rw [h]
  · rw [h]
    exact if_neg (Nat.not_le.mpr hlt)

/-- What the dispatcher gives a core with the job `fg` that fits it, or without one. -/
def dispatched (s : State) (core : Fin 9) : Option Job → State
  | some j =>
    if s.sol.cores[core].bgOn then s
    else
      let u : State := { s with sol := { s.sol with ready := s.sol.ready.erase j } }
      match j.kind with
      | .weight c ul slot grp map _ blk => if !u.mapUsable c map grp slot then u.unstageable c blk else u.enterJob core j c ul slot grp map blk
      | .chain _ c ul slot grp map blk => u.enterJob core j c ul slot grp map blk
      | _ => u
  | none =>
    if s.sol.cores[core].bgJob.isSome then s.modCore core fun m => { m with bgOn := true }
    else match s.sol.ready.find? s.bgReady with
      | none => s
      | some j => (State.jobEntry { s with sol := { s.sol with ready := s.sol.ready.erase j } } core true 0).modCore core fun m => { m with bgJob := some j, bgOn := true }

theorem execSolverJobDispatch_free (hst : s.sol.cores[core].st = .inService) (hreset : s.sol.cores[core].resetEnd = none) (hidle : s.sol.cores[core].fgJob = none)
    (htest : s.coreTested core = false) {o : Option Job} (h : fitting s core = o) : exec (.solverJobDispatch core) s = .next (dispatched s core o) := by
  refine congrArg Host.Outcome.next ((if_neg (dispatch_free hst hreset hidle htest)).trans ?_)
  subst h
  rfl

/-- A core leaves its foreground job. -/
def leaves (s : State) (core : Fin 9) (v : State) : State :=
  v.modCore core fun m => { m with
    fgJob := none, prep := none, ended := none, fgJobs := satInc m.fgJobs, fgCycles := satAdd m.fgCycles 32, ahead := m.ahead + 32
    bgOn := m.bgJob.isSome && !(s.sol.ready.any fun k => k.fgKey.isSome), st := if m.st = .testing then .spare else m.st }

/-- The exit of a job, by its kind. -/
def exited (s : State) (core : Fin 9) (vendor : Bool) : JobKind → State
  | .weight c _ _ _ map _ blk =>
    let m := s.sol.cores[core]
    let w : Option (List (Nat × BitVec 32)) := if vendor then s.vendorSet core c map else if m.ended = some 0 then some (s.readOut core c map) else none
    let h := (leaves s core s).takeFree 16
    let t := if vendor then h.2.satCount core h.1.toNat else leaves s core s
    t.weightDone c blk (match m.prep, w with | some p, some w => some { p with words := w } | _, _ => none)
  | .chain stage c ul slot grp _ blk =>
    let h := (leaves s core s).takeFree 16
    match s.sol.cores[core].prep with
    | some p => (h.2.satCount core h.1.toNat).chainDone stage c ul slot grp blk (s.libIn core 0) p
    | none => leaves s core s
  | .test ref out err =>
    let r : State × Nat := match s.sol.cores[core].ended with | some x => (s, x.toNat) | none => s.vendorTest core
    (leaves s core r.1).testEnd ref out err (r.1.solOut core) (leBytes 4 r.2 ++ leBytes 4 (s.sol.cores[core].fgCyc + 32))
  | _ => leaves s core s

/-- Whether the vendor's kernel has used the budget of the job `j`. -/
def vendorEnd (s : State) (core : Fin 9) (j : Job) : Bool := s.sol.cores[core].ended.isNone && j.kernel == 0 && decide (j.budget ≤ s.sol.cores[core].fgCyc + 32)

theorem execSolverJobExit_over {j : Job} (hjob : s.sol.cores[core].fgJob = some j) (hover : s.sol.cores[core].ended ≠ none ∨ vendorEnd s core j = true) :
    exec (.solverJobExit core) s = .next (exited s core (vendorEnd s core j) j.kind) := by
  have hgo : ¬ (s.sol.cores[core].ended.isNone && !vendorEnd s core j) = true := by
    rw [Bool.and_eq_true, Bool.not_eq_true', Option.isNone_iff_eq_none]
    rintro ⟨hend, hv⟩
    exact hover.elim (fun h => h hend) fun h => Bool.false_ne_true (hv.symm.trans h)
  refine congrArg Host.Outcome.next ?_
  dsimp only
  rw [hjob]
  refine (if_neg hgo).trans ?_
  cases j.kind <;> rfl

/-- The set that a job computes, from what was staged and the words that it left. -/
theorem staged_words (p : Option WSet) (w : Option (List (Nat × BitVec 32))) :
    (match p, w with | some p, some w => some { p with words := w } | _, _ => none : Option WSet) = p.bind fun p => w.map fun l => { p with words := l } := by
  cases p <;> cases w <;> rfl

end Sys2Proof.Laws

open Sys2Proof Sys2Proof.Machine Sys2Proof.Claims Sys2Proof.Laws

/-- Settles O53: each event of a core by its guard, the exit by the kind of the job. -/
theorem solverJobs : Obligations.SolverJobs := by
  intro s core m
  refine ⟨?commands, ?dispatch, ?preempt, ?exit, ?fault, ?watchdog, ?resetEnd⟩
  case commands =>
    intro c x b p
    refine ⟨?load, ?test⟩
    case load =>
      intro hx hdata hk hzero hused hver
      refine congrArg Host.Outcome.next ((served_cmd hx _ _ rfl).trans ((if_neg ?_).trans ((if_neg ?_).trans ?_)))
      · rw [pf_low (by decide), hzero]
        rcases hk with hk | hk <;> rw [show pf x.payload 0 0 2 = _ from hk] <;> decide
      · rw [hused]
        exact Bool.false_ne_true
      · rw [hdata]
        dsimp only
        rw [hver, ite_of_iff (beq_iff_eq (a := pf x.payload 0 0 2) (b := 2))]
    case test =>
      intro hx hdata hk hspare hreset htest hready j u
      refine congrArg Host.Outcome.next ((served_cmd hx _ _ rfl).trans ((if_neg ?_).trans ((if_neg ?_).trans ?_)))
      · rw [beq_eq_false_iff_ne.mpr hk]
        exact Bool.false_ne_true
      · rw [hreset, htest, hready]
        rintro (h | h | h | h)
        · exact h hspare
        · exact Bool.false_ne_true h
        · exact Bool.false_ne_true h
        · exact Bool.false_ne_true h.symm
      · rw [hdata]
  case dispatch =>
    intro hst hreset hidle htest
    have hrun {o : Option Job} (h : fitting s core = o) := execSolverJobDispatch_free hst hreset hidle htest h
    refine ⟨fun j hnext hfit hoff => ?_, fun hnone => ⟨fun hbg => ?_, fun j hbg hfind => ?_⟩⟩
    · intro u
      have hgo : ¬ s.sol.cores[core].bgOn = true := by
        rw [show s.sol.cores[core].bgOn = false from hoff]
        exact Bool.false_ne_true
      refine ⟨fun c ul slot grp map conf blk hkind => ⟨fun hmap => ?_, fun hmap => ?_⟩, fun st c ul slot grp map blk hkind => ?_⟩
      · refine (hrun (fitting_some hnext hfit)).trans (congrArg Host.Outcome.next ((if_neg hgo).trans ?_))
        dsimp only
        rw [hkind]
        exact if_neg (by rw [show State.mapUsable _ c map grp slot = true from hmap]; exact Bool.false_ne_true)
      · refine (hrun (fitting_some hnext hfit)).trans (congrArg Host.Outcome.next ((if_neg hgo).trans ?_))
        dsimp only
        rw [hkind]
        exact if_pos (by rw [show State.mapUsable _ c map grp slot = false from hmap]; rfl)
      · refine (hrun (fitting_some hnext hfit)).trans (congrArg Host.Outcome.next ((if_neg hgo).trans ?_))
        dsimp only
        rw [hkind]
    · exact (hrun (fitting_none hnone)).trans (congrArg Host.Outcome.next (if_pos (Option.isSome_iff_ne_none.mpr hbg)))
    · refine (hrun (fitting_none hnone)).trans (congrArg Host.Outcome.next ((if_neg ?_).trans ?_))
      · rw [show s.sol.cores[core].bgJob = none from hbg]
        exact Bool.false_ne_true
      · rw [hfind]
  case preempt =>
    intro hissue hrept hnext
    refine congrArg Host.Outcome.next (if_pos ?_)
    rw [show s.sol.cores[core].issues true = true from hissue, show s.sol.cores[core].bg.rept = 0 from hrept, Option.isSome_iff_ne_none.mpr hnext]
    rfl
  case exit =>
    intro j hjob vendor hover leave library
    have hrun := execSolverJobExit_over hjob hover
    refine ⟨fun c ul slot grp map conf blk hkind => ?weight, fun st c ul slot grp map blk p hkind hprep => ?chain, fun ref out err hkind => ?test⟩
    case weight =>
      intro with_
      rw [hkind] at hrun
      refine ⟨fun hv => hrun.trans (congrArg Host.Outcome.next ?_), fun hv => ⟨((leaves s core s).takeFree 16).1.toNat, hrun.trans (congrArg Host.Outcome.next ?_)⟩⟩
      · unfold exited
        rw [show vendorEnd s core j = false from hv]
        exact congrArg (fun w => State.weightDone (leave s) c blk w) (staged_words ..)
      · unfold exited
        rw [show vendorEnd s core j = true from hv]
        exact congrArg (fun w => State.weightDone _ c blk w) (staged_words ..)
    case chain =>
      rw [hkind] at hrun
      refine ⟨((leaves s core s).takeFree 16).1.toNat, hrun.trans (congrArg Host.Outcome.next ?_)⟩
      unfold exited
      rw [show s.sol.cores[core].prep = some p from hprep]
      rfl
    case test =>
      rw [hkind] at hrun
      refine ⟨fun v hend => hrun.trans (congrArg Host.Outcome.next ?_), fun hend => hrun.trans (congrArg Host.Outcome.next ?_)⟩
      · unfold exited
        rw [show s.sol.cores[core].ended = some v from hend]
        rfl
      · unfold exited
        rw [show s.sol.cores[core].ended = none from hend]
        rfl
  case fault =>
    intro cause hreset hbusy hlo hhi
    refine congrArg Host.Outcome.next (if_pos ?_)
    have hcause : (decide (1 ≤ cause.toNat) && decide (cause.toNat ≤ 7)) = true := Bool.and_eq_true_iff.mpr ⟨decide_eq_true hlo, decide_eq_true hhi⟩
    have hjob : (s.sol.cores[core].fgJob.isSome || s.sol.cores[core].bgJob.isSome) = true :=
      Bool.or_eq_true_iff.mpr (hbusy.imp Option.isSome_iff_ne_none.mpr Option.isSome_iff_ne_none.mpr)
    rw [hcause, hjob, show s.sol.cores[core].resetEnd = none from hreset]
    rfl
  case watchdog =>
    intro j hjob hend hbudget
    refine congrArg Host.Outcome.next ?_
    dsimp only
    rw [show s.sol.cores[core].fgJob = some j from hjob]
    exact if_pos ⟨Option.isNone_iff_eq_none.mpr hend, hbudget⟩
  case resetEnd =>
    intro t hreset hle hheld
    refine congrArg Host.Outcome.next ?_
    dsimp only
    rw [show s.sol.cores[core].resetEnd = some t from hreset]
    refine if_pos ⟨hle, Bool.eq_false_iff.mpr (any_not fun f hf => ?_)⟩
    rw [Bool.eq_false_iff]
    simp only [ne_eq, Bool.and_eq_true, beq_iff_eq, Bool.not_eq_true']
    rintro ⟨⟨⟨hcode, hidx⟩, hcls⟩, hever⟩
    refine Bool.false_ne_true (hever.symm.trans (hheld f hf hcode ?_))
    rw [← hidx, ← hcls]

end

section
/-! March tests, error correction, logic BIST, retirement and restoring of paths, memories at power-up (R525, R526, R528 to R536, R541, R543). -/

namespace Sys2Proof.Laws

open Sys2Proof Sys2Proof.Machine Sys2Proof.Claims

variable {s : State} {c : Cmd} {x : Slot}

theorem memBanks_pos {m : Nat} (h : m < 8) : 1 ≤ memBanks m := by
  revert m
  decide

/-- The march test that a MARCH_RUN begins on `n` banks. -/
def marchOf (c : Cmd) (p : BitVec 320) (n : Nat) : March :=
  let mem := (pf p 0 0 3).toNat
  let first := (pf p 2 0 16).toNat
  { ref := c.ref, memory := mem, first := memBase mem + first, count := n, ss := pb p 1 0, destroy := pb p 1 1, repair := pb p 1 2, waiting := true
    todo := (List.range n).map fun i => memBase mem + first + i, run := [], failing := 0, repairs := 0, unrepaired := false }

/-- A MARCH_RUN with its count in `v`. -/
def marchStart (v : State) (c : Cmd) (p : BitVec 320) (n : Nat) : State :=
  if (pf p 2 0 16).toNat + n > memBanks (pf p 0 0 3).toNat || (pb p 1 1 && (pf p 0 0 3).toNat == 7) then v.complete c.ref .badArg
  else if v.marchRefused (pf p 0 0 3).toNat (pb p 1 1) || v.inTransition || v.conv.run.isSome then v.complete c.ref .modeConflict
  else State.marchSweep { v.setStage c.ref .running with mem := { v.mem with marches := v.mem.marches ++ [marchOf c p n] } }

theorem marchStart_ok {p : BitVec 320} {n : Nat} (hfit : (pf p 2 0 16).toNat + n ≤ memBanks (pf p 0 0 3).toNat) (hkeep : pb p 1 1 = true → (pf p 0 0 3).toNat ≠ 7)
    (href : s.marchRefused (pf p 0 0 3).toNat (pb p 1 1) = false) (htrans : s.inTransition = false) (hconv : s.conv.run = none) :
    marchStart s c p n = State.marchSweep { s.setStage c.ref .running with mem := { s.mem with marches := s.mem.marches ++ [marchOf c p n] } } := by
  refine (if_neg ?_).trans (if_neg ?_)
  · rw [decide_eq_false (Nat.not_lt.mpr hfit), Bool.false_or, Bool.and_eq_true, beq_iff_eq]
    exact fun h => hkeep h.1 h.2
  · rw [href, htrans, hconv]
    exact Bool.false_ne_true

theorem execMarchRun_start (hx : Served s c 0x90 x) {w : Nat × State} {n : Nat} (hw : s.within 1 (memBanks (pf x.payload 0 0 3).toNat) (pf x.payload 4 0 16).toNat = w)
    (hn : (if memBanks (pf x.payload 0 0 3).toNat < (pf x.payload 4 0 16).toNat then (pf x.payload 4 0 16).toNat else w.1) = n) :
    exec (.marchRun c) s = .next (marchStart w.2 c x.payload n) := by
  subst hw hn
  exact congrArg Host.Outcome.next (served_cmd hx _ _ rfl)

/-- The end of the bank that a march test has run, in the march test found. -/
def bankOver (s : State) (r : CmdRef) (bank : Nat) (fails : List MarchFail) : Option March → State
  | none => s
  | some m =>
    let fs := fails.filter fun f => f.bank == bank && decide (f.row.toNat < bankRows bank)
    let a := (if m.destroy then s.wipeBank bank else s).bankTested bank fs m.repair
    let u := a.1.modMarch r fun x => { x with
      run := x.run.filter fun y => y.bank != bank, failing := x.failing + (fs.map fun (f : MarchFail) => f.words).sum, repairs := x.repairs + a.2.1, unrepaired := x.unrepaired || a.2.2 }
    let u : State := if !m.destroy && u.mem.lastBank.toNat == bank then { u with mem := { u.mem with lastRow := BitVec.ofNat 8 (bankRows bank - 1) } } else u
    match u.mem.marches.find? fun m => m.ref == r with
    | some y => if y.todo.isEmpty && y.run.isEmpty then (u.marchDone y).marchSweep else u.marchSweep
    | none => u

theorem execMarchBankEnd_over (ring : Fin 16) (seq bank : Nat) (fails : List MarchFail) :
    exec (.marchBankEnd ring seq bank fails) s = .next (bankOver s { ring := ring, seq := seq } bank fails
      (s.mem.marches.find? fun m => m.ref == { ring := ring, seq := seq } && m.run.any fun x => x.bank == bank && decide (x.fin ≤ s.dp))) := by
  refine congrArg Host.Outcome.next ?_
  unfold bankOver
  rfl

/-- The path lent to a logic BIST, if it is lent. -/
def lentPath (u : State) (target index : Nat) : Option (Fin 64) :=
  if target = 1 then (match toFin 64 index with | some p => if u.radio.paths[p].lent then some p else none | none => none) else none

/-- The end of the logic BIST found. -/
def lbistOver (s : State) (target index : Nat) (sig : BitVec 128) (wrErr : Bool) : Option Lbist → State
  | none => s
  | some l =>
    let w := if !(l.addr != 0) then s else if wrErr then s.emit (.hostUndefined l.addr 16) else s.emit (.hostWrite l.addr (leBytes 16 sig.toNat))
    let st : Status := if (l.addr != 0) && wrErr then .busErr else if sig = lbistSig target then .ok else .hwFault
    let u := w.lbistReload target index
    match lentPath u target index with
    | some q => (State.pathBegin { u with mem := { u.mem with lbist := u.mem.lbist.map fun (x : Lbist) => if x.ref = l.ref then { x with result := some (st, sig.extractLsb' 0 32) } else x } } q .standby none).lbistSweep
    | none => (State.complete { u with mem := { u.mem with lbist := u.mem.lbist.filter fun x => x.ref != l.ref } } l.ref st (sig.extractLsb' 0 32)).lbistSweep

theorem execLbistEnd_over (target index : Nat) (sig : BitVec 128) (wrErr : Bool) :
    exec (.lbistEnd target index sig wrErr) s = .next (lbistOver s target index sig wrErr
      (s.mem.lbist.find? fun l => l.target == target && l.index == index && l.result.isNone && (match l.fin with | some t => decide (t ≤ s.dp) | none => false))) := by
  refine congrArg Host.Outcome.next ?_
  unfold lbistOver lentPath
  rfl

theorem toFin_eq {n m : Nat} {i : Fin n} (h : toFin n m = some i) : i.val = m := by
  unfold toFin at h
  split at h
  · cases h
    rfl
  · cases h

theorem lentPath_none {u : State} {target index : Nat} (h : target = 1 → ∀ q : Fin 64, q.val = index → u.radio.paths[q].lent = false) : lentPath u target index = none := by
  unfold lentPath
  by_cases ht : target = 1
  · rw [if_pos ht]
    cases hq : toFin 64 index with
    | none => rfl
    | some q =>
      refine if_neg ?_
      rw [h ht q (toFin_eq hq)]
      exact Bool.false_ne_true
  · exact if_neg ht

theorem lentPath_some {u : State} {q : Fin 64} (h : u.radio.paths[q].lent = true) : lentPath u 1 q.val = some q := by
  unfold lentPath
  rw [if_pos rfl, toFin_val]
  exact if_pos h

theorem corrected_ok {b : Nat} {row : BitVec 8} (hb : b ≤ 416) (hrow : row.toNat < bankRows b) : s.corrected b row =
    let n := (match (s.bank b).rowCorr.find? fun x => x.1 == row.toNat with | some x => x.2 | none => 0) + 1
    let mark : Bool := n == 8 && !(s.bank b).marked.contains row.toNat
    let u := s.modBank b fun x => { x with corr := satInc x.corr, rowCorr := (x.rowCorr.filter fun y => y.1 != row.toNat) ++ [(row.toNat, n)]
                                           marked := if mark then x.marked ++ [row.toNat] else x.marked }
    let u : State := { u with mem := { u.mem with corr := satInc u.mem.corr } }
    if mark then u.postSpare 6 1 { cls := 9, idx := 0x400 + b } else u :=
  if_neg (not_or.mpr ⟨Nat.not_lt.mpr hb, Nat.not_le.mpr hrow⟩)

end Sys2Proof.Laws

open Sys2Proof Sys2Proof.Machine Sys2Proof.Claims Sys2Proof.Laws

/-- Settles O54: each command by its checks, and each event by what it finds. -/
theorem memoriesAndTests : Obligations.MemoriesAndTests := by
  intro s
  refine ⟨?commands, ?bankEnd, ?lbistEnd, ?errors, ?patrol, ?retirement, ?powerUp⟩
  case commands =>
    intro c x p mem first n go
    refine ⟨?march, ?lbist, ?retire, ?restore⟩
    case march =>
      intro hx hkeep href htrans hconv
      refine ⟨fun hpos hfit => ?_, fun hzero => ?_⟩
      · refine (execMarchRun_start hx (within_ok (s := s) hpos (Nat.le_trans (Nat.le_add_left ..) hfit)) ?_).trans
          (congrArg Host.Outcome.next (marchStart_ok hfit hkeep href htrans hconv))
        exact if_neg (Nat.not_lt.mpr (Nat.le_trans (Nat.le_add_left ..) hfit))
      · have hbanks : 1 ≤ memBanks mem := memBanks_pos (BitVec.isLt _)
        obtain ⟨k, hk⟩ : ∃ k, k = 1 + (s.takeFree 16).1.toNat % (memBanks mem + 1 - 1) := ⟨_, rfl⟩
        have hmod : (s.takeFree 16).1.toNat % (memBanks mem + 1 - 1) < memBanks mem := Nat.mod_lt _ hbanks
        have hw : s.within 1 (memBanks mem) n = (k, { s with free := s.free + 1 }) := by
          rw [hzero, hk]
          exact if_neg fun h => absurd h.1 (by decide)
        have hrun := execMarchRun_start (n := k) hx hw (if_neg (Nat.not_lt.mpr (by
          rw [show (pf x.payload 4 0 16 : BitVec 16).toNat = 0 from hzero]
          exact Nat.zero_le _)))
        refine ⟨k, by omega, by omega, hrun.trans (congrArg Host.Outcome.next ?_)⟩
        by_cases hfit : first + k ≤ memBanks mem
        · rw [if_pos hfit]
          exact marchStart_ok hfit hkeep href htrans hconv
        · rw [if_neg hfit]
          exact if_pos (Bool.or_eq_true_iff.mpr (Or.inl (decide_eq_true (Nat.not_le.mp hfit))))
    case lbist =>
      intro hx target index hrange halign href
      refine congrArg Host.Outcome.next ((served_cmd hx _ _ rfl).trans ((if_neg ?_).trans ((if_neg ?_).trans rfl)))
      · rw [hrange, halign]
        decide
      · rw [href]
        exact Bool.false_ne_true
    case retire =>
      exact fun hx hop hne => congrArg Host.Outcome.next ((served_cmd hx (opIs 8 0 8 1) _ (opIs_of (congrArg BitVec.toNat hop))).trans (if_neg hne))
    case restore =>
      intro hx hop ps hne hmode hlive
      refine congrArg Host.Outcome.next ((served_cmd hx (opIs 8 0 8 2) _ (opIs_of (congrArg BitVec.toNat hop))).trans
        ((if_neg fun h => hne ?_).trans ((if_neg (not_not_intro hmode)).trans (if_neg (any_not fun q hq => ?_)))))
      · refine List.filter_eq_nil_iff.mpr fun j _ => ?_
        rw [show pf x.payload 0 0 64 = 0 from h, show (0 : BitVec 64).getLsbD j.val = false from BitVec.getLsbD_zero]
        exact Bool.false_ne_true
      · rw [Bool.and_eq_false_iff, beq_eq_false_iff_ne, beq_eq_false_iff_ne]
        exact hlive q hq
  case bankEnd =>
    intro ring seq bank fails m r hfind fs a u u' y hy
    refine (execMarchBankEnd_over ..).trans (congrArg Host.Outcome.next ((congrArg (bankOver s r bank fails) hfind).trans ?_))
    have hu : (if !m.destroy && u.mem.lastBank.toNat == bank then { u with mem := { u.mem with lastRow := BitVec.ofNat 8 (bankRows bank - 1) } } else u : State) = u' :=
      ite_of_iff (by rw [Bool.and_eq_true, Bool.not_eq_true', beq_iff_eq]) _ _
    have hover : bankOver s r bank fails (some m) = match u'.mem.marches.find? fun m => m.ref == r with
        | some y => if y.todo.isEmpty && y.run.isEmpty then (u'.marchDone y).marchSweep else u'.marchSweep
        | none => u' := by
      rw [← hu]
      rfl
    rw [hover, hy]
    exact ite_of_iff (by rw [Bool.and_eq_true, List.isEmpty_iff, List.isEmpty_iff]) _ _
  case lbistEnd =>
    intro target index sig wrErr l hfind w st u
    have hw : (if !(l.addr != 0) then s else if wrErr then s.emit (.hostUndefined l.addr 16) else s.emit (.hostWrite l.addr (leBytes 16 sig.toNat)) : State) = w :=
      ite_of_iff (by rw [Bool.not_eq_true', bne_eq_false_iff_eq]) _ _
    have hst : (if (l.addr != 0) && wrErr then .busErr else if sig = lbistSig target then .ok else .hwFault : Status) = st :=
      ite_of_iff (by rw [Bool.and_eq_true, bne_iff_ne]) _ _
    have hover : exec (.lbistEnd target index sig wrErr) s = .next (match lentPath u target index with
        | some q => (State.pathBegin { u with mem := { u.mem with lbist := u.mem.lbist.map fun (x : Lbist) => if x.ref = l.ref then { x with result := some (st, sig.extractLsb' 0 32) } else x } } q .standby none).lbistSweep
        | none => (State.complete { u with mem := { u.mem with lbist := u.mem.lbist.filter fun x => x.ref != l.ref } } l.ref st (sig.extractLsb' 0 32)).lbistSweep) := by
      refine (execLbistEnd_over ..).trans (congrArg Host.Outcome.next ((congrArg (lbistOver s target index sig wrErr) hfind).trans ?_))
      unfold lbistOver
      dsimp only
      rw [hw, hst]
    refine ⟨fun hlent => hover.trans ?_, fun q ht hq hlent => hover.trans ?_⟩
    · rw [lentPath_none hlent]
    · subst ht hq
      rw [lentPath_some hlent]
  case errors =>
    intro b row hlive hb hrow
    refine ⟨congrArg Host.Outcome.next ((if_pos hlive).trans (corrected_ok hb hrow)), fun what cmd => congrArg Host.Outcome.next (if_neg ?_)⟩
    rw [hlive, decide_eq_false (Nat.not_lt.mpr hb), decide_eq_false (Nat.not_le.mpr hrow)]
    decide
  case patrol =>
    intro errs hlive hdue
    refine congrArg Host.Outcome.next (if_pos ?_)
    rw [hlive, decide_eq_true hdue]
    rfl
  case retirement => rfl
  case powerUp =>
    intro fails hcold hstage hready
    refine congrArg Host.Outcome.next (if_neg ?_)
    rw [hready]
    rintro (h | h | h)
    · exact h hcold
    · exact h hstage
    · exact Bool.false_ne_true h

end

section
/-! Boot verification, image loads, rollback floors, identity and attestation (R547 to R560, R569). -/

namespace Sys2Proof.Laws

open Sys2Proof Sys2Proof.Machine Sys2Proof.Claims

variable {s : State} {c : Cmd} {x : Slot}

/-- The boot with the outcome `g` of the second pair of images. -/
def bootSecond (g : Option (Fin 6) × State) : State :=
  match g.1 with
  | none => { g.2 with sec := { g.2.sec with recovery := true }, pwr := { g.2.pwr with bootStage := 4 } }
  | some j =>
    let w : State := { g.2 with sec := { g.2.sec with farB := j == 3, mFar := g.2.slotMeasure j, recovery := false } }
    let w := (w.bootKernel false).bootKernel true
    { w with pwr := { w.pwr with bootStage := 5 } }

/-- The boot with the outcome `f` of the first pair of images. -/
def bootFirst (f : Option (Fin 6) × State) : State :=
  match f.1 with
  | none => { f.2 with sec := { f.2.sec with recovery := true }, pwr := { f.2.pwr with bootStage := 4 } }
  | some i =>
    let v : State := { f.2 with sec := { f.2.sec with fwB := i == 1, mFw := f.2.slotMeasure i } }
    bootSecond (v.bootPair 2 2 3 v.tack.farPrefB)

theorem bootFirst_none {f : Option (Fin 6) × State} (h : f.1 = none) :
    bootFirst f = { f.2 with sec := { f.2.sec with recovery := true }, pwr := { f.2.pwr with bootStage := 4 } } := by
  unfold bootFirst
  rw [h]

theorem bootFirst_some {f : Option (Fin 6) × State} {i : Fin 6} (h : f.1 = some i) : bootFirst f =
    let v : State := { f.2 with sec := { f.2.sec with fwB := i == 1, mFw := f.2.slotMeasure i } }
    bootSecond (v.bootPair 2 2 3 v.tack.farPrefB) := by
  unfold bootFirst
  rw [h]

theorem bootSecond_none {g : Option (Fin 6) × State} (h : g.1 = none) :
    bootSecond g = { g.2 with sec := { g.2.sec with recovery := true }, pwr := { g.2.pwr with bootStage := 4 } } := by
  unfold bootSecond
  rw [h]

theorem bootSecond_some {g : Option (Fin 6) × State} {j : Fin 6} (h : g.1 = some j) : bootSecond g =
    let w : State := { g.2 with sec := { g.2.sec with farB := j == 3, mFar := g.2.slotMeasure j, recovery := false } }
    let w := (w.bootKernel false).bootKernel true
    { w with pwr := { w.pwr with bootStage := 5 } } := by
  unfold bootSecond
  rw [h]

theorem execBootImageVerify_due (htest : s.pkg.testMode = false) (hstage : s.pwr.bootStage = 3) :
    exec .bootImageVerify s = .next (let u : State := { s with sec := { s.sec with rerun := false } }; bootFirst (u.bootPair 1 0 1 u.tack.fwPrefB)) := by
  refine congrArg Host.Outcome.next ((if_neg ?_).trans ?_)
  · rw [htest, hstage]
    exact Bool.false_ne_true
  · unfold bootFirst bootSecond
    rfl

/-- A command that recovery admits runs in it as well. -/
theorem imageLoad_cmd (hslot : s.slot? c.ref = some x) (hst : x.stage = .started) (hop : x.opcode = 0x98) (hentry : entryOk x.entry x.payload = true) (f : Slot → State) :
    s.hostCmd c 0x98 anyOp f = f x := by
  simp [State.hostCmd, hslot, hst, hop, hentry, anyOp]

/-- An image load with the outcome of its checks. -/
def loadEnd (s : State) (c : Cmd) (t : Nat) (b : Bytes) : Option Nat → State
  | some cause => (s.verifyFail t cause).complete c.ref .authFail
  | none =>
    let slot := s.loadSlot t
    let pref : TackRec := .preferred (t == 1) (slot % 2 == 1)
    let u := (((s.putImage slot b).tackPut 3 pref).tackPut 4 pref (some c.ref)).finish c.ref .ok
    { u with sec := { u.sec with rerun := u.sec.recovery, slotBad := u.sec.slotBad &&& ~~~((1 : BitVec 6) <<< slot) } }

/-- An image load whose arguments are good, with the data read. -/
def loadData (s : State) (c : Cmd) (x : Slot) : Option Bytes → State
  | none => s.complete c.ref .busErr
  | some b => loadEnd s c (pf x.payload 0 0 2).toNat b (s.verify b (pf x.payload 0 0 2).toNat (pf x.payload 16 0 32).toNat s.tack.readOnly)

theorem execSecImageLoad_checked (hslot : s.slot? c.ref = some x) (hst : x.stage = .started) (hop : x.opcode = 0x98)
    (hentry : entryOk x.entry x.payload = true) (ht : (pf x.payload 0 0 2).toNat = 1 ∨ (pf x.payload 0 0 2).toNat = 2) (hzero : pf x.payload 8 0 6 = 0)
    (hbusy : s.busyOps c.ref [0x98, 0x99] = false) : exec (.secImageLoad c) s = .next (loadData s c x c.data) := by
  refine congrArg Host.Outcome.next ((imageLoad_cmd hslot hst hop hentry _).trans ((if_neg ?_).trans ((if_neg ?_).trans ?_)))
  · rw [pf_low (by decide), hzero]
    rcases ht with ht | ht <;> rw [ht] <;> decide
  · rw [hbusy]
    exact Bool.false_ne_true
  · unfold loadData loadEnd
    rfl

/-- The image slots whose floor a counter is. -/
def slotsOf (i : Fin 4) : List (Fin 6) := match i.val with | 0 => [0, 1] | 1 => [2, 3] | 2 => [4, 5] | _ => [0, 1, 2, 3, 4, 5]

theorem slotsOf_mem : ∀ i : Fin 4, ∀ k ∈ slotsOf i, i = 3 ∨ k.val / 2 = i.val := by decide

theorem execSecRollbackCommit_checked (hx : Served s c 0x99 x) :
    let i : Fin 4 := (pf x.payload 0 0 2).toFin
    let v : BitVec 32 := pf x.payload 4 0 32
    ¬ v < s.tack.svn[i] → (i = 3 → v.toNat ≤ 3) → s.busyOps c.ref [0x98, 0x78] = false →
    (∀ k : Fin 6, (i = 3 ∨ k.val / 2 = i.val) → ∀ y, s.tack.images[k] = some y → v.toNat ≤ (if i = 3 then y.key else y.svn)) →
    exec (.secRollbackCommit c) s = .next (if v = s.tack.svn[i] then s.finish c.ref .ok
      else ((s.tackPut 3 (.rollback i.val v)).tackPut 4 (.rollback i.val v) (some c.ref)).finish c.ref .ok) := by
  intro i v hlow htop hbusy hfloor
  refine congrArg Host.Outcome.next ((served_cmd hx _ _ rfl).trans ((if_neg ?_).trans (if_neg ?_)))
  · rintro (h | ⟨hi, hv⟩)
    · exact hlow h
    · exact Nat.not_lt.mpr (htop hi) hv
  · rw [hbusy, Bool.or_false]
    refine any_not fun k hk => ?_
    cases himg : s.tack.images[k] with
    | none => rfl
    | some y => exact decide_eq_false (Nat.not_lt.mpr (hfloor k (slotsOf_mem i k hk) y himg))

theorem deliver_eq (s : State) (c : Cmd) (addr : BitVec 64) (b : Bytes) : s.deliver c addr b = delivered s c addr b := rfl

/-- An attestation report, signed with the key `k`. -/
def attested (v : State) (c : Cmd) (p : BitVec 320) (k : Bytes × Bytes) : State :=
  let r := v.report (leBytes 32 (pf p 0 0 256).toNat) k.1
  let rnd := r.2.takeBytes 32
  delivered rnd.2 c (pf p 32 0 64) (r.1 ++ Config.mldsaSign k.2 (Config.sha3 r.1) ctxAtt rnd.1)

theorem attested_signed (v : State) (c : Cmd) (p : BitVec 320) (k : Bytes × Bytes) :
    let r := v.report (leBytes 32 (pf p 0 0 256).toNat) k.1
    ∃ rnd : Bytes, attested v c p k = delivered { r.2 with free := r.2.free + 1 } c (pf p 32 0 64) (r.1 ++ Config.mldsaSign k.2 (Config.sha3 r.1) ctxAtt rnd) :=
  ⟨_, rfl⟩

theorem execSecAttest_sends {k : Bytes × Bytes} {n : BitVec 1} {v : State} (hx : Served s c 0x9A x)
    (hv : (if (pf x.payload 32 0 64).extractLsb' 0 3 = 0 then ((0 : BitVec 1), s) else s.takeFree 1) = (n, v)) (hn : ¬ n = 1) (hpub : v.tack.pub = some k) :
    exec (.secAttest c) s = .next (attested v c x.payload k) := by
  refine congrArg Host.Outcome.next ((served_cmd hx _ _ rfl).trans ?_)
  dsimp only
  rw [hv]
  refine (if_neg hn).trans ?_
  dsimp only
  rw [hpub]
  exact deliver_eq ..

end Sys2Proof.Laws

open Sys2Proof Sys2Proof.Machine Sys2Proof.Claims Sys2Proof.Laws

/-- Settles O55: the boot by the outcome of each pair of images, each command by its checks. -/
theorem bootAndIdentity : Obligations.BootAndIdentity := by
  intro s
  refine ⟨?boot, ?commands⟩
  case boot =>
    intro htest hstage u f
    have hrun := execBootImageVerify_due htest hstage
    refine ⟨fun hf => hrun.trans (congrArg Host.Outcome.next (bootFirst_none hf)), fun i hf => ?_⟩
    intro v g
    have hrun₂ := hrun.trans (congrArg Host.Outcome.next (bootFirst_some hf))
    refine ⟨fun hg => hrun₂.trans (congrArg Host.Outcome.next (bootSecond_none hg)), fun j hg => (hrun₂.trans (congrArg Host.Outcome.next (bootSecond_some hg))).trans ?_⟩
    dsimp only [v, g]
  case commands =>
    intro c x b p
    refine ⟨?imageLoad, ?rollback, ?provision, ?certStore, ?idRead, ?attest⟩
    case imageLoad =>
      intro hslot hst hop hentry hdata t ht hzero hbusy
      have hrun := (execSecImageLoad_checked hslot hst hop hentry ht hzero hbusy).trans (congrArg (fun o => Host.Outcome.next (loadData s c x o)) hdata)
      exact ⟨fun hver => hrun.trans (congrArg (fun o => Host.Outcome.next (loadEnd s c t b o)) hver),
        fun k hver => hrun.trans (congrArg (fun o => Host.Outcome.next (loadEnd s c t b o)) hver)⟩
    case rollback =>
      intro hx i v hlow htop hbusy hfloor
      have hrun := execSecRollbackCommit_checked hx hlow htop hbusy hfloor
      exact ⟨fun h => hrun.trans (congrArg Host.Outcome.next (if_pos h)), fun h => hrun.trans (congrArg Host.Outcome.next (if_neg h))⟩
    case provision =>
      intro hx halign hpub hqueue hmode
      refine ⟨Config.freeBytes 32 s.free, congrArg Host.Outcome.next ((served_cmd hx _ _ rfl).trans ((if_neg (not_not_intro halign)).trans ((if_neg ?_).trans ((if_neg Bool.false_ne_true).trans (deliver_eq ..)))))⟩
      have hwhen : (s.mode.cur == .bringup || s.mode.cur == .calibrate) = true := by
        rw [Bool.or_eq_true, beq_iff_eq, beq_iff_eq]
        exact hmode
      rw [hpub, hwhen, Option.isSome_none, Bool.false_or, Bool.not_true, Bool.or_false]
      refine any_not fun w hw => ?_
      split
      next a k heq => exact absurd heq (hqueue w hw a k)
      next => rfl
    case certStore =>
      intro hx hdata hne hle hpub hcert hqueue
      refine congrArg Host.Outcome.next ((served_cmd hx _ _ rfl).trans ((if_neg ?_).trans ((if_neg ?_).trans ?_)))
      · exact not_or.mpr ⟨fun h => hne (BitVec.eq_of_toNat_eq h), Nat.not_lt.mpr hle⟩
      · have hsome : s.tack.pub.isNone = false := Bool.eq_false_iff.mpr (isNone_not (Option.isSome_iff_ne_none.mpr hpub))
        rw [hcert, hsome, Option.isSome_none, Bool.false_or, Bool.false_or]
        refine any_not fun w hw => ?_
        split
        next k heq => exact absurd heq (hqueue w hw k)
        next => rfl
      · rw [hdata]
    case idRead =>
      intro k hx hpub cert
      refine congrArg Host.Outcome.next ((served_cmd hx _ _ rfl).trans ?_)
      dsimp only
      rw [hpub]
      rfl
    case attest =>
      intro k hx hpub sent u
      by_cases halign : (pf p 32 0 64 : BitVec 64).extractLsb' 0 3 = 0
      · exact ⟨_, execSecAttest_sends hx (if_pos halign) (by decide) hpub, fun _ => attested_signed .., fun h => absurd halign h⟩
      · by_cases hrefuse : (s.takeFree 1).1 = 1
        · refine ⟨_, congrArg Host.Outcome.next ((served_cmd hx _ _ rfl).trans ?_), fun h => absurd h halign, fun _ => Or.inl rfl⟩
          dsimp only
          rw [if_neg halign]
          exact if_pos hrefuse
        · exact ⟨_, execSecAttest_sends (n := (s.takeFree 1).1) (v := u) hx (if_neg halign) hrefuse hpub, fun h => absurd h halign, fun _ => Or.inr (attested_signed ..)⟩

end
